-- ==== Sys2Proof/Word.lean ====
section
/-!
DEFINITION. The words of Vararn (R5): a word is 32 bits, every multi-byte field is little-endian.
Only the types stand here; the operations on them are in Machine/Bits.lean and Machine/Table.lean.
-/

namespace Sys2Proof

/-- One byte. -/
abbrev Byte := BitVec 8

/-- A word is 32 bits (R5). -/
abbrev Word := BitVec 32

/-- A 64-bit field or register. -/
abbrev DWord := BitVec 64

/-- A SHA-384 value: digests of images, records, manifests and key blocks (R9, R96, R312, R325). -/
abbrev Digest := BitVec 384

/-- The payload of a vector lane: 512 bits, byte 0 in bits [7:0] (R73, R5). -/
abbrev Vec := BitVec 512

/-- The 32 lanes of 32 bits of a vector stage, lane 0 lowest (R45). -/
abbrev Lanes := BitVec 1024

/-- A sparse table: key and value pairs with keys strictly rising and no value equal to the table's default. -/
abbrev Tab (α : Type) := List (Nat × α)

end Sys2Proof
end

