-- ==== Sys2Proof/Config.lean ====
section
/-!
DEFINITION. What is fixed for the module, and the free values: what the manual leaves open is an uninterpreted constant here.
-/

namespace Sys2Proof.Config

/-! ### Figures of the manual -/

/-- Queues of the host interface (R263). -/
abbrev queues : Nat := 1024
/-- MSI-X vectors: 1,024 for queues and four device vectors (R268). -/
abbrev vectors : Nat := 1028
/-- Entries of the request table (R280). -/
abbrev requests : Nat := 4096
/-- Entries of an input FIFO, and so the credits of a thread for each destination (R57, R81). -/
def fifoDepth : Nat := 8
/-- Sections a field's sequencer holds (R108). -/
def seqDepth : Nat := 8
/-- Images the skein cache holds (R105). -/
def cacheImages : Nat := 1024
/-- Models the store holds (R328). -/
def storeModels : Nat := 1024
/-- Comet handles run from 1 to 2^20 - 1 (R313). -/
def cometHandles : Nat := 1048576
/-- Entries of the history ring (R471). -/
def historyDepth : Nat := 64
/-- Trolas member number of Vararn (R96, R454). -/
def member : BitVec 16 := 0x0800#16
/-- The unassigned node ID (R346). -/
def unassignedNode : BitVec 20 := 0xFFFFF#20
/-- Bytes of the signature block: Ed25519, ML-DSA-65 and 19 zero bytes (R97). -/
def sigBytes : Nat := 3392
/-- The largest firmware bundle (R437). -/
def maxBundle : Nat := 100663296
/-- Memory repair records the repair map holds (R491). -/
def maxRepairs : Nat := 4000
/-- Bytes of one tier page frame (R189). -/
abbrev frame : Nat := 4096
/-- Bytes of an HBM4 stack: 48 GiB (R180). -/
abbrev stackBytes : Nat := 51539607552
/-- Bytes of MU SRAM: 1 MiB (R59). -/
abbrev sramBytes : Nat := 1048576
/-- First DVA reserved to the firmware in every field (R287). -/
def firmwareDva : Nat := 0xFE00000000000
/-- The batch block (R287). -/
def batchDva : Nat := 0xFFFFFD0000000
/-- The moon window (R210). -/
def moonDva : Nat := 0xFFFFFE0000000
/-- Bytes of a logits range slot of one configuration (R287). -/
def logitsStride : Nat := 0x1000000000

/-! ### Fixed for one module, not given by the manual -/

/-- The stepping the module reports: 0 A0, 1 A1, 2 B0 (R1, R454). No behaviour differs by it (R1). -/
opaque stepping : Fin 3
/-- Boot ROM version (R454, "Fixed"). -/
opaque romVersion : BitVec 8
/-- Kazsien's enterprise number (R451, R454, "Fixed"). -/
opaque vendorIana : BitVec 32
/-- Meter program version (R419). -/
opaque meterRomVersion : BitVec 8
/-- SHA-384 of the four bundle-signing key blocks in the ROM (R436). -/
opaque romKeyHash : Fin 4 → Digest

/-! ### Functions the manual names and defines elsewhere -/

/-- The module's Ed25519 signature with its DeviceID key (R310, R445). -/
opaque ed25519Sign : List Byte → List Byte
/-- The module's ML-DSA-65 signature with its DeviceID key (R310, R445). -/
opaque mldsaSign : List Byte → List Byte
/-- The meter's Ed25519 signature with its MeterID key (R428). -/
opaque meterEdSign : List Byte → List Byte
/-- The meter's ML-DSA-65 signature with its MeterID key (R428). -/
opaque meterMlSign : List Byte → List Byte
/-- The identity block that the PUF seed of this module yields (R310, R445). -/
opaque identityBlock : List Byte
/-- The meter's identity block (R428). -/
opaque meterIdentityBlock : List Byte
/-- The slot 0 DeviceID Ed25519 certificate chain of the record store (R447, R449). -/
opaque deviceChain : List Byte
/-- The ML-DSA-65 DeviceID chain of the record store (R447, R451). -/
opaque mldsaChain : List Byte
/-- Measurement 1: the digest of ROM_VERSION and stepping, whose byte layout the manual does not give (R450). -/
opaque romMeasurement : Digest
/-- Measurement 3: the digest of a version floor and a revoked-slot mask, whose byte layout the manual does not give (R450). -/
opaque floorMeasurement : Nat → BitVec 4 → Digest
/-- The transcript hash that SPDM 1.3 defines for the n-th signed exchange (R451): the standard's message framing is not in the manual. -/
opaque spdmTranscript : Nat → Digest
/-- Bytes of one chunk of a large SPDM response: the manual gives no size (R449). -/
opaque spdmChunk : Nat

/-! ### Results inside a stated error bound (R125, R139, R142): Kazsien's published reference model fixes them -/

/-- EXP2 on finite FP32 bits (R139). -/
opaque exp2Finite : BitVec 32 → BitVec 32
/-- EXP2 of m × 2^e where FP32 does not hold it (R219). -/
opaque exp2Exact : Nat → Int → BitVec 32
/-- LOG2 on positive finite FP32 bits (R139). -/
opaque log2Finite : BitVec 32 → BitVec 32
/-- RSQRT on positive finite FP32 bits (R139). -/
opaque rsqrtFinite : BitVec 32 → BitVec 32
/-- RECIP on finite non-zero FP32 bits (R139). -/
opaque recipFinite : BitVec 32 → BitVec 32
/-- SiLU, GELU, sigmoid and tanh of the activation units, by PARAM 2 to 5 (R141, R142). -/
opaque actFinite : Nat → BitVec 32 → BitVec 32

/-- The code of element i of a quantised block whose scale byte is 0xFF, by PARAM and the block's codes: the manual gives the scale byte only (R143). -/
opaque nanBlock : Nat → List Nat → Nat → BitVec 8

/-! ### Free values: the manual says some value results and not which -/

/-- Whether the 16-bit addends of an accumulating context are FP16, and the least significant bit of its 64-bit ones, by unit and context, where the
words of the skein do not say (R63, R145). -/
opaque addendFp16 : Nat → Bool
opaque addendLsb : Nat → Int
/-- The FP32 value of an addend of a width that R63 does not list, by unit and context and its bits. -/
opaque addendOther : Nat → Nat → BitVec 32
/-- A fresh byte for contents the manual calls undefined (R122, R303). -/
opaque freeByte : Nat → Byte
/-- Which of the values that a window line has had since the last FENCE a device read sees (R258): 0 for the newest. -/
opaque staleChoice : Nat → Nat → Nat
/-- A fresh 64-bit value where the manual states no result for an operand. -/
opaque freeWord : Nat → BitVec 64
/-- Whether the firmware reserves still hold a release-form park record (R191): what else lies in them the manual sizes "as needed". -/
opaque reserveHolds : Nat → Bool
/-- The code lengths PACK's deterministic encoder gives to the bytes of a block (R225). -/
opaque packLengths : List Byte → List Nat
/-- The channel of a stack's 64-byte line (R180, R364): the manual does not give the mapping. -/
opaque hbmChannel : Nat → Fin 32
/-- The pseudo-channel of a stack's line, or the subchannel of a channel's (R491): the manual does not give the mapping. -/
opaque lineSub : Bool → Nat → BitVec 8
/-- The device of a DDR5 subchannel that supplies code byte j of a line (R198): eight bytes come from each of the ten, in an order the manual does not
give. -/
opaque codeDevice : Nat → Fin 10
/-- The device that the fault manager finds failed and marks on an uncorrectable DDR5 line, or none (R198, R490): the manual gives no test. -/
opaque failedDevice : Nat → Option (Fin 10)
/-- DVA at which the firmware keeps the prompt copy of a request-table entry (R286, R287): the manual gives no place. -/
opaque promptDva : Nat → BitVec 64
/-- The repair outcome of a pending memory record, by stack or channel and line (R489, R490): true when a resource was left. -/
opaque repairWorks : Nat → Nat → Bool

end Sys2Proof.Config
end

