-- ==== Sys2Proof/Syntax.lean ====
section
/-!
DEFINITION. The commands of Vararn: one constructor of Instr for each row of spec/opcode_table.json, in the table's order, with the
records their operands are made of. A field that the host writes keeps its width as a BitVec; an index of a hardware resource is a Fin.
What the module reads of host memory, and what its surroundings decide, is an operand.
-/

namespace Sys2Proof

/-! ### Indices -/

/-- A queue, 0 to 1,023 (R263). -/
abbrev QId := Fin 1024
/-- A field number, that of its lowest band (R16). -/
abbrev FieldId := Fin 4
/-- A band, array die b (R15). -/
abbrev BandId := Fin 4
/-- A context slot (R58). -/
abbrev SlotId := Fin 4
/-- An HBM4 stack (R15). -/
abbrev StackId := Fin 16
/-- A DDR5 channel (R15). -/
abbrev ChanId := Fin 16
/-- A fabric link: X+, X-, Y+, Y-, Z+, Z- (R362). -/
abbrev LinkId := Fin 6
/-- A request-table index (R280). -/
abbrev ReqId := Fin 4096
/-- A serving configuration (R283). -/
abbrev ConfId := Fin 256

/-- A logical tile of the module's grid: 40 rows of 40 columns (R15, R44). -/
structure Tile where
  row : Fin 40
  col : Fin 40
  deriving DecidableEq, Repr

/-- A management bus (R28). -/
inductive Bus where
  | a | b
  deriving DecidableEq, Repr

/-! ### Status codes (R9) -/

/-- The status codes of R9. -/
inductive Status where
  | ok | okEmpty
  | shapeExceedsPlan | badAlignment | bufferTooSmall | countMismatch | pathUnbalanced | accumOverCapacity
  | noPlacement | slotConflict | signatureFail | digestFail | profileMismatch
  | cancelled | alreadyDone | parked | stallDetected
  | capLag
  | fencedUnit | linkDown | quarantinedShard | deviceFatal
  deriving DecidableEq, Repr

/-! ### Descriptors (R270 to R272, R284, R317, R359) -/

/-- The common bytes of a descriptor (R270). -/
structure DescHdr where
  irqNow : Bool
  seq : BitVec 16
  tag : BitVec 8
  cls : BitVec 6
  mark : BitVec 64
  deriving DecidableEq, Repr

/-- The opcodes of R271. -/
inductive Opcode where
  | nop | fence | timeMark | copy | loadSkein | runSection | moonLoad | weightLoad
  | requestSubmit | requestCancel | park | resume | kvShip
  deriving DecidableEq, Repr

/-- COPY fields (R272, R359). -/
structure CopyDesc where
  srcAddr : BitVec 64
  dstAddr : BitVec 64
  length : BitVec 48
  srcPlace : BitVec 2
  dstPlace : BitVec 2
  field : FieldId
  targetSq : QId
  targetSeq : BitVec 16
  edgePort : Fin 16
  anchor : BitVec 12
  op : Bool
  inFmt : BitVec 2
  outFmt : BitVec 2
  group : BitVec 8
  deriving DecidableEq, Repr

/-- LOAD_SKEIN and MOON_LOAD fields (R272). -/
structure LoadDesc where
  imageAddr : BitVec 64
  imageBytes : BitVec 32
  srcPlace : BitVec 2
  field : FieldId
  slot : SlotId
  progIndex : Fin 16
  reportAddr : BitVec 64
  stackMask : BitVec 16
  abort : Bool
  deriving DecidableEq, Repr

/-- RUN_SECTION fields (R272). -/
structure RunDesc where
  field : FieldId
  slot : SlotId
  idleEn : Bool
  nscalars : BitVec 5
  watchdog : BitVec 16
  idleLimit : BitVec 40
  blockAddr : BitVec 64
  scalars : List (BitVec 24)
  deriving DecidableEq, Repr

/-- WEIGHT_LOAD fields (R272). -/
structure WeightDesc where
  manifestAddr : BitVec 64
  manifestBytes : BitVec 32
  srcPlace : BitVec 2
  dest : Bool
  field : FieldId
  shardAddr : BitVec 64
  shardFirst : BitVec 32
  shardCount : BitVec 32
  deriving DecidableEq, Repr

/-- REQUEST_SUBMIT fields and flags (R272, R284). -/
structure SubmitDesc where
  promptAddr : BitVec 64
  promptTokens : BitVec 32
  maxNew : BitVec 32
  outputAddr : BitVec 64
  rngSeed : BitVec 64
  deadline : BitVec 32
  parkLimit : BitVec 32
  config : BitVec 32
  noDeadline : Bool
  parkEn : Bool
  retain : Bool
  awaitKv : Bool
  prefillOnly : Bool
  deriving DecidableEq, Repr

/-- PARK fields and flags (R272). -/
structure ParkDesc where
  targetSq : QId
  targetSeq : BitVec 16
  destAddr : BitVec 64
  destBytes : BitVec 64
  destPlace : BitVec 2
  destNode : BitVec 20
  scan : Bool
  release : Bool
  deriving DecidableEq, Repr

/-- RESUME fields and flags (R272, R317). -/
structure ResumeDesc where
  field : FieldId
  srcPlace : Bool
  source : BitVec 64
  sourceBytes : BitVec 64
  outAddr : BitVec 64
  config : BitVec 8
  deadline : BitVec 32
  parkLimit : BitVec 32
  noDeadline : Bool
  parkEn : Bool
  retain : Bool
  deriving DecidableEq, Repr

/-- KV_SHIP fields (R272, R300). -/
structure ShipDesc where
  targetSq : QId
  targetSeq : BitVec 16
  firstPage : BitVec 32
  pageCount : BitVec 32
  destNode : BitVec 20
  destField : FieldId
  destReq : BitVec 12
  release : Bool
  deriving DecidableEq, Repr

/-! ### Skein images (R96 to R103, R154 to R162) -/

/-- What the signature units report on one image: the two verifications of R97. -/
structure SigCheck where
  ed : Bool
  ml : Bool
  deriving DecidableEq, Repr

/-- A counter's configuration (R53, R99). -/
structure CounterCfg where
  enable : Bool
  start : Nat
  startSrc : Nat
  bound : Nat
  boundSrc : Nat
  stride : Int
  adv : Nat
  advIn : Nat
  doneOut : BitVec 4
  maxIter : Nat
  deriving DecidableEq, Repr

/-- A stream context's configuration (R66). -/
structure StreamCfg where
  kind : Nat
  gen : Nat
  port : Nat
  sramBase : Nat
  tierBase : Nat
  elem : Nat
  ext0 : Nat
  ext1 : Nat
  ext2 : Nat
  extSrc : Nat
  stride0 : Int
  stride1 : Int
  stride2 : Int
  indexSrc : Nat
  indexLimit : Nat
  reqBytes : Nat
  maxOut : Nat
  accFmt : Bool
  anchor : Int
  ringBytes : Nat
  deriving DecidableEq, Repr

/-- The control-port fields every context holds (R92). -/
structure CtlCfg where
  startWait : Bool
  selSi : List Nat
  fence : List (BitVec 6)
  doneSrc : List Nat
  doneDim : List Nat
  deriving DecidableEq, Repr

/-- A CU context: stage operation words, drain chain, matrix configuration (R131, R137, R140). -/
structure CuCfg where
  stages : List (BitVec 64)
  perms : List (List Nat)
  drain : BitVec 128
  mfmt : Nat
  matLsb : Int
  window : Nat
  spread : Nat
  slices : Nat
  consts : List (BitVec 32)
  deriving DecidableEq, Repr

/-- One unit of a skein: its tile within the field, its kind, where its context words and counter records lie, and its context (R98). -/
structure UnitCfg where
  row : Nat
  col : Nat
  kind : Nat
  ctxOff : Nat := 256
  ctxBytes : Nat
  ctrIndex : Nat := 0
  /-- its context words as bytes -/
  words : List Byte := []
  ctl : CtlCfg
  counters : List CounterCfg
  cu : CuCfg
  streams : List StreamCfg
  accBanks : Nat
  deriving DecidableEq, Repr

/-- A hop direction (R77, R100). -/
inductive Dir where
  | n | e | s | w
  deriving DecidableEq, Repr

/-- One branch of a route tree (R100). -/
structure Branch where
  parent : Nat
  forkHop : Nat
  hops : List Dir
  deriving DecidableEq, Repr

/-- A destination of a thread: tile within the field, or 63, 63 for an edge port (R77). -/
structure Dest where
  row : Nat
  col : Nat
  port : Nat
  deriving DecidableEq, Repr

/-- A thread table entry (R77, R100). -/
structure ThreadCfg where
  lane : Nat
  srcRow : Nat
  srcCol : Nat
  srcPort : Nat
  pred : Nat
  slots : BitVec 8
  ndest : Nat
  ncross : Nat
  entryBytes : Nat
  dests : List Dest
  xslots : List (BitVec 8)
  branches : List Branch
  deriving DecidableEq, Repr

/-- MAX_SHAPES entry (R155). -/
structure ShapeAxis where
  src : Nat
  scalar : Nat
  row : Nat
  col : Nat
  so : Nat
  max : Nat
  deriving DecidableEq, Repr

/-- BUFFER_EXTENTS entry (R156). -/
structure BufferExtent where
  base : Nat
  bytes : Nat
  row : Nat
  col : Nat
  ctx : Nat
  gated : Bool
  expert : Nat
  deriving DecidableEq, Repr

/-- PATH_BALANCE entry (R157). -/
structure JoinDecl where
  forkRow : Nat
  forkCol : Nat
  forkPort : Nat
  joinRow : Nat
  joinCol : Nat
  inA : Nat
  inB : Nat
  deriving DecidableEq, Repr

/-- ACCUM_TILES entry (R158). -/
structure AccumTiles where
  row : Nat
  col : Nat
  ctx : Nat
  nNeed : Nat
  deriving DecidableEq, Repr

/-- CYCLE_BOUND entry (R159). -/
structure TierShare where
  row : Nat
  col : Nat
  gTier : Nat
  deriving DecidableEq, Repr

/-- HANDOFF declaration (R102). -/
structure Handoff where
  base : Nat
  bytes : Nat
  dir : Nat
  row : Nat
  col : Nat
  deriving DecidableEq, Repr

/-- SPILL_AREA entry (R160). -/
structure SpillArea where
  base : Nat
  bytes : Nat
  row : Nat
  col : Nat
  ctx : Nat
  gSpill : Nat
  deriving DecidableEq, Repr

/-- SRAM_CLAIMS entry (R161). -/
structure SramClaim where
  row : Nat
  col : Nat
  kind : Nat
  base : Nat
  bytes : Nat
  deriving DecidableEq, Repr

/-- CAPACITY entry (R162). -/
structure CapacityDecl where
  base : Nat
  e : Nat
  deriving DecidableEq, Repr

/-- The typed entries of a loader metadata record (R102, R154). -/
inductive MetaBody where
  | maxShapes (l : List ShapeAxis)
  | bufferExtents (l : List BufferExtent)
  | pathBalance (l : List JoinDecl)
  | accumTiles (l : List AccumTiles)
  | cycleBound (claimed : Nat) (l : List TierShare)
  | handoff (l : List Handoff)
  | spillArea (l : List SpillArea)
  | sramClaims (l : List SramClaim)
  | capacity (l : List CapacityDecl)
  | unknown (type : Nat)
  deriving DecidableEq, Repr

/-- A loader metadata record with its declared length and count (R154). -/
structure MetaRec where
  bytes : Nat
  count : Nat
  body : MetaBody
  deriving DecidableEq, Repr

/-- An SRAM preload record (R103). -/
structure Preload where
  row : Nat
  col : Nat
  base : Nat
  data : List Byte
  deriving DecidableEq, Repr

/-- A moon program reference (R101). -/
structure MoonRef where
  digest : Digest
  index : Nat
  mask : BitVec 16
  deriving DecidableEq, Repr

/-- The header fields of a skein image (R96). -/
structure SkeinHeader where
  magic : BitVec 32
  format : BitVec 16
  headerBytes : BitVec 16
  member : BitVec 16
  bands : Nat
  twoLanes : Bool
  profile : List Nat
  imageBytes : BitVec 32
  sectionIndex : BitVec 32
  graphId : BitVec 64
  unitOff : Nat
  unitBytes : Nat
  ctrOff : Nat
  ctrBytes : Nat
  thrOff : Nat
  thrBytes : Nat
  moonOff : Nat
  moonCount : Nat
  metaOff : Nat
  metaBytes : Nat
  preOff : Nat
  preBytes : Nat
  sigOff : Nat
  signerId : BitVec 64
  bodyDigest : Digest
  deriving DecidableEq, Repr

/-- Bytes that the module reads of memory, by their offset from the first; an unlisted one is 0. -/
abbrev ReadBytes := Tab Byte

/-- A signature block (R97): its two signatures, the zero bytes after them, and the bytes that both signatures cover. -/
structure SignedBlock where
  ed : List Byte
  ml : List Byte
  pad : List Byte
  covers : List Byte
  deriving DecidableEq, Repr

/-- A skein image as the loader's copy holds it (R96, R105): its 256 header bytes, and what they and its tables spell. tablesEnd says that the
thread and preload tables end exactly where their last entry does (R104). headerHash and bodyHash are the digests of the header and of the body. -/
structure SkeinImage where
  head : List Byte
  hdr : SkeinHeader
  units : List UnitCfg
  threads : List ThreadCfg
  moons : List MoonRef
  recs : List MetaRec
  preloads : List Preload
  tablesEnd : Bool
  headerHash : Digest
  bodyHash : Digest
  deriving DecidableEq, Repr

/-! ### Moon images (R208, R216, R223) -/

/-- A parameter block by class (R216, R223). -/
inductive MoonParams where
  | attend (kvFmt dLog2 hKv group layers : Nat) (scale : BitVec 32) (anchor : Int)
  | table (base : BitVec 64) (rows : Nat) (rowLog2 : Nat)
  deriving DecidableEq, Repr

/-- A moon program image, with the SHA-384 of its bytes 0 to SIG_OFF - 1 (R208). -/
structure MoonImage where
  magic : BitVec 32
  format : BitVec 16
  cls : Nat
  codeBytes : Nat
  imageBytes : Nat
  signerId : BitVec 64
  params : MoonParams
  progHash : Digest
  deriving DecidableEq, Repr

/-! ### Manifests and shards (R325, R326) -/

/-- A shard entry (R326). -/
structure ShardEntry where
  bytes : Nat
  srcPage : Nat
  dva : Nat
  digest : Digest
  deriving DecidableEq, Repr

/-- A manifest as WEIGHT_LOAD finds it in host memory, with the verdicts on its signatures (R325, R330). -/
structure ManifestRead where
  bytes : ReadBytes
  sig : SigCheck
  deriving DecidableEq, Repr

/-- A manifest with its digests and the verdicts on its signatures (R325, R330). -/
structure Manifest where
  magic : BitVec 32
  format : BitVec 16
  headerBytes : BitVec 16
  shardCount : Nat
  entryBytes : BitVec 32
  modelBytes : Nat
  ownerId : BitVec 64
  sigOff : Nat
  entriesDigest : Digest
  shards : List ShardEntry
  entriesHash : Digest
  manifestHash : Digest
  sig : SigCheck
  deriving DecidableEq, Repr

/-! ### Firmware bundles and test tokens (R437, R438, R478) -/

/-- A part table entry, with the digest found while the part was copied (R438, R440). -/
structure BundlePart where
  type : Nat
  offset : Nat
  bytes : Nat
  digest : Digest
  found : Digest
  deriving DecidableEq, Repr

/-- What the boot ROM finds on a bundle: whether its key block matches the ROM's slot, and the verdicts on its signatures (R439). -/
structure BundleFound where
  keyHash : Digest
  sig : SigCheck
  deriving DecidableEq, Repr

/-- A firmware bundle as DOWNLOAD finds it in host memory (R439). -/
structure BundleRead where
  blockAddr : BitVec 64
  blockBytes : Nat
  bytes : ReadBytes
  found : BundleFound
  deriving DecidableEq, Repr

/-- A firmware bundle with what the boot ROM found on it (R437, R439). -/
structure Bundle where
  blockAddr : BitVec 64
  blockBytes : Nat
  magic : BitVec 32
  format : BitVec 16
  headerBytes : BitVec 16
  bundleBytes : Nat
  version : Nat
  floor : Nat
  steppings : BitVec 3
  keySlot : Fin 4
  revoke : BitVec 4
  partOff : Nat
  skeinKeysOff : Nat
  tableDigest : Digest
  sigOff : Nat
  parts : List BundlePart
  skeinKeys : List (BitVec 64)
  headerHash : Digest
  keyHash : Digest
  tableHash : Digest
  sig : SigCheck
  deriving DecidableEq, Repr

/-- A test token as TEST_UNLOCK finds it in host memory, with what was found on it (R478). -/
structure TokenRead where
  tokenBytes : BitVec 32
  tokenAddr : BitVec 64
  bytes : ReadBytes
  keyHash : Digest
  sig : SigCheck
  deriving DecidableEq, Repr

/-- A test token (R478). -/
structure TestToken where
  tokenBytes : BitVec 32
  tokenAddr : BitVec 64
  magic : BitVec 32
  format : BitVec 16
  headerBytes : BitVec 16
  keySlot : Fin 4
  scope : BitVec 3
  duration : BitVec 32
  identity : Digest
  nonce : BitVec 256
  keyHash : Digest
  sig : SigCheck
  deriving DecidableEq, Repr

/-! ### Comets (R307 to R312) -/

/-- The header fields of a comet (R308). -/
structure CometHeader where
  state : Nat
  awaitKv : Bool
  prefillOnly : Bool
  promptTokens : Nat
  maxNew : Nat
  tokens : Nat
  generated : Nat
  steps : Nat
  kvDone : Nat
  pages : Nat
  draftPages : Nat
  rngSeed : BitVec 64
  rngCounter : Nat
  skeinDigest : Digest
  manifestDigest : Digest
  bodyDigest : Digest
  bodyBytes : Nat
  pageBytes : Nat
  draftPageBytes : Nat
  keyId : BitVec 64
  deriving DecidableEq, Repr

/-- A page record of a comet: its head and its encoded blocks (R311). -/
structure CometPage where
  page : Nat
  column : Nat
  draft : Bool
  digest : Digest
  blocks : List (List Byte)
  deriving DecidableEq, Repr

/-- A comet (R307). -/
structure Comet where
  hdr : CometHeader
  identity : Digest
  tokens : List (BitVec 32)
  records : List CometPage
  /-- the digest of its body as it stands -/
  bodyFound : Digest
  deriving DecidableEq, Repr

/-- A comet as a RESUME reads it from host memory, with the verdicts on its signatures (R318). -/
structure CometRead where
  bytes : ReadBytes
  sig : SigCheck
  deriving DecidableEq, Repr

/-! ### Mailbox blocks -/

/-- MAP (R187, R262). -/
structure MapBlock where
  field : FieldId
  page : BitVec 2
  place : BitVec 2
  write : Bool
  demotable : Bool
  dva : BitVec 52
  bytes : BitVec 64
  windowOff : BitVec 64
  deriving DecidableEq, Repr

/-- UNMAP (R188, R262). -/
structure UnmapBlock where
  field : FieldId
  dva : BitVec 52
  bytes : BitVec 64
  deriving DecidableEq, Repr

/-- SERVE_MODE (R282). -/
structure ServeModeBlock where
  firmware : Bool
  rideMask : BitVec 64
  rideChunk : BitVec 16
  rideRows : BitVec 16
  sliceModules : BitVec 32
  deriving DecidableEq, Repr

/-- SERVE_CONFIG (R283). -/
structure ServeConfigBlock where
  index : ConfId
  valid : Bool
  field : FieldId
  prefillSlot : SlotId
  decodeSlot : SlotId
  maxContext : BitVec 32
  maxBatch : BitVec 16
  prefillTokens : BitVec 16
  attendProg : Fin 16
  draftConfig : BitVec 8
  vocab : BitVec 32
  eos : BitVec 32
  temp : BitVec 32
  topP : BitVec 32
  topK : BitVec 32
  branch : List (BitVec 8)
  manifestDigest : Digest
  deriving DecidableEq, Repr

/-- An expert map entry (R254). -/
structure ExpertEntry where
  expert : BitVec 16
  node : BitVec 20
  field : FieldId
  deriving DecidableEq, Repr

/-! ### Fabric packets (R347) -/

/-- A packet header (R347). -/
structure Packet where
  dest : BitVec 20
  src : BitVec 20
  kind : Nat
  routeDim : Nat
  hops : Nat
  tag : BitVec 8
  last : Bool
  transfer : BitVec 32
  offset : Nat
  arg0 : BitVec 8
  arg1 : BitVec 8
  arg2 : BitVec 16
  arg3 : BitVec 16
  payload : List Byte
  deriving DecidableEq, Repr

/-- A link flit's fields (R343). `good` is what the decoder and the CRC found (R342). -/
structure Flit where
  seq : BitVec 12
  ackSeq : BitVec 12
  tc : Fin 4
  vc : Bool
  ctrl : Bool
  nak : Bool
  sop : Bool
  credits : List Nat
  payload : List Byte
  corrected : Bool
  good : Bool
  deriving DecidableEq, Repr

/-! ### Array events -/

/-- What a unit does when it fires: the manual leaves the choice and the order to the context's schedule, which the command names. -/
inductive Firing where
  /-- The six vector stages take one set of inputs (R46, R137). -/
  | vector
  /-- The matrix engine takes one streamed vector on port vi with its scale words on the scalar inputs (R48). -/
  | matrixRow (vi : Fin 4) (scaleSi : List (Fin 4))
  /-- One vector of a weight tile, or of its scales, enters the shadow register from port vi (R51). -/
  | weight (vi : Fin 4)
  /-- The window closes and the next one takes the other bank (R49). -/
  | closeBank
  /-- One row of the closed bank passes the drain chain (R50, R141). -/
  | drainRow
  /-- One access of stream context c (R65). -/
  | stream (c : Fin 16)
  /-- A SELECT the context schedules on a control output at a level (R87). -/
  | select (co : Fin 4) (level : Nat)
  deriving DecidableEq, Repr

/-- A thread of a resident skein: field, slot and index in its thread table. -/
structure ThreadId where
  field : FieldId
  slot : SlotId
  index : Nat
  deriving DecidableEq, Repr

/-- An arbiter (R364). -/
inductive ArbId where
  | hbm (s : StackId) (ch : Fin 32)
  | ddr (c : ChanId)
  | muBank (t : Tile) (bank : Fin 32)
  | link (l : LinkId)
  | fetch
  | hash
  deriving DecidableEq, Repr

/-! ### Events whose outcome the surroundings decide -/

/-- What memory training, link training and the band self-tests of bring-up found (R180, R182, R435, R488). -/
structure Training where
  stacksOk : BitVec 16
  stacksRepaired : BitVec 16
  channelsOk : BitVec 16
  channelsSlow : BitVec 16
  dimmGib : List Nat
  dimmSerial : List (BitVec 64)
  pairsFailing : List (BitVec 22)
  linksUp : BitVec 6
  partsOk : Bool
  deriving DecidableEq, Repr

/-- A detection as the fault manager or the management controller receives it (R468). -/
structure Detection where
  detector : BitVec 8
  island : BitVec 8
  loc : BitVec 64
  cycles : BitVec 64
  deriving DecidableEq, Repr

/-- One shard's inline hash or swap-in outcome (R332). -/
structure ShardRead where
  data : List Byte
  hash : Digest
  uncorrectable : Bool
  deriving DecidableEq, Repr

/-- What a scrubber found on the line it read (R201, R202). -/
inductive ScrubFind where
  | clean | corrected (overwritten : Bool) | uncorrectable
  deriving DecidableEq, Repr

/-- The place of a scrubbed line (R201). -/
inductive ScrubPlace where
  | hbm (s : StackId) (line : Nat)
  | ddr (c : ChanId) (line : Nat)
  | sram (t : Tile) (line : Nat)
  deriving DecidableEq, Repr

/-- How a tier request ended (R193, R199). -/
inductive TierEnd where
  | done | corrected | uncorrectable
  deriving DecidableEq, Repr

/-- The time mark message of R422, with what the meter's verification finds (R423). -/
structure TimeMark where
  mark : BitVec 64
  keyId : BitVec 64
  sig : SigCheck
  deriving DecidableEq, Repr

/-- A connection of the SPDM responder: DOE for the host, MCTP on a bus for a manager (R449). -/
inductive SpdmConn where
  | doe | bus (b : Bus)
  deriving DecidableEq, Repr

/-- The seal and the mesh (R426, R429). -/
inductive SealEvent where
  | opened | closed | meshBreak
  deriving DecidableEq, Repr

/-- One commit of a request in a step: the tokens the sampler chose and the accepted nodes (R297, R302). -/
structure Commit where
  req : ReqId
  tokens : List (BitVec 32)
  nodes : List Nat
  deriving DecidableEq, Repr

/-- The commands. -/
inductive Instr where
  | nop (q : QId) (h : DescHdr)
  | fence (q : QId) (h : DescHdr) (allQueues : Bool)
  | timeMark (q : QId) (h : DescHdr)
  | copy (q : QId) (h : DescHdr) (d : CopyDesc) (data : List Byte)
  | copyCollective (q : QId) (h : DescHdr) (d : CopyDesc)
  | loadSkein (q : QId) (h : DescHdr) (d : LoadDesc) (img : ReadBytes)
  | runSection (q : QId) (h : DescHdr) (d : RunDesc) (block : List (BitVec 32))
  | moonLoad (q : QId) (h : DescHdr) (d : LoadDesc) (img : ReadBytes)
  | weightLoad (q : QId) (h : DescHdr) (d : WeightDesc) (m : ManifestRead)
  | requestSubmit (q : QId) (h : DescHdr) (d : SubmitDesc) (prompt : List (BitVec 32))
  | requestCancel (q : QId) (h : DescHdr) (targetSq : QId) (targetSeq : BitVec 16)
  | parkSection (q : QId) (h : DescHdr) (d : ParkDesc)
  | parkRequest (q : QId) (h : DescHdr) (d : ParkDesc)
  | resumeParkRecord (q : QId) (h : DescHdr) (d : ResumeDesc)
  | resumeDiscard (q : QId) (h : DescHdr) (d : ResumeDesc)
  | resumeComet (q : QId) (h : DescHdr) (d : ResumeDesc) (c : CometRead)
  | kvShip (q : QId) (h : DescHdr) (d : ShipDesc)
  | descriptorFetchBurst (q : QId) (descs : List (List Byte))
  | sqTail (q : QId) (v : BitVec 32)
  | cqHead (q : QId) (v : BitVec 32)
  | queueEnable (q : QId) (w : BitVec 32)
  | queueDisable (q : QId)
  | qcfgErrClear (q : QId) (w : BitVec 32)
  | irqEnClear (q : QId)
  | coalTimerExpiry (q : QId)
  | msixUnmask (v : Fin 1028)
  | cxlPortDown (port : Fin 2)
  | cxlPortUp (port : Fin 2) (lanes : Nat) (slow : Bool) (twoPorts : Bool)
  | cxlMemRead (line : BitVec 36)
  | cxlMemWrite (line : BitVec 36) (data : Vec)
  | download (b : BundleRead)
  | bringupReady (t : Training)
  | map (b : MapBlock)
  | unmap (b : UnmapBlock)
  | serveMode (b : ServeModeBlock)
  | serveConfig (b : ServeConfigBlock)
  | expertMap (config : BitVec 8) (count : BitVec 32) (entries : List ExpertEntry)
  | retainedFree (req : BitVec 16)
  | retainedPack (req : BitVec 16)
  | cometTrust (count : BitVec 32) (digests : List Digest)
  | modelOwners (count : BitVec 32) (blocks : ReadBytes)
  | modelDrop (digest : Digest)
  | collGroup (group : BitVec 8) (valid : Bool) (p : BitVec 32) (nodes : List (BitVec 20)) (joinWait : BitVec 32)
  | fieldLayout (join : BitVec 8) (use : BitVec 8)
  | placeGroup (group : BitVec 8) (count : BitVec 8) (members : List ConfId)
  | fieldWake (f : FieldId)
  | fieldSleep (f : FieldId)
  | fieldReset (f : FieldId)
  | testNonce (nonce : BitVec 256)
  | testUnlock (t : TokenRead)
  | testLock
  | selfTest (f : FieldId) (resultAddr : BitVec 64) (failing : List Tile)
  | setupDone
  | bootResetWarm (reverified : Bool)
  | commit
  | routingBankSwap
  | linkEnable (l : LinkId) (v : Bool)
  | retrain (l : LinkId)
  | nodeId (w : BitVec 32)
  | replayGo (w : BitVec 32)
  | take
  | clear
  | testLinkMode (l : LinkId) (w : BitVec 32)
  | testLinkClear (l : LinkId)
  | testMemStart (w : BitVec 32)
  | testMemDone (fails : Nat)
  | traceEnable (w : BitVec 32)
  | injectionArm (k : Fin 8) (w : BitVec 32)
  | registerWrite (addr : BitVec 24) (size : Nat) (value : BitVec 64)
  | heartbeat (bus : Bus) (active : Bool)
  | setCap (bus : Bus) (value : BitVec 16)
  | setOrphanCap (bus : Bus) (value : BitVec 16)
  | getStatus (bus : Bus)
  | meterMark (bus : Bus) (m : TimeMark)
  | warmReset (bus : Bus) (reverified : Bool)
  | fwOffer (bus : Bus) (bytes : BitVec 32)
  | fwData (bus : Bus) (offset : BitVec 32) (data : List Byte) (found : Option BundleFound)
  | fwReadTimeout
  | getVersion (c : SpdmConn)
  | getCapabilities (c : SpdmConn)
  | negotiateAlgorithms (c : SpdmConn) (ed25519 sha384 secp384r1 aes256gcm : Bool)
  | getDigests (c : SpdmConn)
  | getCertificate (c : SpdmConn) (slot : Nat) (offset : Nat) (length : Nat)
  | challenge (c : SpdmConn) (slot : Nat) (nonce : BitVec 256)
  | getMeasurements (c : SpdmConn) (index : Nat) (sign : Bool) (nonce : BitVec 256)
  | keyExchange (c : SpdmConn) (session : BitVec 16) (exchange : List Byte)
  | finish (c : SpdmConn) (session : BitVec 16) (macOk : Bool)
  | spdmHeartbeat (c : SpdmConn) (session : BitVec 16)
  | keyUpdate (c : SpdmConn) (session : BitVec 16) (op : Nat)
  | endSession (c : SpdmConn) (session : BitVec 16)
  | chunkSend (c : SpdmConn) (handle : BitVec 8) (number : Nat) (last : Bool) (data : List Byte)
  | chunkGet (c : SpdmConn) (handle : BitVec 8) (number : Nat)
  | cosign (c : SpdmConn) (what : BitVec 8)
  | getChain (c : SpdmConn) (offset : BitVec 32) (length : BitVec 32)
  | p56vContact
  | prechargeComplete
  | prechargeTimeout (reached44 : Bool)
  | pwrEnRise
  | pwrEnFall
  | removeOkRelease
  | attnN
  | flowOkFall
  | flowOkRise
  | flowCapLift
  | inputBelow50v (mv : BitVec 16)
  | inputCapLift
  | inputBelow44v (mv : BitVec 16)
  | inputLossPark
  | inputAbove62v
  | periodicPowerReport
  | managersSilent
  | governorCheck (watts : Nat) (fieldWatts : List Nat)
  | governorUnpark (headroom : Nat)
  | lagEpisodeStart
  | lagReport
  | lagEpisodeEnd
  | thermalHot (island : BitVec 8) (celsius : Nat)
  | thermalCapStep (celsius : Nat)
  | thermalPark (island : BitVec 8)
  | thermalUnpark (f : FieldId)
  | thermalTrip (island : BitVec 8)
  | perstAssert
  | perstRelease (pufOk : Bool)
  | flr
  | d3hotEntry
  | d0Entry
  | islandClockStop (band : BandId) (quarter : Fin 4)
  | sectionDispatch (f : FieldId)
  | slotFill (f : FieldId) (slot : SlotId)
  | unitFire (t : Tile) (fire : Firing)
  | entryArrival (th : ThreadId) (dest : Nat)
  | creditReturn (th : ThreadId) (dest : Nat)
  | tokenStart (t : Tile) (ci : Fin 4)
  | tokenDone (t : Tile) (ci : Fin 4)
  | tokenSelect (t : Tile) (ci : Fin 4)
  | tokenEndSection (t : Tile) (ci : Fin 4)
  | tokenFlush (t : Tile) (ci : Fin 4)
  | tokenAbort (t : Tile) (ci : Fin 4)
  | unitSwap (t : Tile)
  | sectionComplete (f : FieldId)
  | runEmptyDrainDone (f : FieldId)
  | abortDrainTimeout (f : FieldId)
  | scanSettleExpiry (f : FieldId)
  | tierRequestComplete (t : Tile) (ctx : Fin 16) (fin : TierEnd)
  | arbiterBeat (a : ArbId)
  | watchdogExpiry (f : FieldId)
  | inputPark (f : FieldId)
  | copyBatchClose
  | copyTransferDone (q : QId) (seq : BitVec 16)
  | shardHashed (r : ShardRead)
  | pageMoveDone
  | scrubPass (p : ScrubPlace) (found : ScrubFind)
  | moonCall (k : StackId) (channel : Fin 64)
  | moonCallPartDone (k : StackId)
  | moonPartialCombine (k : StackId)
  | moonCallComplete (k : StackId) (channel : Fin 64) (cycles : Nat)
  | moonResultFetch (k : StackId) (channel : Fin 64) (t : Tile) (ctx : Fin 16)
  | moonServiceStep (k : StackId)
  | rehashPass (field : Option FieldId) (manifest : Digest) (shard : Nat) (hash : Digest) (uncorrectable : Bool)
  | stepBoundary (f : FieldId)
  | tokenSample (f : FieldId)
  | stepCommit (f : FieldId) (c : Commit)
  | deadlineExpiry (r : ReqId)
  | requestIdlePark (r : ReqId)
  | entryAllocate
  | cometWritten (r : ReqId) (fail : Option Status)
  | flitReceive (l : LinkId) (fl : Flit)
  | retryExhausted (l : LinkId) (worstLane : Fin 16)
  | laneLossOfLock (l : LinkId) (lane : Fin 17)
  | fastRetrainDone (l : LinkId) (ok : Bool)
  | linkTrainingDone (l : LinkId) (peer : BitVec 20)
  | packetHop (p : Packet) (tc : Fin 4) (vc : Bool) (arrival : Option LinkId)
  | packetDeliver (p : Packet) (tc : Fin 4)
  | ackReceive (transfer : BitVec 32) (accepted : Nat) (arg2 : BitVec 16) (arg3 : BitVec 16)
  | dropReceive (transfer : BitVec 32) (reason : BitVec 8) (status : Option Status)
  | ackSendTimer (src : BitVec 20) (transfer : BitVec 32)
  | resendTimeout (transfer : BitVec 32)
  | transferWindowExpiry (transfer : BitVec 32)
  | packetStallTimeout (l : LinkId) (p : Packet)
  | collSetupPacket (group : BitVec 8) (agree : Bool) (allZero : Bool) (verdict : Bool)
  | collSegmentReceive (group : BitVec 8) (segment : Nat) (cells : List (BitVec 256)) (converted : List Byte)
  | joinWaitExpiry (group : BitVec 8)
  | fenceAction (d : Detection)
  | unitTest (t : Tile) (pass : Bool)
  | columnMapApply (b : BandId)
  | fatalEvent (d : Detection)
  | fatalParkExpiry
  | heartbeatLoss (pair : Bool) (cycles : BitVec 64)
  | testModeExpiry
  | aliveToggle
  | energyApportionment
  | enduranceWrite (hours thermalCycles : Nat)
  | meterIntervalEnd
  | meterSelfCheck (oscPpm converterPpm : Nat)
  | meterPowerLoss
  | meterPowerUp (unpoweredOpening : Bool)
  | meterRestart
  | sealEvent (e : SealEvent)
  | meterStatusFrame
  | p100Window (watts : Nat) (mv : BitVec 16)
  | inputReturn (mv : BitVec 16)
  | pwrEnHoldExpiry
  | moonCallForward (k : StackId)
  | imageChecked (acc : Nat) (bodyHash : Digest) (sig : SigCheck)
  | scanShiftDone (f : FieldId)
  | warmResetReady (t : Training)
  | dynamicAddressAssignment (bus : Bus) (addr : BitVec 7)
  | meterLinkTimeout
  | meterSample (milliVolts milliAmps : Nat)
  deriving DecidableEq, Repr

end Sys2Proof
end

