-- ==== Sys2Proof/Machine/Bits.lean ====
section
/-!
DEFINITION. Bit fields, bytes and byte order (R5), and small list helpers. Everything recurses on structure, so the kernel evaluates it.
-/

namespace Sys2Proof.Machine

/-- Bits [lo + w - 1 : lo] of x. -/
def bits (x lo w : Nat) : Nat := x / 2 ^ lo % 2 ^ w

/-- Bit i of x. -/
def bitAt (x i : Nat) : Bool := x / 2 ^ i % 2 == 1

/-- 1 for true, 0 for false. -/
def b2n (b : Bool) : Nat := if b then 1 else 0

/-- The n little-endian bytes of x (R5). -/
def leBytes : Nat → Nat → List Byte
  | 0, _ => []
  | n + 1, x => BitVec.ofNat 8 x :: leBytes n (x / 256)

/-- The number that little-endian bytes spell (R5). -/
def leNat : List Byte → Nat
  | [] => 0
  | b :: bs => b.toNat + 256 * leNat bs

/-- Byte i of a list, 0 past its end. -/
def byteAt (bs : List Byte) (i : Nat) : Byte := bs.getD i 0

/-- The number in bytes i to i + n - 1 of a list. -/
def natAt (bs : List Byte) (i n : Nat) : Nat := leNat ((bs.drop i).take n)

/-- n zero bytes. -/
def zeros (n : Nat) : List Byte := List.replicate n 0

/-- The list cut or padded with zero bytes to n bytes. -/
def padTo (n : Nat) (bs : List Byte) : List Byte := bs.take n ++ zeros (n - bs.length)

/-- x divided by y, rounded up. -/
def ceilDiv (x y : Nat) : Nat := (x + y - 1) / y

/-- x rounded up to a multiple of y. -/
def roundUp (x y : Nat) : Nat := ceilDiv x y * y

/-- x is a multiple of y; every number is a multiple of 0 here only when it is 0. -/
def aligned (x y : Nat) : Bool := x % y == 0

/-- The ranges [a, a + m) and [b, b + n) share an address. -/
def overlaps (a m b n : Nat) : Bool := decide (m ≠ 0 ∧ n ≠ 0 ∧ a < b + n ∧ b < a + m)

/-- [b, b + n) lies inside [a, a + m). -/
def inside (b n a m : Nat) : Bool := decide (a ≤ b ∧ b + n ≤ a + m)

/-- x with bit i set to v. -/
def setBit {w : Nat} (x : BitVec w) (i : Nat) (v : Bool) : BitVec w :=
  if v then x ||| BitVec.ofNat w (2 ^ i) else x &&& ~~~ BitVec.ofNat w (2 ^ i)

/-- x + n, stopping at the largest value of the width. -/
def satAdd {w : Nat} (x : BitVec w) (n : Nat) : BitVec w :=
  if x.toNat + n < 2 ^ w then BitVec.ofNat w (x.toNat + n) else BitVec.allOnes w

/-- The signed value of the low w bits of x. -/
def signed (w x : Nat) : Int := if bitAt x (w - 1) then (x % 2 ^ w : Nat) - (2 ^ w : Nat) else (x % 2 ^ w : Nat)

/-- An integer as the w-bit two's-complement number. -/
def unsigned (w : Nat) (x : Int) : Nat := (x % (2 ^ w : Nat)).toNat

/-- The element of a list at i, none past its end. -/
def nth? {α : Type} (l : List α) (i : Nat) : Option α := l[i]?

/-- Change the elements that satisfy p. -/
def mapIf {α : Type} (p : α → Bool) (f : α → α) (l : List α) : List α := l.map fun x => if p x then f x else x

/-- Sum of a list. -/
def sumN (l : List Nat) : Nat := l.foldl (· + ·) 0

/-- Largest of a list, 0 for none. -/
def maxN (l : List Nat) : Nat := l.foldl Nat.max 0

/-- No value twice. -/
def distinct {α : Type} [BEq α] : List α → Bool
  | [] => true
  | x :: xs => !xs.contains x && distinct xs

/-- Cut a list into pieces of n, the last one shorter; at most k pieces. -/
def pieces {α : Type} (n : Nat) : Nat → List α → List (List α)
  | 0, _ => []
  | _ + 1, [] => []
  | k + 1, l => l.take n :: pieces n k (l.drop n)

end Sys2Proof.Machine
end

