-- ==== Sys2Proof/Machine/Codec.lean ====
section
/-!
DEFINITION. The codec of PACK and UNPACK (R225): encoded 4 KiB blocks.
-/

namespace Sys2Proof.Machine

/-- Bytes of a block. -/
def blockBytes : Nat := 4096

/-- A block in column order for rows of c bytes: all first bytes of the rows, then all second bytes, and so on (R225). -/
def columnOrder (c : Nat) (b : List Byte) : List Byte :=
  let rows := blockBytes / max 1 c
  (List.range blockBytes).map fun i => byteAt b (i % rows * c + i / rows)

/-- The block that a column order came from. -/
def rowOrder (c : Nat) (b : List Byte) : List Byte :=
  let rows := blockBytes / max 1 c
  (List.range blockBytes).map fun i => byteAt b (i % c * rows + i / c)

/-- The first code of each length: canonical codes rise with length, then with byte value (R225). -/
def firstCode (lengths : List Nat) : Nat → Nat
  | 0 => 0
  | n + 1 => (firstCode lengths n + (if n = 0 then 0 else (lengths.filter (· == n)).length)) * 2

/-- The code of byte value v of a length. -/
def codeOf (lengths : List Nat) (v : Nat) : Nat :=
  let n := lengths.getD v 0
  firstCode lengths n + ((lengths.take v).filter (· == n)).length

/-- The byte value of a code of n bits. -/
def symbolOf (lengths : List Nat) (n code : Nat) : Option Nat :=
  (List.range 256).find? fun v => lengths.getD v 0 == n && codeOf lengths v == code

/-- The Kraft sum times 2^15. -/
def kraft (lengths : List Nat) : Nat := sumN (lengths.map fun n => if n = 0 then 0 else 2 ^ (15 - n))

/-- The bits of bytes, bit 0 of the first byte first. -/
def bitsOf (bs : List Byte) : List Bool := bs.flatMap fun b => (List.range 8).map fun i => bitAt b.toNat i

/-- Decode n symbols from bits: the symbols and the bits left; none where the bits run out or spell no code. -/
def decodeBits (lengths : List Nat) : List Bool → Nat → Nat → Nat → List Byte → Option (List Byte × List Bool)
  | bs, _, _, 0, acc => some (acc.reverse, bs)
  | [], _, _, _ + 1, _ => none
  | b :: bs, code, len, n + 1, acc =>
    let code := 2 * code + b2n b
    match symbolOf lengths (len + 1) code with
    | some v => decodeBits lengths bs 0 0 n (BitVec.ofNat 8 v :: acc)
    | none => if 15 ≤ len + 1 then none else decodeBits lengths bs code (len + 1) (n + 1) acc

/-- The code lengths of an encoded block. -/
def lengthsOf (e : List Byte) : List Nat := (List.range 256).map fun v => bits (byteAt e (4 + v / 2)).toNat (4 * (v % 2)) 4

/-- UNPACK: the block that an encoded block spells, none where it is malformed (R225). -/
def unpackBlock (c : Nat) (e : List Byte) : Option (List Byte) :=
  let payload := natAt e 0 2
  let value := byteAt e 3
  match (byteAt e 2).toNat with
  | 0 => if payload = blockBytes ∧ value = 0 ∧ 4 + blockBytes ≤ e.length then some ((e.drop 4).take blockBytes) else none
  | 2 => if payload = 0 then some (List.replicate blockBytes value) else none
  | 1 =>
    let l := lengthsOf e
    if value ≠ 0 ∨ 2 ^ 15 < kraft l ∨ e.length < 132 + payload then none
    else match decodeBits l (bitsOf ((e.drop 132).take payload)) 0 0 blockBytes [] with
      | some (b, rest) => if rest.length < 8 then some (rowOrder c b) else none
      | none => none
  | _ => none

/-- The bits of a code, most significant first. -/
def codeBits (code : Nat) : Nat → List Bool
  | 0 => []
  | n + 1 => bitAt code n :: codeBits code n

/-- Bytes of bits, bit 0 first, the last byte filled with zeros; n bounds their number. -/
def packBits : Nat → List Bool → List Byte
  | 0, _ => []
  | _ + 1, [] => []
  | n + 1, bs => BitVec.ofNat 8 (((bs.take 8).zipIdx.map fun (e : Bool × Nat) => b2n e.1 * 2 ^ e.2).foldl (· + ·) 0) :: packBits n (bs.drop 8)

/-- PACK: a constant block, a Huffman block where that is shorter, or the raw block (R225). The code lengths are those of Vararn's encoder. -/
def packBlock (c : Nat) (b : List Byte) : List Byte :=
  let v := byteAt b 0
  if b.all (· == v) then [0, 0, 2, v] ++ zeros 4
  else
    let col := columnOrder c b
    let l := Config.packLengths col
    let bs := col.flatMap fun x => codeBits (codeOf l x.toNat) (l.getD x.toNat 0)
    let p := packBits (ceilDiv bs.length 8) bs
    if p.length + 132 < blockBytes + 4 then
      let head := leBytes 2 p.length ++ [1, 0] ++ (List.range 128).map fun i => BitVec.ofNat 8 (l.getD (2 * i) 0 + 16 * l.getD (2 * i + 1) 0)
      padTo (roundUp (132 + p.length) 8) (head ++ p)
    else padTo (roundUp (4 + blockBytes) 8) (leBytes 2 blockBytes ++ [0, 0] ++ b)

end Sys2Proof.Machine
end

