-- ==== Sys2Proof/Machine/Floats.lean ====
section
/-!
DEFINITION. Element formats, exact values, and one rounding (R126 to R128): a value is exact until the one place where the manual rounds it.
-/

namespace Sys2Proof.Machine

/-! ### Exact values -/

/-- A decoded element: NaN, an infinity, or (-1)^neg × m × 2^e (R126). -/
inductive FVal where
  | nan
  | inf (neg : Bool)
  | fin (neg : Bool) (m : Nat) (e : Int)
  deriving DecidableEq, Repr

/-- What a format's top codes mean (R126). -/
inductive TopCodes where
  /-- E all ones: infinity for M zero, NaN otherwise -/
  | ieee
  /-- NaN only where E and M are all ones -/
  | nanOnly
  /-- every code is finite -/
  | finite
  deriving DecidableEq, Repr

/-- A binary floating-point format (R126), with its canonical NaN (R128). -/
structure FloatFmt where
  eb : Nat
  mb : Nat
  bias : Nat
  top : TopCodes
  nan : Nat

def fp64 : FloatFmt := { eb := 11, mb := 52, bias := 1023, top := .ieee, nan := 0x7FF8000000000000 }
def fp32 : FloatFmt := { eb := 8, mb := 23, bias := 127, top := .ieee, nan := 0x7FC00000 }
def bf16 : FloatFmt := { eb := 8, mb := 7, bias := 127, top := .ieee, nan := 0x7FC0 }
def fp16 : FloatFmt := { eb := 5, mb := 10, bias := 15, top := .ieee, nan := 0x7E00 }
def e4m3 : FloatFmt := { eb := 4, mb := 3, bias := 7, top := .nanOnly, nan := 0x7F }
def e5m2 : FloatFmt := { eb := 5, mb := 2, bias := 15, top := .ieee, nan := 0x7F }
def e2m3 : FloatFmt := { eb := 2, mb := 3, bias := 1, top := .finite, nan := 0 }
def e3m2 : FloatFmt := { eb := 3, mb := 2, bias := 3, top := .finite, nan := 0 }
def e2m1 : FloatFmt := { eb := 2, mb := 1, bias := 1, top := .finite, nan := 0 }
/-- The block scale of FP4-K, read as a format with a sign bit that is always 0 (R126, R130). -/
def ue5m3 : FloatFmt := { eb := 5, mb := 3, bias := 15, top := .nanOnly, nan := 0xFF }

/-- Bits of an element. -/
def FloatFmt.width (f : FloatFmt) : Nat := 1 + f.eb + f.mb

/-- The value of a code (R126). -/
def fdecode (f : FloatFmt) (c : Nat) : FVal :=
  let neg := bitAt c (f.eb + f.mb)
  let x := bits c f.mb f.eb
  let m := bits c 0 f.mb
  let ones := x == 2 ^ f.eb - 1
  let fin := if x = 0 then FVal.fin neg m (1 - (f.bias + f.mb : Nat)) else FVal.fin neg (2 ^ f.mb + m) ((x : Int) - (f.bias + f.mb : Nat))
  match f.top with
  | .ieee => if ones then (if m = 0 then .inf neg else .nan) else fin
  | .nanOnly => if ones && m == 2 ^ f.mb - 1 then .nan else fin
  | .finite => fin

/-! ### Rounding (R128, R137, R138) -/

/-- n / d as an integer, by mode: 0 nearest even, 1 toward zero, 2 down, 3 up; neg is the sign of the value. -/
def roundQ (rm : Nat) (neg : Bool) (n d : Nat) : Nat :=
  let q := n / d
  let r := n % d
  let up := match rm with
    | 0 => decide (d < 2 * r) || (decide (2 * r = d) && q % 2 == 1)
    | 1 => false
    | 2 => neg && r != 0
    | _ => !neg && r != 0
  if up then q + 1 else q

/-- m × 2^k / d as numerator and denominator. -/
def scaleQ (m d : Nat) (k : Int) : Nat × Nat := if 0 ≤ k then (m * 2 ^ k.toNat, d) else (m, d * 2 ^ (-k).toNat)

/-- floor(log2(n / d)) for n and d above 0. -/
def floorLog2 (n d : Nat) : Int :=
  let k : Int := (Nat.log2 n : Int) - (Nat.log2 d : Int)
  let (a, b) := scaleQ d n k
  if a ≤ b then k else k - 1

/-- The largest finite code without its sign. -/
def FloatFmt.maxCode (f : FloatFmt) : Nat :=
  match f.top with
  | .ieee => (2 ^ f.eb - 1) * 2 ^ f.mb - 1
  | .nanOnly => 2 ^ (f.eb + f.mb) - 2
  | .finite => 2 ^ (f.eb + f.mb) - 1

/-- The sign bit in place. -/
def FloatFmt.sign (f : FloatFmt) (neg : Bool) : Nat := if neg then 2 ^ (f.eb + f.mb) else 0

/-- The code of an infinity, or what stands for it in a format without one. -/
def FloatFmt.infCode (f : FloatFmt) (sat neg : Bool) : Nat :=
  match f.top with
  | .ieee => f.sign neg + (2 ^ f.eb - 1) * 2 ^ f.mb
  | .nanOnly => if sat then f.sign neg + f.maxCode else f.nan
  | .finite => f.sign neg + f.maxCode

/-- The code after an overflow. -/
def FloatFmt.overflow (f : FloatFmt) (rm : Nat) (sat neg : Bool) : Nat :=
  if sat then f.sign neg + f.maxCode
  else match f.top with
    | .ieee => if rm = 1 ∨ (rm = 2 ∧ neg = false) ∨ (rm = 3 ∧ neg = true) then f.sign neg + f.maxCode else f.infCode false neg
    | _ => f.infCode false neg

/-- Round the value n / d × 2^e once to a format; subnormals are kept (R126). -/
def fround (f : FloatFmt) (rm : Nat) (sat neg : Bool) (n d : Nat) (e : Int) : Nat :=
  if n = 0 then f.sign neg
  else
    let low : Int := 1 - (f.bias + f.mb : Nat)
    let q := max (floorLog2 n d + e - (f.mb : Nat)) low
    let (a, b) := scaleQ n d (e - q)
    let m := roundQ rm neg a b
    let c := (q - low).toNat * 2 ^ f.mb + m
    if f.maxCode < c then f.overflow rm sat neg else f.sign neg + c

/-- Round an exact value to a format. -/
def fencode (f : FloatFmt) (rm : Nat) (sat : Bool) : FVal → Nat
  | .nan => f.nan
  | .inf neg => f.infCode sat neg
  | .fin neg m e => fround f rm sat neg m 1 e

/-! ### Exact operations -/

/-- The value as an integer multiple of 2^e, for an e at or below its exponent. -/
def atExp (neg : Bool) (m : Nat) (k e : Int) : Int := if neg then -((m * 2 ^ (k - e).toNat : Nat) : Int) else ((m * 2 ^ (k - e).toNat : Nat) : Int)

/-- An integer multiple of 2^e as a value; a zero is positive. -/
def ofInt (x e : Int) : FVal := .fin (decide (x < 0)) x.natAbs e

/-- Exact sum; the sign of a zero sum depends on the mode (R128). -/
def fadd (rm : Nat) : FVal → FVal → FVal
  | .nan, _ => .nan
  | _, .nan => .nan
  | .inf a, .inf b => if a = b then .inf a else .nan
  | .inf a, _ => .inf a
  | _, .inf b => .inf b
  | .fin a m j, .fin b n k =>
    let e := min j k
    let x := atExp a m j e + atExp b n k e
    if x = 0 then .fin (if m = 0 ∧ n = 0 ∧ a = b then a else rm == 2) 0 0 else ofInt x e

/-- The negative. -/
def fneg : FVal → FVal
  | .nan => .nan
  | .inf a => .inf (!a)
  | .fin a m e => .fin (!a) m e

/-- Exact product. -/
def fmul : FVal → FVal → FVal
  | .nan, _ => .nan
  | _, .nan => .nan
  | .inf a, .inf b => .inf (a != b)
  | .inf a, .fin b n _ => if n = 0 then .nan else .inf (a != b)
  | .fin a m _, .inf b => if m = 0 then .nan else .inf (a != b)
  | .fin a m j, .fin b n k => .fin (a != b) (m * n) (j + k)

/-- a < b for values that are not NaN. -/
def flt : FVal → FVal → Bool
  | .nan, _ => false
  | _, .nan => false
  | .inf a, .inf b => a && !b
  | .inf a, _ => a
  | _, .inf b => !b
  | .fin a m j, .fin b n k => let e := min j k; decide (atExp a m j e < atExp b n k e)

/-- a = b as values; -0 equals +0, and NaN equals nothing (R128, R138). -/
def feq (a b : FVal) : Bool := a != .nan && b != .nan && !flt a b && !flt b a

/-- The sign. -/
def fsign : FVal → Bool
  | .nan => false
  | .inf a => a
  | .fin a _ _ => a

/-- MIN: the other operand where exactly one is NaN; -0 is below +0 (R138). -/
def fmin (a b : FVal) : FVal :=
  if a = .nan then b else if b = .nan then a
  else if flt a b then a else if flt b a then b else if fsign a then a else b

/-- MAX (R138). -/
def fmax (a b : FVal) : FVal :=
  if a = .nan then b else if b = .nan then a
  else if flt a b then b else if flt b a then a else if fsign a then b else a

/-- The nearest multiple of 2^lsb, ties to even, as the multiple; none for NaN and infinities (R132, R145). -/
def toGrid (lsb : Int) : FVal → Option Int
  | .fin neg m e =>
    let (a, b) := scaleQ m 1 (e - lsb)
    let q : Int := (roundQ 0 neg a b : Nat)
    some (if neg then -q else q)
  | _ => none

/-! ### Elements of a vector (R127) -/

/-- The n elements of w bits of a vector, element 0 lowest. -/
def elems (w : Nat) : Nat → Nat → List Nat
  | 0, _ => []
  | n + 1, x => x % 2 ^ w :: elems w n (x / 2 ^ w)

/-- Pack elements of w bits. -/
def pack (w : Nat) : List Nat → Nat
  | [] => 0
  | x :: xs => x % 2 ^ w + 2 ^ w * pack w xs

/-- A 32-bit word in every one of the 32 lanes (R45, R137). -/
def broadcast (w : Nat) : Nat := pack 32 (List.replicate 32 w)

/-- An element code with a NaN made canonical: payloads and signs of a NaN go no further (R128). -/
def canon (f : FloatFmt) (x : Nat) : Nat := if fdecode f x = .nan then f.nan else x

end Sys2Proof.Machine
end

