-- ==== Sys2Proof/Machine/Functions.lean ====
section
/-!
DEFINITION. The transcendental and activation functions (R139, R142). Each result is a free value of Config held inside the error bound that the
manual states: the exact function is enclosed between two multiples of 2^-96 by integer arithmetic, and a result outside the bound around that
enclosure is moved to its edge (log 114).
-/

namespace Sys2Proof.Machine

/-! ### Enclosures: integers of 2^-96 -/

/-- The unit of the enclosures. -/
def fixOne : Int := (2 ^ 96 : Nat)
/-- Product of two fixed-point numbers, rounded down. -/
def fixMul (a b : Int) : Int := a * b / fixOne
/-- Quotient of two fixed-point numbers, rounded down; 0 where the divisor is 0. -/
def fixDiv (a b : Int) : Int := if b = 0 then 0 else a * fixOne / b
/-- ln 2. -/
def fixLn2 : Int := 0xB17217F7D1CF79ABC9E3B398
/-- log2 e. -/
def fixLog2e : Int := 0x171547652B82FE1777D0FFDA0
/-- sqrt(2 / pi), in GELU's tanh form. -/
def fixGelu : Int := 0xCC42299EA1B284687E59E280
/-- 0.044715, in GELU's tanh form. -/
def fixCubic : Int := 44715 * fixOne / 1000000

/-- The value of a finite number in fixed point, rounded down. -/
def fixOf (neg : Bool) (m : Nat) (e : Int) : Int :=
  let (a, b) := scaleQ m 1 (e + 96)
  if neg then -((a / b : Nat) : Int) else ((a / b : Nat) : Int)

/-- Terms k to k + n of the series of e^x, the k-th given. -/
def expSeries (x : Int) : Nat → Nat → Int → Int
  | 0, _, t => t
  | n + 1, k, t => t + expSeries x n (k + 1) (fixMul t x / ((k : Int) + 1))

/-- 2^f for f in [0, 1). -/
def exp2Frac (f : Int) : Int := expSeries (fixMul f fixLn2) 32 0 fixOne

/-- log2 of a fixed-point number in [1, 2): n more binary digits by squaring. -/
def log2Frac : Nat → Int → Int
  | 0, _ => 0
  | n + 1, x =>
    let y := fixMul x x
    if 2 * fixOne ≤ y then (2 ^ n : Nat) + log2Frac n (y / 2) else log2Frac n y

/-- An enclosure: low and high ends as a sign, a magnitude and an exponent of two. -/
structure Enclosure where
  lo : Int
  hi : Int
  e : Int

/-- e^x as an enclosure, for a fixed-point x: the integer part of x log2 e is the exponent. -/
def expOf (x : Int) : Enclosure :=
  let y := x * fixLog2e / fixOne
  let i := y / fixOne
  let v := exp2Frac (y - i * fixOne)
  { lo := v - 2 ^ 16, hi := v + 2 ^ 16, e := i - 96 }

/-- The fixed-point value of an enclosure's middle. -/
def encloseFix (c : Enclosure) : Int := fixOf false ((c.lo + c.hi) / 2).natAbs c.e

/-! ### A free value inside a bound -/

/-- The place of an FP32 code in the order of its values; -0 and +0 share a place. -/
def fpPlace (x : Nat) : Int := if bitAt x 31 then -(bits x 0 31 : Nat) else (bits x 0 31 : Nat)

/-- The code at a place. -/
def fpCode (p : Int) : Nat := if p < 0 then 2 ^ 31 + p.natAbs else p.natAbs

/-- An integer multiple of 2^e rounded to FP32 in a direction: 2 down, 3 up. -/
def fpRound (rm : Nat) (x e : Int) : Nat := fencode fp32 rm false (ofInt x e)

/-- An ulp of FP32 at a value x × 2^e, as an exponent of two (R139). -/
def ulpExp (x e : Int) : Int := if x = 0 then -149 else max (-149) (floorLog2 x.natAbs 1 + e - 23)

/-- A code moved into the FP32 values from lo - m to hi + m, where the enclosure and m are multiples of 2^e. -/
def holdIn (lo hi m e : Int) (x : Nat) : Nat :=
  let a := fpPlace (fpRound 3 (lo - m) e)
  let b := fpPlace (fpRound 2 (hi + m) e)
  if a ≤ fpPlace x ∧ fpPlace x ≤ b then x else if fpPlace x < a ∨ b < a then fpCode a else fpCode b

/-- n ulps of FP32 at an enclosure, at least 2^floor, as a multiple of 2^e. -/
def marginOf (n : Nat) (floor : Option Int) (c : Enclosure) : Int :=
  let u := ulpExp (max c.lo.natAbs c.hi.natAbs) c.e
  let m : Int := (n * 2 ^ (u - c.e).toNat : Nat)
  match floor with
  | some f => max m (2 ^ (f - c.e).toNat : Nat)
  | none => m

/-- A free result held within n ulps of the enclosed function, or within 2^floor where that is larger. -/
def bounded (n : Nat) (floor : Option Int) (c : Enclosure) (free : BitVec 32) : Nat :=
  let d := min c.e (-260)
  let k : Int := (2 ^ (c.e - d).toNat : Nat)
  let c' : Enclosure := { lo := c.lo * k, hi := c.hi * k, e := d }
  let x := if fdecode fp32 free.toNat = .nan then 0 else free.toNat
  holdIn c'.lo c'.hi (marginOf n floor c') d x

/-! ### The functions on finite arguments -/

/-- 2^x (R139). -/
def exp2Of (neg : Bool) (m : Nat) (e : Int) : Enclosure :=
  let y := fixOf neg m e
  let y := if 300 * fixOne < y then 300 * fixOne else if y < -300 * fixOne then -300 * fixOne else y
  let i := y / fixOne
  let v := exp2Frac (y - i * fixOne)
  { lo := v - 2 ^ 16, hi := v + 2 ^ 16, e := i - 96 }

/-- log2 of a positive value (R139): exact at a power of two. -/
def log2Of (m : Nat) (e : Int) : Enclosure :=
  let k := floorLog2 m 1
  let x := fixOf false m (-k)
  let v := (k + e) * fixOne + log2Frac 96 x
  let w : Int := if m = 2 ^ k.toNat then 0 else 2 ^ 24
  { lo := v - w, hi := v + w, e := -96 }

/-- 1 / x for x = m × 2^e (R139). -/
def recipOf (neg : Bool) (m : Nat) (e : Int) : Enclosure :=
  let q : Int := (2 ^ 128 / m : Nat)
  if neg then { lo := -q - 1, hi := -q, e := -e - 128 } else { lo := q, hi := q + 1, e := -e - 128 }

/-- The integer square root of x, by its binary digits from bit k down. -/
def isqrt (x : Nat) : Nat → Nat → Nat
  | 0, r => r
  | k + 1, r => isqrt x k (if (r + 2 ^ k) * (r + 2 ^ k) ≤ x then r + 2 ^ k else r)

/-- 1 / sqrt(x) for a positive x = m × 2^e (R139). -/
def rsqrtOf (m : Nat) (e : Int) : Enclosure :=
  let odd := e % 2 = 1
  let m' := if odd then 2 * m else m
  let e' := if odd then e - 1 else e
  let r : Int := (isqrt (2 ^ 256 / m') 128 0 : Nat)
  { lo := r, hi := r + 1, e := -(e' / 2) - 128 }

/-- 1 / (1 + e^-x), in fixed point. -/
def sigmoidFix (x : Int) : Int :=
  let y := if 100 * fixOne < x then 100 * fixOne else if x < -100 * fixOne then -100 * fixOne else x
  fixDiv fixOne (fixOne + encloseFix (expOf (-y)))

/-- tanh x, in fixed point: 2 sigmoid(2x) - 1. -/
def tanhFix (x : Int) : Int := 2 * sigmoidFix (2 * x) - fixOne

/-- SiLU, GELU in its tanh form, sigmoid and tanh, by PARAM 2 to 5 (R141). -/
def actOf (p : Nat) (neg : Bool) (m : Nat) (e : Int) : Enclosure :=
  let big := decide (8 ≤ floorLog2 m 1 + e) && m != 0
  let x := if big then fixOf neg 256 0 else fixOf neg m e
  let one : Int := if neg then 0 else fixOne
  let v := match p with
    | 2 => if big then 0 else fixMul x (sigmoidFix x)
    | 3 => if big then 0 else fixMul x (fixOne + tanhFix (fixMul fixGelu (x + fixMul fixCubic (fixMul x (fixMul x x))))) / 2
    | 4 => if big then one else sigmoidFix x
    | _ => if big then 2 * one - fixOne else tanhFix x
  if big && p < 4 && !neg then { lo := m, hi := m, e := e } else { lo := v - 2 ^ 32, hi := v + 2 ^ 32, e := -96 }

end Sys2Proof.Machine
end

