-- ==== Sys2Proof/Machine/Arith.lean ====
section
/-!
DEFINITION. Arithmetic (R125 to R151): the vector operations, the matrix engine's terms, the drain chain, QUANT, grid values and sliced double.
-/

namespace Sys2Proof.Machine

/-! ### Vector stages (R137 to R139) -/

/-- A stage operation word (R137). -/
structure StageOp where
  op : Nat
  fmt : Nat
  rm : Nat
  sat : Bool
  srcA : Nat
  srcB : Nat
  srcC : Nat
  creg : Nat
  dst : Nat
  cvtTo : Nat
  perm : Nat
  deriving DecidableEq, Repr

/-- The fields of a stage operation word; the reserved bits [63:37] are ignored (R6). -/
def stageOp (w : BitVec 64) : StageOp :=
  let x := w.toNat
  { op := bits x 0 6, fmt := bits x 6 3, rm := bits x 9 2, sat := bitAt x 11, srcA := bits x 12 4, srcB := bits x 16 4, srcC := bits x 20 4,
    creg := bits x 24 4, dst := bits x 28 3, cvtTo := bits x 31 4, perm := bits x 35 2 }

/-- Bits of an element of FMT. -/
def fmtWidth : Nat → Nat
  | 0 => 32 | 1 => 16 | 2 => 16 | 3 => 32 | 4 => 16 | _ => 64

/-- FMT is an integer format. -/
def fmtInt (f : Nat) : Bool := f == 3 || f == 4

/-- The float format of FMT. -/
def fmtFloat : Nat → FloatFmt
  | 0 => fp32 | 1 => bf16 | 2 => fp16 | _ => fp64

/-- A word with a reserved code, or a combination the table excludes (R137, R138). -/
def stageBad (stage : Nat) (w : BitVec 64) : Bool :=
  let o := stageOp w
  decide (27 < o.op) || decide (5 < o.fmt) || decide (13 < o.srcA) || decide (13 < o.srcB) || decide (13 < o.srcC)
    || (o.op == 11 && decide (6 ≤ o.cvtTo ∧ o.cvtTo ≤ 12))
    || (decide (12 ≤ o.op ∧ o.op ≤ 17) && !fmtInt o.fmt)
    || (decide (18 ≤ o.op ∧ o.op ≤ 21) && (o.fmt != 0 || o.rm != 0))
    || (decide (24 ≤ o.op) && stage != 5)

/-- An integer result in w bits: wrapped, or saturated. -/
def intResult (w : Nat) (sat : Bool) (x : Int) : Nat :=
  if sat then
    if (2 ^ (w - 1) : Nat) ≤ x then 2 ^ (w - 1) - 1 else if x < -(2 ^ (w - 1) : Nat) then 2 ^ (w - 1) else unsigned w x
  else unsigned w x

/-- A value rounded to an integer of w bits: NaN gives 0; an infinity that does not saturate has no stated result, so it is free. -/
def cvtInt (w rm : Nat) (sat : Bool) (seed : Nat) : FVal → Nat
  | .nan => 0
  | .inf neg => if sat then (if neg then 2 ^ (w - 1) else 2 ^ (w - 1) - 1) else (Config.freeWord seed).toNat % 2 ^ w
  | .fin neg m e =>
    let (a, b) := scaleQ m 1 e
    let q : Int := (roundQ rm neg a b : Nat)
    intResult w sat (if neg then -q else q)

/-- Bits of an element of CVT_TO. -/
def cvtWidth : Nat → Nat
  | 0 => 32 | 1 => 16 | 2 => 16 | 3 => 8 | 4 => 8 | 5 => 8 | 13 => 64 | 14 => 32 | _ => 16

/-- CVT of one value to CVT_TO (R137, R139). -/
def cvt (o : StageOp) (seed : Nat) (v : FVal) : Nat :=
  match o.cvtTo with
  | 0 => fencode fp32 o.rm false v
  | 1 => fencode bf16 o.rm false v
  | 2 => fencode fp16 o.rm false v
  | 3 => fencode e4m3 o.rm o.sat v
  | 4 => fencode e5m2 o.rm false v
  | 5 => cvtInt 8 o.rm o.sat seed v
  | 13 => fencode fp64 o.rm false v
  | 14 => cvtInt 32 o.rm o.sat seed v
  | _ => cvtInt 16 o.rm o.sat seed v

/-- A transcendental operation on FP32 bits: the special values, else a value within 1 ulp (R139). RSQRT of +Inf is not stated: free (log 114). -/
def transc (op x : Nat) : Nat :=
  let v := fdecode fp32 x
  let b := BitVec.ofNat 32 x
  if v = .nan then fp32.nan
  else match op with
    | 18 => (match v with
        | .inf true => 0
        | .inf false => x
        | .fin neg m e => bounded 1 none (exp2Of neg m e) (Config.exp2Finite b)
        | .nan => fp32.nan)
    | 19 => (match v with
        | .fin neg 0 _ => fp32.infCode false (neg || true)
        | .inf false => x
        | .inf true => fp32.nan
        | .fin true _ _ => fp32.nan
        | .fin false m e => bounded 1 none (log2Of m e) (Config.log2Finite b)
        | .nan => fp32.nan)
    | 20 => (match v with
        | .fin neg 0 _ => fp32.infCode false neg
        | .fin true _ _ => fp32.nan
        | .inf true => fp32.nan
        | .fin false m e => bounded 1 none (rsqrtOf m e) (Config.rsqrtFinite b)
        | _ => (Config.rsqrtFinite b).toNat)
    | _ => (match v with
        | .fin neg 0 _ => fp32.infCode false neg
        | .inf neg => fp32.sign neg
        | .fin neg m e => bounded 1 none (recipOf neg m e) (Config.recipFinite b)
        | .nan => fp32.nan)

/-- EXP2 of an exact value: where FP32 holds it, that of its code; else a value within 1 ulp (R139, R219). -/
def exp2Exactly (v : FVal) : Nat := match v with
  | .fin neg m e =>
    let x := fencode fp32 0 false v
    if feq (fdecode fp32 x) v then transc 18 x else bounded 1 none (exp2Of neg m e) (Config.exp2Exact m e)
  | _ => transc 18 (fencode fp32 0 false v)

/-- A float operation on element codes; a NaN result is canonical (R128, R138). -/
def floatOp (o : StageOp) (a b c : Nat) : Nat :=
  let f := fmtFloat o.fmt
  let x := fdecode f a
  let y := fdecode f b
  let ones := 2 ^ f.width - 1
  let put := fencode f o.rm false
  match o.op with
  | 0 => canon f a
  | 1 => put (fadd o.rm x y)
  | 2 => put (fadd o.rm x (fneg y))
  | 3 => put (fmul x y)
  | 4 => put (fadd o.rm (fmul x y) (fdecode f c))
  | 5 => put (fmin x y)
  | 6 => put (fmax x y)
  | 7 => if flt x y then ones else 0
  | 8 => if flt x y || feq x y then ones else 0
  | 9 => if feq x y then ones else 0
  | 10 => canon f (if c ≠ 0 then a else b)
  | 18 => transc 18 a
  | 19 => transc 19 a
  | 20 => transc 20 a
  | 21 => transc 21 a
  | 22 => canon f (bits a 0 (f.eb + f.mb))
  | 23 => canon f (if bitAt a (f.eb + f.mb) then bits a 0 (f.eb + f.mb) else f.sign true + a)
  | _ => a

/-- An integer operation on element codes of w bits (R138). A shift by the width or more has no stated result, so it is free. -/
def intOp (o : StageOp) (w seed a b c : Nat) : Nat :=
  let x := signed w a
  let y := signed w b
  let put := intResult w o.sat
  let ones := 2 ^ w - 1
  match o.op with
  | 0 => a
  | 1 => put (x + y)
  | 2 => put (x - y)
  | 3 => put (x * y)
  | 4 => put (x * y + signed w c)
  | 5 => if x ≤ y then a else b
  | 6 => if x ≤ y then b else a
  | 7 => if x < y then ones else 0
  | 8 => if x ≤ y then ones else 0
  | 9 => if x = y then ones else 0
  | 10 => if c ≠ 0 then a else b
  | 12 => a &&& b
  | 13 => a ||| b
  | 14 => a ^^^ b
  | 15 => if b < w then put (x * (2 ^ b : Nat)) else (Config.freeWord seed).toNat % 2 ^ w
  | 16 => if b < w then a / 2 ^ b else (Config.freeWord seed).toNat % 2 ^ w
  | 17 => if b < w then unsigned w (x / (2 ^ b : Nat)) else (Config.freeWord seed).toNat % 2 ^ w
  | 22 => put (x.natAbs : Int)
  | 23 => put (-x)
  | _ => a

/-- One level of a pairwise tree. -/
def pairUp {α : Type} (f : α → α → α) : List α → List α
  | x :: y :: l => f x y :: pairUp f l
  | l => l

/-- Adjacent pairs, k levels (R47, R136). -/
def tree {α : Type} (f : α → α → α) : Nat → List α → List α
  | 0, l => l
  | k + 1, l => tree f k (pairUp f l)

/-- The reduction of the lanes (R47, R138): REDUCE_SUM rounds at each level. -/
def reduce (o : StageOp) (seed : Nat) (l : List Nat) : Nat :=
  let w := fmtWidth o.fmt
  let g := fun (k : Nat) (a b : Nat) => if fmtInt o.fmt then intOp { o with op := k } w seed a b 0 else floatOp { o with op := k } a b 0
  ((tree (g (match o.op with | 24 => 1 | 25 => 5 | _ => 6)) 6 l).head?).getD 0

/-- CVT: each element whose place the result's element width divides converts at its own place (log 20). -/
def cvtVector (o : StageOp) (seed x : Nat) : Nat :=
  let w := fmtWidth o.fmt
  let w' := max w (cvtWidth o.cvtTo)
  pack w' ((elems w' (1024 / w') x).mapIdx fun i e =>
    let v := if fmtInt o.fmt then ofInt (signed w e) 0 else fdecode (fmtFloat o.fmt) (e % 2 ^ w)
    cvt o (seed + i) v % 2 ^ cvtWidth o.cvtTo)

/-- One stage's result on its three operands, each of 32 lanes (R45 to R47, R137, R138); the lanes beside a reduction's result are free (log 20). -/
def stageResult (o : StageOp) (perm : List Nat) (seed a b c : Nat) : Nat :=
  let w := fmtWidth o.fmt
  let n := 1024 / w
  match o.op with
  | 11 => cvtVector o seed a
  | 24 => pack w (reduce o seed (elems w n a) :: (List.range (n - 1)).map fun i => (Config.freeWord (seed + 1 + i)).toNat)
  | 25 => pack w (reduce o seed (elems w n a) :: (List.range (n - 1)).map fun i => (Config.freeWord (seed + 1 + i)).toNat)
  | 26 => pack w (reduce o seed (elems w n a) :: (List.range (n - 1)).map fun i => (Config.freeWord (seed + 1 + i)).toNat)
  | 27 =>
    let l := elems 32 32 a
    pack 32 ((List.range 32).map fun i => match l[perm.getD i 0]? with | some v => v | none => (Config.freeWord (seed + i)).toNat % 2 ^ 32)
  | _ =>
    let es := (elems w n a).zip ((elems w n b).zip (elems w n c))
    pack w (es.mapIdx fun i e => if fmtInt o.fmt then intOp o w (seed + i) e.1 e.2.1 e.2.2 else floatOp o e.1 e.2.1 e.2.2)

/-- One in FMT, in every element (R137 source 13). -/
def oneIn (f : Nat) : Nat :=
  let w := fmtWidth f
  pack w (List.replicate (1024 / w) (if fmtInt f then 1 else fencode (fmtFloat f) 0 false (.fin false 1 0)))

/-! ### The matrix engine (R48, R129 to R136, R150) -/

/-- K of one weight tile (R48). -/
def tileK : Nat → Nat
  | 7 => 128 | 9 => 128 | 10 => 32 | 11 => 32 | _ => 64

/-- Bits of an operand element. -/
def opWidth : Nat → Nat
  | 5 => 6 | 6 => 6 | 7 => 4 | 9 => 4 | 10 => 16 | 11 => 16 | _ => 8

/-- Columns of K elements in one block, 0 for formats without block scales (R129, R130). -/
def blockLen : Nat → Nat
  | 3 => 32 | 4 => 32 | 5 => 32 | 6 => 32 | 7 => 32 | 8 => 32 | 9 => 16 | _ => 0

/-- Vectors of a weight tile and of its scales (R48). -/
def tileVecs (f : Nat) : Nat := tileK f * 64 * opWidth f / 512
/-- Vectors of the scales of a weight tile; MFMT 12 brings the column exponents (log 21). -/
def scaleVecs (f : Nat) : Nat := if f = 12 then 2 else if blockLen f = 0 then 0 else tileK f / blockLen f

/-- The value of an operand element without its scale. -/
def opValue (f c : Nat) : FVal :=
  match f with
  | 0 => ofInt (signed 8 c) 0
  | 1 => fdecode e4m3 c
  | 2 => fdecode e5m2 c
  | 3 => fdecode e4m3 c
  | 4 => fdecode e5m2 c
  | 5 => fdecode e2m3 c
  | 6 => fdecode e3m2 c
  | 7 => fdecode e2m1 c
  | 8 => ofInt (signed 8 c) (-6)
  | 9 => fdecode e2m1 c
  | 10 => fdecode bf16 c
  | 11 => fdecode fp16 c
  | _ => ofInt (signed 8 c) 0

/-- The value of a block scale byte (R129, R130). -/
def scaleValue (f x : Nat) : FVal :=
  if x = 0xFF then .nan else if f = 9 then fdecode ue5m3 x else .fin false 1 ((x : Int) - 127)

/-- Exact sum of products, infinities kept as the rules of R132 need only that they are not finite. -/
def dot : List FVal → List FVal → FVal
  | a :: as, b :: bs => fadd 0 (fmul a b) (dot as bs)
  | _, _ => .fin false 0 0

/-- The terms of one column: element products, or block sums times both scales (R132). -/
def terms (f : Nat) (xs ws : List Nat) (xsc wsc : List Nat) : List FVal :=
  let n := blockLen f
  let a := xs.map (opValue f)
  let b := ws.map (opValue f)
  if n = 0 then List.zipWith fmul a b
  else (List.range (tileK f / n)).map fun i =>
    fmul (dot ((a.drop (i * n)).take n) ((b.drop (i * n)).take n)) (fmul (scaleValue f (xsc.getD i 0)) (scaleValue f (wsc.getD i 0)))

/-- The INVALID accumulator (R132). -/
def invalidAcc : Nat := 2 ^ 63

/-- Add a term to a fixed-point accumulator; true when the sum leaves the range (R132). -/
def accTerm (lsb : Int) (r : Nat × Bool) (t : FVal) : Nat × Bool :=
  if r.1 = invalidAcc then r
  else match toGrid lsb t with
    | none => (invalidAcc, r.2)
    | some k =>
      let x := signed 64 r.1 + k
      if x.natAbs < 2 ^ 63 then (unsigned 64 x, r.2) else (invalidAcc, true)

/-- One FP32 step of R136: products rounded, the tree of five levels, one addition. -/
def accFloat (f acc : Nat) (xs ws : List Nat) : Nat :=
  let r := fun v => fencode fp32 0 false v
  let add := fun a b => r (fadd 0 (fdecode fp32 a) (fdecode fp32 b))
  let p := List.zipWith (fun a b => r (fmul (opValue f a) (opValue f b))) xs ws
  add acc (((tree add 5 p).head?).getD 0)

/-- The slice pairs (k, l) of n planes with k + l ≤ n - 1, in the order in which the model takes the planes' tiles (R150, log 21). -/
def slicePairs (n : Nat) : List (Nat × Nat) := (List.range n).flatMap fun k => (List.range (n - k)).map fun l => (k, l)

/-- One step of sliced double: the INT8 dot product times 2^(7(n-1-k-l)), added to the 128-bit integer (R150). -/
def accSliced (n tile acc : Nat) (xs ws : List Nat) : Nat :=
  let ps := slicePairs n
  let (k, l) := ps.getD (tile % ps.length) (0, 0)
  let p := (List.zipWith (fun a b => signed 8 a * signed 8 b) xs ws).foldl (· + ·) 0
  unsigned 128 (signed 128 acc + p * (2 ^ (7 * (n - 1 - k - l)) : Nat))

/-- One streamed vector against one column of the weight tile; true when an addition left the range. -/
def accColumn (f : Nat) (lsb : Int) (slices tile acc : Nat) (xs ws xsc wsc : List Nat) : Nat × Bool :=
  if f = 12 then (accSliced slices tile acc xs ws, false)
  else if f = 10 ∨ f = 11 then (accFloat f acc xs ws, false)
  else (terms f xs ws xsc wsc).foldl (accTerm lsb) (acc, false)

/-! ### Drain chains (R140 to R143) -/

/-- An entry of a drain chain (R140). -/
structure DrainOp where
  op : Nat
  creg : Nat
  percol : Bool
  vi : Nat
  param : Nat
  deriving DecidableEq, Repr

/-- LENGTH of a drain word. -/
def drainLength (w : BitVec 128) : Nat := bits w.toNat 0 3
/-- RAW of a drain word. -/
def drainRaw (w : BitVec 128) : Bool := bitAt w.toNat 3

/-- Entry k of a drain word. -/
def drainOp (w : BitVec 128) (k : Nat) : DrainOp :=
  let x := bits w.toNat (16 * k + 16) 16
  { op := bits x 0 3, creg := bits x 3 4, percol := bitAt x 7, vi := bits x 8 2, param := bits x 10 5 }

/-- The entries of a drain word. -/
def drainOps (w : BitVec 128) : List DrainOp := (List.range (min 6 (drainLength w))).map (drainOp w)

/-- The value is a power of two from 2^-126 to 2^127 (R143). -/
def powerOfTwo (x : BitVec 32) : Bool := bits x.toNat 0 23 == 0 && !bitAt x.toNat 31 && decide (1 ≤ bits x.toNat 23 8 ∧ bits x.toNat 23 8 ≤ 254)

/-- A chain that R140 or R143 rejects; reserved bits are ignored (R6). -/
def drainBad (mfmt : Nat) (consts : List (BitVec 32)) (w : BitVec 128) : Bool :=
  let n := drainLength w
  let l := drainOps w
  n == 7 || (drainRaw w && n != 0)
    || (l.dropLast.any fun o => o.op == 4)
    || (l.any fun o => decide (6 ≤ o.op) || (o.op == 2 && decide (5 < o.param)) || (o.op == 4 && decide (13 < o.param))
        || (o.op == 3 && decide (1 < o.param)) || (o.op == 4 && o.param == 13 && mfmt != 12)
        || (mfmt == 12 && (o.op == 2 || (o.op == 4 && o.param != 13 && o.param != 0)))
        || (o.op == 4 && o.param == 12 && !powerOfTwo (consts.getD o.creg 0)))

/-- ACT on an FP32 code: within the larger of 2 ulp and 2^-30 (R141, R142). The value at an infinity is not stated: free (log 114). -/
def act (p x : Nat) : Nat :=
  match p with
  | 0 => x
  | 1 => match fdecode fp32 x with
    | .nan => fp32.nan
    | v => if flt (.fin false 0 0) v then x else 0
  | _ => match fdecode fp32 x with
    | .nan => fp32.nan
    | .fin neg m e => bounded 2 (some (-30)) (actOf p neg m e) (Config.actFinite p (BitVec.ofNat 32 x))
    | .inf _ => (Config.actFinite p (BitVec.ofNat 32 x)).toNat

/-- CLAMP; a NaN stays NaN (R141). -/
def clamp (f : FloatFmt) (lo hi x : FVal) : Nat := if x = .nan then f.nan else fencode f 0 false (fmin (fmax x lo) hi)

/-- The format a chain computes in: FP64 for MFMT 12, else FP32. -/
def chainFmt (mfmt : Nat) : FloatFmt := if mfmt = 12 then fp64 else fp32

/-- One entry other than QUANT on a row (R141). percol holds per-column FP32 operands; resid the residual row. -/
def drainEntry (mfmt : Nat) (consts : List (BitVec 32)) (o : DrainOp) (percol resid : List Nat) (row : List Nat) : List Nat :=
  let f := chainFmt mfmt
  let put := fencode f 0 false
  let k := fdecode fp32 (consts.getD o.creg 0).toNat
  let arg := fun i => if o.percol then fdecode fp32 (percol.getD i 0) else k
  row.mapIdx fun i x =>
    let v := fdecode f x
    match o.op with
    | 0 => put (fmul v (arg i))
    | 1 => put (fadd 0 v (arg i))
    | 2 => if mfmt = 12 then x else act o.param x
    | 3 => put (fadd 0 v (fdecode (if o.param = 0 then fp32 else bf16) (resid.getD i 0)))
    | 5 => clamp f k (fdecode fp32 (consts.getD (o.creg + 1) 0).toNat) v
    | _ => x

/-- The exact 64 values of a drained row before the chain (R141, R150). Fixed-point and float accumulators give FP32, sliced ones FP64. -/
def drainConvert (mfmt : Nat) (lsb : Int) (slices : Nat) (eRow : Nat) (eCols : List Nat) (row : List Nat) : List Nat :=
  row.mapIdx fun j x =>
    if mfmt = 12 then
      let f := eCols.getD j 0
      if eRow = 0x7FFF ∨ f = 0x7FFF then fp64.nan
      else if eRow = 0x8000 ∨ f = 0x8000 then 0
      else fencode fp64 0 false (ofInt (signed 128 x) (signed 16 eRow + signed 16 f + 2 - 7 * ((slices : Int) + 1)))
    else if mfmt = 10 ∨ mfmt = 11 then x % 2 ^ 32
    else if x % 2 ^ 64 = invalidAcc then fp32.nan
    else fencode fp32 0 false (ofInt (signed 64 x) lsb)

/-- The magnitude. -/
def fabs : FVal → FVal
  | .fin _ m e => .fin false m e
  | .inf _ => .inf false
  | .nan => .nan

/-- floor(log2) of a finite value above 0. -/
def flog2 : FVal → Int
  | .fin _ m e => floorLog2 m 1 + e
  | _ => 0

/-- The largest magnitude of a block; NaN or an infinity where the block holds one. -/
def blockAmax (l : List FVal) : FVal :=
  l.foldl (fun a v => match a, v with
    | .nan, _ => .nan
    | _, .nan => .nan
    | .inf _, _ => .inf false
    | _, .inf _ => .inf false
    | a, v => fmax a (fabs v)) (.fin false 0 0)

/-- The element codes of a block whose scale byte is 0xFF: the manual gives the scale only, so each is free (R143, log 157). -/
def nanElements (p w : Nat) (l : List Nat) : List Nat := (List.range l.length).map fun i => (Config.nanBlock p l i).toNat % 2 ^ w

/-- One block of FP codes by the MX rule: scale byte and element codes (R143). -/
def mxBlock (src : FloatFmt) (p : Nat) (codes : List Nat) : Nat × List Nat :=
  let l := codes.map (fdecode src)
  let (f, emax) : FloatFmt × Int := match p with
    | 6 => (e4m3, 8) | 7 => (e5m2, 15) | 8 => (e2m3, 2) | 9 => (e3m2, 4) | 10 => (e2m1, 2) | _ => (e4m3, 0)
  match blockAmax l with
  | .fin _ 0 _ => (0, l.map fun _ => 0)
  | .fin n m e =>
    let x := max (-127) (min 127 (flog2 (.fin n m e) - emax))
    ((x + 127).toNat, l.map fun v => match v with
      | .fin neg m e =>
        if p = 11 then
          let k := (toGrid 0 (.fin neg m (e - x + 6))).getD 0
          unsigned 8 (max (-127) (min 127 k))
        else fround f 0 true neg m 1 (e - x)
      | _ => 0)
  | _ => (0xFF, nanElements p f.width codes)

/-- The smallest UE5M3 code at or above a positive value n / d × 2^e, at most 0xFE (R143). -/
def ue5m3Up (n d : Nat) (e : Int) : Nat := min 0xFE (max 1 (fround ue5m3 3 true false n d e))

/-- One block of FP codes by the FP4-K rule with T = 2^t (R143). -/
def fp4kBlock (src : FloatFmt) (t : Int) (codes : List Nat) : Nat × List Nat :=
  let l := codes.map (fdecode src)
  match blockAmax l with
  | .fin _ 0 _ => (0, l.map fun _ => 0)
  | .fin _ m e =>
    let b := ue5m3Up m 6 (e - t)
    match fdecode ue5m3 b with
    | .fin _ bm be => (b, l.map fun v => match v with
        | .fin neg m e => fround e2m1 0 true neg m bm (e - t - be)
        | _ => 0)
    | _ => (b, l.map fun _ => 0)
  | _ => (0xFF, nanElements 12 4 codes)

/-- Cut a list into k blocks of n. -/
def blocksOf {α : Type} (n k : Nat) (l : List α) : List (List α) := (List.range k).map fun i => (l.drop (i * n)).take n

/-- QUANT: the row's codes packed, their bit width, and the scale bytes (R143). -/
def quant (mfmt : Nat) (o : DrainOp) (consts : List (BitVec 32)) (row : List Nat) : Nat × List Nat × List Nat :=
  let f := chainFmt mfmt
  let vs := row.map (fdecode f)
  match o.param with
  | 0 => (32, vs.map (fencode fp32 0 false), [])
  | 1 => (16, vs.map fun v => match v with | .inf s => bf16.infCode false s | v => fencode bf16 0 o.percol v, [])
  | 2 => (16, vs.map fun v => match v with | .inf s => fp16.infCode false s | v => fencode fp16 0 o.percol v, [])
  | 3 => (8, vs.map (fencode e4m3 0 o.percol), [])
  | 4 => (8, vs.map fun v => match v with | .inf s => e5m2.infCode false s | v => fencode e5m2 0 o.percol v, [])
  | 5 => (8, vs.map (cvtInt 8 0 true 0), [])
  | 12 =>
    let t : Int := (bits (consts.getD o.creg 0).toNat 23 8 : Int) - 127
    let bl := (blocksOf 16 4 row).map (fp4kBlock f t)
    (4, bl.flatMap (·.2), bl.map (·.1))
  | 13 => (64, row, [])
  | p =>
    let bl := (blocksOf 32 2 row).map (mxBlock f p)
    (if p = 8 ∨ p = 9 then 6 else if p = 10 then 4 else 8, bl.flatMap (·.2), bl.map (·.1))

/-! ### Grid values (R144 to R147) -/

/-- A 32-byte cell: the grid value in bits [191:0], OVF in bit 192 (R62). -/
abbrev GridCell := BitVec 256

/-- OVF of a cell. -/
def cellOvf (c : GridCell) : Bool := c.getLsbD 192
/-- The grid value of a cell. -/
def cellG (c : GridCell) : Int := signed 192 (bits c.toNat 0 192)

/-- A cell of a grid value and a flag. -/
def mkCell (g : Int) (ovf : Bool) : GridCell := BitVec.ofNat 256 (unsigned 192 g + (if ovf then 2 ^ 192 else 0))

/-- The integer lies outside the range of a grid value. -/
def gridRange (x : Int) : Bool := decide (x < -(2 ^ 191 : Nat)) || decide ((2 ^ 191 : Nat) ≤ x)

/-- Add an addend to a cell (R145); the second answer is true when an out-of-range sum sets OVF for the first time. -/
def gridAdd (anchor : Int) (c : GridCell) (v : FVal) : GridCell × Bool :=
  match toGrid anchor v with
  | none => (mkCell (cellG c) true, false)
  | some k =>
    let x := cellG c + k
    (mkCell x (cellOvf c || gridRange x), gridRange x && !cellOvf c)

/-- Combine two cells of one anchor (R147). -/
def gridCombine (a b : GridCell) : GridCell :=
  let x := cellG a + cellG b
  mkCell x (cellOvf a || cellOvf b || gridRange x)

/-- Read a cell in a format, to nearest even (R146). -/
def gridRead (f : FloatFmt) (anchor : Int) (c : GridCell) : Nat :=
  if cellOvf c then f.nan else fencode f 0 false (ofInt (cellG c) anchor)

/-- SLICES that the loader writes (R151). -/
def slicesOf (spread : Nat) : Nat := max 7 (ceilDiv (spread + 16) 7)

end Sys2Proof.Machine
end

