-- ==== Sys2Proof/Machine/HostParts.lean ====
section
/-!
DEFINITION. Parts of State: power entry, boot, host interface, management messages, governor, faults, test, meter, accounting.
Each field's docstring names its rule and, after "reset", the value State.reset gives it; a value without a rule names its log entry.
-/

namespace Sys2Proof.Machine

/-! ### Host interface (12, 26) -/

/-- A completion entry before it is written to its ring (R273, R278). -/
structure Completion where
  status : BitVec 16
  seq : BitVec 16
  mark : BitVec 64
  result0 : BitVec 64
  result1 : BitVec 32
  opcode : BitVec 8
  tag : BitVec 8
  irqNow : Bool
  info : Bool
  deriving DecidableEq, Repr

/-- The registers and the running state of one queue (R263 to R269). -/
structure Queue where
  /-- QCFG.SQ_BASE.BASE, R263; reset 0 -/
  sqBase : BitVec 52 := 0
  /-- QCFG.CQ_BASE.BASE, R263; reset 0 -/
  cqBase : BitVec 52 := 0
  /-- QCFG.SQ_SIZE.ENTRIES, R263; reset 0 -/
  sqSize : BitVec 17 := 0
  /-- QCFG.CQ_SIZE.ENTRIES, R263; reset 0 -/
  cqSize : BitVec 17 := 0
  /-- QCFG.CTRL.ENABLE, R263; reset 0 -/
  enable : Bool := false
  /-- QCFG.CTRL.OVERFLOW_STALL, R263; reset 0 -/
  overflowStall : Bool := false
  /-- QCFG.CTRL.INFO_EN, R263; reset 0 -/
  infoEn : Bool := false
  /-- QCFG.CTRL.IRQ_EN, R263; reset 0 -/
  irqEn : Bool := false
  /-- QCFG.CTRL.PORT, R263; reset 0 -/
  port : Bool := false
  /-- QCFG.CTRL.FAILOVER, R263; reset 0 -/
  failover : Bool := false
  /-- QCFG.CTRL.COAL_COUNT, R263; reset 1 -/
  coalCount : BitVec 8 := 1
  /-- QCFG.CTRL.COAL_TICKS, R263; reset 0 -/
  coalTicks : BitVec 16 := 0
  /-- QCFG.VECTOR.VECTOR, R263; reset 0 -/
  vector : BitVec 10 := 0
  /-- QCFG.SHADOW.ADDR, R263; reset 0 -/
  shadow : BitVec 58 := 0
  /-- QCFG.STATE.SQ_HEAD, R263; reset 0 -/
  sqHead : BitVec 16 := 0
  /-- QCFG.STATE.CQ_TAIL, R263; reset 0 -/
  cqTail : BitVec 16 := 0
  /-- the last SQ_TAIL held, R264, R265; reset 0 (R264) -/
  sqTail : BitVec 16 := 0
  /-- doorbell writes whose entries are not all accepted: tail, and host writes of the window before it, R278; reset none -/
  covers : List (BitVec 16 × Nat) := []
  /-- the last CQ_HEAD held, R264, R265; reset 0 (R264) -/
  cqHead : BitVec 16 := 0
  /-- entries of a fetch burst that was in flight when the queue was disabled and has not arrived, R264, R279; reset 0 -/
  inFlight : Nat := 0
  /-- QCFG.ERR.DB_ERR, R263; reset 0 -/
  dbErr : Bool := false
  /-- QCFG.ERR.CQ_OVF, R263; reset 0 -/
  cqOvf : Bool := false
  /-- QCFG.ERR.CFG_ERR, R263; reset 0 -/
  cfgErr : Bool := false
  /-- QCFG.ERR.INFO_LOST, R263; reset 0 -/
  infoLost : BitVec 8 := 0
  /-- the completion phase, R266; reset 1 (R264) -/
  phase : Bool := true
  /-- completions pending since the last message, R269; reset 0 -/
  pendCount : Nat := 0
  /-- the tick of the first pending completion, R269; reset none -/
  coalStart : Option Nat := none
  /-- held completions in posting order, R259, R267; reset empty -/
  held : List Completion := []
  deriving DecidableEq, Repr

/-- How far an open descriptor has come (R277, R278). -/
inductive DescPhase where
  /-- accepted, its command not yet taken up -/
  | accepted
  /-- held back by a FENCE of its queue (R278) -/
  | held
  /-- waiting for a resource -/
  | waiting
  /-- at work -/
  | running
  /-- open-ended, and its sequencer or request-table entry is held (R278) -/
  | placed
  deriving DecidableEq, Repr

/-- An open descriptor: accepted and not yet completed (R270). -/
structure OpenDesc where
  q : Nat
  op : BitVec 8
  seq : BitVec 16
  tag : BitVec 8
  cls : BitVec 6
  mark : BitVec 64
  irqNow : Bool
  allQueues : Bool
  phase : DescPhase
  /-- the control tick of its acceptance (R291) -/
  since : Nat
  /-- host writes of the window that completed before the doorbell write covering it (R278) -/
  winMark : Nat := 0
  deriving DecidableEq, Repr

/-- One vector of the MSI-X table (R268). -/
structure MsixEntry where
  addr : BitVec 64 := 0
  data : BitVec 32 := 0
  masked : Bool := true
  pending : Bool := false
  deriving DecidableEq, Repr

/-- What a mailbox command that is still running waits for. -/
inductive MboxRun where
  /-- DOWNLOAD: its bundle is checked and bring-up runs (R435) -/
  | download
  /-- RETAINED ACTION 1: the comet of this request is being written (R304) -/
  | retainedPack (r : Nat)
  /-- MODEL_DROP waits for the WEIGHT_LOAD that reads the model (R329) -/
  | modelDrop (digest : Digest)
  deriving DecidableEq, Repr

/-- What the last mailbox command returned: its status and the bytes written to its block (R261). -/
structure MboxResult where
  command : BitVec 16
  status : BitVec 16
  extra : List Byte
  deriving DecidableEq, Repr

/-- A CXL.mem read response (R199, R204). -/
structure CxlData where
  line : Nat
  data : List Byte
  poisoned : Bool
  deriving DecidableEq, Repr

/-- The host interface. -/
structure HostIf where
  /-- the 1,024 QCFG blocks, R263; reset every queue at its reset values -/
  queues : Tab Queue := []
  /-- open descriptors by acceptance number, R270; reset none -/
  opens : Tab OpenDesc := []
  /-- queue and SEQ of completed descriptors that no open one reuses, R270, R279; reset none -/
  closed : List (Nat × Nat) := []
  /-- the next acceptance number, R277; reset 0 -/
  nextAcc : Nat := 0
  /-- MSI-X table and pending bits, R268; reset PRESUMED masked, not pending (log 7) -/
  msix : Tab MsixEntry := []
  /-- interrupt messages sent, oldest first, R268; reset empty -/
  irqs : List Nat := []
  /-- INT.CAUSE.MBOX, R509; reset 0 -/
  causeMbox : Bool := false
  /-- INT.CAUSE.REMOVAL, R509; reset 0 -/
  causeRemoval : Bool := false
  /-- MBOX.ADDR.ADDR, R454; reset 0 -/
  mboxAddr : BitVec 58 := 0
  /-- MBOX.GO with the command that still runs, R261, R454; reset 0 -/
  mboxRun : Option MboxRun := none
  /-- results written to command blocks, oldest first, R261; reset empty -/
  mboxResults : List MboxResult := []
  /-- ID.CXL.MODE, R508; reset 0 -/
  twoPorts : Bool := false
  /-- ID.CXL.UP0, R508; reset 0 -/
  up0 : Bool := false
  /-- ID.CXL.UP1, R508; reset 0 -/
  up1 : Bool := false
  /-- ID.CXL.WIDTH0, R508; reset 0 -/
  width0 : BitVec 5 := 0
  /-- ID.CXL.WIDTH1, R508; reset 0 -/
  width1 : BitVec 5 := 0
  /-- ID.CXL.SLOW0, R508; reset 0 -/
  slow0 : Bool := false
  /-- ID.CXL.SLOW1, R508; reset 0 -/
  slow1 : Bool := false
  /-- D3hot of the device function, R462; reset D0 -/
  d3hot : Bool := false
  /-- CXL.mem read responses, oldest first, R199; reset empty -/
  cxlReads : List CxlData := []
  deriving DecidableEq, Repr

/-! ### Boot, identity, record store, SPDM (21) -/

/-- BOOT.STATUS.STAGE (R454). -/
inductive Stage where
  | rom | await | verify | bringup | ready | noIdentity
  deriving DecidableEq, Repr

/-- Who delivers the bundle (R439, R442). -/
inductive FwSource where
  | host
  | bus (b : Bus) (bytes : Nat) (got : Nat)
  deriving DecidableEq, Repr

/-- A memory repair record (R491). -/
structure RepairRec where
  kind : Nat
  state : Nat
  place : Nat
  sub : Nat
  line : Nat
  deriving DecidableEq, Repr

/-- The history entry of R472. -/
structure HistEntry where
  seq : Nat
  island : BitVec 8
  detector : BitVec 8
  cls : BitVec 2
  injected : Bool
  scope : BitVec 8
  cycles : BitVec 64
  loc : BitVec 64
  status : BitVec 16
  repeated : Nat
  deriving DecidableEq, Repr

/-- The record store (R447, R491, R492) and the secrets of the boot ROM. -/
structure Store where
  /-- version floor, R447; reset DESIGN CHOICE 0, a new module (log 3) -/
  floor : Nat := 0
  /-- revoked-slot mask, R447; reset DESIGN CHOICE 0, a new module (log 3) -/
  revoked : BitVec 4 := 0
  /-- both copies of the version floor readable, R448; reset DESIGN CHOICE true (log 3) -/
  floorValid : Bool := true
  /-- a copy of the repair map can be read, R448; reset DESIGN CHOICE true (log 3) -/
  repairValid : Bool := true
  /-- a copy of the endurance region can be read, R448; reset DESIGN CHOICE true (log 3) -/
  enduranceValid : Bool := true
  /-- a copy of the last fatal history can be read, R448; reset DESIGN CHOICE true (log 3) -/
  fatalValid : Bool := true
  /-- RETIRED_b of the repair map by band, R491; reset no pair retired (R482, log 3) -/
  retired : Tab (BitVec 22) := []
  /-- BAND_FENCED of the repair map, R491; reset DESIGN CHOICE 0 (log 3) -/
  bandFenced : BitVec 4 := 0
  /-- SPARE_LANE_l, 31 for none, R491; reset DESIGN CHOICE 31 (log 3) -/
  spareLane : Tab Nat := []
  /-- DEV_MARK by 2k + s, 15 for none, R491; reset DESIGN CHOICE 15 (log 3) -/
  devMark : Tab Nat := []
  /-- CHANNEL_OFF, R491; reset DESIGN CHOICE 0 (log 3) -/
  channelOff : BitVec 16 := 0
  /-- DIMM_ID by channel, R491; reset DESIGN CHOICE 0 (log 3) -/
  dimmId : Tab (BitVec 64) := []
  /-- memory repair records, R491; reset DESIGN CHOICE empty (log 3) -/
  repairs : List RepairRec := []
  /-- endurance: main-domain hours, R492; reset DESIGN CHOICE 0 (log 3) -/
  hours : Nat := 0
  /-- endurance: thermal cycles, R492; reset DESIGN CHOICE 0 (log 3) -/
  thermalCycles : Nat := 0
  /-- endurance: power-ups, R492; reset DESIGN CHOICE 0 (log 3) -/
  powerUps : Nat := 0
  /-- endurance: pairs ever retired by band, R492; reset DESIGN CHOICE 0 (log 3) -/
  pairsEver : Tab Nat := []
  /-- endurance: spare lane used by link, R492; reset DESIGN CHOICE 0 (log 3) -/
  spareEver : BitVec 6 := 0
  /-- endurance: rows repaired by stack, R492; reset DESIGN CHOICE 0 (log 3) -/
  rowsRepaired : Tab Nat := []
  /-- endurance: devices ever marked by channel, R492; reset DESIGN CHOICE 0 (log 3) -/
  devsEver : Tab Nat := []
  /-- last fatal history with FATAL_SEQ, R447, R474; reset DESIGN CHOICE none (log 3) -/
  lastFatal : Option (Nat × List HistEntry) := none
  /-- the endurance counters as last written, R447; reset DESIGN CHOICE none (log 3) -/
  enduranceWritten : Option (List Nat) := none
  deriving DecidableEq, Repr

/-- Boot, mailbox and reset registers (R454, R465) and the boot ROM's results. -/
structure Boot where
  /-- BOOT.STATUS.STAGE, R454; reset 0 (ROM) -/
  stage : Stage := .rom
  /-- BOOT.STATUS.REASON, R454; reset 0 -/
  reason : Nat := 0
  /-- BOOT.STATUS.WARM_REVERIFIED, R454; reset 0 -/
  warmReverified : Bool := false
  /-- BOOT.STATUS.MGMT_PATH, R454; reset 0 -/
  mgmtPath : Bool := false
  /-- BOOT.CTRL.SETUP_DONE, R454; reset 0 -/
  setupDone : Bool := false
  /-- the memory layout that follows SETUP_DONE stands, R506; reset no -/
  laidOut : Bool := false
  /-- WINDOW_GIB, FIELD_GIB and FW_RESERVE_T1 in force at the last layout, R507; reset none -/
  lastLayout : Option (Nat × Nat × Nat) := none
  /-- the PUF yielded an identity, R445, R446; reset not yet -/
  identity : Bool := false
  /-- the running or verified bundle, R439, R454 ID.FW_VERSION; reset none -/
  bundle : Option Bundle := none
  /-- the download in progress, R439, R442; reset none -/
  download : Option FwSource := none
  /-- the bytes of a bundle that FW_DATA has brought so far, R442; reset none -/
  received : List Byte := []
  /-- memories have been trained since the main domain came up, R508; reset no -/
  trained : Bool := false
  /-- ID.STATUS.ENDURANCE_RESET, R454; reset 0 -/
  enduranceReset : Bool := false
  /-- BOOT.RESET.LAST, R465; reset 0 (power-on) -/
  last : Nat := 0
  /-- BOOT.RESET.FROM_MANAGER, R465; reset 0 -/
  fromManager : Bool := false
  /-- steps 3 to 7 of a warm reset are under way, R457; reset no -/
  warmBusy : Bool := false
  /-- version floor and revoked-slot mask as the boot ROM read them, R450; reset none yet -/
  atBoot : Option (Nat × BitVec 4) := none
  /-- the current test nonce, R477; reset none -/
  nonce : Option (BitVec 256) := none
  deriving DecidableEq, Repr

/-- The responses of the SPDM responder, by the request they answer, and its errors (R449 to R451). -/
inductive SpdmKind where
  | version | capabilities | algorithms | digests | certificate | challengeAuth | measurements | keyExchange | finish | heartbeatAck
  | keyUpdateAck | endSessionAck | chunkSendAck | chunkResponse | cosign | chain
  /-- an SPDM error of kind UnexpectedRequest (R451) -/
  | unexpectedRequest
  /-- another SPDM error: the request is malformed or not supported -/
  | invalidRequest
  deriving DecidableEq, Repr

/-- An SPDM response: the content that the manual gives it (R449 to R451). -/
structure SpdmMsg where
  conn : SpdmConn
  kind : SpdmKind
  content : List Byte
  deriving DecidableEq, Repr

/-- One SPDM session (R449). -/
structure Session where
  conn : SpdmConn
  id : BitVec 16
  established : Bool
  keyGeneration : Nat
  deriving DecidableEq, Repr

/-- What a requester offered in NEGOTIATE_ALGORITHMS, of what the module supports (R449). -/
structure SpdmAlgs where
  ed25519 : Bool
  sha384 : Bool
  secp384r1 : Bool
  aes256gcm : Bool
  deriving DecidableEq, Repr

/-- The state of one SPDM connection (R449, R451). -/
structure SpdmConnState where
  version : Bool := false
  capabilities : Bool := false
  algs : Option SpdmAlgs := none
  /-- transcript hash of the last signed MEASUREMENTS, CHALLENGE_AUTH and KEY_EXCHANGE_RSP, by WHAT, R451 -/
  signed : Tab Digest := []
  /-- a large request being assembled: handle, next chunk and bytes -/
  request : Option (BitVec 8 × Nat × List Byte) := none
  /-- the last response's content, for CHUNK_GET -/
  response : List Byte := []
  deriving DecidableEq, Repr

/-- The SPDM responder (R449). -/
structure Spdm where
  /-- connections by number: 0 DOE, 1 bus A, 2 bus B, R449; reset none has spoken -/
  conns : Tab SpdmConnState := []
  /-- open sessions, at most 4, R449; reset none -/
  sessions : List Session := []
  /-- responses sent, oldest first, R449; reset empty -/
  out : List SpdmMsg := []
  deriving DecidableEq, Repr

/-! ### Power entry and governor (02, 19) -/

/-- Precharge of the bulk node (R32). -/
inductive Precharge where
  | absent | charging | done | faulted
  deriving DecidableEq, Repr

/-- The input-loss sequence of R409. -/
inductive InputLoss where
  | none
  /-- step 2: the switch is open and the bulk node carries the load -/
  | riding
  /-- step 3 has begun: the sequence runs to its end -/
  | parked
  deriving DecidableEq, Repr

/-- Power entry and sideband pins (R26 to R43). -/
structure Entry where
  /-- P56V at the blades, R28; reset DESIGN CHOICE absent (log 2) -/
  p56v : Bool := false
  /-- PRESENT_N reads low: the blades have mated, R28, R36; reset DESIGN CHOICE high, out of the tray (log 2) -/
  presentLow : Bool := false
  /-- the input was last seen below 44 V, so that the bulk node is below it as well, R26, R31; reset no -/
  belowAux : Bool := false
  /-- the precharge limiter, R32; reset DESIGN CHOICE absent (log 2) -/
  precharge : Precharge := .absent
  /-- auxiliary domain on, R26; reset DESIGN CHOICE off (log 2) -/
  aux : Bool := false
  /-- main domain on, R26; reset DESIGN CHOICE off (log 2) -/
  main : Bool := false
  /-- the input switch is closed, R31; reset open (R32) -/
  inputSwitch : Bool := false
  /-- PWR_EN as deglitched, R28; reset low (R28: an open input reads as low) -/
  pwrEn : Bool := false
  /-- a PWR_EN rise is held: no precharge (R38), no flow (R35) or REMOVE_OK still low (R43); reset no -/
  pwrEnHeld : Bool := false
  /-- PWR_GOOD, R28; reset low -/
  pwrGood : Bool := false
  /-- ALIVE level, R28, R476; reset low -/
  alive : Bool := false
  /-- ALIVE has been seen toggling since PWR_GOOD rose, R39; reset no -/
  aliveSeen : Bool := false
  /-- REMOVE_OK pulled low by the module, R28; reset released -/
  removeLow : Bool := false
  /-- REMOVE_OK was released and the 10 ms of R43 have not passed; reset no -/
  removeHold : Bool := false
  /-- FLOW_OK as sensed, R28; reset low (100 kOhm pull-down) -/
  flowOk : Bool := false
  /-- PERST# asserted, R28; reset DESIGN CHOICE asserted (log 2) -/
  perst : Bool := true
  /-- an input fault is latched (R26, R31); reset no -/
  inputFault : Bool := false
  /-- the hardware trip is latched until PWR_EN has been low 1 s, R412; reset no -/
  tripLatch : Bool := false
  /-- the input-loss sequence, R409; reset none -/
  inputLoss : InputLoss := .none
  /-- the tick at which PWR_EN last fell, R412; reset 0 -/
  pwrEnLowAt : Nat := 0
  /-- the tick at which P56V last left the blades, R32; reset 0 -/
  absentAt : Nat := 0
  /-- PWR.INPUT.INPUT_MV, R414; reset 0 -/
  inputMv : BitVec 16 := 0
  deriving DecidableEq, Repr

/-- A message the management controller sent (R400, R442). -/
structure MctpMsg where
  bus : Bus
  command : BitVec 8
  value : BitVec 16
  extra : List Byte
  /-- CLASS: 1 power and meter relay, 2 firmware messages (R453) -/
  cls : BitVec 8 := 1
  deriving DecidableEq, Repr

/-- What lever 3 does at a step boundary (R403, R405). -/
inductive BatchMove where
  | hold | halve | double
  deriving DecidableEq, Repr

/-- The governor, the managers and the thermal ladder (R396 to R414). -/
structure Gov where
  /-- last cap accepted on bus A, W, R400; reset none -/
  capA : Option Nat := none
  /-- last cap accepted on bus B, R400; reset none -/
  capB : Option Nat := none
  /-- the last cap accepted from either manager, W, R396, R400; reset 1,200 (R396) -/
  capLast : Nat := 1200
  /-- PWR.MGR.ORPHAN_CAP, R414; reset 1,200 -/
  orphanCap : Nat := 1200
  /-- PWR.MGR.ACTIVE_A, R414; reset 0 -/
  activeA : Bool := false
  /-- PWR.MGR.ACTIVE_B, R414; reset 0 -/
  activeB : Bool := false
  /-- a manager has been heard on bus A, R401; reset no -/
  heardA : Bool := false
  /-- a manager has been heard on bus B, R401; reset no -/
  heardB : Bool := false
  /-- the tick a manager was last heard, R401, PWR.MGR.SILENT_S; reset 0 -/
  heardAt : Nat := 0
  /-- PWR.CAP.ORPHAN, R414; reset 0 -/
  orphan : Bool := false
  /-- input cap active, R396; reset no -/
  inputCap : Bool := false
  /-- flow cap active, R396; reset no -/
  flowCap : Bool := false
  /-- thermal cap, R396, R411; reset none -/
  thermalCap : Option Nat := none
  /-- latest P100, PWR.INPUT.P100_W, R414; reset 0 -/
  p100 : Nat := 0
  /-- windows of the running peak, R397; reset none -/
  peak : Option Nat := none
  /-- windows since the last peak ended, R397; reset DESIGN CHOICE 1,000, no peak before (log 4) -/
  sincePeak : Nat := 1000
  /-- windows since the cap was last lowered, R397; reset DESIGN CHOICE 1,000 (log 4) -/
  sinceLower : Nat := 1000
  /-- PWR.LEVERS.TARGET_MHZ, R414; reset 1,750 -/
  targetMhz : Nat := 1750
  /-- PWR.LEVERS.PROMPT_PAUSE, R414; reset 0 -/
  promptPause : Bool := false
  /-- the governor wants lever 2, taken at the step boundary, R403; reset no -/
  pauseAsked : Bool := false
  /-- lever 3: what each step boundary does to its field's limit, R403, R405; reset hold -/
  batchMove : BatchMove := .hold
  /-- PWR.BATCH_f.LIMIT by field, R414; reset 0 -/
  batch : Tab Nat := []
  /-- PWR.LEVERS.PARKED, R414; reset 0 -/
  parked : BitVec 4 := 0
  /-- fields parked by the thermal ladder, R411; reset 0 -/
  thermalParked : BitVec 4 := 0
  /-- fields in the order in which the governor parked them, with their pre-park power, R404, R405; reset empty -/
  parkOrder : List (Nat × Nat) := []
  /-- PWR.CAP.LAG, R414; reset 0 -/
  lag : Bool := false
  /-- metered energy and tick at the start of the lag episode, R407; reset 0, 0 -/
  lagStart : Nat × Nat := (0, 0)
  /-- THERM.STATUS.MAX_C, R414; reset 0 -/
  maxC : Nat := 0
  /-- THERM.STATUS.HOT_ISLAND, R414; reset 0 -/
  hotIsland : BitVec 8 := 0
  /-- THERM.STATUS.INLET_C, R414; reset 0 -/
  inletC : Nat := 0
  /-- the input is at 44 V or above but below 50 V, R408; reset no -/
  inputLow : Bool := false
  /-- messages sent to the rack managers, oldest first, R400; reset empty -/
  out : List MctpMsg := []
  /-- in-band interrupts raised, oldest first, by bus, R29, R401; reset empty -/
  ibis : List Bus := []
  /-- the clock of each array island as the last governor actuation set it, MHz, R19, R403, R415; reset 1,750 -/
  clock : Tab Nat := []
  /-- I3C dynamic address of bus A, R29; reset none -/
  addrA : Option (BitVec 7) := none
  /-- I3C dynamic address of bus B, R29; reset none -/
  addrB : Option (BitVec 7) := none
  deriving DecidableEq, Repr

/-! ### Faults and injection (23), test (25) -/

/-- An injection slot (R480). -/
structure InjSlot where
  arm : Bool := false
  rep : Bool := false
  detector : BitVec 8 := 0
  island : BitVec 8 := 0
  fired : BitVec 8 := 0
  loc : BitVec 64 := 0
  pattern : BitVec 64 := 0
  /-- the tick of the last firing, R479 -/
  lastAt : Nat := 0
  deriving DecidableEq, Repr

/-- The progress of a fatal event (R474). -/
inductive FatalPhase where
  | none
  /-- steps 1 to 3 done, step 4 may be under way -/
  | stopped
  /-- step 5 done -/
  | completed
  deriving DecidableEq, Repr

/-- Fault registers, history and fences (R467 to R481). -/
structure Faults where
  /-- FAULT.STATUS.FATAL, R480; reset 0 -/
  fatal : Bool := false
  /-- the fatal sequence's progress, R474; reset none -/
  fatalPhase : FatalPhase := .none
  /-- the detector lets requests be parked, R475; reset no -/
  fatalMayPark : Bool := false
  /-- the fatal event needs a cycle of PWR_EN, R474; reset no -/
  fatalRails : Bool := false
  /-- FAULT.STATUS.TEST, R480; reset 0 -/
  test : Bool := false
  /-- FAULT.TEST.SCOPE, R480; reset 0 -/
  testScope : BitVec 3 := 0
  /-- FAULT.TEST.REMAIN, R480; reset 0 -/
  remain : Nat := 0
  /-- the history ring by slot, R471; reset empty -/
  ring : Tab HistEntry := []
  /-- FAULT.STATUS.NEXT, R480; reset 0 -/
  next : Nat := 0
  /-- FAULT.STATUS.WRAPPED, R480; reset 0 -/
  wrapped : Bool := false
  /-- the tick of the newest entry, R471; reset 0 -/
  newestAt : Nat := 0
  /-- FAULT.CORR_d by detector, R473; reset 0 -/
  corr : Tab Nat := []
  /-- FAULT.CFG.FATAL_PARK_MS, R480; reset 500 -/
  fatalParkMs : BitVec 16 := 500
  /-- FAULT.INJ_k, R480; reset 0 -/
  inj : Tab InjSlot := []
  /-- fenced units by tile index, R480; reset none -/
  fencedUnits : List Nat := []
  /-- non-injected class-1 events of units with their ticks, R470; reset none -/
  unitEvents : List (Nat × Nat) := []
  /-- section fences in force: field, section, ISLAND and WHERE, R135, R469; reset none -/
  sectionFences : List (Nat × Nat × Nat × Nat) := []
  /-- fenced stacks, R469; reset none -/
  fencedStacks : BitVec 16 := 0
  /-- fenced channels, R469; reset none -/
  fencedChannels : BitVec 16 := 0
  /-- fenced bands, R487; reset none -/
  fencedBands : BitVec 4 := 0
  /-- fatal event already copied since the reset, R474; reset no -/
  fatalCopied : Bool := false
  /-- the last-fatal copy that the boot read from the record store, R480; reset DESIGN CHOICE none (log 3) -/
  lastFatalCopy : Option (Nat × List HistEntry) := none
  /-- the event sequence number to issue next, R21; reset 1 -/
  nextSeq : Nat := 1
  /-- recorded events other than history entries: number and kind, R21; reset empty -/
  events : List (Nat × Nat × BitVec 64) := []
  /-- FAULT.TRACE_BASE.BASE, R512; reset 0 -/
  traceBase : BitVec 52 := 0
  /-- FAULT.TRACE_CTRL.ENABLE, R512; reset 0 -/
  traceEn : Bool := false
  /-- FAULT.TRACE_CTRL.ENTRIES, R512; reset 0 -/
  traceEntries : BitVec 17 := 0
  /-- FAULT.TRACE_CTRL.LOST, R512; reset 0 -/
  traceLost : BitVec 8 := 0
  /-- FAULT.TRACE_PTR.TAIL, R512; reset 0 -/
  traceTail : BitVec 16 := 0
  /-- FAULT.TRACE_PTR.HEAD, R512; reset 0 -/
  traceHead : BitVec 16 := 0
  deriving DecidableEq, Repr

/-- TEST.LINK_l (R501). -/
structure TestLink where
  mode : BitVec 2 := 0
  prbs31 : Bool := false
  bits : BitVec 64 := 0
  errors : BitVec 64 := 0
  laneErr : BitVec 17 := 0
  deriving DecidableEq, Repr

/-- TEST.MEM (R501). -/
structure TestMem where
  /-- TEST.MEM.TARGET, R501; reset 0 -/
  target : BitVec 5 := 0
  /-- TEST.MEM.MODE, R501; reset 0 -/
  mode : BitVec 2 := 0
  /-- TEST.MEM.BUSY, R501; reset 0 -/
  busy : Bool := false
  /-- TEST.MEM.REFUSED, R501; reset 0 -/
  refused : Bool := false
  /-- TEST.MEM.PASS, R501; reset 0 -/
  pass : Bool := false
  /-- TEST.MEM.FAILS, R501; reset 0 -/
  fails : BitVec 32 := 0
  deriving DecidableEq, Repr

/-! ### Meter (20) -/

/-- A meter record's header fields (R425). -/
structure MeterRec where
  kind : Nat
  event : Nat
  noTime : Bool
  realigned : Bool
  sealOpen : Bool
  outOfRange : Bool
  checkFail : Bool
  powerUps : Nat
  seq : Nat
  cumStart : Nat
  cumEnd : Nat
  durationMs : Nat
  peakW : Nat
  mark : BitVec 64
  markAgeMs : Nat
  markKeyId : BitVec 64
  prevDigest : Digest
  deriving DecidableEq, Repr

/-- The metering chip (R416 to R432). Its state before first power is DESIGN CHOICE: a new meter (log 5). -/
structure Meter where
  /-- powered, R420; reset DESIGN CHOICE off (log 2) -/
  powered : Bool := false
  /-- energy accumulator, µWh, R416; reset DESIGN CHOICE 0 (log 5) -/
  accum : Nat := 0
  /-- remainder below 1 µWh, in units of mV mA samples, R416; reset DESIGN CHOICE 0 (log 5) -/
  rest : Nat := 0
  /-- cumulative energy register, mWh, in non-volatile storage, R418; reset DESIGN CHOICE 0 (log 5) -/
  cum : Nat := 0
  /-- OPEN records written, R425; reset DESIGN CHOICE 0 (log 5) -/
  powerUps : Nat := 0
  /-- SEQ of the last record, R425; reset DESIGN CHOICE 0 (log 5) -/
  seq : Nat := 0
  /-- the record ring by SEQ, newest 16,384 kept, R427; reset DESIGN CHOICE empty (log 5) -/
  records : List MeterRec := []
  /-- samples of meter time since power-up, 4 µs each, R416; reset 0 -/
  time : Nat := 0
  /-- meter time at which the interval began, samples, R424; reset 0 -/
  intervalAt : Nat := 0
  /-- cumulative register at the interval's start, R425; reset 0 -/
  intervalCum : Nat := 0
  /-- REALIGNED of the interval in progress, R424; reset 0 -/
  realigned : Bool := false
  /-- length of the interval in progress, ms, R424; reset 900,000 -/
  intervalMs : Nat := 900000
  /-- SEAL_OPEN seen in the interval, R429; reset 0 -/
  sealInInterval : Bool := false
  /-- OUT_OF_RANGE seen in the interval, R417; reset 0 -/
  oorInInterval : Bool := false
  /-- CHECK_FAIL seen in the interval, R419; reset 0 -/
  checkInInterval : Bool := false
  /-- MARK_REJECTED already logged in the interval, R423; reset 0 -/
  rejectLogged : Bool := false
  /-- sum of the products of the running second, R425; reset 0 -/
  secondSum : Nat := 0
  /-- latest 1-second average, W, R431; reset 0 -/
  p1s : Nat := 0
  /-- PEAK_W of the interval so far, R425; reset 0 -/
  peakW : Nat := 0
  /-- present reading outside the accuracy range, R417, R431; reset 0 -/
  oorNow : Bool := false
  /-- last accepted mark, its acceptance time in samples and its key ID, R423; reset none -/
  mark : Option (BitVec 64 × Nat × BitVec 64) := none
  /-- the seal is open, R429; reset DESIGN CHOICE closed (log 5) -/
  sealOpen : Bool := false
  /-- the latch holds an unpowered opening, R429; reset DESIGN CHOICE no (log 5) -/
  unpoweredOpening : Bool := false
  /-- inbound frames discarded, R430; reset 0 -/
  discarded : Nat := 0
  deriving DecidableEq, Repr

/-- The meter read window in the hub (R431). -/
structure MeterWindow where
  /-- METER.STATUS.LINK_OK, R431; reset 0 -/
  linkOk : Bool := false
  /-- METER.STATUS [4:1]: NO_TIME, SEAL_OPEN, OUT_OF_RANGE, CHECK_FAIL, R431; reset 0 -/
  flags : BitVec 4 := 0
  /-- METER.STATUS.ROM_VERSION, R431; reset 0 -/
  romVersion : BitVec 8 := 0
  /-- METER.STATUS.DISCARDED, R431; reset 0 -/
  discarded : BitVec 16 := 0
  /-- METER.CUM, R431; reset 0 -/
  cum : Nat := 0
  /-- METER.POWER.P1S_W, R431; reset 0 -/
  p1s : BitVec 12 := 0
  /-- METER.POWER.PEAK_W, R431; reset 0 -/
  peakW : BitVec 12 := 0
  /-- METER.SEQ, R431; reset 0 -/
  seq : Nat := 0
  /-- METER.OLDEST, R431; reset 0 -/
  oldest : Nat := 0
  /-- METER.REPLAY_SEQ, R431; reset 0 -/
  replaySeq : BitVec 64 := 0
  /-- METER.REPLAY_GO.GOT, R431; reset 0 -/
  got : Nat := 0
  /-- the identity block is readable, R431; reset 0 -/
  identity : Bool := false
  /-- the recent buffer by slot, R431; reset empty -/
  recent : Tab MeterRec := []
  /-- the replay buffer, R431; reset empty -/
  replay : List MeterRec := []
  deriving DecidableEq, Repr

/-! ### Accounting (18) -/

/-- The counters of one tag, in the order of R394: CU_CYCLES, MU_CYCLES, T1_BYTES, T2_BYTES, HOST_BYTES, LINK_0 to LINK_5,
ACTIVITY, ENERGY. -/
structure TagCounters where
  cuCycles : BitVec 64 := 0
  muCycles : BitVec 64 := 0
  t1Bytes : BitVec 64 := 0
  t2Bytes : BitVec 64 := 0
  hostBytes : BitVec 64 := 0
  links : Tab (BitVec 64) := []
  activity : BitVec 64 := 0
  energy : BitVec 64 := 0
  deriving DecidableEq, Repr

/-- The counters that a snapshot copies (R393). -/
structure Counters where
  /-- per-tag counters, R389, R394; reset 0 -/
  tags : Tab TagCounters := []
  /-- UNTAGGED_ACT, R394; reset 0 -/
  untagged : BitVec 64 := 0
  /-- UNATTRIBUTED, R394; reset 0 -/
  unattributed : BitVec 64 := 0
  /-- TRANSIT_l, R394; reset 0 -/
  transit : Tab (BitVec 64) := []
  /-- WINDOW_BYTES, R394; reset 0 -/
  windowBytes : BitVec 64 := 0
  deriving DecidableEq, Repr

/-- Accounting (R387 to R394). -/
structure Acct where
  /-- the live counters, R394; reset 0 -/
  live : Counters := {}
  /-- the snapshot bank, R393; reset 0 -/
  snap : Counters := {}
  /-- ACCT.SNAP.DONE, R394; reset 0 -/
  done : Bool := false
  /-- ACCT.CFG.PERIOD_MS, R394; reset 1,000 -/
  periodMs : BitVec 16 := 1000
  /-- ACCT.CFG.BASE_W, R394; reset 0 -/
  baseW : BitVec 12 := 0
  /-- meter reading at the last apportionment, mWh, R391; reset 0 -/
  lastMeter : Nat := 0
  /-- ACTIVITY of each tag at the last apportionment, R391; reset 0 -/
  lastActivity : Tab (BitVec 64) := []
  /-- UNTAGGED_ACT at the last apportionment, R391; reset 0 -/
  lastUntagged : BitVec 64 := 0
  deriving DecidableEq, Repr

end Sys2Proof.Machine
end

