-- ==== Sys2Proof/Machine/ArrayParts.lean ====
section
/-!
DEFINITION. Parts of State: fields and sequencers, skein cache, translation, the array's units and threads, memory tiers, moons.
Each field's docstring names its rule and, after "reset", the value State.reset gives it; a value without a rule names its log entry.
-/

namespace Sys2Proof.Machine

/-- A byte memory: addresses strictly rising, no byte equal to the unlisted byte 0 (log 6). -/
abbrev Memory := List Host.Cell

/-! ### Translation (08) -/

/-- Where a page lies (R187). -/
inductive PlaceCode where
  | tier1 | fieldPool | modulePool | window
  deriving DecidableEq, Repr

/-- What a page belongs to: what may move and what an UNMAP or a layout change sees (R187, R194, R287, R333). -/
inductive PageOwner where
  | host
  /-- a tier-1 copy of a shard: manifest digest and index (R333) -/
  | shard (model : Digest) (index : Nat)
  /-- a KV page of a request: index, page number, draft list (R292) -/
  | kv (req : Nat) (page : Nat) (draft : Bool)
  /-- the logits range of a configuration (R287) -/
  | logits (config : Nat)
  /-- batch block or moon window, in the firmware reserve (R210, R287) -/
  | firmware
  deriving DecidableEq, Repr

/-- One translation page of a field (R187). Its frames are the first frame number of its place, in 4 KiB units. -/
structure Page where
  dva : Nat
  bytes : Nat
  place : PlaceCode
  frame : Nat
  write : Bool
  demotable : Bool
  /-- the page was demoted to the field pool (R194) -/
  demoted : Bool
  touch : Nat
  owner : PageOwner
  deriving DecidableEq, Repr

/-- A page move in progress (R194): the field, the DVA of its page, up or down, and the target frame. -/
structure PageMove where
  field : Nat
  dva : Nat
  promote : Bool
  frame : Nat
  deriving DecidableEq, Repr

/-! ### The array (03, 04, 06) -/

/-- An entry of a vector or scalar lane with its context tag (R84). A scalar word stands in bits [31:0]. -/
structure Item where
  tag : Nat
  data : Vec
  deriving DecidableEq, Repr

/-- A loop counter at run time (R53, R54). -/
structure CounterRun where
  value : Int := 0
  start : Int := 0
  bound : Int := 0
  running : Bool := false
  /-- runs released by START tokens or by an outer advance -/
  released : Nat := 0
  deriving DecidableEq, Repr

/-- A stream context at run time (R65 to R72, R228 to R230). Its position in three dimensions is one count of elements. -/
structure StreamRun where
  /-- elements issued -/
  next : Nat := 0
  /-- elements that have taken effect, in stream order -/
  finished : Nat := 0
  /-- EXT0 of the run when it comes from a scalar input -/
  ext0 : Option Nat := none
  inFlight : Nat := 0
  outOfRange : Nat := 0
  /-- vectors in the RELAY ring, which lies in SRAM, and its pointers, R69 -/
  ringCount : Nat := 0
  ringRead : Nat := 0
  ringWrite : Nat := 0
  /-- buffered indices, R229 -/
  indices : List (BitVec 32) := []
  /-- bytes of a vector being gathered, scattered or accumulated element by element -/
  part : List (BitVec 8) := []
  deriving DecidableEq, Repr

/-- Accumulator tile `tile` comes into a frame (R172): the tile that leaves it, whether it comes back from its spill slot, bytes asked for and bytes
moved of the transfers, those of the leaving tile first. -/
structure TileSwap where
  frame : Nat
  tile : Nat
  old : Option Nat
  back : Bool
  issued : Nat
  moved : Nat
  deriving DecidableEq, Repr

/-- A token that waits at a control output under the fence (R88). -/
structure WaitToken where
  co : Nat
  token : Byte
  /-- sent-entry counts per fenced output when it began to wait -/
  fence : List (Nat × Nat)
  deriving DecidableEq, Repr

/-- The matrix engine of a CU (R48 to R51, R132, R136, R150). An accumulator is 128 bits: fixed point in the low 64, FP32 in the low 32,
sliced in all. -/
structure Matrix where
  weight : List Vec := []
  weightScales : List Vec := []
  shadow : List Vec := []
  shadowScales : List Vec := []
  bankB : Bool := false
  row : Nat := 0
  tile : Nat := 0
  /-- the window's K loop has ended: its bank closes before another row is taken, R49 -/
  due : Bool := false
  /-- the open bank: rows of 64 accumulators -/
  openBank : Tab (List (BitVec 128)) := []
  /-- the closed bank that drains, its rows, and the output vectors that have left -/
  closedBank : Tab (List (BitVec 128)) := []
  closedRows : Nat := 0
  drained : Nat := 0
  /-- MFMT 12: exponent entries of the open bank's rows and columns, R149 -/
  openExp : List Nat := []
  openCols : List Nat := []
  /-- MFMT 12: exponent entries of the closed bank's rows and columns -/
  closedExp : List Nat := []
  closedCols : List Nat := []
  deriving DecidableEq, Repr

/-- One unit of the array (R44 to R72, R86, R113). -/
structure TileUnit where
  /-- context slots of the unit: the unit's configuration of each slot, R58 -/
  slots : Tab UnitCfg := []
  /-- the active slot, R58; reset DESIGN CHOICE 0 (log 160) -/
  active : Nat := 0
  /-- the section that is active in the unit -/
  sectionId : Option Nat := none
  pendingSwap : Bool := false
  counters : Tab CounterRun := []
  predicate : Option Bool := none
  predLevel : Nat := 6
  /-- control inputs that delivered END_SECTION or ABORT -/
  ended : BitVec 4 := 0
  /-- control inputs that delivered FLUSH, END_SECTION or ABORT in a drain -/
  flushed : BitVec 4 := 0
  /-- END_SECTION has been put to the active control outputs -/
  endEmitted : Bool := false
  flushEmitted : Bool := false
  /-- the drain has stopped the unit, R117 -/
  stopped : Bool := false
  /-- ABORT discards further firings of the context, R86 -/
  aborted : Bool := false
  /-- input FIFOs by port number, R57 -/
  fifos : Tab (List Item) := []
  /-- tokens that wait at control outputs -/
  waits : List WaitToken := []
  /-- result of each stage in the previous firing, R137 source 11 -/
  latches : Tab Lanes := []
  /-- per-column operands of the window and residual rows, by drain entry (residuals at 16 + entry), R141 -/
  perCol : Tab (List (BitVec 64)) := []
  matrix : Matrix := {}
  streams : Tab StreamRun := []
  /-- the stream context each address generator served last, R65 -/
  genLast : Tab Nat := []
  /-- SRAM as bytes, R59; empty dispatch flag -/
  sram : Memory := []
  emptyRun : Bool := false
  /-- accumulator tile in each frame of the unit's accumulator memory, and tiles spilled, R172 -/
  frames : List (Nat × Nat) := []
  spilled : List Nat := []
  /-- a tile on its way into its frame, R172 -/
  swap : Option TileSwap := none
  /-- ARITH_OVF raised in this section, R135 -/
  ovfRaised : Bool := false
  deriving DecidableEq, Repr

/-- An entry on its way: its destination number, the entry, and whether it is a token (R80, R82). -/
structure Flying where
  dest : Nat
  item : Item
  deriving DecidableEq, Repr

/-- A thread at run time (R81, R114). -/
structure Thread where
  /-- credits the source holds for each destination, default 8 -/
  credits : Tab Nat := []
  flying : List Flying := []
  /-- credits on their way back, by destination -/
  returning : Tab Nat := []
  sent : Nat := 0
  /-- the section whose first entry has passed the release rule, R114 -/
  lastSection : Option Nat := none
  /-- the section whose entries hold its credits, R84 -/
  owner : Option Nat := none
  deriving DecidableEq, Repr

/-- The array: units by tile index 40 × row + column; threads by field, slot and index packed as (field × 4 + slot) × 65,536 + index. -/
structure Grid where
  /-- units, R45, R59; reset all empty, contents DESIGN CHOICE 0 (log 6) -/
  units : Tab TileUnit := []
  /-- threads of resident skeins, R76; reset none -/
  threads : Tab Thread := []
  /-- island cycle counters that faults and park records read, by island, R20; reset 0 -/
  cycles : Tab (BitVec 64) := []
  /-- detections a unit has raised in the command at work, for the fault manager: tile, detector, WHERE bits above the tile, R468; reset none -/
  reports : List (Nat × Nat × Nat) := []
  /-- entries on their way to an exit when their slot was filled again: section, thread, destination, whether END_SECTION, R110; reset none -/
  leaving : List (Nat × Nat × Nat × Bool) := []
  deriving DecidableEq, Repr

/-! ### Skeins and sections (05, 07) -/

/-- A verified skein image of the cache, with the copy of its header (R105). -/
structure CachedSkein where
  img : SkeinImage
  lastUse : Nat
  deriving DecidableEq, Repr

/-- A context slot of a field (R58, R107): the checked skein, and its largest island bound B_q (R174). -/
structure Slot where
  skein : Option SkeinImage := none
  /-- the status a failed refill left, R485 -/
  refillFail : Option (BitVec 16) := none
  /-- largest B_q, R174 -/
  bound : Nat := 0
  deriving DecidableEq, Repr

/-- Why a section ends early (R116, R117, R122, R193, R378). -/
inductive EndCause where
  /-- PARK descriptor: its acceptance number, RELEASE, SCAN -/
  | park (acc : Nat) (release scan : Bool)
  /-- active in the field while a PARK drains another section: one record per section, R116 -/
  | parkWith (release scan : Bool)
  | inputPark
  | governor
  /-- abort with the completing status -/
  | abort (status : BitVec 16)
  deriving DecidableEq, Repr

/-- The life of a sequenced section (R108 to R112, R117). -/
inductive SecPhase where
  /-- holds a sequencer entry, not yet sent -/
  | queued
  /-- scalars, START and END_SECTION sent -/
  | dispatched
  /-- a run-empty or scan drain runs -/
  | draining
  /-- a scan drain has stopped it and its entries in flight have landed, R124 -/
  | settled
  /-- parked in place by the governor -/
  | parkedInPlace
  deriving DecidableEq, Repr

/-- A feed of a section (R233). -/
structure Feed where
  port : Nat
  expects : Nat
  accepted : Nat
  delivered : Nat
  /-- entries delivered before the section's last RESUME (R237; log 150) -/
  before : Nat
  deriving DecidableEq, Repr

/-- A tier request of a stream context (R67): elements first to first + count - 1 of its run, the tier address of each, and the data of a write. -/
structure TierReq where
  tile : Nat
  ctx : Nat
  field : Nat
  places : List Nat
  first : Nat
  count : Nat
  write : Bool
  data : List (BitVec 8)
  /-- a spill transfer: places of 64 bytes each, first is the offset in the frame, R172 -/
  spill : Bool := false
  deriving DecidableEq, Repr

/-- Where a unit stands in a section when it parks (R113, R118). -/
inductive UnitPhase where
  /-- the section is active in it -/
  | atWork
  /-- it has swapped away from the section, or waits to -/
  | swapped
  /-- it is still in an earlier section -/
  | ahead
  deriving DecidableEq, Repr

/-- One unit of a park record (R118): its tile in the field as 40 × row + column, and the unit's state of R72 with its data records. -/
structure SavedUnit where
  tile : Nat
  phase : UnitPhase
  unit : TileUnit
  /-- the release form: the claimed SRAM is in the record, R119 -/
  withSram : Bool
  /-- tier requests that a scan drain found in flight, R124 -/
  requests : List TierReq
  deriving DecidableEq, Repr

/-- A section in a field's sequencer (R108, R166, R236). Steps and prefill sections of the firmware have no descriptor. -/
structure Section where
  id : Nat
  acc : Option Nat
  slot : Nat
  /-- the skein that its slot held when it was accepted -/
  image : Option SkeinImage
  scalars : List Nat
  empty : Bool
  phase : SecPhase
  why : Option EndCause
  watchdog : Nat
  wdCount : Nat
  progress : Bool
  idleEn : Bool
  idleLimit : Nat
  idle : Nat
  fed : Bool
  feeds : List Feed
  blockAddr : BitVec 64
  bound : Nat
  outOfRange : Nat
  /-- control edge threads that delivered END_SECTION -/
  exits : List Nat
  /-- requests it serves, with the chunk or row positions it brings them; prefill or step -/
  serves : List (Nat × Nat)
  isPrefill : Bool
  /-- serving configuration of a step or prefill section -/
  config : Option Nat
  /-- moon calls in flight for it -/
  calls : Nat
  /-- accounting tag, none for the firmware's sections -/
  tag : Option Nat
  /-- counts of a firmware section, split over its requests at its end, R388 -/
  counts : TagCounters
  /-- resumed from a park record, with the units still to be restored (R121) -/
  restored : Bool
  restore : List SavedUnit
  /-- tier-1 frames that its release-form record takes where the reserves hold none: first frame and number, R191 -/
  room : Option (Nat × Nat) := none
  deriving DecidableEq, Repr

/-- A waiting fill of a slot (R107): its descriptor, or none for a refill. -/
structure FillWait where
  field : Nat
  slot : Nat
  acc : Option Nat
  img : SkeinImage
  report : BitVec 64
  deriving DecidableEq, Repr

/-- The step of a field, from its dispatch to the last of its samples (R286 to R297). -/
structure StepRun where
  config : Nat
  /-- its decode rows: request and acceptance number -/
  rows : List (Nat × Nat)
  /-- its ride-along chunks: request, first position and count -/
  chunks : List (Nat × Nat × Nat)
  /-- the tree depth that the draft's section at work finds, none for the verifying step -/
  depth : Option Nat
  /-- tokens of the tree nodes found so far, by decode row -/
  nodes : List (List (BitVec 32))
  /-- the section at work -/
  sectionId : Nat
  /-- that section has completed, and its logits can be read -/
  ended : Bool
  deriving DecidableEq, Repr

/-- One field (R16, R108, R118). -/
structure Field where
  /-- bands of the field, R16 -/
  bands : List Nat
  /-- interleave list of tier 1, R189 -/
  stackList : List Nat
  /-- interleave list of the field pool, R189 -/
  chanList : List Nat
  slots : Tab Slot
  /-- the sequencer, at most 8, oldest first, R108 -/
  seq : List Section
  /-- sections that wait in the control plane for an entry, R108 -/
  waiting : List Section
  pages : List Page
  asleep : Bool
  /-- dispatches are held, R484 -/
  held : Bool
  /-- the step in flight or between its sections, R287, R296 -/
  step : Option StepRun
  /-- entries held in the translation cache of every band of the field: section and DVA of the page, R192 -/
  trans : List (Nat × Nat) := []
  /-- the page lists that the firmware has published for its dispatches: the KV pages as they stood then, R217 -/
  lists : List Page := []
  deriving DecidableEq, Repr

/-- A park record (R118): FORM, REASON and what the section needs to go on. The record of a governor park has handle 0, which no descriptor names. -/
structure ParkRec where
  handle : Nat
  field : Nat
  form : Nat
  reason : Nat
  slot : Nat
  bands : Nat
  headerHash : Digest
  profile : List Nat
  /-- RECORD_DIGEST -/
  digest : Digest
  units : List SavedUnit
  feeds : List Feed
  exits : List Nat
  scalars : List Nat
  empty : Bool
  idleEn : Bool
  idleLimit : Nat
  watchdog : Nat
  outOfRange : Nat
  /-- number of the section, and queue and SEQ of its descriptor -/
  sectionId : Nat
  origin : Nat × Nat
  /-- no fence has taken part of its state, R123 -/
  valid : Bool
  /-- tier-1 frames of its field that hold it, where the reserves had no room, R191 -/
  room : Option (Nat × Nat) := none
  deriving DecidableEq, Repr

/-- A COPY at work (R234, R240, R352): where it goes, its bytes, and how many have moved. -/
structure CopyRun where
  acc : Nat
  tag : Nat
  srcPlace : Nat
  dstPlace : Nat
  field : Nat
  /-- for a feed: queue and SEQ of its target, and the section once the target is known -/
  target : Nat × Nat
  secId : Option Nat
  port : Nat
  src : Nat
  dst : Nat
  length : Nat
  /-- host source bytes -/
  data : List Byte
  moved : Nat
  /-- member of a batch, R240 -/
  batched : Bool
  /-- its batch has closed, or it has none -/
  started : Bool
  /-- status found while moving, when not OK -/
  fault : Option (BitVec 16)
  deriving DecidableEq, Repr

/-- A LOAD_SKEIN or MOON_LOAD between its copy and its decision (R106, R209). -/
structure LoadRun where
  acc : Nat
  field : Nat
  slot : Nat
  report : BitVec 64
  abort : Bool
  skein : Option SkeinImage
  moon : Option MoonImage
  /-- its signature block, R97 -/
  signed : SignedBlock
  mask : BitVec 16
  index : Nat
  /-- a moon program that has passed its checks and waits for queued calls of its slot, R227 -/
  checked : Bool
  deriving DecidableEq, Repr

/-- Fields, sections, cache and the DMA work of descriptors. -/
structure Fields where
  /-- FLD.LAYOUT.JOIN, R394; reset 0 -/
  join : BitVec 3 := 0
  /-- FLD.LAYOUT.USE, R394; reset 0 -/
  use : BitVec 4 := 0
  /-- formed fields by number, R381; reset none -/
  fields : Tab Field := []
  /-- FLD.CLK_FLOOR_f.FLOOR_MHZ, R394; reset 600 -/
  floorMhz : Tab (BitVec 11) := []
  /-- FLD.PARK_RANK_f.RANK, R413; reset 0 -/
  parkRank : Tab (BitVec 2) := []
  /-- the skein cache, at most 1,024, by cache number, R105; reset empty -/
  cache : Tab CachedSkein := []
  /-- the next cache number and use stamp, R105; reset 0 -/
  useStamp : Nat := 0
  /-- park records, R118; reset none -/
  parks : List ParkRec := []
  /-- the next park handle, non-zero, R274; reset DESIGN CHOICE 1 (log 8) -/
  nextHandle : Nat := 1
  /-- the number of the next section, the model's own, in order of acceptance, R108; reset 0 -/
  nextSection : Nat := 0
  /-- fills that wait for their slot, R107; reset none -/
  fills : List FillWait := []
  /-- loads whose image is being copied and hashed, R106; reset none -/
  loads : List LoadRun := []
  /-- COPYs at work in acceptance order, R234; reset none -/
  copies : List CopyRun := []
  /-- PARKs that wait for their section: acceptance numbers of the PARK and of its target, RELEASE and SCAN, R117; reset none -/
  parkWait : List (Nat × Nat × Bool × Bool) := []
  /-- retired pairs that wait for step 4 of R484, by band; reset 0 -/
  pendingPairs : Tab (BitVec 22) := []
  /-- retired pairs in force, FLD.SPARE_b.RETIRED, R493; reset no pair retired (R482, log 3) -/
  pairs : Tab (BitVec 22) := []
  /-- islands whose clock is stopped, R463; reset none -/
  stopped : BitVec 16 := 0
  deriving DecidableEq, Repr

/-! ### Memory (08) -/

/-- The tiers and their setup (R180 to R203). -/
structure Mem where
  /-- tier 1 by stack × 48 GiB + offset, R180; reset DESIGN CHOICE 0 (log 6) -/
  tier1 : Memory := []
  /-- tier 2 by channel × 256 GiB + offset, R182; reset DESIGN CHOICE 0 (log 6) -/
  tier2 : Memory := []
  /-- host memory as far as the module has written it, R257; reset empty -/
  host : Memory := []
  /-- MEMC.CFG.PRESERVE_HBM, R203; reset 0 -/
  preserveHbm : Bool := false
  /-- MEMC.CFG.FW_RESERVE_T1, R203; reset 4 -/
  fwReserve : BitVec 5 := 4
  /-- MEMC.SCRUB.HBM_HOURS, R203; reset 8 -/
  hbmHours : BitVec 8 := 8
  /-- MEMC.SCRUB.DDR_HOURS, R203; reset 24 -/
  ddrHours : BitVec 8 := 24
  /-- MEMC.REHASH.T2_HOURS, R335; reset 6 -/
  t2Hours : BitVec 8 := 6
  /-- TRANS.WINDOW.WINDOW_GIB, R203; reset 0 -/
  windowGib : BitVec 13 := 0
  /-- TRANS.POOLS.FIELD_GIB, R190; reset 16 -/
  fieldGib : BitVec 9 := 16
  /-- TRANS.POOLS.EFF_FIELD_GIB, R190; reset 0 -/
  effField : Nat := 0
  /-- TRANS.POOLS.MODULE_GIB, R190; reset 0 -/
  moduleGib : Nat := 0
  /-- TRANS.POOLS.EFF_WINDOW_GIB, R190; reset 0 -/
  effWindow : Nat := 0
  /-- stacks in service, ID.CAP.STACKS, R508; reset 0 -/
  stackSet : BitVec 16 := 0
  /-- channels in service, ID.CAP.CHANNELS, R508; reset 0 -/
  chanSet : BitVec 16 := 0
  /-- channels of the module pool's interleave list, R189; reset none -/
  poolList : List Nat := []
  /-- ID.DDR.SLOW, R508; reset 0 -/
  slow : BitVec 16 := 0
  /-- ID.DDR.SHARE_GIB, R508; reset 0 -/
  shareGib : Nat := 0
  /-- ID.DDR.UNUSED_GIB, R508; reset 0 -/
  unusedGib : Nat := 0
  /-- ranges of undefined contents: field, DVA, bytes, and the free value they begin at, R122; reset none -/
  undef : List (Nat × Nat × Nat × Nat) := []
  /-- retired 4 KiB frames: tier (1 or 2), stack or channel, frame number, R199; reset none -/
  retired : List (Nat × Nat × Nat) := []
  /-- host writes of the window that no FENCE has followed: first tier-2 key of the line, its bytes before the write, and the write's number, R258, R278;
  reset none -/
  stale : List (Nat × List Byte × Nat) := []
  /-- host writes of the window so far, R278; reset 0 -/
  winWrites : Nat := 0
  /-- page moves in progress, R194; reset none -/
  moves : List PageMove := []
  /-- module-pool frames in use: first frame, count, R190; reset none -/
  poolUsed : List (Nat × Nat) := []
  /-- tier requests in flight, oldest first, R67; reset none -/
  requests : List TierReq := []
  deriving DecidableEq, Repr

/-! ### Moons (09) -/

/-- A call of a channel (R211, R212). -/
structure MoonCallRun where
  lead : Nat
  channel : Nat
  prog : Nat
  append : Bool
  mask : BitVec 16
  argBytes : Nat
  seq : BitVec 64
  count : Nat
  layer : Nat
  args : List Byte
  /-- moons whose part has ended -/
  ended : List Nat
  field : Nat
  /-- the calling section, or the sections that ran in the field -/
  sections : List Nat
  /-- the KV rows are those of the draft list, R296 -/
  draft : Bool
  /-- results of GATHER, and the out-of-range count, R223 -/
  rows : List Byte
  outOfRange : Nat
  status : BitVec 16
  deriving DecidableEq, Repr

/-- A partial on its way to the lead's combine engine (R214): per request and head, M, L and the O cells. -/
structure MoonPartial where
  lead : Nat
  channel : Nat
  source : Nat
  cells : List (Nat × BitVec 32 × List (BitVec 256))
  deriving DecidableEq, Repr

/-- A header line that has been written and whose call has not fired (R212): its channel, the field, the section that wrote it, and the header with the
arguments as they stood at the write. -/
structure MoonHeader where
  lead : Nat
  channel : Nat
  field : Nat
  sec : Option Nat
  bytes : List Byte
  deriving DecidableEq, Repr

/-- A COMPACT that the firmware has queued at a moon (R224): byte copies of tier 1, as source and destination with a length, the client tag it serves,
and the request whose rows it moves. -/
structure MoonService where
  compact : Bool
  req : Option Nat
  copies : List (Nat × Nat × Nat)
  tag : Option Nat
  deriving DecidableEq, Repr

/-- Moons (R205 to R226). -/
structure Moons where
  /-- program slots by 16 × stack + slot, R205; reset empty -/
  progs : Tab (Option MoonImage) := []
  /-- channels whose header line was written and whose call has not fired, R212; reset none -/
  headers : List MoonHeader := []
  /-- calls that run, R212; reset none -/
  calls : List MoonCallRun := []
  /-- call queue of each moon: lead and channel, R205; reset empty -/
  queues : Tab (List (Nat × Nat)) := []
  /-- calls being forwarded: target, lead, channel, R214; reset none -/
  forwards : List (Nat × Nat × Nat) := []
  /-- partials on their way, R214; reset none -/
  partials : List MoonPartial := []
  /-- combine areas by lead × 64 + channel: request-head number with its M, L and O cells, R214; reset empty -/
  combine : Tab (List (Nat × BitVec 32 × List (BitVec 256))) := []
  /-- held result FETCHes: lead, channel, tile, context, R213; reset none -/
  fetches : List (Nat × Nat × Nat × Nat) := []
  /-- result FETCHes answered: channel key, tile, context, R213; reset none -/
  answers : List (Nat × Nat × Nat) := []
  /-- service queues by stack, R224; reset empty -/
  services : Tab (List MoonService) := []
  /-- MOON.CFG.REHASH_MIN, R226; reset 30 -/
  rehashMin : BitVec 16 := 30
  deriving DecidableEq, Repr

end Sys2Proof.Machine
end

