-- ==== Sys2Proof/Machine/FabricParts.lean ====
section
/-!
DEFINITION. Parts of State: serving and comets, the model store, the fabric and its collectives, the arbiters.
Each field's docstring names its rule and, after "reset", the value State.reset gives it; a value without a rule names its log entry.
-/

namespace Sys2Proof.Machine

/-! ### Serving (13) and comets (14) -/

/-- STATE of a request-table entry (R280). -/
inductive ReqState where
  | free | queued | prefill | decode | parked | cancelling | done
  deriving DecidableEq, Repr

/-- Where a comet goes (R313). -/
inductive CometDest where
  /-- the module pool, with the frames reserved for it (R314) -/
  | pool (frame count : Nat)
  | host (addr : Nat)
  | peer (node : Nat)
  deriving DecidableEq, Repr

/-- What asked for a park (R314). -/
inductive ParkAsk where
  | descriptor (acc : Nat)
  | idle
  | retained
  | fatal
  deriving DecidableEq, Repr

/-- A request-table entry with the firmware's request context (R280, R292). -/
structure Request where
  state : ReqState
  awaitKv : Bool
  prefillOnly : Bool
  retain : Bool
  parkEn : Bool
  noDeadline : Bool
  cls : BitVec 6
  ride : Bool
  tag : BitVec 8
  config : Nat
  tokens : Nat
  promptTokens : Nat
  maxNew : Nat
  kvDone : Nat
  generated : Nat
  steps : Nat
  rngSeed : BitVec 64
  due : Nat
  parkLimit : Nat
  idle : Nat
  field : Nat
  /-- the open descriptor it completes; none for a retained entry -/
  acc : Option Nat
  /-- acceptance order -/
  order : Nat
  outAddr : Nat
  /-- generation index whose token lies at outAddr: 0, or the comet's GENERATED (R321) -/
  base : Nat
  /-- committed token IDs of all positions -/
  ids : List (BitVec 32)
  /-- pages received by KV_SHIP (R301) -/
  received : List Nat
  /-- parked and retained (R304) -/
  retained : Bool
  /-- a park at work: who asked, and where to; the place of a PARK that waits for the step boundary is not chosen yet -/
  park : Option (ParkAsk × Option CometDest)
  /-- the PARK descriptor that waits for the step boundary -/
  parkDesc : Option ParkDesc
  /-- state before the park (R316) -/
  before : ReqState
  /-- requests that cancelled it and complete after it (R303) -/
  cancels : List Nat
  /-- pages it has allocated in each list; KV content lies at its pages -/
  pages : Nat
  draftPages : Nat
  deriving DecidableEq, Repr

/-- A serving configuration (R283) with its skein record (R309). -/
structure ServConfig where
  block : ServeConfigBlock
  record : Digest
  /-- nodes of its tree, R283 -/
  nodes : Nat
  /-- bytes of one KV page, R217 -/
  pageBytes : Nat
  /-- header hashes of its own and its draft's prefill and decode skeins as it was defined: they pin their images (R105, R283) -/
  skeins : List Digest
  deriving DecidableEq, Repr

/-- A request that passed its checks and waits for a FREE entry (R285). -/
structure Waiter where
  acc : Nat
  req : Request
  /-- a comet to restore, with its handle in the module pool, and whether its page digests are right -/
  comet : Option (Comet × Option Nat × Bool)
  deriving DecidableEq, Repr

/-- A comet of the module pool (R313) with the frames it takes. -/
structure PoolComet where
  comet : Comet
  bytes : Nat
  frame : Nat
  frames : Nat
  /-- made on this module -/
  identity : Digest
  /-- the header is signed -/
  signed : Bool
  /-- MAGIC, FORMAT, HEADER_BYTES and the length are right (R307, R308) -/
  formed : Bool := true
  deriving DecidableEq, Repr

/-- Serving and comets. -/
structure Serving where
  /-- the request table: entries that are not FREE, R280; reset all FREE -/
  reqs : Tab Request := []
  /-- SERVE_MODE MODE: firmware mode, R282; reset table mode -/
  firmware : Bool := false
  /-- RIDE_MASK, R282; reset 0 -/
  rideMask : BitVec 64 := 0
  /-- RIDE_CHUNK, R282; reset 512 -/
  rideChunk : Nat := 512
  /-- RIDE_ROWS, R282; reset 512 -/
  rideRows : Nat := 512
  /-- SLICE_MODULES, R282; reset 1 -/
  sliceModules : Nat := 1
  /-- valid serving configurations, R283; reset none -/
  configs : Tab ServConfig := []
  /-- expert maps by configuration, R254; reset none -/
  experts : Tab (List ExpertEntry) := []
  /-- replica groups, R383; reset none -/
  groups : Tab (List Nat) := []
  /-- the trust list, R319; reset empty -/
  trust : List Digest := []
  /-- requests that wait for an entry, in acceptance order, R285; reset none -/
  waiters : List Waiter := []
  /-- comets of the module pool by handle, R313; reset none -/
  comets : Tab PoolComet := []
  /-- the next comet handle, R313; reset DESIGN CHOICE 1 (log 8) -/
  nextComet : Nat := 1
  /-- samples that wait for their commit: field, acceptance number of the request, and what was sampled, R297, R302; reset none -/
  samples : List (Nat × Nat × Commit) := []
  /-- cancels and parks whose target has no entry yet: acceptance numbers of the command and of its target, and a PARK's fields, R324; reset none -/
  holds : List (Nat × Nat × Option ParkDesc) := []
  /-- KV_SHIPs in progress: acceptance number, request and its acceptance number, bytes, pages, RELEASE, R300; reset none -/
  ships : List (Nat × Nat × Nat × Nat × Nat × Bool) := []
  deriving DecidableEq, Repr

/-! ### Model store (15) -/

/-- A resident shard copy (R331, R336). -/
structure ShardCopy where
  index : Nat
  bytes : Nat
  dva : Nat
  digest : Digest
  frame : Nat
  quarantined : Bool
  /-- tick of its entry or last pass, R335 -/
  since : Nat
  deriving DecidableEq, Repr

/-- A model of the store or a field (R328). -/
structure Model where
  digest : Digest
  manifest : Manifest
  copies : List ShardCopy
  deriving DecidableEq, Repr

/-- A WEIGHT_LOAD at work (R331). -/
structure WeightRun where
  acc : Nat
  manifest : Manifest
  dest : Option Nat
  srcPlace : Nat
  field : Nat
  shardAddr : Nat
  tag : Nat
  next : Nat
  last : Nat
  loaded : Nat
  deriving DecidableEq, Repr

/-- The model store and weight copies. -/
structure Models where
  /-- store models, at most 1,024, R328; reset empty -/
  store : List Model := []
  /-- models with tier-1 copies, by field, R333; reset none -/
  tier1 : Tab (List Model) := []
  /-- the owner list, R327; reset empty -/
  owners : List (BitVec 64) := []
  /-- WEIGHT_LOADs at work, in acceptance order, R331; reset none -/
  loads : List WeightRun := []
  deriving DecidableEq, Repr

/-! ### Fabric (16) -/

/-- FAB.LINK_l STATE (R362). -/
inductive LinkState where
  | down | training | up | upSpare | failed
  deriving DecidableEq, Repr

/-- A fabric link (R341 to R345, R362). -/
structure Link where
  /-- FAB.LINK_l ENABLE, R362; reset 1 -/
  enable : Bool := true
  /-- FAB.LINK_l STATE, R362; reset 0 down -/
  state : LinkState := .down
  /-- FAB.LINK_l PEER, R362; reset 0xF_FFFF -/
  peer : BitVec 20 := 0xFFFFF
  /-- FAB.LINK_l CORR, R362; reset 0 -/
  corr : Nat := 0
  /-- FAB.LINK_l RETRIES, R362; reset 0 -/
  retries : Nat := 0
  /-- a fast retrain runs, R344; reset no -/
  fast : Bool := false
  /-- spare lane in use during this power-up: the replaced lane, R362 SPARED; reset 31 -/
  spared : Nat := 31
  /-- last flit received good and in order, R343; reset DESIGN CHOICE 4,095, before 0 (log 9) -/
  rxSeq : BitVec 12 := 4095
  /-- a bad flit was seen and its resend is awaited, R344; reset no -/
  rxBad : Bool := false
  /-- resends of the awaited flit, R344; reset 0 -/
  resends : Nat := 0
  /-- SEQ of the next flit sent, R343; reset DESIGN CHOICE 0 (log 9) -/
  txSeq : BitVec 12 := 0
  /-- flits kept until acknowledged, R344; reset empty -/
  retry : List Flit := []
  /-- flits put on the wire, oldest first; reset empty -/
  wire : List Flit := []
  /-- egress credits by channel 2 × TC + VC, R345; reset 512 -/
  credits : Tab Nat := []
  /-- packets queued for egress by channel, as flits, R345; reset empty -/
  queues : Tab (List Flit) := []
  /-- the packet being received on each channel, R353; reset none -/
  rx : Tab (List (BitVec 8)) := []
  /-- credits to return to the partner by channel, R345; reset 0 -/
  toReturn : Tab Nat := []
  /-- codewords sent since the last control flit, at most 63, R343; reset 63 -/
  sinceCtrl : Nat := 63
  /-- the tick of the last flit of the packet being received, by channel, R353; reset none -/
  rxAt : Tab Nat := []
  /-- the lane that a fast retrain replaces, R344; reset 31, none -/
  swapLane : Nat := 31
  /-- lost, and fenced until a retrain reaches STATE 2 or 3, R344, R469; reset no -/
  fenced : Bool := false
  /-- the tick of the last corrected event recorded, R344; reset none -/
  eventAt : Option Nat := none
  /-- codewords that an injection slot still spoils, R479; reset 0 -/
  injLeft : Nat := 0
  /-- the resend episode at hand comes from an injection slot alone, R472; reset no -/
  spoiled : Bool := false
  deriving DecidableEq, Repr

/-- A routing entry (R348). -/
structure Route where
  lo : BitVec 20 := 0
  hi : BitVec 20 := 0
  egress : BitVec 3 := 0
  dim : BitVec 2 := 0
  dateline : Bool := false
  valid : Bool := false
  tcMask : BitVec 4 := 0
  deriving DecidableEq, Repr

/-- An accept-list entry (R362). -/
structure Accept where
  lo : BitVec 20 := 0
  hi : BitVec 20 := 0
  valid : Bool := false
  deriving DecidableEq, Repr

/-- What a transfer serves at its source (R352, R300, R357). -/
inductive TxUse where
  | kvShip (acc : Nat)
  | comet (req : Nat)
  /-- rows of a section of this module for a remote expert, R254: its field and number -/
  | feed (field sec : Nat)
  | collective (group : Nat)
  deriving DecidableEq, Repr

/-- A transfer at its source (R352). -/
structure TxRun where
  id : Nat
  dest : BitVec 20
  kind : Nat
  use : TxUse
  bytes : List Byte
  acked : Nat
  sent : Nat
  /-- WINDOW_US when the transfer started (R362) -/
  window : Nat
  /-- tick at which each packet was first sent, or its window restarted, and at which it was last sent, by packet number -/
  times : Tab (Nat × Nat)
  tag : BitVec 8
  arg0 : BitVec 8
  arg1 : BitVec 8
  arg2 : BitVec 16
  arg3 : BitVec 16
  deriving DecidableEq, Repr

/-- A transfer at its receiver (R352, R357). -/
structure RxRun where
  src : BitVec 20
  id : Nat
  kind : Nat
  accepted : Nat
  unacked : Nat
  bytes : List Byte
  finished : Bool
  tag : BitVec 8
  /-- room reserved for a comet, R357 -/
  room : Option CometDest
  handle : Nat
  deriving DecidableEq, Repr

/-- A collective group (R358). -/
structure CollGroup where
  nodes : List (BitVec 20)
  joinWait : Nat
  /-- collectives accepted for the group, in order: acceptance number and fields -/
  queue : List (Nat × CopyDesc)
  deriving DecidableEq, Repr

/-- The phases of an instance (R360). -/
inductive CollPhase where
  | setup (pass : Nat)
  | reduce (step : Nat)
  | delivery (step : Nat)
  deriving DecidableEq, Repr

/-- The running instance of a group on this module (R360). -/
structure CollRun where
  group : Nat
  acc : Nat
  d : CopyDesc
  phase : CollPhase
  cells : List (BitVec 256)
  /-- converted segments by segment number -/
  out : Tab (List Byte)
  deriving DecidableEq, Repr

/-- The fabric. -/
structure Fabric where
  /-- FAB.NODE.NODE_ID, R362; reset 0xF_FFFF -/
  nodeId : BitVec 20 := 0xFFFFF
  /-- FAB.COORD, R362; reset 0 -/
  coord : BitVec 18 := 0
  /-- FAB.DIMS, R362; reset 0 -/
  dims : BitVec 21 := 0
  /-- FAB.ACK.WINDOW_US, R362; reset 64 -/
  windowUs : BitVec 11 := 64
  /-- FAB.RT_CTRL.BUSY, R362; reset 0 -/
  busy : Bool := false
  /-- FAB.RT_CTRL.RESULT, R362; reset 0 -/
  result : Nat := 0
  /-- FAB.RT_CTRL.FIRST_BAD, R362; reset 0 -/
  firstBad : Nat := 0
  /-- staging bank, R348, R351; reset no VALID entry, the other fields DESIGN CHOICE 0 (log 9) -/
  staging : Tab Route := []
  /-- active bank, R348, R351; reset no VALID entry -/
  active : Tab Route := []
  /-- FAB.ACCEPT, R362; reset 0 -/
  accept : Tab Accept := []
  /-- links, R362; reset at their reset values -/
  links : Tab Link := []
  /-- transfers at their source, R352; reset none -/
  tx : List TxRun := []
  /-- transfers at this receiver, R352; reset none -/
  rx : List RxRun := []
  /-- results of the firmware's feed transfers: identity, status and bytes acknowledged, R10, R352; reset none -/
  feedEnds : List (Nat × BitVec 16 × Nat) := []
  /-- the next TRANSFER_ID, R347; reset DESIGN CHOICE 0 (log 9) -/
  nextId : Nat := 0
  /-- packets received whole that have not been routed: link, class, VC, R348, R349; reset empty -/
  arrived : List (Nat × Nat × Bool × Packet) := []
  /-- packets delivered to this module and not yet taken, with their class, R349, R352; reset empty -/
  delivered : List (Packet × Nat) := []
  /-- collective groups, R358; reset none -/
  groups : Tab CollGroup := []
  /-- running instances, R360; reset none -/
  runs : List CollRun := []
  deriving DecidableEq, Repr

/-! ### Arbiters (17) -/

/-- One arbiter (R366 to R369). Its requesters' pending requests are the requests that the rest of State holds. -/
structure Arbiter where
  /-- WAIT by requester number, R366; reset 0 -/
  waits : Tab Nat := []
  /-- PROGRESS of the request at the head of each requester's queue, R368; reset 0 -/
  progress : Tab Nat := []
  /-- deficits by class, R367; reset 0 -/
  deficits : Tab Int := []
  /-- the last forced winner, R366; reset none -/
  lastForced : Option Nat := none
  /-- the last winner of each class, R366; reset none -/
  lastWinner : Tab (Option Nat) := []
  /-- the grant holder, and whether it won by force, R368; reset none -/
  holder : Option (Nat × Bool) := none
  /-- pending requests whose beats here are all done, by key; reset none -/
  served : List Nat := []
  deriving DecidableEq, Repr

/-- The arbiters. -/
structure Arbiters where
  /-- arbiters by key (Arbiters: arbKey), R364; reset empty -/
  arbs : Tab Arbiter := []
  /-- ARB.HBM, R379; reset 32, 64, 64 -/
  hbm : BitVec 32 := 0x04010020
  /-- ARB.DDR0, R379; reset 32, 64, 64 -/
  ddr0 : BitVec 32 := 0x04010020
  /-- ARB.DDR1, R379; reset 64, 1,023 -/
  ddr1 : BitVec 32 := 0x000FFC40
  /-- ARB.MU, R379; reset 8, 8, 64 -/
  mu : BitVec 32 := 0x04002008
  /-- ARB.LINK, R379; reset 16 -/
  link : BitVec 32 := 16
  /-- ARB.FETCH, R379; reset 64 -/
  fetch : BitVec 32 := 64
  /-- ARB.HASH, R379; reset 16, 256 -/
  hash : BitVec 32 := 0x00040010
  /-- ARB.WDOG.STEP_TICKS, R379; reset 10,000 -/
  stepTicks : BitVec 16 := 10000
  deriving DecidableEq, Repr

end Sys2Proof.Machine
end

