-- ==== Sys2Proof/Machine/State.lean ====
section
/-!
DEFINITION. The state of the block, its reset, and the reasons a step can stop.
A field's own reset value stands with it in HostParts, ArrayParts and FabricParts; State.reset takes every one of them.
-/

namespace Sys2Proof.Machine

/-- The state of Vararn in its module, with the queue of the commands that wait (first in, first out). -/
structure State where
  /-- power entry and pins (02) -/
  entry : Entry
  /-- boot and reset registers (21, 22) -/
  boot : Boot
  /-- record store (21, 24) -/
  store : Store
  /-- SPDM responder (21) -/
  spdm : Spdm
  /-- host interface (12, 26) -/
  host : HostIf
  /-- governor and managers (19) -/
  gov : Gov
  /-- faults, history, injection, trace (23, 26) -/
  faults : Faults
  /-- TEST.LINK_l (25) -/
  testLinks : Tab TestLink
  /-- TEST.MEM (25) -/
  testMem : TestMem
  /-- metering chip (20) -/
  meter : Meter
  /-- meter read window (20) -/
  window : MeterWindow
  /-- accounting (18) -/
  acct : Acct
  /-- fields, sequencers, skein cache, park records, descriptor DMA (05, 07, 18) -/
  fld : Fields
  /-- the array (03, 04, 06) -/
  grid : Grid
  /-- memory tiers (08) -/
  mem : Mem
  /-- moons (09) -/
  moons : Moons
  /-- serving and comets (13, 14) -/
  serv : Serving
  /-- model store (15) -/
  models : Models
  /-- fabric (16) -/
  fab : Fabric
  /-- arbiters (17) -/
  arbs : Arbiters
  /-- control ticks since power-on (R22); reset DESIGN CHOICE 0 (log 1) -/
  tick : Nat
  /-- the model's own counter of free values taken; reset DESIGN CHOICE 0 (log 10) -/
  fresh : Nat
  /-- the commands that wait, first in, first out; reset empty -/
  pending : List Instr
  deriving DecidableEq, Repr

/-- The module as it stands before P56V reaches its blades: every register at the value its table gives for power-on, nothing mapped,
loaded or queued, a new record store and a new meter (R7, R461; log 2, 3, 5, 6). -/
def State.reset : State where
  entry := {}
  boot := {}
  store := {}
  spdm := {}
  host := {}
  gov := {}
  faults := {}
  testLinks := []
  testMem := {}
  meter := {}
  window := {}
  acct := {}
  fld := {}
  grid := {}
  mem := {}
  moons := {}
  serv := {}
  models := {}
  fab := {}
  arbs := {}
  tick := 0
  fresh := 0
  pending := []

/-- The reasons a step can end in a fault. No command of the manual stops the block: a fault of Vararn is an entry of its history and a fence
(R467), so nothing raises this one. -/
inductive Fault where
  /-- raised by no meaning; safe -/
  | none
  deriving DecidableEq, Repr

/-- The reasons a command has no meaning. -/
inductive Refusal where
  /-- raised by an arm of exec whose command is not modelled yet; safe -/
  | notModelled (mnemonic : String)
  deriving DecidableEq, Repr

end Sys2Proof.Machine
end

