-- ==== Sys2Proof/Machine/Table.lean ====
section
/-!
DEFINITION. Sparse tables and byte memories. A table holds its keys in strictly rising order and no value equal to its default, so equal tables
are equal lists; a table of present things has no default. A memory is a table of bytes whose default is 0 (log 6).
-/

namespace Sys2Proof.Machine

/-- The value at a key, if the table lists one. -/
def tfind {α : Type} (k : Nat) : Tab α → Option α
  | [] => none
  | (j, v) :: t => if j = k then some v else tfind k t

/-- The value at a key, d where the table lists none. -/
def tget {α : Type} (d : α) (k : Nat) (t : Tab α) : α := (tfind k t).getD d

/-- The table without a key. -/
def tdel {α : Type} (k : Nat) : Tab α → Tab α
  | [] => []
  | (j, v) :: t => if j = k then tdel k t else (j, v) :: tdel k t

/-- The table with v at k, in key order. -/
def tput {α : Type} (k : Nat) (v : α) : Tab α → Tab α
  | [] => [(k, v)]
  | (j, w) :: t => if k < j then (k, v) :: (j, w) :: t else if k = j then (k, v) :: t else (j, w) :: tput k v t

/-- The table with v at k, the default d unlisted. -/
def tset {α : Type} [DecidableEq α] (d : α) (k : Nat) (v : α) (t : Tab α) : Tab α := if v = d then tdel k t else tput k v t

/-- Change the value at a key by f, with default d. -/
def tmod {α : Type} [DecidableEq α] (d : α) (k : Nat) (f : α → α) (t : Tab α) : Tab α := tset d k (f (tget d k t)) t

/-- Change the value at a key by f where the table lists one. -/
def tup {α : Type} (k : Nat) (f : α → α) (t : Tab α) : Tab α :=
  match tfind k t with
  | some v => tput k (f v) t
  | none => t

/-- Every key exceeds k. -/
def tabove {α : Type} (k : Nat) (t : Tab α) : Bool := t.all fun e => decide (k < e.1)

/-- Keys strictly rise. -/
def trising {α : Type} : Tab α → Bool
  | [] => true
  | (k, _) :: t => tabove k t && trising t

/-- The canonical form of a table with default d. -/
def tcanon {α : Type} [DecidableEq α] (d : α) (t : Tab α) : Bool := trising t && t.all fun e => decide (e.2 ≠ d)

/-- The canonical form of a byte memory: addresses strictly rise and no entry is 0. -/
def memWf (m : List Host.Cell) : Bool := tcanon (0 : Byte) m

/-- The byte at an address; an unlisted one reads as 0 (log 6). -/
def mread (m : List Host.Cell) (a : Nat) : Byte := tget (0 : Byte) a m

/-- Write one byte. -/
def mwrite (m : List Host.Cell) (a : Nat) (b : Byte) : List Host.Cell := tset (0 : Byte) a b m

/-- Read n bytes from a. -/
def mreads (m : List Host.Cell) (a : Nat) : Nat → List Byte
  | 0 => []
  | n + 1 => mread m a :: mreads m (a + 1) n

/-- Write bytes from a upward. -/
def mwrites (m : List Host.Cell) (a : Nat) : List Byte → List Host.Cell
  | [] => m
  | b :: bs => mwrites (mwrite m a b) (a + 1) bs

/-- The memory with every byte of [a, a + n) back to 0. -/
def mclear (m : List Host.Cell) (a n : Nat) : List Host.Cell := m.filter fun c => !(decide (a ≤ c.1) && decide (c.1 < a + n))

/-- The bytes of [a, a + n) as cells. -/
def mslice (m : List Host.Cell) (a n : Nat) : List Host.Cell := m.filter fun c => decide (a ≤ c.1) && decide (c.1 < a + n)

end Sys2Proof.Machine
end

