-- ==== Sys2Proof/Machine/Ops.lean ====
section
/-!
DEFINITION. Operations that many commands share: status codes, recorded events, the fault history and its trace, interrupts, completion posting,
the acceptance and the end of a descriptor, FENCE, and the mailbox.
-/

namespace Sys2Proof.Machine

/-! ### Status codes (R9) -/

/-- The 16-bit code of a status (R9). -/
def statusCode : Status → BitVec 16
  | .ok => 0x0000 | .okEmpty => 0x0001
  | .shapeExceedsPlan => 0x0101 | .badAlignment => 0x0102 | .bufferTooSmall => 0x0103 | .countMismatch => 0x0104
  | .pathUnbalanced => 0x0105 | .accumOverCapacity => 0x0106 | .noPlacement => 0x0107 | .slotConflict => 0x0108
  | .signatureFail => 0x0109 | .digestFail => 0x010A | .profileMismatch => 0x010B
  | .cancelled => 0x0201 | .alreadyDone => 0x0202 | .parked => 0x0203 | .stallDetected => 0x0204
  | .capLag => 0x0301
  | .fencedUnit => 0x0401 | .linkDown => 0x0402 | .quarantinedShard => 0x0403 | .deviceFatal => 0x04FF

/-- The code of an opcode (R271). -/
def opcodeCode : Opcode → BitVec 8
  | .nop => 0x00 | .fence => 0x01 | .timeMark => 0x02 | .copy => 0x10 | .loadSkein => 0x20 | .runSection => 0x21
  | .moonLoad => 0x22 | .weightLoad => 0x30 | .requestSubmit => 0x40 | .requestCancel => 0x41 | .park => 0x42
  | .resume => 0x43 | .kvShip => 0x44

/-- The codes that R271 lists; every other one is reserved. -/
def opcodeKnown (c : BitVec 8) : Bool :=
  [0x00, 0x01, 0x02, 0x10, 0x20, 0x21, 0x22, 0x30, 0x40, 0x41, 0x42, 0x43, 0x44].contains c.toNat

/-- The opcode's descriptor is open-ended (R271). -/
def opcodeOpenEnded (c : BitVec 8) : Bool := [0x21, 0x40, 0x43].contains c.toNat

/-! ### What the module can do at the moment -/

/-- A port of the CXL attachment is up (R256). -/
def linkUp (s : State) : Bool := s.host.up0 || (s.host.twoPorts && s.host.up1)

/-- BAR0 and BAR2 can be reached: main domain on, PERST# released, link up, no warm reset between its steps 3 and 7 (R457, R503). -/
def barOpen (s : State) : Bool := s.entry.main && !s.entry.perst && linkUp s && !s.boot.warmBusy

/-- Firmware runs and dispatch has not been stopped by a fatal event (R435, R474). -/
def running (s : State) : Bool := s.boot.stage == .ready && s.entry.main && !s.boot.warmBusy && s.faults.fatalPhase == .none

/-- A queue's port is up, or it may fail over to one that is (R259). -/
def queueLink (s : State) (q : Queue) : Bool :=
  if s.host.twoPorts then
    if q.port then s.host.up1 || (q.failover && s.host.up0) else s.host.up0 || (q.failover && s.host.up1)
  else s.host.up0

/-- The registers of a queue. -/
def queueAt (s : State) (q : Nat) : Queue := tget ({} : Queue) q s.host.queues

/-- Replace the host interface. -/
def setHost (s : State) (h : HostIf) : State := { s with host := h }

/-- Replace one queue. -/
def setQueue (s : State) (q : Nat) (v : Queue) : State := setHost s { s.host with queues := tset ({} : Queue) q v s.host.queues }

/-- Bytes the module writes to host memory (R257, R258). -/
def hostWrite (s : State) (a : Nat) (bs : List Byte) : State := { s with mem := { s.mem with host := mwrites s.mem.host a bs } }

/-! ### Recorded events and the fault history (R21, R471 to R473, R512) -/

/-- Take the next event sequence number for an event of a kind: 1 fence action, 2 governor actuation, 3 field park, 4 field unpark,
5 TIME_MARK (R21). -/
def recordEvent (kind : Nat) (v : BitVec 64) (s : State) : State :=
  { s with faults := { s.faults with nextSeq := s.faults.nextSeq + 1, events := s.faults.events ++ [(s.faults.nextSeq, kind, v)] } }

/-- The 32 bytes of a history entry (R472). -/
def histBytes (e : HistEntry) : List Byte :=
  leBytes 8 e.seq ++ [e.island, e.detector, BitVec.ofNat 8 (e.cls.toNat + 4 * b2n e.injected), e.scope] ++ leBytes 8 e.cycles.toNat
    ++ leBytes 8 e.loc.toNat ++ leBytes 2 e.status.toNat ++ leBytes 2 (min e.repeated 65535)

/-- Copy an entry into the trace ring in host memory (R512). -/
def traceEntry (e : HistEntry) (s : State) : State :=
  let f := s.faults
  let n := f.traceEntries.toNat
  if !f.traceEn then s
  else if linkUp s && (f.traceTail.toNat + 1) % n != f.traceHead.toNat then
    hostWrite { s with faults := { f with traceTail := BitVec.ofNat 16 ((f.traceTail.toNat + 1) % n) } }
      (f.traceBase.toNat * 4096 + 32 * f.traceTail.toNat) (histBytes e)
  else { s with faults := { f with traceLost := satAdd f.traceLost 1 } }

/-- Write an entry into the history ring and the trace (R471, R512). -/
def pushHistory (e : HistEntry) (s : State) : State :=
  let f := s.faults
  let e := { e with seq := f.nextSeq }
  traceEntry e { s with faults := { f with
    nextSeq := f.nextSeq + 1
    ring := tput f.next e f.ring
    wrapped := f.wrapped || (tfind f.next f.ring).isSome
    next := (f.next + 1) % Config.historyDepth
    newestAt := s.tick } }

/-- The newest entry of the ring and its slot. -/
def newestEntry (s : State) : Option (Nat × HistEntry) :=
  let k := (s.faults.next + Config.historyDepth - 1) % Config.historyDepth
  (tfind k s.faults.ring).map fun e => (k, e)

/-- Record a detection (R471, R473): a corrected one like the newest entry and within 1 ms of it only adds to its REPEAT. -/
def logDetection (island detector : BitVec 8) (cls : BitVec 2) (injected : Bool) (scope : BitVec 8) (cycles loc : BitVec 64)
    (status : BitVec 16) (s : State) : State :=
  let s := if cls = 0 then { s with faults := { s.faults with corr := tmod 0 detector.toNat (· + 1) s.faults.corr } } else s
  let fresh : HistEntry := { seq := 0, island, detector, cls, injected, scope, cycles, loc, status, repeated := 0 }
  match newestEntry s with
  | some (k, e) =>
    if cls = 0 ∧ e.cls = 0 ∧ e.island = island ∧ e.detector = detector ∧ e.loc = loc ∧ s.tick < s.faults.newestAt + 1000 then
      { s with faults := { s.faults with ring := tput k { e with repeated := min 65535 (e.repeated + 1) } s.faults.ring } }
    else pushHistory fresh s
  | none => pushHistory fresh s

/-- WHERE of a tile (R468). -/
def tileLoc (t : Nat) : Nat := t / 40 + 256 * (t % 40)

/-! ### Interrupts (R268, R269) -/

/-- Send a vector's message, or set its pending bit while it is masked or the link is down (R268, log 11). -/
def raiseVector (v : Nat) (s : State) : State :=
  let e := tget ({} : MsixEntry) v s.host.msix
  if e.masked || !linkUp s then setHost s { s.host with msix := tset {} v { e with pending := true } s.host.msix }
  else setHost s { s.host with irqs := s.host.irqs ++ [v] }

/-- Send a queue's coalesced message: count and timer restart (R269, R279). -/
def sendQueueIrq (q : Nat) (s : State) : State :=
  let x := queueAt s q
  let s := setQueue s q { x with pendCount := 0, coalStart := none }
  raiseVector x.vector.toNat s

/-- Count a posted completion and send the message when it is due (R269). -/
def countCompletion (q : Nat) (irqNow : Bool) (s : State) : State :=
  let x := queueAt s q
  if !x.irqEn then s
  else
    let n := x.pendCount + 1
    let s := setQueue s q { x with pendCount := n, coalStart := some (x.coalStart.getD s.tick) }
    if x.coalCount.toNat ≤ n ∨ irqNow = true ∨ x.coalTicks = 0 then sendQueueIrq q s else s

/-! ### Completions (R266, R267, R273) -/

/-- The 32 bytes of a completion entry (R273). -/
def completionBytes (q : Nat) (x : Queue) (c : Completion) : List Byte :=
  leBytes 2 c.status.toNat ++ leBytes 2 c.seq.toNat ++ leBytes 2 q ++ leBytes 2 x.sqHead.toNat ++ leBytes 8 c.mark.toNat
    ++ leBytes 8 c.result0.toNat ++ leBytes 4 c.result1.toNat ++ [c.opcode, c.tag, 0, BitVec.ofNat 8 (b2n x.phase + 2 * b2n c.info)]

/-- Write SQ_HEAD and CQ_TAIL to the shadow line (R266). -/
def writeShadow (q : Nat) (s : State) : State :=
  let x := queueAt s q
  if x.shadow = 0 then s
  else hostWrite s (x.shadow.toNat * 64) (leBytes 2 x.sqHead.toNat ++ leBytes 2 x.cqTail.toNat ++ zeros 60)

/-- The completion ring is full (R267). -/
def ringFull (x : Queue) : Bool := decide ((x.cqTail.toNat + 1) % x.cqSize.toNat = x.cqHead.toNat)

/-- Write a completion into its ring: index CQ_TAIL, phase, shadow line, interrupt count (R266, R269). -/
def writeCompletion (q : Nat) (c : Completion) (s : State) : State :=
  let x := queueAt s q
  let s := hostWrite s (x.cqBase.toNat * 4096 + 32 * x.cqTail.toNat) (completionBytes q x c)
  let t := (x.cqTail.toNat + 1) % x.cqSize.toNat
  let s := setQueue s q { x with cqTail := BitVec.ofNat 16 t, phase := if t = 0 then !x.phase else x.phase }
  countCompletion q c.irqNow (writeShadow q s)

/-- Post a completion (R259, R266, R267): hold it behind held ones, while the port is down, or under OVERFLOW_STALL; drop it on a full ring. -/
def post (q : Nat) (c : Completion) (s : State) : State :=
  let x := queueAt s q
  if c.info then
    if x.held ≠ [] ∨ queueLink s x = false ∨ ringFull x = true then setQueue s q { x with infoLost := satAdd x.infoLost 1 }
    else writeCompletion q c s
  else if x.held ≠ [] ∨ queueLink s x = false then setQueue s q { x with held := x.held ++ [c] }
  else if ringFull x then
    if x.overflowStall then setQueue s q { x with held := x.held ++ [c] }
    else raiseVector 1024 (setQueue s q { x with cqOvf := true })
  else writeCompletion q c s

/-- Post held completions while the ring has room and the port is up (R259, R267); n bounds their number. -/
def releaseHeld (q : Nat) : Nat → State → State
  | 0, s => s
  | n + 1, s =>
    let x := queueAt s q
    match x.held with
    | [] => s
    | c :: cs =>
      if queueLink s x = false then s
      else if ringFull x then
        if x.overflowStall then s
        else releaseHeld q n (raiseVector 1024 (setQueue s q { x with held := cs, cqOvf := true }))
      else releaseHeld q n (writeCompletion q c (setQueue s q { x with held := cs }))

/-! ### Open descriptors (R270, R277, R278) -/

/-- The open descriptors. -/
def setOpens (s : State) (o : Tab OpenDesc) : State := setHost s { s.host with opens := o }

/-- Set the phase of an open descriptor. -/
def setPhase (acc : Nat) (p : DescPhase) (s : State) : State := setOpens s (tup acc (fun d => { d with phase := p }) s.host.opens)

/-- The completion entry of an open descriptor (R273). -/
def completionOf (d : OpenDesc) (st : BitVec 16) (r0 : Nat) (r1 : Nat) : Completion :=
  { status := st, seq := d.seq, mark := d.mark, result0 := BitVec.ofNat 64 r0, result1 := BitVec.ofNat 32 r1, opcode := d.op,
    tag := d.tag, irqNow := d.irqNow, info := false }

/-- Close an open descriptor and post its completion. -/
def closeDesc (acc : Nat) (st : BitVec 16) (r0 r1 : Nat) (s : State) : State :=
  match tfind acc s.host.opens with
  | none => s
  | some d => post d.q (completionOf d st r0 r1)
      (setHost s { s.host with opens := tdel acc s.host.opens, closed := (d.q, d.seq.toNat) :: s.host.closed.filter (· != (d.q, d.seq.toNat)) })

/-- A descriptor no longer holds back a FENCE: it is open-ended and placed (R278). -/
def passesFence (d : OpenDesc) : Bool := opcodeOpenEnded d.op && d.phase == .placed

/-- Every descriptor that the FENCE acc waits for has completed or is placed (R278). -/
def fenceDone (opens : Tab OpenDesc) (acc : Nat) (d : OpenDesc) : Bool :=
  opens.all fun e => decide (acc ≤ e.1) || passesFence e.2 || (!d.allQueues && e.2.q != d.q)

/-- The first FENCE at work that may complete. -/
def readyFence (opens : Tab OpenDesc) : Option Nat :=
  (opens.find? fun e => e.2.op == 0x01 && e.2.phase == .running && fenceDone opens e.1 e.2).map (·.1)

/-- Every window write that a FENCE covers is visible to later device reads (R278). -/
def fenceWindow (acc : Nat) (s : State) : State :=
  match tfind acc s.host.opens with
  | none => s
  | some d => { s with mem := { s.mem with stale := s.mem.stale.filter fun (e : Nat × List Byte × Nat) => decide (d.winMark < e.2.2) } }

/-- Complete the FENCEs that may complete; n bounds their number (R278). -/
def settleFences : Nat → State → State
  | 0, s => s
  | n + 1, s =>
    match readyFence s.host.opens with
    | none => s
    | some acc => settleFences n (closeDesc acc (statusCode .ok) 0 0 (fenceWindow acc s))

/-- Complete a descriptor (R275) and the FENCEs that waited for it. -/
def finishCode (acc : Nat) (st : BitVec 16) (r0 r1 : Nat) (s : State) : State :=
  let s := closeDesc acc st r0 r1 s
  settleFences s.host.opens.length s

/-- Complete a descriptor with a status, RESULT0 and RESULT1 (R274). -/
def finish (acc : Nat) (st : Status) (r0 r1 : Nat) (s : State) : State := finishCode acc (statusCode st) r0 r1 s

/-- Complete a descriptor, if there is one. -/
def finish? (acc : Option Nat) (st : BitVec 16) (r0 r1 : Nat) (s : State) : State :=
  match acc with
  | some a => finishCode a st r0 r1 s
  | none => s

/-- An open-ended descriptor holds its sequencer entry or request-table entry (R278). -/
def place (acc : Nat) (s : State) : State :=
  let s := setPhase acc .placed s
  settleFences s.host.opens.length s

/-- Vararn may fetch from a queue: enabled, or with a burst still in flight, port up, no completion held, CQ_OVF clear (R239, R259, R264, R267). -/
def fetchOpen (s : State) (q : Nat) : Bool :=
  let x := queueAt s q
  running s && !s.host.d3hot && (x.enable || decide (0 < x.inFlight)) && queueLink s x && x.held.isEmpty && !x.cqOvf

/-- The accepted descriptor that a command takes up: the first of its queue with its SEQ and opcode that has not started. -/
def acceptedDesc (s : State) (q : Nat) (op : BitVec 8) (seq : BitVec 16) : Option Nat :=
  (s.host.opens.find? fun e => e.2.q == q && e.2.op == op && e.2.seq == seq && (e.2.phase == .accepted || e.2.phase == .held)).map (·.1)

/-- A FENCE of the queue accepted before acc is still open (R278). -/
def fenceBefore (s : State) (q acc : Nat) : Bool :=
  s.host.opens.any fun e => decide (e.1 < acc) && e.2.q == q && e.2.op == 0x01

/-- Accept one descriptor from a queue (R239): an entry between SQ_HEAD and SQ_TAIL is taken and given the next acceptance number. -/
def acceptOne (q : Nat) (d : OpenDesc) (s : State) : State :=
  let x := queueAt s q
  let head := BitVec.ofNat 16 ((x.sqHead.toNat + 1) % x.sqSize.toNat)
  let covers := match x.covers with
    | e :: l => if e.1 = head then l else e :: l
    | [] => []
  let d := { d with winMark := ((x.covers.head?).map (·.2)).getD 0 }
  let s := setQueue s q { x with sqHead := head, covers, inFlight := x.inFlight - 1 }
  setHost s { s.host with opens := tput s.host.nextAcc d s.host.opens, nextAcc := s.host.nextAcc + 1,
                          closed := s.host.closed.filter (· != (q, d.seq.toNat)) }

/-- The open descriptor that common bytes describe (R270). -/
def openOf (tick q : Nat) (op : Opcode) (h : DescHdr) (allQueues : Bool) : OpenDesc :=
  { q, op := opcodeCode op, seq := h.seq, tag := h.tag, cls := h.cls, mark := h.mark, irqNow := h.irqNow, allQueues, phase := .accepted, since := tick }

/-- Close the open COPY batch of a queue (R240). -/
def closeBatches (q : Nat) (s : State) : State :=
  { s with fld := { s.fld with copies := mapIf (fun c => (tfind c.acc s.host.opens).map (·.q) == some q) (fun c => { c with started := true }) s.fld.copies } }

/-- Take up a descriptor and run its work: an accepted one, or the next one of the ring. It starts only when dispatch has not been stopped and no
earlier FENCE of its queue is open (R277, R278, R474). -/
def withDesc (q : QId) (op : Opcode) (h : DescHdr) (allQueues : Bool) (work : Nat → State → State) (s : State) : State :=
  if !running s then s
  else
    let s := if op = .copy then s else closeBatches q s
    let go := fun (acc : Nat) (s : State) =>
      if fenceBefore s q acc then setPhase acc .held s else work acc (setPhase acc .running s)
    match acceptedDesc s q (opcodeCode op) h.seq with
    | some acc => go acc s
    | none =>
      let x := queueAt s q
      if fetchOpen s q && x.sqHead != x.sqTail then go s.host.nextAcc (writeShadow q (acceptOne q (openOf s.tick q op h allQueues) s)) else s

/-- The open descriptor that a queue and a SEQ name: the earlier-accepted one (R270, R279). -/
def targetDesc (s : State) (q seq : Nat) : Option (Nat × OpenDesc) :=
  s.host.opens.find? fun e => e.2.q == q && e.2.seq.toNat == seq

/-- The queue's port lets DMA reach host memory (R259). -/
def hostDma (s : State) (acc : Nat) : Bool :=
  match tfind acc s.host.opens with
  | some d => queueLink s (queueAt s d.q)
  | none => linkUp s

/-- Work of a descriptor that must reach host memory finds its queue's port down: it completes with LINK_DOWN (R259). -/
def hostLost (s : State) (acc : Nat) (needs : Bool) : Bool := needs && !hostDma s acc

/-! ### The mailbox (R261) -/

/-- Where a mailbox command's own answer lies in its block: the nonce of TEST_UNLOCK, the comet handle of RETAINED (R304, R477). -/
def answerAt (code : Nat) : Nat := if code = 0x0060 then 32 else 24

/-- The status and the answer of a mailbox command go into its block in host memory, where the link reaches it (R261, R304, R477). -/
def writeBlock (code : Nat) (st : Status) (extra : List Byte) (s : State) : State :=
  if linkUp s then
    let a := s.host.mboxAddr.toNat * 64
    hostWrite (hostWrite s (a + 2) (leBytes 2 (statusCode st).toNat)) (a + answerAt code) extra
  else s

/-- End a mailbox command: status and answer into its block, GO clear, vector 1,025 (R261, R509). -/
def mboxEnd (code : Nat) (st : Status) (extra : List Byte) (s : State) : State :=
  let s := writeBlock code st extra s
  raiseVector 1025 (setHost s { s.host with
    mboxRun := none
    causeMbox := true
    mboxResults := s.host.mboxResults ++ [{ command := BitVec.ofNat 16 code, status := statusCode st, extra }] })

/-- Run a mailbox command of the firmware: ignored while another one runs (R261); before READY no firmware runs it (log 12). -/
def mailbox (code : Nat) (work : State → State) (s : State) : State :=
  if !barOpen s || s.host.mboxRun.isSome then s
  else if s.boot.stage != .ready then mboxEnd code .countMismatch [] s
  else work s

/-! ### Messages to the rack managers (R400) -/

/-- A message draws its manager's attention by an in-band interrupt: it answers no request, and the bus has its dynamic address (R29, R401; log 154). -/
def interrupts (g : Gov) (m : MctpMsg) : Bool :=
  m.command != 0x81 && match m.bus with
    | .a => g.addrA.isSome
    | .b => g.addrB.isSome

/-- The manager's side of a message sent: the message itself, and the in-band interrupt that
announces an unsolicited one (R29, log 154). -/
def govSend (m : MctpMsg) (g : Gov) : Gov :=
  { g with
    out := g.out ++ [m]
    ibis := if interrupts g m then g.ibis ++ [m.bus] else g.ibis }

/-- Send a message on one bus, with the in-band interrupt that announces it. -/
def mctpSend (m : MctpMsg) (s : State) : State :=
  { s with gov := govSend m s.gov }

/-- Answer a manager with a RESPONSE that carries a status (R400). -/
def mctpRespond (b : Bus) (st : Status) (extra : List Byte) (s : State) : State :=
  mctpSend { bus := b, command := 0x81, value := statusCode st, extra } s

/-- Send a POWER_EVENT of a kind on both buses (R414). -/
def powerEvent (kind : Nat) (s : State) : State :=
  mctpSend { bus := .b, command := 0x83, value := BitVec.ofNat 16 kind, extra := [] }
    (mctpSend { bus := .a, command := 0x83, value := BitVec.ofNat 16 kind, extra := [] } s)

/-- The management controller runs: the auxiliary domain is on (R26, R29). -/
def mgmtOn (s : State) : Bool := s.entry.aux

/-! ### Free values -/

/-- Take n fresh free bytes (log 10). -/
def freeBytes (n : Nat) (s : State) : List Byte × State :=
  ((List.range n).map fun i => Config.freeByte (s.fresh + i), { s with fresh := s.fresh + n })

end Sys2Proof.Machine
end

