-- ==== Sys2Proof/Machine/Frames.lean ====
section
/-!
DEFINITION. Tier addresses (R179 to R195): interleave lists, translation of a device virtual address, the frame allocator, demotion and
promotion, the CXL.mem window, and reads and writes of a field's addresses.
-/

namespace Sys2Proof.Machine

/-- 1 GiB. -/
def gib : Nat := 1073741824
/-- Bytes of the address span that the model gives one DDR5 channel: 256 GiB (R182). -/
def channelSpan : Nat := 256 * gib

/-! ### Fields -/

/-- A formed field. -/
def fieldAt (s : State) (f : Nat) : Option Field := tfind f s.fld.fields

/-- Replace a field. -/
def setField (s : State) (f : Nat) (v : Field) : State := { s with fld := { s.fld with fields := tput f v s.fld.fields } }

/-- Change a formed field. -/
def modField (f : Nat) (g : Field → Field) (s : State) : State := { s with fld := { s.fld with fields := tup f g s.fld.fields } }

/-- The formed field that holds a band (R16). -/
def fieldOfBand (s : State) (b : Nat) : Option Nat := (s.fld.fields.find? fun e => e.2.bands.contains b).map (·.1)

/-- The band of a stack or channel (R15). -/
def bandOf (k : Nat) : Nat := k / 4

/-! ### Places (R189, R190) -/

/-- Bytes of a stack's field share (R181). -/
def stackShare (s : State) : Nat := Config.stackBytes - s.mem.fwReserve.toNat * 268435456

/-- W: GiB of the window on each channel (R190). -/
def windowPer (s : State) : Nat := if s.mem.poolList = [] then 0 else ceilDiv s.mem.effWindow s.mem.poolList.length

/-- Where chunk-interleaved byte P of a list lies: list entry and offset (R189). -/
def interleave (l : List Nat) (p : Nat) : Option (Nat × Nat) :=
  match l[p / 4096 % l.length]? with
  | some k => some (k, p / 4096 / l.length * 4096 + p % 4096)
  | none => none

/-- The memory cell of a byte: tier 1 or 2 and its key. -/
abbrev CellAt := Bool × Nat

/-- The cell of byte P of a field's tier-1 share. -/
def tier1Cell (fl : Field) (p : Nat) : Option CellAt := (interleave fl.stackList p).map fun (k, o) => (false, k * Config.stackBytes + o)

/-- The cell of byte P of a place in tier 2 that begins base GiB into each channel. -/
def tier2Cell (l : List Nat) (base p : Nat) : Option CellAt := (interleave l p).map fun (k, o) => (true, k * channelSpan + base * gib + o)

/-- The cell of byte off of a page. -/
def pageCell (s : State) (fl : Field) (pg : Page) (off : Nat) : Option CellAt :=
  let p := pg.frame * Config.frame + off
  match pg.demoted, pg.place with
  | true, _ => tier2Cell fl.chanList (windowPer s) p
  | false, .tier1 => tier1Cell fl p
  | false, .fieldPool => tier2Cell fl.chanList (windowPer s) p
  | false, .modulePool => tier2Cell s.mem.poolList (windowPer s + s.mem.effField) p
  | false, .window => tier2Cell s.mem.poolList 0 p

/-- A stack is fenced or the 4 KiB frame of a cell is retired: its data is lost (R199, R204). -/
def cellLost (s : State) (c : CellAt) : Bool :=
  let span := if c.1 then channelSpan else Config.stackBytes
  let k := c.2 / span
  (if c.1 then s.faults.fencedChannels.getLsbD k else s.faults.fencedStacks.getLsbD k)
    || s.mem.retired.contains (if c.1 then 2 else 1, k, c.2 % span / Config.frame)

/-! ### Translation (R187, R193, R210, R287) -/

/-- The page is a translation page, not a KV page. -/
def isDva (p : Page) : Bool := match p.owner with | .kv .. => false | _ => true

/-- The translation page that holds an address. -/
def pageAt (fl : Field) (a : Nat) : Option Page := fl.pages.find? fun p => isDva p && decide (p.dva ≤ a ∧ a < p.dva + p.bytes)

/-- The moon window, where it exists: FW_RESERVE_T1 is 2 or more (R191, R210). Its channel areas lie from the share's end upward (log 13). -/
def moonCell (s : State) (fl : Field) (a : Nat) : Option CellAt :=
  let k := (a - Config.moonDva) / 0x2000000
  if decide (Config.moonDva ≤ a) && decide (2 ≤ s.mem.fwReserve.toNat) && fl.stackList.contains k then
    some (false, k * Config.stackBytes + stackShare s + (a - Config.moonDva) % 0x2000000)
  else none

/-- The batch block, in the reserve of the field's lowest stack, or of tier 2 with FW_RESERVE_T1 0 (R191, R287; log 13). -/
def batchCell (s : State) (fl : Field) (a : Nat) : Option CellAt :=
  if decide (Config.batchDva ≤ a) && decide (a < Config.batchDva + 0x200000) then
    if s.mem.fwReserve.toNat = 0 then (fl.chanList.head?).map fun k => (true, k * channelSpan + (s.mem.shareGib - 1) * gib + (a - Config.batchDva))
    else (fl.stackList.head?).map fun k => (false, k * Config.stackBytes + stackShare s + 0xE000000 + (a - Config.batchDva))
  else none

/-- The cell of a device virtual address and whether it may be written; none where the address is unmapped. -/
def dvaCell (s : State) (f a : Nat) : Option (CellAt × Bool) :=
  match fieldAt s f with
  | none => none
  | some fl =>
    match pageAt fl a with
    | some p => (pageCell s fl p (a - p.dva)).map fun c => (c, p.write)
    | none =>
      match moonCell s fl a with
      | some c => some (c, true)
      | none => (batchCell s fl a).map fun c => (c, true)

/-- A range is mapped, byte by 4 KiB chunk (R166 step 3). -/
def rangeMapped (s : State) (f a n : Nat) : Bool :=
  decide (n = 0) || (List.range (ceilDiv (a % 4096 + n) 4096)).all fun i => (dvaCell s f (a / 4096 * 4096 + 4096 * i)).isSome

/-- What memory holds in a cell. -/
def cellHeld (s : State) (c : CellAt) : Byte := if c.1 then mread s.mem.tier2 c.2 else mread s.mem.tier1 c.2

/-- The byte that a device read of a cell sees: of a window line that the host has written since the last FENCE, any value that it has had since (R258). -/
def cellRead (s : State) (c : CellAt) : Byte :=
  let l := s.mem.stale.filter fun (e : Nat × List Byte × Nat) => c.1 && e.1 == c.2 / 64 * 64
  match l[l.length - Config.staleChoice (c.2 / 64 * 64) s.fresh]? with
  | some e => byteAt e.2.1 (c.2 % 64)
  | none => cellHeld s c

/-- Write a cell; the device sees its own writes. -/
def cellWrite (s : State) (c : CellAt) (b : Byte) : State :=
  if c.1 then { s with mem := { s.mem with
    tier2 := mwrite s.mem.tier2 c.2 b, stale := s.mem.stale.filter fun (e : Nat × List Byte × Nat) => e.1 != c.2 / 64 * 64 } } else { s with mem := { s.mem with tier1 := mwrite s.mem.tier1 c.2 b } }

/-- The free value at an address of undefined contents (R122; log 10). -/
def undefAt (s : State) (f a : Nat) : Option Byte :=
  (s.mem.undef.find? fun (e : Nat × Nat × Nat × Nat) => e.1 == f && decide (e.2.1 ≤ a ∧ a < e.2.1 + e.2.2.1)).map fun e => Config.freeByte (e.2.2.2 + (a - e.2.1))

/-- Take one address out of the ranges of undefined contents. -/
def defineAt (f a : Nat) (l : List (Nat × Nat × Nat × Nat)) : List (Nat × Nat × Nat × Nat) :=
  l.flatMap fun (e : Nat × Nat × Nat × Nat) =>
    if e.1 = f ∧ e.2.1 ≤ a ∧ a < e.2.1 + e.2.2.1 then
      [(f, e.2.1, a - e.2.1, e.2.2.2), (f, a + 1, e.2.1 + e.2.2.1 - (a + 1), e.2.2.2 + (a + 1 - e.2.1))].filter fun (x : Nat × Nat × Nat × Nat) => x.2.2.1 != 0
    else [e]

/-- The contents of a range become undefined: each byte a fresh free value (R122). -/
def undefine (f a n : Nat) (s : State) : State :=
  if n = 0 then s else { s with fresh := s.fresh + n, mem := { s.mem with undef := (f, a, n, s.fresh) :: s.mem.undef } }

/-- Read n bytes of a field from a; none at an unmapped or lost byte (R193, R199). -/
def readDva (s : State) (f a : Nat) : Nat → Option (List Byte)
  | 0 => some []
  | n + 1 =>
    match dvaCell s f a, readDva s f (a + 1) n with
    | some (c, _), some r => if cellLost s c then none else some ((undefAt s f a).getD (cellRead s c) :: r)
    | _, _ => none

/-- Write bytes of a field from a upward; none at an unmapped, read-only or lost byte (R193, R204). -/
def writeDva (s : State) (f a : Nat) : List Byte → Option State
  | [] => some s
  | b :: bs =>
    match dvaCell s f a with
    | some (c, true) => if cellLost s c then none else writeDva (cellWrite { s with mem := { s.mem with undef := defineAt f a s.mem.undef } } c b) f (a + 1) bs
    | _ => none

/-- Mark the page that holds an address as touched (R194). -/
def touchDva (f a : Nat) (s : State) : State :=
  let n := s.fld.useStamp
  modField f (fun fl => { fl with pages := mapIf (fun p => isDva p && decide (p.dva ≤ a ∧ a < p.dva + p.bytes)) (fun p => { p with touch := n }) fl.pages })
    { s with fld := { s.fld with useStamp := n + 1 } }

/-- Mark the pages that a range meets as touched (R194). -/
def touchRange (f a n : Nat) (s : State) : State :=
  let k := s.fld.useStamp
  modField f (fun fl => { fl with pages := mapIf (fun p => isDva p && overlaps a n p.dva p.bytes) (fun p => { p with touch := k }) fl.pages })
    { s with fld := { s.fld with useStamp := k + 1 } }

/-! ### The window (R190, R258, R506) -/

/-- The cell of byte off of the CXL.mem window; none beyond the window in force or before the layout stands. -/
def windowCell (s : State) (off : Nat) : Option CellAt :=
  if s.boot.laidOut && decide (off < s.mem.effWindow * gib) then tier2Cell s.mem.poolList 0 off else none

/-- Read n window bytes by a reader of cells; none at a lost byte. Bytes outside the window read as zero (R190). -/
def readWindowBy (rd : CellAt → Byte) (s : State) (off : Nat) : Nat → Option (List Byte)
  | 0 => some []
  | n + 1 =>
    match readWindowBy rd s (off + 1) n with
    | none => none
    | some r =>
      match windowCell s off with
      | none => some (0 :: r)
      | some c => if cellLost s c then none else some (rd c :: r)

/-- Window bytes as a device read sees them (R258). -/
def readWindow (s : State) (off n : Nat) : Option (List Byte) := readWindowBy (cellRead s) s off n

/-- Window bytes as the host sees them (R258). -/
def hostWindow (s : State) (off n : Nat) : Option (List Byte) := readWindowBy (cellHeld s) s off n

/-- Write window bytes; bytes outside the window are discarded (R190); none at a lost byte. -/
def writeWindow (s : State) (off : Nat) : List Byte → Option State
  | [] => some s
  | b :: bs =>
    match windowCell s off with
    | none => writeWindow s (off + 1) bs
    | some c => if cellLost s c then none else writeWindow (cellWrite s c b) (off + 1) bs

/-! ### Frames (R181, R188 to R194). First fit among free frames is the model's choice (log 14). -/

/-- Frames in use: first frame, stride and count. -/
abbrev Run := Nat × Nat × Nat

/-- Some frame of the strided run (g, k, m) lies in [a, a + n). -/
def runHits (a n : Nat) (r : Run) : Bool :=
  let (g, k, m) := r
  let i := ceilDiv (a - g) (max k 1)
  decide (i < m) && decide (g + i * k < a + n)

/-- Two runs share a frame; strides are 1, or the same list length. -/
def runsMeet (x y : Run) : Bool :=
  if x.2.1 = 1 then runHits x.1 x.2.2 y
  else if y.2.1 = 1 then runHits y.1 y.2.2 x
  else x.1 % x.2.1 == y.1 % x.2.1 && overlaps (x.1 / x.2.1) x.2.2 (y.1 / x.2.1) y.2.2

/-- The least x at or above e with x mod n = c. -/
def toColumn (n c e : Nat) : Nat := e + (c + n - e % n) % n

/-- The first start at which count frames of a stride are free below cap; column is start mod stride. -/
def firstFit (used : List Run) (cap stride column count : Nat) : Option Nat :=
  let starts := ((used.map fun (r : Run) => r.1 + (r.2.2 - 1) * r.2.1 + 1) ++ [0]).map (toColumn stride column)
  let ok := starts.filter fun a => decide (a + (count - 1) * stride < cap) && !used.any fun r => runsMeet (a, stride, count) r
  match ok with
  | [] => none
  | a :: l => some (l.foldl Nat.min a)

/-- The run of a page in the frames of a place with an interleave list of n. -/
def pageRun (n : Nat) (p : Page) : Run :=
  match p.owner with
  | .kv .. => (p.frame, if p.demoted then 1 else n, p.bytes / Config.frame)
  | _ => (p.frame, 1, p.bytes / Config.frame)

/-- Retired frames of a stack list as runs of the field's share (R199). -/
def retiredRuns (s : State) (tier base : Nat) (l : List Nat) : List Run :=
  s.mem.retired.filterMap fun (t, k, fr) =>
    if t = tier ∧ base ≤ fr then (l.findIdx? (· == k)).map fun i => ((fr - base) * l.length + i, 1, 1) else none

/-- Frames of a field's share that release-form park records hold, or will hold when their drain ends (R191). -/
def recordRuns (s : State) (f : Nat) (fl : Field) : List Run :=
  (fl.seq.filterMap (·.room) ++ (s.fld.parks.filter fun p => p.field == f).filterMap (·.room)).map fun (r : Nat × Nat) => (r.1, 1, r.2)

/-- Tier-1 frames in use by a field. -/
def usedT1 (s : State) (f : Nat) (fl : Field) : List Run :=
  ((fl.pages.filter fun p => p.place == .tier1 && !p.demoted).map (pageRun fl.stackList.length))
    ++ (s.mem.moves.filterMap fun m =>
        if m.field = f ∧ m.promote = true then (fl.pages.find? fun p => p.dva == m.dva && p.demoted).map fun p => (m.frame, (pageRun fl.stackList.length { p with demoted := false }).2.1, p.bytes / Config.frame)
        else none)
    ++ recordRuns s f fl ++ retiredRuns s 1 0 fl.stackList

/-- Frames of a field's pool in use. -/
def usedPool (s : State) (fl : Field) : List Run :=
  ((fl.pages.filter fun p => p.demoted || p.place == .fieldPool).map fun p => (p.frame, 1, p.bytes / Config.frame))
    ++ retiredRuns s 2 (windowPer s * gib / Config.frame) fl.chanList

/-- Frames of the module pool in use: mappings of every field, store copies, comets (R190). -/
def usedModule (s : State) : List Run :=
  ((s.fld.fields.flatMap fun e => e.2.pages.filter fun p => p.place == .modulePool).map fun p => (p.frame, 1, p.bytes / Config.frame))
    ++ ((s.models.store.flatMap fun m => m.copies).map fun c => (c.frame, 1, ceilDiv c.bytes Config.frame))
    ++ (s.serv.comets.map fun e => (e.2.frame, 1, e.2.frames))
    ++ (s.mem.poolUsed.map fun r => (r.1, 1, r.2))
    ++ retiredRuns s 2 ((windowPer s + s.mem.effField) * gib / Config.frame) s.mem.poolList

/-- Tier-1 frames of a field (R189). -/
def capT1 (s : State) (fl : Field) : Nat := fl.stackList.length * (stackShare s / Config.frame)
/-- Frames of a field's pool (R190). -/
def capPool (s : State) (fl : Field) : Nat := fl.chanList.length * (s.mem.effField * gib / Config.frame)
/-- Frames of the module pool (R190). -/
def capModule (s : State) : Nat := s.mem.poolList.length * (s.mem.moduleGib * gib / Config.frame)

/-- Frames in a list of runs. -/
def runsFrames (l : List Run) : Nat := sumN (l.map fun r => r.2.2)

/-- The place for one page of a size: its first frame. -/
def placeFrames (s : State) (f : Nat) (fl : Field) (pl : PlaceCode) (bytes : Nat) : Option Nat :=
  let n := bytes / Config.frame
  match pl with
  | .tier1 => firstFit (usedT1 s f fl) (capT1 s fl) 1 0 n
  | .fieldPool => firstFit (usedPool s fl) (capPool s fl) 1 0 n
  | .modulePool => firstFit (usedModule s) (capModule s) 1 0 n
  | .window => none

/-! ### The translation cache (R192), and demotion (R194) -/

/-- The tier ranges that a section's skein declares (R154 to R160). -/
def skeinRanges (img : SkeinImage) : List (Nat × Nat) :=
  img.recs.flatMap fun r => match r.body with
    | .bufferExtents l => l.map fun b => (b.base, b.bytes)
    | .spillArea l => l.map fun b => (b.base, b.bytes)
    | .handoff l => (l.filter fun h => decide (h.dir < 2)).map fun h => (h.base, h.bytes)
    | _ => []

/-- The skein in a slot of a field. -/
def slotSkein (fl : Field) (slot : Nat) : Option SkeinImage := (tget ({} : Slot) slot fl.slots).skein

/-- The skein of a section: the one its slot held when the section was accepted. -/
def secSkein (fl : Field) (x : Section) : Option SkeinImage := x.image.or (slotSkein fl x.slot)

/-- Ranges held by sections that hold a sequencer entry or wait for one (R194). -/
def heldRanges (fl : Field) : List (Nat × Nat) :=
  (fl.seq ++ fl.waiting).flatMap fun x => match secSkein fl x with | some i => skeinRanges i | none => []

/-- Entries of each band's translation cache (R192). -/
def transDepth : Nat := 32768

/-- A dispatched section's pages enter the translation cache of every band, as far as it reaches; the pages beyond are walked on demand (R192). -/
def loadTrans (x : Section) (fl : Field) : Field :=
  let ranges := match secSkein fl x with | some i => skeinRanges i | none => []
  let pages := fl.pages.filter fun p => isDva p && ranges.any fun r => overlaps r.1 r.2 p.dva p.bytes
  { fl with trans := pages.foldl (fun l p =>
      if (l.any fun e => e.2 == p.dva) || decide ((l.map (·.2)).eraseDups.length < transDepth) then l ++ [(x.id, p.dva)] else l) fl.trans }

/-- A section that has ended, or been parked, holds no entry (R192). -/
def dropTrans (id : Nat) (fl : Field) : Field := { fl with trans := fl.trans.filter fun e => e.1 != id }

/-- Requests that dispatched sections of the field serve, or its step. -/
def servedReqs (fl : Field) : List Nat :=
  ((fl.seq ++ fl.waiting).flatMap fun x => x.serves.map (·.1)) ++ (match fl.step with
    | some st => st.rows.map (·.1) ++ st.chunks.map (·.1)
    | none => [])

/-- The cell of byte off of a page as it stands, KV pages included: a KV page in tier 1 lies contiguous in its home stack (R217). -/
def unitCell (s : State) (fl : Field) (p : Page) (off : Nat) : Option CellAt :=
  match p.owner with
  | .kv .. => if p.demoted then pageCell s fl p off
    else pageCell s fl { p with frame := p.frame + off / Config.frame * fl.stackList.length } (off % Config.frame)
  | _ => pageCell s fl p off

/-- Some data of a page is lost, so that no move can copy it exactly (R194, R199, R204). -/
def pageLost (s : State) (fl : Field) (p : Page) : Bool :=
  (s.faults.fencedStacks != 0 || s.faults.fencedChannels != 0 || s.mem.retired != [])
    && (List.range (p.bytes / Config.frame)).any fun i => match unitCell s fl p (Config.frame * i) with
      | some c => cellLost s c
      | none => true

/-- A section that holds a sequencer entry or waits for one holds the page, or a dispatched section serves its request, or COMPACT moves its rows
(R194, R298). -/
def pageHeld (s : State) (fl : Field) (p : Page) : Bool := match p.owner with
  | .kv r _ _ => (servedReqs fl).contains r || s.moons.services.any fun (e : Nat × List MoonService) => e.2.any fun v => v.req == some r
  | _ => (heldRanges fl).any fun r => overlaps r.1 r.2 p.dva p.bytes

/-- The page may be demoted now (R194). A page of which a byte is lost stays where it is (log 169). -/
def mayMove (s : State) (fl : Field) (p : Page) : Bool :=
  p.place == .tier1 && !p.demoted && !pageHeld s fl p && !pageLost s fl p && match p.owner with
    | .host => p.demotable
    | .kv _ _ _ => true
    | _ => false

/-- The page that moves first: least recently touched, ties to the lower DVA (R194). -/
def oldestMovable (s : State) (fl : Field) : Option Page :=
  (fl.pages.filter (mayMove s fl)).foldl (fun best p => match best with
    | none => some p
    | some q => if p.touch < q.touch ∨ (p.touch = q.touch ∧ p.dva < q.dva) then some p else some q) none

/-- Copy n bytes cell by cell from one place to another. -/
def copyCells (s : State) (src dst : Nat → Option CellAt) : Nat → State
  | 0 => s
  | n + 1 =>
    let s := copyCells s src dst n
    match src n, dst n with
    | some a, some b => cellWrite s b (cellRead s a)
    | _, _ => s

/-- Replace one page of a list. -/
def replacePage (old new : Page) (l : List Page) : List Page := mapIf (fun p => decide (p = old)) (fun _ => new) l

/-- Move one page between tier 1 and the field pool: its bytes are copied exactly, then the translation changes (R194). A page that is lost, or whose
new place is, cannot be copied and stays (log 169). -/
def movePage (f : Nat) (p : Page) (demote : Bool) (frame : Nat) (s : State) : State :=
  match fieldAt s f with
  | none => s
  | some fl =>
    let q := { p with demoted := demote, frame }
    if pageLost s fl p || pageLost s fl q then s else
    let s := copyCells s (unitCell s fl p) (unitCell s fl q) p.bytes
    modField f (fun fl => { fl with pages := replacePage p q fl.pages }) s

/-- The free tier-1 frames of a field that a request takes (R188). -/
def tryFrames (f stride column count : Nat) (s : State) : Option Nat :=
  (fieldAt s f).bind fun fl => firstFit (usedT1 s f fl) (capT1 s fl) stride column count

/-- Demote the field's page that R194 picks, where its pool has room that is not lost. -/
def demoteOldest (f : Nat) (s : State) : Option State :=
  match fieldAt s f with
  | none => none
  | some fl =>
    match oldestMovable s fl with
    | none => none
    | some p => (placeFrames s f fl .fieldPool p.bytes).bind fun fr =>
        if pageLost s fl { p with demoted := true, frame := fr } then none else some (movePage f p true fr s)

/-- Demote pages of a field until the request fits its tier-1 frames; n bounds the moves (R194). -/
def demoteFor (f stride column count : Nat) : Nat → State → Option (Nat × State)
  | 0, s => (tryFrames f stride column count s).map fun a => (a, s)
  | n + 1, s =>
    match tryFrames f stride column count s with
    | some a => some (a, s)
    | none =>
      match demoteOldest f s with
      | none => none
      | some s => demoteFor f stride column count n s

/-- Frames for a tier-1 allocation of the field, after demotion where needed (R188, R194). -/
def allocT1 (f stride column count : Nat) (s : State) : Option (Nat × State) :=
  match fieldAt s f with
  | none => none
  | some fl => demoteFor f stride column count fl.pages.length s

/-! ### Promotion (R194, R293) -/

/-- a ranks before b: CLASS, then DUE with NO_DEADLINE last, then acceptance order (R288). -/
def outranks (a b : Request) : Bool :=
  if a.cls ≠ b.cls then decide (a.cls.toNat < b.cls.toNat)
  else if a.noDeadline ≠ b.noDeadline then b.noDeadline
  else if a.noDeadline = false ∧ a.due ≠ b.due then decide (a.due < b.due)
  else decide (a.order < b.order)

/-- Put a request in its rank. -/
def rankReq (x : Nat × Request) : List (Nat × Request) → List (Nat × Request)
  | [] => [x]
  | y :: l => if outranks x.2 y.2 then x :: y :: l else y :: rankReq x l

/-- Requests of a field in rank order. -/
def rankedReqs (s : State) (f : Nat) : List (Nat × Request) :=
  (s.serv.reqs.filter fun (e : Nat × Request) => e.2.field == f).foldl (fun l e => rankReq e l) []

/-- The state of an entry is QUEUED, PREFILL or DECODE. -/
def openState (st : ReqState) : Bool := match st with
  | .queued | .prefill | .decode => true
  | _ => false

/-- A page belongs to a request. -/
def pageOf (r : Nat) (p : Page) : Bool := match p.owner with | .kv q _ _ => q == r | _ => false

/-- Among units that may return: most recent touch first, ties to the lower DVA (R194). -/
def newestOf (l : List Page) : Option Page :=
  l.foldl (fun best p => match best with
    | none => some p
    | some q => if q.touch < p.touch ∨ (p.touch = q.touch ∧ p.dva < q.dva) then some p else some q) none

/-- The unit that returns next: a KV page of the first-ranked request that is not ready, then the others (R194, R293). -/
def newestDemoted (s : State) (f : Nat) (fl : Field) (skip : List Nat) : Option Page :=
  let may := fl.pages.filter fun p => p.demoted && !skip.contains p.dva && !pageHeld s fl p && !pageLost s fl p
  ((rankedReqs s f).findSome? fun (e : Nat × Request) => if openState e.2.state then newestOf (may.filter (pageOf e.1)) else none).or (newestOf may)

/-- The column of a KV page's home stack in the field's list: (request + page) mod n (R292). -/
def homeColumn (fl : Field) (req page : Nat) : Nat := (req + page) % fl.stackList.length

/-- Free tier-1 frames, none of them lost, for a page that moves up without demoting another (R194). -/
def promoteFrame (s : State) (f : Nat) (fl : Field) (p : Page) : Option Nat :=
  let n := fl.stackList.length
  (match p.owner with
    | .kv r pg _ => firstFit (usedT1 s f fl) (capT1 s fl) n (homeColumn fl r pg) (p.bytes / Config.frame)
    | _ => firstFit (usedT1 s f fl) (capT1 s fl) 1 0 (p.bytes / Config.frame)).filter fun fr => !pageLost s fl { p with demoted := false, frame := fr }

/-- Start promoting demoted pages while they fit; the moves end with PAGE_MOVE_DONE (R194); n bounds them. -/
def startPromotions (f : Nat) : Nat → State → State
  | 0, s => s
  | n + 1, s =>
    match fieldAt s f with
    | none => s
    | some fl =>
      match newestDemoted s f fl ((s.mem.moves.filter fun m => m.field == f).map (·.dva)) with
      | none => s
      | some p =>
        match promoteFrame s f fl p with
        | none => s
        | some fr => startPromotions f n { s with mem := { s.mem with moves := s.mem.moves ++ [{ field := f, dva := p.dva, promote := true, frame := fr }] } }

/-- Frames of the field were freed: start promotions (R194). -/
def framesFreed (f : Nat) (s : State) : State :=
  match fieldAt s f with
  | none => s
  | some fl => startPromotions f fl.pages.length s

/-! ### Accounting of bytes (R387 to R390) -/

/-- Change the counters of a tag, or the untagged activity for none. -/
def charge (tag : Option Nat) (g : TagCounters → TagCounters) (activity : Nat) (s : State) : State :=
  let c := s.acct.live
  match tag with
  | some t => { s with acct := { s.acct with live := { c with
      tags := tmod {} t (fun x => let y := g x; { y with activity := y.activity + BitVec.ofNat 64 activity }) c.tags } } }
  | none => { s with acct := { s.acct with live := { c with untagged := c.untagged + BitVec.ofNat 64 activity } } }

/-- Count tier-1 or tier-2 bytes in 64-byte beats (R389, R390). -/
def chargeTier (tag : Option Nat) (tier2 : Bool) (bytes : Nat) (s : State) : State :=
  let beats := ceilDiv bytes 64
  if tier2 then charge tag (fun x => { x with t2Bytes := x.t2Bytes + BitVec.ofNat 64 (64 * beats) }) (6 * beats) s
  else charge tag (fun x => { x with t1Bytes := x.t1Bytes + BitVec.ofNat 64 (64 * beats) }) (2 * beats) s

/-- Count CXL.io payload bytes of DMA (R389, R390). -/
def chargeHost (tag : Option Nat) (bytes : Nat) (s : State) : State :=
  charge tag (fun x => { x with hostBytes := x.hostBytes + BitVec.ofNat 64 bytes }) (3 * (bytes / 64)) s

end Sys2Proof.Machine
end

