-- ==== Sys2Proof/Machine/Geometry.lean ====
section
/-!
DEFINITION. The places of the array: column maps and profiles (R482, R483), islands (R17), tiles of a field, and the routes of threads on a map
(R76 to R79, R100, R515).
-/

namespace Sys2Proof.Machine

/-! ### Column maps and profiles -/

/-- In-service column-pairs of a band, counted upward (R482). -/
def servicePairs (retired : BitVec 22) : List Nat := (List.range 22).filter fun j => !retired.getLsbD j

/-- Retired pairs of a band. -/
def retiredCount (retired : BitVec 22) : Nat := 22 - (servicePairs retired).length

/-- The profile of a band: its mapped columns (R483); a band with five or more retired pairs keeps the columns its map gives. -/
def bandProfile (retired : BitVec 22) : Nat := min 40 (2 * (servicePairs retired).length)

/-- Physical columns of a band by logical column (R482). -/
def bandColumns (retired : BitVec 22) : List Nat := (servicePairs retired).flatMap (fun j => [2 * j, 2 * j + 1]) |>.take (bandProfile retired)

/-- The retired pairs in force in a band. -/
def bandPairs (s : State) (b : Nat) : BitVec 22 := tget 0 b s.fld.pairs

/-- The columns of each band of a field: logical to physical. -/
abbrev Geo := List (List Nat)

/-- The current map of a field's bands. -/
def geoOf (s : State) (fl : Field) : Geo := fl.bands.map fun b => bandColumns (bandPairs s b)

/-- The reference map of the same profiles: logical column c at physical column c (R515). -/
def geoRef (g : Geo) : Geo := g.map fun l => List.range l.length

/-- Profiles of a field's bands, in field order. -/
def profilesOf (g : Geo) : List Nat := g.map (·.length)

/-- A tile lies in the field (R76). -/
def inField (g : Geo) (r c : Nat) : Bool := match g[r / 10]? with | some l => decide (c < l.length) | none => false

/-- Band index and quarter of a tile (R17). -/
def islandIn (g : Geo) (r c : Nat) : Nat × Nat := (r / 10, (((g[r / 10]?).getD [])[c]?).getD 0 / 11)

/-- The first band of a field. -/
def firstBand (fl : Field) : Nat := fl.bands.headD 0

/-- The module's tile index of a field's tile: 40 × row + column of the module's grid. -/
def tileAt (fl : Field) (r c : Nat) : Nat := 40 * (10 * firstBand fl + r) + c

/-- Tiles of a field: row and column within the field, band by band, by row and then by column (R98). -/
def fieldTiles (g : Geo) : List (Nat × Nat) :=
  (List.range (10 * g.length)).flatMap fun r => (List.range ((g[r / 10]?).getD []).length).map fun c => (r, c)

/-- The band of a module tile. -/
def tileBand (t : Nat) : Nat := t / 400

/-- The array island of a module tile, 0x00 to 0x0F: band and quarter of its physical column (R17). -/
def tileIsland (s : State) (t : Nat) : Nat := 4 * tileBand t + ((bandColumns (bandPairs s (tileBand t)))[t % 40]?).getD 0 / 11

/-- The physical column-pair of a module tile. -/
def tilePair (s : State) (t : Nat) : Nat := ((bandColumns (bandPairs s (tileBand t)))[t % 40]?).getD 0 / 2

/-- The formed field that holds a module tile, with the tile's row and column in it. -/
def fieldOfTile (s : State) (t : Nat) : Option (Nat × Field × Nat × Nat) :=
  match s.fld.fields.find? fun e => e.2.bands.contains (tileBand t) with
  | some (f, fl) => some (f, fl, t / 40 - 10 * firstBand fl, t % 40)
  | none => none

/-! ### Routes -/

/-- The slot set one hop further (R78). -/
def rotSet (s : Nat) : Nat := (s * 2 + s / 128) % 256

/-- The next tile in a direction; none past the grid's top or left. -/
def hopFrom (r c : Nat) : Dir → Option (Nat × Nat)
  | .n => if r = 0 then none else some (r - 1, c)
  | .s => some (r + 1, c)
  | .e => some (r, c + 1)
  | .w => if c = 0 then none else some (r, c - 1)

/-- The number of a direction in the thread table (R100). -/
def dirCode : Dir → Nat
  | .n => 0 | .e => 1 | .s => 2 | .w => 3

/-- The tile at which an edge port attaches: lowest logical row and column of island Q of the field's i-th band (R186). -/
def edgeTile (g : Geo) (p : Nat) : Option (Nat × Nat) :=
  match g[p / 4]? with
  | none => none
  | some l => ((List.range l.length).find? fun c => l.getD c 0 / 11 == p % 4).map fun c => (10 * (p / 4), c)

/-- One hop of a route: its tile, direction and slot set. -/
structure Hop where
  row : Nat
  col : Nat
  dir : Nat
  set : Nat
  deriving DecidableEq, Repr

/-- What a walk along a route finds (R515): nodes with the set of the hop that leaves them, hops, crossings on the current map by hop number
(true between bands), and what is wrong. -/
structure Walk where
  nodes : List (Nat × Nat × Nat)
  hops : List Hop
  crossings : List (Nat × Bool)
  refCrossings : Nat
  xs : List (BitVec 8)
  left : Bool
  deriving DecidableEq, Repr

/-- Walk hops from a node. At a hop that crosses on both maps the thread next holds that crossing's XSLOTS; elsewhere the set rotates (R78, R515). -/
def walkHops (g ref : Geo) : List Dir → Nat → Nat → Nat → Nat → List (BitVec 8) → Walk
  | [], r, c, set, _, xs => { nodes := [(r, c, set)], hops := [], crossings := [], refCrossings := 0, xs, left := false }
  | d :: ds, r, c, set, i, xs =>
    match hopFrom r c d with
    | none => { nodes := [(r, c, set)], hops := [], crossings := [], refCrossings := 0, xs, left := true }
    | some (r', c') =>
      if !inField g r' c' then { nodes := [(r, c, set)], hops := [], crossings := [], refCrossings := 0, xs, left := true }
      else
        let crossRef := islandIn ref r c != islandIn ref r' c'
        let crossCur := islandIn g r c != islandIn g r' c'
        let x := (xs.headD 0).toNat
        let xs' := if crossRef then xs.tail else xs
        let next := if crossRef && crossCur then x else rotSet set
        let w := walkHops g ref ds r' c' next (i + 1) xs'
        { w with
          nodes := (r, c, set) :: w.nodes
          hops := { row := r, col := c, dir := dirCode d, set } :: w.hops
          crossings := if crossCur then (i, r / 10 != r' / 10) :: w.crossings else w.crossings
          refCrossings := w.refCrossings + b2n crossRef }

/-- What the loader finds on a thread's whole route tree. -/
structure Trace where
  walks : List Walk
  /-- a branch leaves the field -/
  left : Bool
  /-- an edge port the field does not have -/
  edgeBad : Bool
  /-- a branch that does not end at its destination -/
  endBad : Bool
  deriving DecidableEq, Repr

/-- A thread whose source is an edge port (R76). -/
def edgeSourced (x : ThreadCfg) : Bool := x.srcRow == 63 && x.srcCol == 63

/-- A destination that is an edge port (R77). -/
def edgeDest (d : Dest) : Bool := d.row == 63 && d.col == 63

/-- The tile where a thread's route starts: its source unit, or the tile of its edge port on the reference map, on which a skein states its routes
(R76, R186, R515; log 159). -/
def threadOrigin (g : Geo) (t : ThreadCfg) : Option (Nat × Nat) :=
  if edgeSourced t then edgeTile (geoRef g) t.srcPort else if inField g t.srcRow t.srcCol then some (t.srcRow, t.srcCol) else none

/-- The tile where a destination lies, an edge port's on the reference map. -/
def destTile (g : Geo) (d : Dest) : Option (Nat × Nat) :=
  if edgeDest d then edgeTile (geoRef g) d.port else if inField g d.row d.col then some (d.row, d.col) else none

/-- PARENT or FORK_HOP of branch i is wrong (R100, R515). -/
def branchBad (l : List Branch) (i : Nat) (b : Branch) : Bool :=
  if i = 0 then b.parent != 255 || b.forkHop != 0
  else decide (i ≤ b.parent) || match l[b.parent]? with
    | some p => decide (p.hops.length < b.forkHop)
    | none => true

/-- PARENT or FORK_HOP of some branch is wrong. -/
def treeBad (t : ThreadCfg) : Bool := t.branches.zipIdx.any fun e => branchBad t.branches e.2 e.1

/-- The node and slot set at which a branch leaves its parent; none past the point where the parent left the field. -/
def forkNode (origin : Nat × Nat) (slots : Nat) (b : Branch) (walks : List Walk) : Option (Nat × Nat × Nat) :=
  if b.parent = 255 then some (origin.1, origin.2, slots) else (walks[b.parent]?).bind fun w => w.nodes[b.forkHop]?

/-- Walk the branches in order; one that starts outside the field is outside it. -/
def walkTree (g ref : Geo) (origin : Nat × Nat) (slots : Nat) : List Branch → List Walk → List (BitVec 8) → List Walk
  | [], acc, _ => acc
  | b :: bs, acc, xs =>
    let w := match forkNode origin slots b acc with
      | some (r, c, set) => walkHops g ref b.hops r c set 0 xs
      | none => { nodes := [], hops := [], crossings := [], refCrossings := 0, xs, left := true }
    walkTree g ref origin slots bs (acc ++ [w]) w.xs

/-- Trace a thread on a map (R515). -/
def traceThread (g : Geo) (t : ThreadCfg) : Trace :=
  match threadOrigin g t with
  | none => { walks := [], left := !edgeSourced t, edgeBad := edgeSourced t, endBad := false }
  | some o =>
    let ws := walkTree g (geoRef g) o t.slots.toNat t.branches [] t.xslots
    { walks := ws
      left := ws.any (·.left)
      edgeBad := t.dests.any fun d => edgeDest d && (destTile g d).isNone
      endBad := (ws.zip t.dests).any fun (w, d) => match destTile g d, w.nodes.getLast? with
        | some (r, c), some (r', c', _) => !w.left && (r != r' || c != c')
        | none, _ => !edgeDest d
        | _, none => true }

/-- Every hop of a thread on a map. -/
def threadHops (g : Geo) (t : ThreadCfg) : List Hop := (traceThread g t).walks.flatMap (·.hops)

/-- Island crossings of the whole tree on the reference map (R100). -/
def refCrossings (g : Geo) (t : ThreadCfg) : Nat := sumN ((traceThread (geoRef g) t).walks.map (·.refCrossings))

/-- Two threads share a slot on one lane and direction of a link (R79), or a port attachment (R76). -/
def threadsClash (g : Geo) (x y : ThreadCfg) : Bool :=
  decide (x.lane = y.lane) &&
    ((x.srcRow == y.srcRow && x.srcCol == y.srcCol && x.srcPort == y.srcPort) ||
     x.dests.any (fun d => y.dests.contains d) ||
     (threadHops g x).any fun a => (threadHops g y).any fun b => a.row == b.row && a.col == b.col && a.dir == b.dir && (a.set &&& b.set) != 0)

/-! ### Clocks of the array islands (R14, R19, R385, R398, R403) -/

/-- FLOOR_MHZ of a field (R385). -/
def floorOf (s : State) (f : Nat) : Nat := (tget (600 : BitVec 11) f s.fld.floorMhz).toNat

/-- The clock that an actuation gives a band's islands: the larger of the target and the field's floor; the target alone under the input cap
(R385, R398, R403). -/
def bandMhz (s : State) (b : Nat) : Nat :=
  if s.gov.inputCap then s.gov.targetMhz
  else match fieldOfBand s b with
    | some f => max s.gov.targetMhz (floorOf s f)
    | none => s.gov.targetMhz

/-- The clocks that an actuation leaves: that of an island of a fenced band stands as it was (R14, R415). -/
def clocksOf (s : State) : Tab Nat :=
  (List.range 16).foldl (fun t i => if s.faults.fencedBands.getLsbD (i / 4) then t else tset 1750 i (bandMhz s (i / 4)) t) s.gov.clock

/-- A governor actuation: it is recorded, and the islands take the clocks that it gives them (R12, R19, R21, R415). -/
def actuate (v : BitVec 64) (s : State) : State :=
  recordEvent 2 v { s with gov := { s.gov with clock := clocksOf s } }

end Sys2Proof.Machine
end

