-- ==== Sys2Proof/Machine/Grid.lean ====
section
/-!
DEFINITION. Units and threads of the array (03, 04): ports, credits, tokens that wait at control outputs, loop counters, and the extents of stream
contexts.
-/

namespace Sys2Proof.Machine

/-! ### Units and threads -/

/-- A unit. -/
def unitAt (s : State) (t : Nat) : TileUnit := tget {} t s.grid.units
/-- Replace a unit. -/
def setUnit (s : State) (t : Nat) (u : TileUnit) : State := { s with grid := { s.grid with units := tset {} t u s.grid.units } }
/-- Change a unit. -/
def modUnit (t : Nat) (g : TileUnit → TileUnit) (s : State) : State := setUnit s t (g (unitAt s t))

/-- A thread at run time. -/
def threadAt (s : State) (k : Nat) : Thread := tget {} k s.grid.threads
/-- Replace a thread. -/
def setThread (s : State) (k : Nat) (v : Thread) : State := { s with grid := { s.grid with threads := tset {} k v s.grid.threads } }

/-- The key of a thread: field, slot and index in the thread table. -/
def threadKey (f slot i : Nat) : Nat := (f * 4 + slot) * 65536 + i
/-- The field of a thread key. -/
def keyField (k : Nat) : Nat := k / 65536 / 4
/-- The slot of a thread key. -/
def keySlot (k : Nat) : Nat := k / 65536 % 4

/-- The checked skein in a slot of a field. -/
def skeinAt (s : State) (f slot : Nat) : Option SkeinImage := (fieldAt s f).bind fun fl => slotSkein fl slot

/-- The thread table entry of a thread. -/
def threadCfgAt (s : State) (k : Nat) : Option ThreadCfg := (skeinAt s (keyField k) (keySlot k)).bind fun i => i.threads[k % 65536]?

/-- Credits the source holds for a destination (R81). -/
def creditsOf (th : Thread) (d : Nat) : Nat := tget Config.fifoDepth d th.credits

/-- A unit's configuration of its active slot; none where it is idle in it. -/
def unitCfg (u : TileUnit) : Option UnitCfg := match tfind u.active u.slots with
  | some c => if c.kind = 0 then none else some c
  | none => none

/-- The unit is at work in a section: it has activated one and has not swapped away from it (R109, R113). -/
def atWork (u : TileUnit) : Bool := u.sectionId.isSome && !u.pendingSwap

/-- A unit fence covers the tile, or a band fence its band (R469). -/
def unitFenced (s : State) (t : Nat) : Bool := s.faults.fencedUnits.contains t || s.faults.fencedBands.getLsbD (tileBand t)

/-! ### Ports (R57, R76) -/

/-- The input FIFO of lane 0 to 2 and port: VI 0 to 3, SI 4 to 7, CI 8 to 11. -/
def inPort (lane p : Nat) : Nat := 4 * lane + p

/-- The thread of the active context whose source is an output port of the unit: key and entry. -/
def outThread (s : State) (t lane p : Nat) : Option (Nat × ThreadCfg) :=
  match fieldOfTile s t with
  | none => none
  | some (f, _, r, c) =>
    let a := (unitAt s t).active
    match skeinAt s f a with
    | none => none
    | some img =>
      match img.threads.findIdx? fun x => x.lane == lane && x.srcRow == r && x.srcCol == c && x.srcPort == p with
      | none => none
      | some i => (img.threads[i]?).map fun x => (threadKey f a i, x)

/-- The thread of a slot that ends at an input port of the unit: key, entry and destination number. -/
def inThread (s : State) (t slot lane p : Nat) : Option (Nat × ThreadCfg × Nat) :=
  match fieldOfTile s t with
  | none => none
  | some (f, _, r, c) =>
    match skeinAt s f slot with
    | none => none
    | some img =>
      match img.threads.findIdx? fun x => x.lane == lane && x.dests.any fun d => d.row == r && d.col == c && d.port == p with
      | none => none
      | some i => (img.threads[i]?).bind fun x =>
        (x.dests.findIdx? fun d => d.row == r && d.col == c && d.port == p).map fun j => (threadKey f slot i, x, j)

/-- PRED of a thread lets it work at a unit with this predicate (R94). -/
def predOk (u : TileUnit) (pred : Nat) : Bool := pred == 0 || (pred == 1 && u.predicate == some true) || (pred == 2 && u.predicate == some false)

/-- The unit's context has a predicated thread, so firings wait for a predicate (R94). -/
def needsPred (s : State) (t : Nat) : Bool :=
  match fieldOfTile s t with
  | some (f, _, r, c) => match skeinAt s f (unitAt s t).active with
    | some img => img.threads.any fun x => x.pred != 0 && ((x.srcRow == r && x.srcCol == c) || x.dests.any fun d => d.row == r && d.col == c)
    | none => false
  | none => false

/-- Firings wait for a predicate: the context has a predicated thread and no SELECT is in force (R94). -/
def predWaits (s : State) (t : Nat) : Bool := needsPred s t && (unitAt s t).predicate.isNone

/-- An input delivers: a control input until it has delivered END_SECTION or ABORT, a vector or scalar input until the control input of a companion
from the same source has, which follows all data of that source (R89, R113, R115). -/
def inputOpen (s : State) (t lane p : Nat) : Bool :=
  let u := unitAt s t
  if lane = 2 then !(u.ended.getLsbD p)
  else match inThread s t u.active lane p with
    | none => true
    | some (_, x, _) => edgeSourced x || !(List.range 4).any fun q => u.ended.getLsbD q && match inThread s t u.active 2 q with
      | some (_, y, _) => y.srcRow == x.srcRow && y.srcCol == x.srcCol
      | none => false

/-- The entry at the head of an input FIFO, delivered only to a unit at work and only with the active slot's tag (R84, R113). -/
def headOf (s : State) (t lane p : Nat) : Option Item :=
  let u := unitAt s t
  match tget [] (inPort lane p) u.fifos with
  | [] => none
  | x :: _ => if atWork u = true ∧ x.tag = u.active ∧ inputOpen s t lane p = true then some x else none

/-- A destination returns the credit of an entry it has popped (R81). -/
def returnCredit (k d : Nat) (s : State) : State :=
  let th := threadAt s k
  setThread s k { th with returning := tmod 0 d (· + 1) th.returning }

/-- Pop the head of an input FIFO; its credit starts back (R81). -/
def popPort (t lane p : Nat) (s : State) : State :=
  let u := unitAt s t
  match tget [] (inPort lane p) u.fifos with
  | [] => s
  | x :: xs =>
    let s := setUnit s t { u with fifos := tset [] (inPort lane p) xs u.fifos }
    match inThread s t x.tag lane p with
    | some (k, _, d) => returnCredit k d s
    | none => s

/-! ### Release of threads between sections (R114) -/

/-- Every credit of a thread is home. -/
def creditsHome (s : State) (k : Nat) (x : ThreadCfg) : Bool :=
  (List.range x.dests.length).all fun d => decide (creditsOf (threadAt s k) d = Config.fifoDepth)

/-- The unit has swapped away from a section, or is out of service. -/
def sweptBy (s : State) (id t : Nat) : Bool :=
  let u := unitAt s t
  unitFenced s t || match u.sectionId with
    | none => false
    | some j => decide (id < j) || (decide (j = id) && u.pendingSwap)

/-- A thread of a section has been released (R114). -/
def threadReleased (s : State) (fl : Field) (id k : Nat) (x : ThreadCfg) : Bool :=
  if x.srcRow = 63 ∧ x.srcCol = 63 then x.dests.all fun d => (d.row == 63 && d.col == 63) || sweptBy s id (tileAt fl d.row d.col)
  else sweptBy s id (tileAt fl x.srcRow x.srcCol) && creditsHome s k x

/-- A section's thread may send: it has sent its first entry, or every clashing thread of an earlier unfinished section has been released (R114). -/
def mayFollow (s : State) (f id k : Nat) (x : ThreadCfg) : Bool :=
  (threadAt s k).lastSection == some id || match fieldAt s f with
    | none => false
    | some fl =>
      let g := geoOf s fl
      (fl.seq.filter fun e => decide (e.id < id) && e.phase != .queued).all fun e =>
        match secSkein fl e with
        | none => true
        | some img => (List.range img.threads.length).all fun i =>
          match img.threads[i]? with
          | none => true
          | some y => !threadsClash g x y || threadReleased s fl e.id (threadKey f e.slot i) y

/-- A thread holds a credit for every destination (R81). -/
def hasCredit (s : State) (k : Nat) (x : ThreadCfg) : Bool := (List.range x.dests.length).all fun d => decide (1 ≤ creditsOf (threadAt s k) d)

/-- Send an entry of a section: it uses one credit of each destination and is on its way to each (R81, R114). -/
def sendOn (id k : Nat) (x : ThreadCfg) (it : Item) (s : State) : State :=
  let th := threadAt s k
  let ds := List.range x.dests.length
  setThread s k { th with
    credits := ds.foldl (fun c d => tmod Config.fifoDepth d (· - 1) c) th.credits
    flying := th.flying ++ ds.map fun d => { dest := d, item := it }
    sent := th.sent + 1
    lastSection := some id
    owner := some id }

/-- The section that is active in a unit. -/
def unitSection (s : State) (t : Nat) : Option (Nat × Section) :=
  match fieldOfTile s t, (unitAt s t).sectionId with
  | some (f, fl, _, _), some id => (fl.seq.find? fun x => x.id == id).map fun x => (f, x)
  | _, _ => none

/-- The number of the section that a unit is at work in. -/
def unitSecId (s : State) (t : Nat) : Nat := (unitAt s t).sectionId.getD 0

/-- An output port can take an entry now: a predicated one waits for a predicate, and takes and drops the entry where it does not match; a port
without a thread drops it (R81, R94). -/
def outReady (s : State) (t lane p : Nat) : Bool :=
  match outThread s t lane p with
  | none => true
  | some (k, x) =>
    if x.pred != 0 && (unitAt s t).predicate.isNone then false
    else !predOk (unitAt s t) x.pred || (hasCredit s k x && mayFollow s (keyField k) (unitSecId s t) k x)

/-- An output sends now: a port without a thread drops what it gets; a predicated thread sends under its predicate only (R81, R94, R114). -/
def outSends (s : State) (t lane p : Nat) : Bool := outReady s t lane p && match outThread s t lane p with
  | some (_, x) => predOk (unitAt s t) x.pred
  | none => true

/-- Send an entry from an output port. -/
def sendOut (t lane p : Nat) (v : Vec) (s : State) : State :=
  let u := unitAt s t
  match outThread s t lane p with
  | none => s
  | some (k, x) => if predOk u x.pred then sendOn (unitSecId s t) k x { tag := u.active, data := v } s else s

/-- Send a token from a control output. What ends, drains or aborts a section passes whatever the predicate is, for every unit of the field takes
part in it (R94, R110, R113, R117; log 162). -/
def sendToken (t co : Nat) (b : Byte) (s : State) : State :=
  match outThread s t 2 co with
  | none => s
  | some (k, x) =>
    if predOk (unitAt s t) x.pred || decide (4 ≤ bits b.toNat 5 3) then
      sendOn (unitSecId s t) k x { tag := (unitAt s t).active, data := BitVec.ofNat 512 b.toNat } s
    else s

/-! ### Tokens (R85 to R88) -/

/-- A token byte (R85). -/
def tokenByte (kind level tag : Nat) : Byte := BitVec.ofNat 8 (32 * kind + 4 * level + tag)

/-- FENCE of a control output. -/
def fenceMask (c : UnitCfg) (co : Nat) : BitVec 6 := c.ctl.fence.getD co 0

/-- What a fenced token must wait for: each fenced output with the number of entries it has sent (R88). -/
def fenceOf (s : State) (t : Nat) (c : UnitCfg) (co : Nat) : List (Nat × Nat) :=
  (List.range 6).filterMap fun b =>
    if (fenceMask c co).getLsbD b then
      match outThread s t (if b < 4 then 0 else 1) (if b < 4 then b else b - 4) with
      | some (k, _) => some (k, (threadAt s k).sent)
      | none => none
    else none

/-- A token comes to wait at a control output; DONE, FLUSH and END_SECTION wait under the fence (R86). -/
def emitToken (t co kind level : Nat) (s : State) : State :=
  let u := unitAt s t
  match unitCfg u, outThread s t 2 co with
  | some c, some _ =>
    let fence := if kind = 2 ∨ kind = 4 ∨ kind = 5 then fenceOf s t c co else []
    setUnit s t { u with waits := u.waits ++ [{ co, token := tokenByte kind level u.active, fence }] }
  | _, _ => s

/-- A DONE of a counter's mask still waits at a control output (R90). -/
def doneWaits (u : TileUnit) (level : Nat) : Bool := u.waits.any fun w => bits w.token.toNat 5 3 == 2 && bits w.token.toNat 2 3 == level

/-! ### Loop counters (R53 to R56, R90) -/

/-- A counter at run time. -/
def counterAt (u : TileUnit) (l : Nat) : CounterRun := tget {} l u.counters
/-- A counter's configuration, where it is enabled. -/
def counterCfg (c : UnitCfg) (l : Nat) : Option CounterCfg := (c.counters[l]?).bind fun x => if x.enable then some x else none
/-- Set a counter. -/
def setCounter (t l : Nat) (v : CounterRun) (s : State) : State := modUnit t (fun u => { u with counters := tset {} l v u.counters }) s

/-- The next enabled level inward, and outward. -/
def innerLevel (c : UnitCfg) (l : Nat) : Option Nat := ((List.range l).reverse).find? fun k => (counterCfg c k).isSome
def outerLevel (c : UnitCfg) (l : Nat) : Option Nat := (List.range 6).find? fun k => decide (l < k) && (counterCfg c k).isSome
/-- The outermost enabled counter. -/
def outermost (c : UnitCfg) : Option Nat := ((List.range 6).reverse).find? fun k => (counterCfg c k).isSome
/-- The innermost enabled counter. -/
def innermost (c : UnitCfg) : Option Nat := (List.range 6).find? fun k => (counterCfg c k).isSome

/-- Iterations of a run (R54). -/
def iterations (start bound stride : Int) : Nat :=
  if stride = 0 then 0
  else if 0 < stride then (if start < bound then ((bound - start + stride - 1) / stride).toNat else 0)
  else if bound < start then ((start - bound - stride - 1) / (-stride)).toNat else 0

/-- The value of START or BOUND: from the context, or the word at the head of a scalar input; none while none is present (R53, R55). -/
def counterArg (s : State) (t src value : Nat) : Option Nat :=
  if src = 0 then some value else (headOf s t 1 (src - 1)).map fun x => bits x.data.toNat 0 24

/-- A unit raises a detection (R468). -/
def report (t det extra : Nat) (s : State) : State := { s with grid := { s.grid with reports := s.grid.reports ++ [(t, det, extra)] } }

/-- Emit DONE of a counter on its DONE_OUT mask (R53, R90). -/
def emitDone (t : Nat) (cc : CounterCfg) (l : Nat) (s : State) : State :=
  (List.range 4).foldl (fun s co => if cc.doneOut.getLsbD co then emitToken t co 2 l s else s) s

/-- The predicate set at a level ends when that counter advances (R94). -/
def dropPredicate (l : Nat) (u : TileUnit) : TileUnit := if u.predicate.isSome ∧ u.predLevel = l then { u with predicate := none } else u

/-- A run of a counter has completed: DONE, and the next counter outward advances (R53, R54); n bounds the chain. -/
def counterEnds (t : Nat) (c : UnitCfg) (l : Nat) : Nat → State → State
  | 0, s => s
  | n + 1, s =>
    match counterCfg c l with
    | none => s
    | some cc =>
      let s := setCounter t l { counterAt (unitAt s t) l with running := false } s
      let s := emitDone t cc l s
      match outerLevel c l with
      | none => s
      | some k =>
        match counterCfg c k with
        | none => s
        | some oc =>
          if oc.adv ≠ 1 then s
          else
            let r := counterAt (unitAt s t) k
            if !r.running then s
            else
              let s := modUnit t (dropPredicate k) s
              let v := r.value + oc.stride
              if (0 < oc.stride ∧ v < r.bound) ∨ (oc.stride < 0 ∧ r.bound < v) then
                let s := setCounter t k { r with value := v } s
                setCounter t l { counterAt (unitAt s t) l with released := (counterAt (unitAt s t) l).released + 1 } s
              else counterEnds t c k n s

/-- A counter advances: a fire, an inner run, or DONE (R53). -/
def counterAdvance (t : Nat) (c : UnitCfg) (l : Nat) (s : State) : State :=
  match counterCfg c l with
  | none => s
  | some cc =>
    let r := counterAt (unitAt s t) l
    if !r.running then s
    else
      let s := modUnit t (dropPredicate l) s
      let v := r.value + cc.stride
      if (0 < cc.stride ∧ v < r.bound) ∨ (cc.stride < 0 ∧ r.bound < v) then
        let s := setCounter t l { r with value := v } s
        match innerLevel c l with
        | some k => setCounter t k { counterAt (unitAt s t) k with released := (counterAt (unitAt s t) k).released + 1 } s
        | none => s
      else counterEnds t c l 6 s

/-- No counter of the unit runs or has a run to begin (R113 condition 2). -/
def countersDone (u : TileUnit) (c : UnitCfg) : Bool :=
  (List.range 6).all fun l => (counterCfg c l).isNone || (!(counterAt u l).running && (counterAt u l).released == 0)

/-! ### Stream contexts: extents (R66) -/

/-- A stream context's configuration, where it is enabled. -/
def streamCfg (c : UnitCfg) (n : Nat) : Option StreamCfg := (c.streams[n]?).bind fun x => if x.kind = 0 then none else some x
/-- A stream context at run time. -/
def streamAt (u : TileUnit) (n : Nat) : StreamRun := tget {} n u.streams
/-- Set a stream context. -/
def setStream (t n : Nat) (v : StreamRun) (s : State) : State := modUnit t (fun u => { u with streams := tset {} n v u.streams }) s

/-- EXT0 in force: the context's, or the scalar that its run has read. -/
def ext0Of (x : StreamCfg) (r : StreamRun) : Option Nat := if x.extSrc = 0 then some x.ext0 else r.ext0

/-- Elements of the whole loop; none while EXT0 has not arrived. -/
def streamTotal (x : StreamCfg) (r : StreamRun) : Option Nat := (ext0Of x r).map fun e => e * x.ext1 * x.ext2

/-- The context's loop is done: every element has taken effect (R66, R230). -/
def streamEnded (u : TileUnit) (x : StreamCfg) (r : StreamRun) : Bool :=
  u.emptyRun || match streamTotal x r with
    | some n => decide (n ≤ r.finished)
    | none => false

/-- An MU is named as another context's index source. -/
def indexSources (c : UnitCfg) : List Nat := (c.streams.filter fun x => x.kind == 5 || x.kind == 6 || x.kind == 7).filterMap fun x =>
  if 16 ≤ x.indexSrc then some (x.indexSrc - 16) else none

/-- Emit DONE of a stream context for each dimension whose run ends at an element count (R92, R230). -/
def streamDone (t : Nat) (c : UnitCfg) (n : Nat) (x : StreamCfg) (e0 done : Nat) (s : State) : State :=
  (List.range 4).foldl (fun s co =>
    let d := c.ctl.doneDim.getD co 0
    let size := if d = 0 then e0 else if d = 1 then e0 * x.ext1 else e0 * x.ext1 * x.ext2
    if c.ctl.doneSrc.getD co 0 = 16 + n ∧ 0 < size ∧ done % size = 0 then emitToken t co 2 d s else s) s

/-- Every element up to a count has taken effect: DONE of the dimensions that end on the way (R230). -/
def streamFinish (t : Nat) (c : UnitCfg) (n : Nat) (x : StreamCfg) (count : Nat) (s : State) : State :=
  let r := streamAt (unitAt s t) n
  let e0 := (ext0Of x r).getD 0
  (List.range count).foldl (fun s i => streamDone t c n x e0 (r.finished + i + 1) s) (setStream t n { r with finished := r.finished + count } s)

/-- A context with an extent of zero, or of an empty dispatch, signals the end of its loop at once (R66, R167). -/
def streamEmpty (t : Nat) (c : UnitCfg) (n : Nat) (s : State) : State :=
  (List.range 4).foldl (fun s co => if c.ctl.doneSrc.getD co 0 = 16 + n then emitToken t co 2 (c.ctl.doneDim.getD co 0) s else s) s

/-- Read a scalar EXT0 for a context whose run has not begun (R55, R66). -/
def streamExt (t : Nat) (c : UnitCfg) (n : Nat) (s : State) : State :=
  match streamCfg c n with
  | none => s
  | some x =>
    let r := streamAt (unitAt s t) n
    if x.extSrc = 0 ∨ r.ext0.isSome ∨ (unitAt s t).emptyRun = true then s
    else match headOf s t 1 (x.extSrc - 1) with
      | none => s
      | some it =>
        let e := bits it.data.toNat 0 24
        let s := setStream t n { r with ext0 := some e } (popPort t 1 (x.extSrc - 1) s)
        if e * x.ext1 * x.ext2 = 0 then streamEmpty t c n s else s

/-- Every stream context of an MU is done and its tier requests are answered (R113 conditions 2 and 3). -/
def streamsDone (s : State) (t : Nat) (c : UnitCfg) : Bool :=
  let u := unitAt s t
  ((List.range 16).all fun n => match streamCfg c n with
    | none => true
    | some x => streamEnded u x (streamAt u n)) && !s.mem.requests.any fun q => q.tile == t

/-! ### Firing conditions -/

/-- The section active in the unit is being drained. -/
def inDrain (s : State) (t : Nat) : Bool := match unitSection s t with | some (_, x) => x.phase == .draining | none => false

/-- Operands that a stage operation takes, A first (R138). -/
def stageArity (op : Nat) : Nat := if op = 4 ∨ op = 10 then 3 else if op = 0 ∨ op = 11 ∨ 18 ≤ op then 1 else 2

/-- The source codes that a stage word's operation reads (R137). -/
def stageSrcs (w : BitVec 64) : List Nat := [bits w.toNat 12 4, bits w.toNat 16 4, bits w.toNat 20 4].take (stageArity (bits w.toNat 0 6))

/-- Vector and scalar inputs that the stage words of a unit read: their source codes 1 to 8 (R137). -/
def stageInputs (c : UnitCfg) : List Nat := (c.cu.stages.flatMap stageSrcs).filter fun x => decide (1 ≤ x ∧ x ≤ 8)

/-- Lane and port of a source code 1 to 8. -/
def sourcePort (x : Nat) : Nat × Nat := if x ≤ 4 then (0, x - 1) else (1, x - 5)

/-- A firing requires this input: its thread is active under the predicate (R94). -/
def requires (s : State) (t lane p : Nat) : Bool :=
  let u := unitAt s t
  match inThread s t u.active lane p with
  | some (_, x, _) => predOk u x.pred
  | none => true

/-- A complete set of the inputs that the vector stages require is present (R93, R94). -/
def vectorSet (s : State) (t : Nat) (c : UnitCfg) : Bool :=
  let l := (stageInputs c).map sourcePort
  !predWaits s t && l.all fun (lane, p) => !requires s t lane p || (headOf s t lane p).isSome

/-- The vector stages do something: a stage has a destination outside the pipeline, or an input. -/
def vectorUsed (c : UnitCfg) : Bool := c.kind == 1 && (c.cu.stages.any fun w => bits w.toNat 29 2 != 0)

/-- Firings are allowed: a run of the innermost counter is under way, or no counter is in use (R53, R93). -/
def mayIterate (u : TileUnit) (c : UnitCfg) : Bool := match innermost c with
  | none => true
  | some l => (counterAt u l).running

end Sys2Proof.Machine
end

