-- ==== Sys2Proof/Machine/Array.lean ====
section
/-!
DEFINITION. What a unit does when it fires (03, 06, 10): the vector stages, the matrix engine and its drain, and one access of a stream context.
A firing whose inputs, credits or resources are missing leaves the state unchanged.
-/

namespace Sys2Proof.Machine

/-! ### Vector stages (R46, R47, R137) -/

/-- An output port has room for n entries. -/
def outRoom (s : State) (t lane p n : Nat) : Bool :=
  decide (n = 0) || (outReady s t lane p && match outThread s t lane p with
    | none => true
    | some (k, x) => !predOk (unitAt s t) x.pred || (List.range x.dests.length).all fun d => decide (n ≤ creditsOf (threadAt s k) d))

/-- A constant register (R131). -/
def constReg (c : UnitCfg) (k : Nat) : Nat := (c.cu.consts.getD (k % 16) 0).toNat

/-- The value of an input that a firing does not require is not stated: free (log 22). -/
def freeVec (seed : Nat) : Nat := pack 64 ((List.range 8).map fun i => (Config.freeWord (seed + i)).toNat)

/-- An operand of a stage, 32 lanes (R45, R137). An entry's 64 bytes fill lanes 0 to 15; what its other lanes hold is not stated: free (log 20). -/
def stageOperand (s : State) (t : Nat) (c : UnitCfg) (stage prev seed : Nat) (o : StageOp) (src : Nat) : Nat :=
  if src = 0 then prev
  else if src ≤ 8 then
    let (lane, p) := sourcePort src
    match (if requires s t lane p then headOf s t lane p else none) with
    | some x => if lane = 0 then x.data.toNat + 2 ^ 512 * freeVec (seed + 64 + 16 * src) else broadcast (bits x.data.toNat 0 32)
    | none => freeVec (seed + 64 + 16 * src) + 2 ^ 512 * freeVec (seed + 72 + 16 * src)
  else if src = 9 then broadcast (constReg c o.creg)
  else if src = 10 then broadcast (constReg c (o.creg + 1))
  else if src = 11 then (tget (0 : Lanes) stage (unitAt s t).latches).toNat
  else if src = 12 then 0
  else oneIn o.fmt

/-- The results of the stages in order, on the inputs at the heads of the FIFOs. -/
def stageResults (s : State) (t : Nat) (c : UnitCfg) (seed : Nat) : List Nat :=
  ((c.cu.stages.zipIdx).foldl (fun (acc : List Nat × Nat) e =>
    let o := stageOp e.1
    let sd := seed + 256 * e.2
    let arg := fun src => stageOperand s t c e.2 acc.2 sd o src
    let r := stageResult o (c.cu.perms.getD o.perm []) sd (arg o.srcA) (arg o.srcB) (arg o.srcC)
    (acc.1 ++ [r], if bitAt o.dst 0 then r else 0)) ([], 0)).1

/-- The level-0 counter is in use and advances on DONE (R93). -/
def doneIterates (c : UnitCfg) : Bool := match counterCfg c 0 with
  | some cc => cc.adv == 2
  | none => false

/-- The length of a level-0 run is known only at run time: it ends on DONE, or its BOUND is a scalar (R93, R95). -/
def raggedRuns (c : UnitCfg) : Bool := doneIterates c || match counterCfg c 0 with
  | some cc => cc.boundSrc != 0
  | none => false

/-- What stage k sends is an end-of-iteration operation: the unit's level-0 runs are ragged, and the stage accumulates over its previous results, or
passes on a stage that does (R93, R95; log 161). -/
def lateStage (c : UnitCfg) : Nat → Bool
  | 0 => raggedRuns c && (stageSrcs (c.cu.stages.getD 0 0)).contains 11
  | k + 1 => raggedRuns c && ((stageSrcs (c.cu.stages.getD (k + 1) 0)).contains 11
      || (lateStage c k && (stageSrcs (c.cu.stages.getD (k + 1) 0)).contains 0 && bits (c.cu.stages.getD k 0).toNat 28 1 == 1))

/-- Stages that send on VO0 or VO1, at a firing or at the end of an iteration. -/
def sendStages (c : UnitCfg) (late : Bool) (vo : Nat) : List Nat :=
  (List.range c.cu.stages.length).filter fun k => bitAt (stageOp (c.cu.stages.getD k 0)).dst (1 + vo) && lateStage c k == late

/-- Entries that one firing of the stages, or the end of an iteration, sends on VO0 or VO1. -/
def stageSends (c : UnitCfg) (late : Bool) (vo : Nat) : Nat := (sendStages c late vo).length

/-- Ports that one firing of the stages consumes. -/
def stagePops (s : State) (t : Nat) (c : UnitCfg) : List (Nat × Nat) :=
  (((stageInputs c).map sourcePort).eraseDups).filter fun (lane, p) => requires s t lane p

/-- The drain chain puts scale bytes on SO0 (R143). -/
def quantScales (c : UnitCfg) : Bool := match (drainOps c.cu.drain).getLast? with
  | some o => o.op == 4 && decide (6 ≤ o.param ∧ o.param ≤ 12)
  | none => false

/-- The last stage whose operation is a MIN, whose result a derived axis sends (R155); else the last stage (log 22). -/
def scalarStage (c : UnitCfg) : Nat :=
  match ((List.range c.cu.stages.length).reverse).find? fun k => ((c.cu.stages[k]?).map fun w => (stageOp w).op) == some 5 with
  | some k => k
  | none => c.cu.stages.length - 1

/-- Scalar outputs that a vector firing, or the end of an iteration, feeds: those with a thread, apart from SO0 where QUANT uses it (log 22). -/
def scalarSends (s : State) (t : Nat) (c : UnitCfg) (late : Bool) : List Nat :=
  [0, 1].filter fun p => (outThread s t 1 p).isSome && !(p == 0 && quantScales c) && lateStage c (scalarStage c) == late

/-- The outputs have room for what a firing, or the end of an iteration, sends, or for both. -/
def stageRoom (s : State) (t : Nat) (c : UnitCfg) (lates : List Bool) : Bool :=
  ([0, 1].all fun vo => outRoom s t 0 vo (sumN (lates.map fun l => stageSends c l vo))) &&
    [0, 1].all fun p => outRoom s t 1 p (sumN (lates.map fun l => b2n ((scalarSends s t c l).contains p)))

/-- Send the results of stages: on the vector outputs that their words name, stage by stage, and on the scalar outputs. -/
def sendResults (t : Nat) (c : UnitCfg) (late : Bool) (rs : Nat → Nat) (s : State) : State :=
  let s := (List.range c.cu.stages.length).foldl (fun s k =>
    let v : Vec := BitVec.ofNat 512 (rs k)
    let s := if (sendStages c late 0).contains k then sendOut t 0 0 v s else s
    if (sendStages c late 1).contains k then sendOut t 0 1 v s else s) s
  (scalarSends s t c late).foldl (fun s p => sendOut t 1 p (BitVec.ofNat 512 (bits (rs (scalarStage c)) 0 32)) s) s

/-- The innermost counter advances at a firing where it has ADV = 1 (R53). -/
def fireAdvance (t : Nat) (c : UnitCfg) (s : State) : State := match innermost c with
  | some l => if ((counterCfg c l).map (·.adv)) = some 1 then counterAdvance t c l s else s
  | none => s

/-- The next step of a counter's run leaves its range: the run ends with this iteration (R54). -/
def counterLast (cc : CounterCfg) (r : CounterRun) : Bool :=
  let v := r.value + cc.stride
  !decide ((0 < cc.stride ∧ v < r.bound) ∨ (cc.stride < 0 ∧ r.bound < v))

/-- A firing of the vector stages ends a ragged level-0 run that its own firings count (R95). -/
def endsRun (u : TileUnit) (c : UnitCfg) : Bool := raggedRuns c && match counterCfg c 0 with
  | some cc => cc.adv == 1 && counterLast cc (counterAt u 0)
  | none => false

/-- The end-of-iteration operations: what the accumulating stages hold leaves, and they begin again at zero (R93, R95; log 161). -/
def endIteration (t : Nat) (c : UnitCfg) (s : State) : State :=
  let u := unitAt s t
  let s := sendResults t c true (fun k => (tget (0 : Lanes) k u.latches).toNat) s
  modUnit t (fun u => { u with latches := u.latches.filter fun e => !lateStage c e.1 }) s

/-- The six vector stages take one set of inputs (R46, R93). -/
def tryVector (t : Nat) (c : UnitCfg) (s : State) : Option State :=
  let ends := endsRun (unitAt s t) c
  if (!vectorUsed c && (scalarSends s t c false).isEmpty && (scalarSends s t c true).isEmpty) || !mayIterate (unitAt s t) c || !vectorSet s t c
    || !stageRoom s t c (if ends then [false, true] else [false]) || c.kind != 1 then none
  else
    let rs := stageResults s t c s.fresh
    let pops := stagePops s t c
    let s := sendResults t c false (fun k => rs.getD k 0) { s with fresh := s.fresh + 2048 }
    let s := pops.foldl (fun s e => popPort t e.1 e.2 s) s
    let s := rs.zipIdx.foldl (fun s e => modUnit t (fun u => { u with latches := tset 0 e.2 (BitVec.ofNat 1024 e.1) u.latches }) s) s
    some (fireAdvance t c (if ends then endIteration t c s else s))

/-! ### Matrix engine (R48 to R51, R132, R136, R150) -/

/-- Scalar words that bring the block scales of one streamed vector; MFMT 12 brings the row's exponent entry (log 21). -/
def scaleWords (f : Nat) : Nat := if f = 12 then 1 else if blockLen f = 0 then 0 else if f = 9 then 2 else 1

/-- The number that a list of vectors spells, the first lowest. -/
def vecsNat (l : List Vec) : Nat := pack 512 (l.map (·.toNat))

/-- The weight tile of column j: elements along K, columns one after another (log 21). -/
def weightColumn (f : Nat) (w : Nat) (j : Nat) : List Nat := elems (opWidth f) (tileK f) (w / 2 ^ (j * tileK f * opWidth f))

/-- The bank row, the engine after one row of a tile, and whether an accumulator overflowed: x is the row's operand, words its scale words (R48 to R51, R146, R150). -/
def matrixRow (c : UnitCfg) (m : Matrix) (x : Vec) (words : List Nat) : Matrix × Bool :=
  let f := c.cu.mfmt
  let xsc := elems 8 8 (pack 32 words)
  let xs := elems (opWidth f) (tileK f) x.toNat
  let w := vecsNat m.weight
  let wsc := vecsNat m.weightScales
  let nb := scaleVecs f
  let old := tget (List.replicate 64 (0 : BitVec 128)) m.row m.openBank
  let out := (List.range 64).map fun j =>
    accColumn f c.cu.matLsb c.cu.slices m.tile (old.getD j 0).toNat xs (weightColumn f w j) xsc
      (if blockLen f = 0 then [] else elems 8 nb (wsc / 2 ^ (8 * nb * j)))
  let lastRow := decide (m.row + 1 = c.cu.window)
  let full := decide (m.shadow.length = tileVecs f ∧ m.shadowScales.length = scaleVecs f)
  ({ m with
      openBank := tset (List.replicate 64 0) m.row (out.map fun e => BitVec.ofNat 128 e.1) m.openBank
      openExp := if m.tile = 0 then m.openExp ++ [words.headD 0 % 65536] else m.openExp
      row := if lastRow then 0 else m.row + 1
      tile := if lastRow then m.tile + 1 else m.tile
      weight := if lastRow then (if full then m.shadow else []) else m.weight
      weightScales := if lastRow then (if full then m.shadowScales else []) else m.weightScales
      openCols := if f = 12 ∧ m.tile = 0 ∧ m.row = 0 then elems 16 64 wsc else m.openCols
      shadow := if lastRow && full then [] else m.shadow
      shadowScales := if lastRow && full then [] else m.shadowScales }, out.any (·.2))

/-- Vectors that the entry's operand takes: 64 FP32 values, or 64 BF16 values of a residual (R141). -/
def operandVecs (o : DrainOp) : Nat :=
  if o.op = 3 then (if o.param = 0 then 4 else 2) else if (o.op = 0 ∨ o.op = 1) ∧ o.percol = true then 4 else 0

/-- Vector inputs that the drain chain of a CU reads. -/
def drainInputs (u : UnitCfg) : List Nat := ((drainOps u.cu.drain).filter fun o => operandVecs o != 0).map (·.vi)

/-- Scalar inputs that counters and SELECT tokens read (R53, R92). -/
def takenScalars (c : UnitCfg) : List Nat := (c.counters.filter (·.enable)).flatMap (fun x => [x.startSrc, x.boundSrc]) ++ c.ctl.selSi

/-- Inputs of the matrix engine, of those with a thread: of the vector inputs that neither stages nor drain chain read, the first brings the streamed
operand and the second the weight tiles; the scalar inputs that nothing else reads bring the block scales (R48; log 25). -/
def matrixInputs (has : Nat → Nat → Bool) (c : UnitCfg) : Option Nat × Option Nat × List Nat :=
  let vis := (List.range 4).filter fun p => has 0 p && !(stageInputs c).contains (p + 1) && !(drainInputs c).contains p
  let sis := (List.range 4).filter fun p => has 1 p && !(stageInputs c).contains (p + 5) && !(takenScalars c).contains (p + 1)
  (vis[0]?, vis[1]?, sis.take (scaleWords c.cu.mfmt))

/-- Inputs of the matrix engine of a unit. -/
def matrixPorts (s : State) (t : Nat) (c : UnitCfg) : Option Nat × Option Nat × List Nat :=
  matrixInputs (fun lane p => (inThread s t (unitAt s t).active lane p).isSome) c

/-- The counter of the K loop of a window: the innermost one, or the next one outward where a run of the innermost counts the rows of one tile
(R49; log 25). -/
def kCounter (u : TileUnit) (c : UnitCfg) : Option Nat := match innermost c with
  | none => none
  | some l => match counterCfg c l with
    | some cc =>
      let r := counterAt u l
      if iterations r.start r.bound cc.stride = c.cu.window then some ((outerLevel c l).getD l) else some l
    | none => none

/-- The firing at hand is the last of its window's K loop. A CU without a counter has one tile in each window. -/
def kEnds (u : TileUnit) (c : UnitCfg) : Bool :=
  let last := fun l => match counterCfg c l with | some cc => cc.adv == 1 && counterLast cc (counterAt u l) | none => true
  match innermost c, kCounter u c with
  | some l, some k => last l && last k
  | _, _ => true

/-- An input that a firing requires has its entry. -/
def inputOf (s : State) (t lane p : Nat) : Option Item := if requires s t lane p then headOf s t lane p else none

/-- What a row of the matrix engine needs: a CU that may iterate, its scale words, a whole weight tile, and an open window (R48, R49, R94). -/
def matrixReady (s : State) (t : Nat) (c : UnitCfg) (ws : List (Option Item)) : Bool :=
  let f := c.cu.mfmt
  let m := (unitAt s t).matrix
  c.kind == 1 && mayIterate (unitAt s t) c && !predWaits s t && ws.length == scaleWords f && !ws.any (·.isNone) &&
    m.weight.length == tileVecs f && m.weightScales.length == scaleVecs f && c.cu.window != 0 && !(m.due && m.row == 0)

/-- The matrix engine takes one streamed vector (R48, R49). -/
def tryMatrix (t : Nat) (c : UnitCfg) (vi : Nat) (scaleSi : List Nat) (s : State) : Option State :=
  let p := matrixPorts s t c
  let ws := scaleSi.map fun p => inputOf s t 1 p
  match inputOf s t 0 vi with
  | none => none
  | some x =>
    if p.1 ≠ some vi ∨ p.2.2 ≠ scaleSi ∨ matrixReady s t c ws = false then none
    else
      let u := unitAt s t
      let r := matrixRow c u.matrix x.data (ws.filterMap fun o => o.map fun i => bits i.data.toNat 0 32)
      let s := scaleSi.foldl (fun s p => popPort t 1 p s) (popPort t 0 vi s)
      let s := modUnit t (fun v => { v with matrix := { r.1 with due := u.matrix.due || kEnds u c } }) s
      let s := if r.2 && !(unitAt s t).ovfRaised then report t 0x07 0 (modUnit t (fun u => { u with ovfRaised := true }) s) else s
      some (fireAdvance t c s)

/-- One vector of a weight tile, then of its scales, enters the shadow register, which becomes current when the engine holds no tile (R51). -/
def tryWeight (t : Nat) (c : UnitCfg) (vi : Nat) (s : State) : Option State :=
  let f := c.cu.mfmt
  let m := (unitAt s t).matrix
  match inputOf s t 0 vi with
  | none => none
  | some x =>
    if c.kind ≠ 1 ∨ (matrixPorts s t c).2.1 ≠ some vi ∨ predWaits s t = true ∨ (m.shadow.length = tileVecs f ∧ m.shadowScales.length = scaleVecs f) then none
    else
      let m := if m.shadow.length < tileVecs f then { m with shadow := m.shadow ++ [x.data] } else { m with shadowScales := m.shadowScales ++ [x.data] }
      let m := if m.weight = [] ∧ m.shadow.length = tileVecs f ∧ m.shadowScales.length = scaleVecs f then
        { m with weight := m.shadow, weightScales := m.shadowScales, shadow := [], shadowScales := [] } else m
      some (modUnit t (fun u => { u with matrix := m }) (popPort t 0 vi s))

/-- The window closes when its K loop has ended; the next window takes the other bank, which must have drained (R49, R50). For MFMT 12 the column
exponents are those that came with the window's first tile (log 21). -/
def tryClose (t : Nat) (c : UnitCfg) (s : State) : Option State :=
  let m := (unitAt s t).matrix
  if c.kind ≠ 1 ∨ m.due = false ∨ m.row ≠ 0 ∨ m.tile = 0 ∨ m.closedRows ≠ 0 then none
  else some (modUnit t (fun u => { u with
    perCol := []
    matrix := { m with
      closedBank := m.openBank, closedRows := c.cu.window, drained := 0, openBank := [], tile := 0, bankB := !m.bankB, due := false
      closedExp := m.openExp, openExp := [], closedCols := m.openCols, openCols := [] } }) s)

/-- DONE has advanced the counter of a window's K loop: its window ends at this tile boundary (R49, R53). -/
def doneCloses (t l : Nat) (c : UnitCfg) (s : State) : State :=
  let u := unitAt s t
  if c.kind = 1 ∧ kCounter u c = some l ∧ u.matrix.row = 0 ∧ u.matrix.tile ≠ 0 then setUnit s t { u with matrix := { u.matrix with due := true } } else s

/-- Bits of an exported raw accumulator (R50, R132, R136, R150). -/
def rawWidth (f : Nat) : Nat := if f = 12 then 128 else if f = 10 ∨ f = 11 then 32 else 64

/-- The operands a chain still has to read before a row: per-column ones once per window, residual rows once per row. -/
def chainNeeds (u : TileUnit) (c : UnitCfg) (row : Nat) : List (Nat × DrainOp) :=
  ((drainOps c.cu.drain).zipIdx.filter fun e => operandVecs e.1 != 0 &&
    (if e.1.op == 3 then (tget [] (16 + e.2) u.perCol).headD 0 != BitVec.ofNat 64 (row + 1) else (tget [] e.2 u.perCol).isEmpty)).map fun e => (e.2, e.1)

/-- Read an operand of n vectors from a vector input: its 64 elements. What an input that the firing does not require would bring is not stated: free
(R94; log 22). -/
def readOperand (s : State) (t : Nat) (o : DrainOp) : Option (List (BitVec 64)) :=
  let u := unitAt s t
  let n := operandVecs o
  let w := if o.op = 3 ∧ o.param ≠ 0 then 16 else 32
  if !requires s t 0 o.vi then some ((List.range 64).map fun k => Config.freeWord (s.fresh + k) % BitVec.ofNat 64 (2 ^ w))
  else if (headOf s t 0 o.vi).isNone then none
  else
    let l := ((tget [] (inPort 0 o.vi) u.fifos).take n).filter fun x => x.tag == u.active
    if l.length = n then some ((elems w 64 (vecsNat (l.map (·.data)))).map (BitVec.ofNat 64)) else none

/-- Take the operands that a row needs; none while one is missing. -/
def takeOperands (t row : Nat) : List (Nat × DrainOp) → State → Option State
  | [], s => some s
  | (i, o) :: l, s =>
    match readOperand s t o with
    | none => none
    | some v =>
      let s := if requires s t 0 o.vi then (List.range (operandVecs o)).foldl (fun s _ => popPort t 0 o.vi s) s else { s with fresh := s.fresh + 64 }
      let key := if o.op = 3 then 16 + i else i
      let v := if o.op = 3 then BitVec.ofNat 64 (row + 1) :: v else v
      takeOperands t row l (modUnit t (fun u => { u with perCol := tset [] key v u.perCol }) s)

/-- The row of the closed bank after its chain: element width, codes and scale bytes (R50, R141, R143). -/
def drainedRow (u : TileUnit) (c : UnitCfg) (row : Nat) : Nat × List Nat × List Nat :=
  let f := c.cu.mfmt
  let m := u.matrix
  let acc := (tget (List.replicate 64 (0 : BitVec 128)) row m.closedBank).map (·.toNat)
  if drainRaw c.cu.drain then (rawWidth f, acc, [])
  else
    let v := drainConvert f c.cu.matLsb c.cu.slices (m.closedExp.getD row 0) m.closedCols acc
    let ops := drainOps c.cu.drain
    let v := (ops.zipIdx.filter fun e => e.1.op != 4).foldl (fun v e =>
      drainEntry f c.cu.consts e.1 ((tget [] e.2 u.perCol).map (·.toNat)) (((tget [] (16 + e.2) u.perCol).drop 1).map (·.toNat)) v) v
    match ops.getLast? with
    | some o => if o.op = 4 then quant f o c.cu.consts v else ((chainFmt f).width, v, [])
    | none => ((chainFmt f).width, v, [])

/-- Both vector outputs share a row where the last stage word names both (log 21). -/
def splitRow (c : UnitCfg) : Bool := match c.cu.stages.getLast? with | some w => bits w.toNat 29 2 == 3 | none => false

/-- One output vector of the row that drains (R50, R94). Scale bytes leave on SO0 with the row's first vector (R143). -/
def tryDrain (t : Nat) (c : UnitCfg) (s : State) : Option State :=
  let u := unitAt s t
  let m := u.matrix
  if c.kind ≠ 1 ∨ m.closedRows = 0 ∨ predWaits s t = true then none
  else
    let w0 := (drainedRow u c 0).1
    let vpr := max 1 (ceilDiv (64 * w0) 512)
    let row := m.drained / vpr
    let part := m.drained % vpr
    match takeOperands t row (if drainRaw c.cu.drain then [] else chainNeeds u c row) s with
    | none => none
    | some s1 =>
      let (w, codes, scales) := drainedRow (unitAt s1 t) c row
      let vo := if splitRow c && decide (vpr / 2 ≤ part) && decide (1 < vpr) then 1 else 0
      let so := !scales.isEmpty && part == 0
      if !outSends s1 t 0 vo || (so && !outSends s1 t 1 0) then none
      else
        let v : Vec := BitVec.ofNat 512 (pack w codes / 2 ^ (512 * part))
        let s1 := sendOut t 0 vo v s1
        let s1 := if so then sendOut t 1 0 (BitVec.ofNat 512 (pack 8 scales)) s1 else s1
        some (modUnit t (fun u =>
          let m := u.matrix
          if m.drained + 1 = m.closedRows * vpr then
            { u with perCol := [], matrix := { m with closedBank := [], closedRows := 0, drained := 0, closedExp := [], closedCols := [] } }
          else { u with matrix := { m with drained := m.drained + 1 } }) s1)

/-- Every destination of a control thread accepts a SELECT there: no configuration emits a malformed token (R87). -/
def selectAccepted (s : State) (t co : Nat) : Bool := match outThread s t 2 co, fieldOfTile s t with
  | some (_, x), some (_, fl, _, _) => x.dests.all fun d => !edgeDest d && match tfind (unitAt s t).active (unitAt s (tileAt fl d.row d.col)).slots with
      | some c => c.ctl.selSi.getD d.port 0 != 0
      | none => false
  | _, _ => false

/-- SELECT on a control output (R87): which outputs a context schedules it on and when, the manual does not lay out (log 26). -/
def trySelect (t : Nat) (c : UnitCfg) (co level : Nat) (s : State) : Option State :=
  if c.kind = 0 ∨ mayIterate (unitAt s t) c = false ∨ 6 < level ∨ selectAccepted s t co = false then none else some (emitToken t co 3 level s)

end Sys2Proof.Machine
end

