-- ==== Sys2Proof/Machine/Streams.lean ====
section
/-!
DEFINITION. What an MU does when it fires (03, 06, 07, 10): accumulator memory with its tiles, and one access of a stream context. Then the firing of
any unit. A firing whose inputs, credits or resources are missing is none.
-/

namespace Sys2Proof.Machine

/-! ### Elements (R66, R68) -/

/-- First address of accumulator memory (R62). -/
def accBase (c : UnitCfg) : Nat := Config.sramBytes - c.accBanks * 32768

/-- Position of element n in the three dimensions (R66). -/
def streamPos (x : StreamCfg) (e0 n : Nat) : Nat × Nat × Nat := (n % e0, n / e0 % x.ext1, n / e0 / x.ext1)

/-- Byte offset of an element whose place in dimension 0 is given: the formula of R66; an index takes that place in the indexed kinds (R68). -/
def offsetAt (x : StreamCfg) (e0 n dim0 : Nat) : Int :=
  let (_, j, k) := streamPos x e0 n
  (dim0 : Int) * x.stride0 + (j : Int) * x.stride1 + (k : Int) * x.stride2

/-- Byte offset of element n. -/
def streamOffset (x : StreamCfg) (e0 n : Nat) : Int := offsetAt x e0 n (n % e0)

/-- An address from a base and an offset. -/
def addrOf (base : Nat) (o : Int) : Nat := ((base : Int) + o).toNat

/-- The SRAM address of element n. -/
def elemAddr (x : StreamCfg) (e0 n : Nat) : Nat := addrOf x.sramBase (streamOffset x e0 n)

/-- Element size in bytes. -/
def elemBytes (x : StreamCfg) : Nat := 2 ^ x.elem

/-- Elements that a vector or request of so many bytes still takes from element n on: it stays within a dimension-0 run (log 23). -/
def elemsLeft (x : StreamCfg) (e0 n bytes : Nat) : Nat := min (max 1 (bytes / elemBytes x)) (e0 - n % e0)

/-- The byte range that a loop spans from a base (R163): first byte and length; none where an extent is zero. -/
def spanOf (x : StreamCfg) (base : Nat) (e0 dim0 : Nat) : Option (Int × Nat) :=
  if e0 = 0 ∨ dim0 = 0 ∨ x.ext1 = 0 ∨ x.ext2 = 0 then none
  else
    let d := [((dim0 : Int) - 1) * x.stride0, ((x.ext1 : Int) - 1) * x.stride1, ((x.ext2 : Int) - 1) * x.stride2]
    let lo := d.foldl (fun a v => a + min 0 v) (base : Int)
    let hi := d.foldl (fun a v => a + max 0 v) (base : Int) + (elemBytes x : Int) - 1
    some (lo, (hi - lo + 1).toNat)

/-! ### Accumulator memory (R62 to R64, R145, R146, R171, R172) -/

/-- The context adds into accumulator memory. -/
def accumulates (x : StreamCfg) : Bool := x.kind == 7 || x.kind == 8

/-- The contexts of a unit that add into its accumulator memory. -/
def accContexts (c : UnitCfg) : List StreamCfg := c.streams.filter accumulates

/-- A context as it sees accumulator memory: one that only reads or writes bytes takes cell format and anchor from the contexts that accumulate, where
they share one (log 23). -/
def accView (c : UnitCfg) (x : StreamCfg) : StreamCfg :=
  if accumulates x then x
  else match accContexts c with
    | [] => x
    | y :: l => { x with accFmt := y.accFmt, anchor := if l.all fun w => w.anchor == y.anchor then y.anchor else x.anchor }

/-- Cell and tile sizes of accumulator memory (R62, R171). -/
def cellBytes (x : StreamCfg) : Nat := if x.accFmt then 4 else 32
def accTileBytes (x : StreamCfg) : Nat := if x.accFmt then 16384 else 131072

/-- Tile frames of a context (R171). -/
def tileFrames (c : UnitCfg) (x : StreamCfg) : Nat := c.accBanks * 32768 / accTileBytes x

/-- An address of a context lies in accumulator memory. -/
def inAcc (c : UnitCfg) (x : StreamCfg) (a : Nat) : Bool := accumulates x || (c.accBanks != 0 && decide (accBase c ≤ a))

/-- The logical accumulator address of an address (R171): from the first address of accumulator memory on, unless an accumulating context counts its
addresses from zero (log 23). -/
def accLogical (c : UnitCfg) (x : StreamCfg) (a : Nat) : Nat := if accumulates x ∧ x.sramBase < accBase c then a else a - accBase c

/-- The tile of an address, where the unit's context keeps accumulator memory in tiles. -/
def accTile (c : UnitCfg) (x : StreamCfg) (a : Nat) : Option Nat :=
  let v := accView c x
  if inAcc c x a && !(accContexts c).isEmpty && tileFrames c v != 0 then some (accLogical c x a / accTileBytes v) else none

/-- The SRAM address that an address of a context stands for: a tile lies in its frame (R172). -/
def physical (c : UnitCfg) (x : StreamCfg) (a : Nat) : Nat :=
  let tb := accTileBytes (accView c x)
  match accTile c x a with
  | some k => accBase c + k % tileFrames c (accView c x) * tb + accLogical c x a % tb
  | none => a % Config.sramBytes

/-- The tile of an address is in its frame. -/
def accHere (s : State) (t : Nat) (c : UnitCfg) (x : StreamCfg) (a : Nat) : Bool := match accTile c x a with
  | none => true
  | some k =>
    let u := unitAt s t
    let fr := k % tileFrames c (accView c x)
    u.frames.contains (fr, k) && (match u.swap with | some w => w.frame != fr | none => true)

/-- The spill area of a context, or of another context of the unit (R160; log 23). -/
def spillArea (s : State) (t n : Nat) : Option SpillArea :=
  match fieldOfTile s t with
  | some (f, _, r, c) => (skeinAt s f (unitAt s t).active).bind fun img =>
    let l := (img.recs.flatMap fun m => match m.body with | .spillArea l => l | _ => []).filter fun e => e.row == r && e.col == c
    (l.find? fun e => e.ctx == n).or l.head?
  | none => none

/-- Tier requests of an MU in flight (R67). -/
def tierInFlight (s : State) (t : Nat) : Nat := (s.mem.requests.filter fun q => q.tile == t).length

/-- A context may issue a tier request (R67). -/
def mayRequest (s : State) (t n : Nat) (x : StreamCfg) : Bool :=
  decide ((streamAt (unitAt s t) n).inFlight ≤ x.maxOut) && decide (tierInFlight s t < 32)

/-- Issue a tier request. -/
def issue (t n : Nat) (q : TierReq) (s : State) : State :=
  let r := streamAt (unitAt s t) n
  let s := setStream t n { r with inFlight := r.inFlight + 1 } s
  { s with mem := { s.mem with requests := s.mem.requests ++ [q] } }

/-- Bytes of one spill transfer request (log 23). -/
def spillChunk : Nat := 2048

/-- The next request of a tile swap: the leaving tile's cells, and after the last of these has been acknowledged those of the tile that comes back
(R172). -/
def spillStep (t n : Nat) (c : UnitCfg) (x : StreamCfg) (w : TileSwap) (s : State) : Option State :=
  let tb := accTileBytes (accView c x)
  let out := if w.old.isSome then tb else 0
  match spillArea s t n, fieldOfTile s t with
  | some a, some (f, _, _, _) =>
    if out + (if w.back then tb else 0) ≤ w.issued ∨ (out ≤ w.issued ∧ w.moved < out) ∨ mayRequest s t n x = false then none
    else
      let leaves := decide (w.issued < out)
      let off := if leaves then w.issued else w.issued - out
      let slot := a.base + (if leaves then w.old.getD 0 else w.tile) * tb + off
      let data := if leaves then mreads (unitAt s t).sram (accBase c + w.frame * tb + off) spillChunk else []
      let q : TierReq := { tile := t, ctx := n, field := f, places := (List.range (spillChunk / 64)).map (slot + 64 * ·), first := off, count := 32,
                           write := leaves, data, spill := true }
      some (issue t n q (modUnit t (fun u => { u with swap := some { w with issued := w.issued + spillChunk } }) s))
  | _, _ => none

/-- One step that brings the tile of an address into its frame: a first touch of an empty frame clears it, else the tiles' transfers go on (R172). -/
def bringTile (t n : Nat) (c : UnitCfg) (x : StreamCfg) (a : Nat) (s : State) : Option State :=
  let u := unitAt s t
  let tb := accTileBytes (accView c x)
  match u.swap, accTile c x a with
  | some w, _ => spillStep t n c x w s
  | none, none => none
  | none, some k =>
    let fr := k % tileFrames c (accView c x)
    let old := (u.frames.find? fun e => e.1 == fr).map (·.2)
    if old.isNone && !u.spilled.contains k then
      some (setUnit s t { u with frames := u.frames ++ [(fr, k)], sram := mclear u.sram (accBase c + fr * tb) tb })
    else spillStep t n c x { frame := fr, tile := k, old, back := u.spilled.contains k, issued := 0, moved := 0 } s

/-- The last transfer of a tile swap has ended: the tile is in its frame, cleared where it had not been spilled (R172). -/
def endSwap (c : UnitCfg) (x : StreamCfg) (w : TileSwap) (u : TileUnit) : TileUnit :=
  let tb := accTileBytes (accView c x)
  { u with
    swap := none
    frames := u.frames.filter (fun e => e.1 != w.frame) ++ [(w.frame, w.tile)]
    spilled := match w.old with | some k => if u.spilled.contains k then u.spilled else u.spilled ++ [k] | none => u.spilled
    sram := if w.back then u.sram else mclear u.sram (accBase c + w.frame * tb) tb }

/-- The bytes of one element that a context reads: SRAM, or a GRID cell converted under R64 and R146. -/
def readElem (s : State) (t : Nat) (c : UnitCfg) (x : StreamCfg) (a : Nat) : List Byte :=
  let z := elemBytes x
  let sram := (unitAt s t).sram
  let p := physical c x a
  let v := accView c x
  let grid := fun (f : FloatFmt) => leBytes z (gridRead f v.anchor (BitVec.ofNat 256 (leNat (mreads sram p 32))))
  if inAcc c x a && !v.accFmt && z == 4 then grid fp32
  else if inAcc c x a && !v.accFmt && z == 2 then grid bf16
  else mreads sram p z

/-- Write bytes into SRAM. -/
def writeSram (t a : Nat) (bs : List Byte) (s : State) : State := modUnit t (fun u => { u with sram := mwrites u.sram (a % Config.sramBytes) bs }) s

/-- The configuration that a unit holds in a slot, and the output port that feeds a vector input, through RELAYs; n bounds their number (R69). -/
def producerOf (s : State) (slot : Nat) : Nat → Nat → Nat → Option (UnitCfg × Nat)
  | 0, _, _ => none
  | n + 1, t, p =>
    match inThread s t slot 0 p, fieldOfTile s t with
    | some (_, x, _), some (_, fl, _, _) =>
      if edgeSourced x then none
      else
        let k := tileAt fl x.srcRow x.srcCol
        match tfind slot (unitAt s k).slots with
        | none => none
        | some c => if c.kind == 2 && c.streams.any (fun y => y.kind == 9 && y.port == x.srcPort) then producerOf s slot n k x.srcPort else some (c, x.srcPort)
    | _, _ => none

/-- Format code of the 16-bit elements that a producer sends (R143, R64, R137): 1 BF16, 2 FP16; none where its words do not say. -/
def halfFormat (c : UnitCfg) (vo : Nat) : Option Nat :=
  let known := fun k => if k = 1 ∨ k = 2 then some k else none
  if c.kind = 2 then (if c.streams.any fun y => (y.kind == 1 || y.kind == 5) && y.port == vo && inAcc c y y.sramBase then some 1 else none)
  else match (c.cu.stages.map stageOp).reverse.find? fun o => bitAt o.dst (1 + vo) with
    | some o => known (if o.op = 11 then o.cvtTo else o.fmt)
    | none => match (drainOps c.cu.drain).getLast? with
      | some o => if o.op = 4 then known o.param else none
      | none => none

/-- The value of an addend of an accumulating context (R63, R145): FP32, BF16 or FP16 as its producer makes it, or a fixed-point accumulator with its
producer's MAT_LSB. What the words of the skein do not say is free (log 23). -/
def addendValue (s : State) (t n : Nat) (x : StreamCfg) (v : Nat) : FVal :=
  let key := 16 * t + n
  let src := producerOf s (unitAt s t).active 1600 t x.port
  match x.elem with
  | 1 =>
    let fp16? := match src.bind fun e => halfFormat e.1 e.2 with | some k => k == 2 | none => Config.addendFp16 key
    if fp16? then fdecode fp16 v else fdecode bf16 v
  | 2 => fdecode fp32 v
  | 3 =>
    let lsb := match src with
      | some (c, _) => if c.kind = 1 ∧ drainRaw c.cu.drain = true ∧ c.cu.mfmt ≤ 9 then c.cu.matLsb else Config.addendLsb key
      | none => Config.addendLsb key
    if v = invalidAcc then .nan else ofInt (signed 64 v) lsb
  | _ => fdecode fp32 (Config.addendOther key v).toNat

/-- Add one addend at an address of accumulator memory (R63, R145). -/
def accAdd (t n : Nat) (c : UnitCfg) (x : StreamCfg) (a v : Nat) (s : State) : State :=
  let p := physical c x a
  let sram := (unitAt s t).sram
  let val := addendValue s t n x v
  if x.accFmt then writeSram t p (leBytes 4 (fencode fp32 0 false (fadd 0 (fdecode fp32 (leNat (mreads sram p 4))) val))) s
  else
    let (cell, first) := gridAdd x.anchor (BitVec.ofNat 256 (leNat (mreads sram p 32))) val
    let s := writeSram t p (leBytes 32 cell.toNat) s
    if first && !(unitAt s t).ovfRaised then report t 0x07 0 (modUnit t (fun u => { u with ovfRaised := true }) s) else s

/-- Put one element: an addend, or bytes. -/
def putElem (t n : Nat) (c : UnitCfg) (x : StreamCfg) (a : Nat) (bs : List Byte) (s : State) : State :=
  if accumulates x then accAdd t n c x a (leNat bs) s else writeSram t (physical c x a) bs s

/-- Addresses of m elements from element n on. -/
def elemAddrs (x : StreamCfg) (e0 n m : Nat) : List Nat := (List.range m).map fun i => elemAddr x e0 (n + i)

/-- How many of the first addresses have their tiles in place. -/
def leadingHere (s : State) (t : Nat) (c : UnitCfg) (x : StreamCfg) (as : List Nat) : Nat := (as.takeWhile (accHere s t c x)).length

/-! ### One access of a stream context (R65 to R70, R228 to R230) -/

/-- Where a context's vectors go: the indexed context that names it, or its port. -/
def indexedBy (c : UnitCfg) (n : Nat) : Option Nat :=
  (List.range 16).find? fun k => match streamCfg c k with
    | some x => decide (5 ≤ x.kind ∧ x.kind ≤ 7) && x.indexSrc == 16 + n
    | none => false

/-- The context may send a vector (R65, R228, R229). -/
def streamOutReady (s : State) (t : Nat) (c : UnitCfg) (n : Nat) (x : StreamCfg) : Bool :=
  match indexedBy c n with
  | some k => decide ((streamAt (unitAt s t) k).indices.length < 17)
  | none => outSends s t 0 x.port

/-- Send a context's vector. -/
def streamSend (t : Nat) (c : UnitCfg) (n : Nat) (x : StreamCfg) (bs : List Byte) (s : State) : State :=
  match indexedBy c n with
  | some k =>
    let r := streamAt (unitAt s t) k
    setStream t k { r with indices := r.indices ++ (elems 32 16 (leNat bs)).map (BitVec.ofNat 32) } s
  | none => sendOut t 0 x.port (BitVec.ofNat 512 (leNat (padTo 64 bs))) s

/-- A context that reads SRAM gathers the elements of its vector or request: all that remain, or those whose tiles are in place, the others after
their tiles (R172). The whole of them goes on to `done`. -/
def tryGather (t : Nat) (c : UnitCfg) (n : Nat) (x : StreamCfg) (e0 bytes : Nat) (done : List Byte → Nat → State → State) (s : State) : Option State :=
  let r := streamAt (unitAt s t) n
  let as := elemAddrs x e0 r.next (elemsLeft x e0 r.next (bytes - r.part.length))
  let k := leadingHere s t c x as
  if k = 0 then bringTile t n c x (as.headD 0) s
  else
    let bs := r.part ++ (as.take k).flatMap (readElem s t c x)
    let whole := decide (k = as.length)
    let s := setStream t n { r with next := r.next + k, part := if whole then [] else bs } s
    some (if whole then done bs (bs.length / elemBytes x) s else s)

/-- LOCAL_READ: one vector (R66). -/
def tryRead (t : Nat) (c : UnitCfg) (n : Nat) (x : StreamCfg) (e0 : Nat) (s : State) : Option State :=
  if !streamOutReady s t c n x then none
  else tryGather t c n x e0 64 (fun bs m s => streamFinish t c n x m (streamSend t c n x bs s)) s

/-- LOCAL_WRITE and ACCUM: one vector of elements or addends (R63, R66). -/
def tryWrite (t : Nat) (c : UnitCfg) (n : Nat) (x : StreamCfg) (e0 : Nat) (s : State) : Option State :=
  let r := streamAt (unitAt s t) n
  let z := elemBytes x
  let vec := if r.part = [] then (inputOf s t 0 x.port).map fun it => (leBytes 64 it.data.toNat).take (elemsLeft x e0 r.next 64 * z) else some r.part
  match vec with
  | none => none
  | some bs =>
    let as := elemAddrs x e0 r.next (bs.length / z)
    let k := leadingHere s t c x as
    if k = 0 then bringTile t n c x (as.headD 0) s
    else
      let s := if r.part = [] then popPort t 0 x.port s else s
      let s := (as.take k).zipIdx.foldl (fun s e => putElem t n c x e.1 ((bs.drop (e.2 * z)).take z) s) s
      some (streamFinish t c n x k (setStream t n { streamAt (unitAt s t) n with next := r.next + k, part := bs.drop (k * z) } s))

/-- The next index of an indexed context, from its buffer or a vector input; the state with it taken (R68, R229). -/
def takeIndex (t n : Nat) (x : StreamCfg) (s : State) : Option (Nat × State) :=
  let r := streamAt (unitAt s t) n
  match r.indices with
  | i :: is => some (i.toNat, setStream t n { r with indices := is } s)
  | [] =>
    if 16 ≤ x.indexSrc then none
    else match inputOf s t 0 x.indexSrc with
      | none => none
      | some it =>
        match (elems 32 16 it.data.toNat).map (BitVec.ofNat 32) with
        | i :: is => some (i.toNat, setStream t n { r with indices := is } (popPort t 0 x.indexSrc s))
        | [] => none

/-- The next z bytes of data of an indexed write, from the rest of a vector or a new one. -/
def takeData (t n : Nat) (x : StreamCfg) (s : State) : Option (List Byte × State) :=
  let z := elemBytes x
  let r := streamAt (unitAt s t) n
  if z ≤ r.part.length ∧ 0 < r.part.length then some (r.part.take z, setStream t n { r with part := r.part.drop z } s)
  else match inputOf s t 0 x.port with
    | none => none
    | some it =>
      let bs := leBytes 64 it.data.toNat
      some (bs.take z, setStream t n { r with part := bs.drop z } (popPort t 0 x.port s))

/-- One index of INDEXED_READ, INDEXED_WRITE or INDEXED_ACCUM (R68, R229). What a vector of indices or data holds beyond the end of a dimension-0 run
is dropped (log 23). -/
def tryIndexed (t : Nat) (c : UnitCfg) (n : Nat) (x : StreamCfg) (e0 : Nat) (s : State) : Option State :=
  match takeIndex t n x s with
  | none => none
  | some (idx, s1) =>
    let next := (streamAt (unitAt s t) n).next
    let out := decide (x.indexLimit ≤ idx)
    let a := addrOf x.sramBase (offsetAt x e0 next idx)
    if (x.kind = 5 ∧ streamOutReady s t c n x = false) ∨ (x.kind ≠ 5 ∧ (takeData t n x s1).isNone) then none
    else if !out && !accHere s t c x a then bringTile t n c x a s
    else
      let ends := decide ((next + 1) % e0 = 0)
      let rest := if ends then (16 - e0 % 16) % 16 else 0
      let step := fun (s : State) =>
        let r := streamAt (unitAt s t) n
        setStream t n { r with next := next + 1, outOfRange := r.outOfRange + b2n out, indices := r.indices.drop rest
                               part := if ends && x.kind != 5 then [] else r.part } s
      if x.kind = 5 then
        let part := (streamAt (unitAt s1 t) n).part ++ (if out then zeros (elemBytes x) else readElem s1 t c x a)
        let full := decide (64 ≤ part.length) || ends
        let s2 := step s1
        let s2 := setStream t n { streamAt (unitAt s2 t) n with part := if full then [] else part } s2
        some (streamFinish t c n x 1 (if full then streamSend t c n x part s2 else s2))
      else (takeData t n x s1).map fun e =>
        let s2 := step e.2
        streamFinish t c n x 1 (if out then s2 else putElem t n c x a e.1 s2)

/-- The SRAM address of a place of the RELAY ring (R69). -/
def ringAddr (x : StreamCfg) (i : Nat) : Nat := x.sramBase + 64 * i

/-- RELAY sends the oldest vector of its ring where the output takes it (R69). -/
def relayOut (t : Nat) (c : UnitCfg) (n : Nat) (x : StreamCfg) (e0 : Nat) (s : State) : Option State :=
  let r := streamAt (unitAt s t) n
  if r.ringCount = 0 ∨ outSends s t 0 x.port = false then none
  else
    let v := mreads (unitAt s t).sram (ringAddr x r.ringRead) 64
    let s := setStream t n { r with ringCount := r.ringCount - 1, ringRead := (r.ringRead + 1) % max (x.ringBytes / 64) 1 } s
    some (streamFinish t c n x (elemsLeft x e0 r.finished 64) (sendOut t 0 x.port (BitVec.ofNat 512 (leNat v)) s))

/-- RELAY takes a vector from its input where the ring has room (R69). One PORT names its input and its output (log 23). -/
def relayIn (t n : Nat) (x : StreamCfg) (e0 : Nat) (s : State) : Option State :=
  let r := streamAt (unitAt s t) n
  match inputOf s t 0 x.port with
  | none => none
  | some it =>
    if x.ringBytes / 64 ≤ r.ringCount ∨ (streamTotal x r).getD 0 ≤ r.next then none
    else
      let s := writeSram t (ringAddr x r.ringWrite) (leBytes 64 it.data.toNat) (popPort t 0 x.port s)
      some (setStream t n { streamAt (unitAt s t) n with
        next := r.next + elemsLeft x e0 r.next 64, ringCount := r.ringCount + 1, ringWrite := (r.ringWrite + 1) % max (x.ringBytes / 64) 1 } s)

/-- The tier range that a context's run spans. -/
def tierRange (x : StreamCfg) (e0 : Nat) : Option (Int × Nat) := spanOf x x.tierBase e0 e0

/-- Hand-off ranges of a skein in a direction (R102). -/
def handoffsDir (i : SkeinImage) (dir : Nat) : List Handoff :=
  (i.recs.flatMap fun m => match m.body with | .handoff l => l | _ => []).filter fun h => h.dir == dir

/-- A FETCH context waits at a hand-off gate: it reads a DIR 1 range that overlaps a DIR 0 range of an earlier section that is not complete (R111). -/
def gated (s : State) (t : Nat) (x : StreamCfg) (e0 : Nat) : Bool :=
  match unitSection s t, tierRange x e0 with
  | some (f, y), some (lo, bytes) =>
    match fieldAt s f with
    | none => false
    | some fl =>
      let mine := ((secSkein fl y).elim [] fun i => handoffsDir i 1).filter fun h => overlaps h.base h.bytes lo.toNat bytes
      (fl.seq.filter fun e => decide (e.id < y.id)).any fun e => match secSkein fl e with
        | none => false
        | some i => (handoffsDir i 0).any fun h => mine.any fun g => overlaps h.base h.bytes g.base g.bytes
  | _, _ => false

/-- The tier addresses of m elements from element n on. -/
def tierPlaces (x : StreamCfg) (e0 n m : Nat) : List Nat := (List.range m).map fun i => addrOf x.tierBase (streamOffset x e0 (n + i))

/-- The request of m elements from element n on. -/
def tierReq (s : State) (t n : Nat) (x : StreamCfg) (e0 first m : Nat) (data : List Byte) : TierReq :=
  { tile := t, ctx := n, field := match fieldOfTile s t with | some (f, _, _, _) => f | none => 0, places := tierPlaces x e0 first m, first, count := m,
    write := x.kind == 4, data }

/-- FETCH and STORE: one tier request (R66, R67, R111). A STORE takes its data at issue. -/
def tryTier (t : Nat) (c : UnitCfg) (n : Nat) (x : StreamCfg) (e0 : Nat) (s : State) : Option State :=
  let r := streamAt (unitAt s t) n
  let bytes := 64 * 2 ^ x.reqBytes
  if !mayRequest s t n x then none
  else if x.kind = 4 then tryGather t c n x e0 bytes (fun bs m s => issue t n (tierReq s t n x e0 ((streamAt (unitAt s t) n).next - m) m bs) s) s
  else if gated s t x e0 then none
  else
    let m := elemsLeft x e0 r.next bytes
    match (elemAddrs x e0 r.next m).find? fun a => !accHere s t c x a with
    | some a => bringTile t n c x a s
    | none => some (issue t n (tierReq s t n x e0 r.next m []) (setStream t n { r with next := r.next + m } s))

/-- A drain stops a source context at an entry boundary: one whose entries come from SRAM or a tier, not from an input (R117). -/
def sourceStops (s : State) (t : Nat) (x : StreamCfg) (r : StreamRun) : Bool :=
  inDrain s t && r.part.isEmpty && (x.kind == 1 || x.kind == 3 || (x.kind == 5 && decide (16 ≤ x.indexSrc)))

/-- One access of a context, whoever's turn it is. -/
def tryAccess (t : Nat) (c : UnitCfg) (n : Nat) (s : State) : Option State :=
  match streamCfg c n with
  | none => none
  | some x =>
    let r := streamAt (unitAt s t) n
    if c.kind ≠ 2 ∨ predWaits s t = true then none
    else match ext0Of x r with
      | none => none
      | some e0 =>
        if e0 * x.ext1 * x.ext2 ≤ r.finished ∨ sourceStops s t x r = true then none
        else if x.kind = 9 then (relayOut t c n x e0 s).or (relayIn t n x e0 s)
        else if e0 * x.ext1 * x.ext2 ≤ r.next then none
        else if x.kind = 1 then tryRead t c n x e0 s
        else if x.kind = 2 ∨ x.kind = 8 then tryWrite t c n x e0 s
        else if x.kind = 3 ∨ x.kind = 4 then tryTier t c n x e0 s
        else if 5 ≤ x.kind ∧ x.kind ≤ 7 then tryIndexed t c n x e0 s
        else none

/-- Place of a context in the rotation of its generator, after the one it served last (R65). -/
def genRank (u : TileUnit) (x : StreamCfg) (n : Nat) : Nat := (n + 15 - tget 15 x.gen u.genLast) % 16

/-- The context that a generator serves next: the first in rotating order that is ready (R65). -/
def genNext (s : State) (t : Nat) (c : UnitCfg) (g : Nat) : Option Nat :=
  let last := tget 15 g (unitAt s t).genLast
  ((List.range 16).map fun i => (last + 1 + i) % 16).find? fun n => match streamCfg c n with
    | some x => x.gen == g && (tryAccess t c n s).isSome
    | none => false

/-- One access of a stream context, the next in its generator's rotation (R65). -/
def tryStream (t : Nat) (c : UnitCfg) (n : Nat) (s : State) : Option State :=
  match streamCfg c n with
  | none => none
  | some x =>
    if genNext s t c x.gen ≠ some n then none
    else (tryAccess t c n s).map (modUnit t fun u => { u with genLast := tset 0 x.gen n u.genLast })

/-- SRAM addresses that the next access of a context reads, and those that it writes. -/
def accessAddrs (s : State) (t : Nat) (c : UnitCfg) (n : Nat) : List Nat × List Nat :=
  match streamCfg c n with
  | none => ([], [])
  | some x =>
    let r := streamAt (unitAt s t) n
    let e0 := (ext0Of x r).getD 0
    let run := fun (bytes : Nat) => (elemAddrs x e0 r.next (elemsLeft x e0 r.next bytes)).map (physical c x)
    let one := match takeIndex t n x s with
      | some (i, _) => if i < x.indexLimit then [physical c x (addrOf x.sramBase (offsetAt x e0 r.next i))] else []
      | none => []
    if x.kind = 1 then (run 64, [])
    else if x.kind = 2 then ([], run 64)
    else if x.kind = 8 then (run 64, run 64)
    else if x.kind = 4 then (run (64 * 2 ^ x.reqBytes), [])
    else if x.kind = 5 then (one, [])
    else if x.kind = 6 then ([], one)
    else if x.kind = 7 then (one, one)
    else if x.kind = 9 then (if (relayOut t c n x e0 s).isSome then ([ringAddr x r.ringRead], []) else ([], [ringAddr x r.ringWrite]))
    else ([], [])

/-! ### Firing -/

/-- The effect of a firing on the array; none where it is not ready. -/
def tryFire (t : Nat) (c : UnitCfg) (k : Firing) (s : State) : Option State :=
  match k with
  | .vector => tryVector t c s
  | .matrixRow vi si => tryMatrix t c vi (si.map (·.val)) s
  | .weight vi => tryWeight t c vi s
  | .closeBank => tryClose t c s
  | .drainRow => tryDrain t c s
  | .stream n => tryStream t c n s
  | .select co level => trySelect t c co level s

/-- A unit may fire: an active, dispatched section at work, no fence, no FLUSH passed on, no ABORT, no empty dispatch, clock running. -/
def mayFire (s : State) (t : Nat) : Bool :=
  let u := unitAt s t
  !unitFenced s t && !u.stopped && !u.flushEmitted && !u.aborted && !u.emptyRun && atWork u && !s.fld.stopped.getLsbD (tileIsland s t) &&
    match unitSection s t with
    | some (_, x) => x.phase == .dispatched || x.phase == .draining
    | none => false

end Sys2Proof.Machine
end

