-- ==== Sys2Proof/Machine/Settle.lean ====
section
/-!
DEFINITION. What a unit does besides firing (03, 04, 05): it begins counter runs, lets waiting tokens leave, takes tokens from its control inputs, and
passes END_SECTION and FLUSH on.
-/

namespace Sys2Proof.Machine

/-! ### Runs of counters (R53 to R56, R90, R95) -/

/-- A run of level 0 with no iteration whose end sends (R95). -/
def emptyEnd (c : UnitCfg) (cc : CounterCfg) (l n : Nat) : Bool := decide (n = 0 ∧ l = 0 ∧ cc.adv = 1) && raggedRuns c

/-- Begin a run of a counter that has one released: its scalars are read and held (R54 to R56, R90). A run above MAX_ITER does not start. Where START_SRC
and BOUND_SRC name one scalar input, one word serves both (log 164). A ragged level-0 run without iterations has its end too (R95). -/
def counterBegin (t : Nat) (c : UnitCfg) (l : Nat) (s : State) : State :=
  let u := unitAt s t
  let r := counterAt u l
  match counterCfg c l with
  | none => s
  | some cc =>
    if r.running || r.released == 0 || doneWaits u l then s
    else if u.emptyRun then counterEnds t c l 6 (setCounter t l { r with released := r.released - 1 } s)
    else match counterArg s t cc.startSrc cc.start, counterArg s t cc.boundSrc cc.bound with
      | some a, some b =>
        let n := iterations a b cc.stride
        if emptyEnd c cc l n && !stageRoom s t c [true] then s
        else
          let s := if cc.startSrc = 0 then s else popPort t 1 (cc.startSrc - 1) s
          let s := if cc.boundSrc = 0 ∨ cc.boundSrc = cc.startSrc then s else popPort t 1 (cc.boundSrc - 1) s
          let r := { r with released := r.released - 1, start := a, bound := b, value := a }
          if cc.maxIter < n then report t 0x05 (l * 65536) (setCounter t l r s)
          else if n = 0 then counterEnds t c l 6 (setCounter t l { r with running := true } (if emptyEnd c cc l n then endIteration t c s else s))
          else
            let s := setCounter t l { r with running := true } s
            match innerLevel c l with
            | some k => setCounter t k { counterAt (unitAt s t) k with released := (counterAt (unitAt s t) k).released + 1 } s
            | none => s
      | _, _ => s

/-- Begin the runs that may begin, outermost first; n bounds the passes. -/
def countersBegin (t : Nat) (c : UnitCfg) : Nat → State → State
  | 0, s => s
  | n + 1, s =>
    let s' := [5, 4, 3, 2, 1, 0].foldl (fun s l => counterBegin t c l s) s
    if s' = s then s else countersBegin t c n s'

/-! ### Control ports (R89, R113, R117) -/

/-- Control inputs of the unit's active context: those at which a control thread ends (R89). -/
def controlInputs (s : State) (t : Nat) : List Nat := (List.range 4).filter fun p => (inThread s t (unitAt s t).active 2 p).isSome

/-- Control outputs with a thread. -/
def controlOutputs (s : State) (t : Nat) : List Nat := (List.range 4).filter fun p => (outThread s t 2 p).isSome

/-- Each active control input has delivered END_SECTION or ABORT (R113 condition 1). -/
def inputsEnded (s : State) (t : Nat) : Bool := (controlInputs s t).all fun p => (unitAt s t).ended.getLsbD p

/-- The unit that feeds a control input has not reached this unit's section: in a drain, in which no unit swaps, it sends nothing more (R113, R117;
log 27). -/
def sourceBehind (s : State) (t p : Nat) : Bool :=
  match inThread s t (unitAt s t).active 2 p, fieldOfTile s t with
  | some (_, x, _), some (_, fl, _, _) => !edgeSourced x && match (unitAt s (tileAt fl x.srcRow x.srcCol)).sectionId with
    | some j => decide (j < unitSecId s t)
    | none => true
  | _, _ => false

/-- Each active control input has delivered FLUSH, END_SECTION or ABORT, or has none to come (R117). -/
def inputsFlushed (s : State) (t : Nat) : Bool :=
  (controlInputs s t).all fun p => (unitAt s t).ended.getLsbD p || (unitAt s t).flushed.getLsbD p || sourceBehind s t p

/-! ### Taking a token (R86, R87, R91) -/

/-- KIND and LEVEL of a token (R85). -/
def tokKind (x : Item) : Nat := bits x.data.toNat 5 3
def tokLevel (x : Item) : Nat := bits x.data.toNat 2 3

/-- SEL_SI of a control input. -/
def selSi (c : UnitCfg) (ci : Nat) : Nat := c.ctl.selSi.getD ci 0

/-- An entry in an input FIFO is a section's: it has its slot's tag, and the section owns the thread that brought it (R84, R114). -/
def entryOf (s : State) (t slot id : Nat) (p : Nat) (it : Item) : Bool :=
  it.tag == slot && match inThread s t slot (p / 4) (p % 4) with
    | some (k, _, _) => (threadAt s k).owner == some id
    | none => true

/-- Entries of a section in a unit's input FIFOs (R84, R118). -/
def residueOf (s : State) (t slot id : Nat) : Tab (List Item) :=
  ((unitAt s t).fifos.map fun (e : Nat × List Item) => (e.1, e.2.filter (entryOf s t slot id e.1))).filter fun (e : Nat × List Item) => e.2 != []

/-- The FIFOs without a section's entries. -/
def withoutEntries (s : State) (t slot id : Nat) : Tab (List Item) :=
  ((unitAt s t).fifos.map fun (e : Nat × List Item) => (e.1, e.2.filter fun it => !entryOf s t slot id e.1 it)).filter fun (e : Nat × List Item) => e.2 != []

/-- Entries of the active section in a unit's FIFOs are discarded; their credits start back (R86). -/
def discardTag (t tag : Nat) (s : State) : State :=
  let u := unitAt s t
  let gone := (residueOf s t tag (unitSecId s t)).flatMap fun (e : Nat × List Item) => e.2.map fun _ => e.1
  let s := setUnit s t { u with fifos := withoutEntries s t tag (unitSecId s t) }
  gone.foldl (fun s p => match inThread s t tag (p / 4) (p % 4) with
    | some (k, _, d) => returnCredit k d s
    | none => s) s

/-- START releases one run of the outermost counter where START_WAIT is set (R86). -/
def takeStart (t : Nat) (c : UnitCfg) (s : State) : State := match outermost c with
  | some l =>
    if c.ctl.startWait && c.kind == 1 && !(unitAt s t).emptyRun then
      let r := counterAt (unitAt s t) l
      setCounter t l { r with released := r.released + 1 } s
    else s
  | none => s

/-- A DONE at a control input advances its counter (R86). -/
def doneCounts (c : UnitCfg) (ci level : Nat) : Bool := match counterCfg c level with
  | some cc => c.kind == 1 && cc.adv == 2 && cc.advIn == ci
  | none => false

/-- DONE ends the current iteration of its counter: the end-of-iteration operations run and the counter advances. It waits while an output has no room
for them. One that no counter watches, or whose counter has no run under way, is consumed with no effect (R53, R86, R93; log 164). -/
def takeDone (t : Nat) (c : UnitCfg) (ci level : Nat) (s : State) : Option State :=
  if !doneCounts c ci level || !(counterAt (unitAt s t) level).running then some s
  else if level = 0 ∧ doneIterates c = true then
    if !stageRoom s t c [true] then none else some (counterAdvance t c level (doneCloses t level c (endIteration t c s)))
  else some (counterAdvance t c level (doneCloses t level c s))

/-- SELECT takes the next word of the input's SEL_SI and sets the predicate; it waits while no word is present (R86, R94). -/
def takeSelect (t : Nat) (c : UnitCfg) (ci level : Nat) (s : State) : Option State :=
  let si := selSi c ci - 1
  (headOf s t 1 si).map fun w => modUnit t (fun u => { u with predicate := some (bits w.data.toNat 0 32 != 0), predLevel := level }) (popPort t 1 si s)

/-- ABORT stops the tagged context: no further firings, its entries are discarded, ABORT goes on to every active control output, and the input counts
as ended (R86). -/
def takeAbort (t ci tag : Nat) (s : State) : State :=
  let first := !(unitAt s t).aborted
  let s := modUnit t (fun u => { u with aborted := true, ended := setBit u.ended ci true, waits := if first then [] else u.waits }) s
  let s := discardTag t tag s
  if first then (controlOutputs s t).foldl (fun s co => emitToken t co 6 6 s) (modUnit t (fun u => { u with endEmitted := true }) s) else s

/-- The effect of the token at the head of a control input; none while it waits (R86). -/
def tokenEffect (t ci : Nat) (x : Item) (c : UnitCfg) (s : State) : Option State :=
  match tokKind x with
  | 1 => some (takeStart t c s)
  | 2 => takeDone t c ci (tokLevel x) s
  | 3 => takeSelect t c ci (tokLevel x) s
  | 4 => some (modUnit t (fun u => { u with ended := setBit u.ended ci true }) s)
  | 5 => some (modUnit t (fun u => { u with flushed := setBit u.flushed ci true }) s)
  | 6 => some (takeAbort t ci x.tag s)
  | _ => some s

/-- The token of a control input has to wait for that of another: an ABORT goes first, a counter's advance before a SELECT scoped to it, and otherwise
the lower input (R91). -/
def tokenBehind (s : State) (t : Nat) (c : UnitCfg) (ci : Nat) (x : Item) : Bool :=
  let sameLevel := fun (sel done : Item) (q : Nat) => tokKind sel == 3 && tokKind done == 2 && tokLevel sel == tokLevel done && doneCounts c q (tokLevel done)
  (List.range 4).any fun q => q != ci && match headOf s t 2 q with
    | none => false
    | some y => (tokenEffect t q y c (popPort t 2 q s)).isSome &&
      if tokKind x = 6 then tokKind y == 6 && decide (q < ci)
      else tokKind y == 6 || sameLevel x y q || (decide (q < ci) && !sameLevel y x ci)

/-- Take the token at the head of a control input and give it its effect; none where there is none, or it waits (R86, R91). -/
def takeToken (t ci : Nat) (s : State) : Option State :=
  let u := unitAt s t
  match headOf s t 2 ci, unitCfg u with
  | some x, some c =>
    if unitFenced s t || u.stopped || s.fld.stopped.getLsbD (tileIsland s t) || tokenBehind s t c ci x then none
    else tokenEffect t ci x c (popPort t 2 ci s)
  | _, _ => none

/-! ### What still can happen in a drain (R117) -/

/-- The firings that a complete set of inputs gives a unit, a bank's close and drain with them, apart from SELECT and from a STORE, which needs no
input. -/
def inputFirings (s : State) (t : Nat) (c : UnitCfg) : List (State → Option State) :=
  if c.kind = 1 then
    let p := matrixPorts s t c
    tryVector t c :: tryClose t c :: tryDrain t c :: ((p.1.map fun vi => tryMatrix t c vi p.2.2).toList ++ (p.2.1.map fun vi => tryWeight t c vi).toList)
  else ((List.range 16).filter fun n => match streamCfg c n with | some x => x.kind != 4 | none => false).map fun n => tryAccess t c n

/-- The unit could fire on inputs that it holds. -/
def firesOnInputs (s : State) (t : Nat) : Bool := match unitCfg (unitAt s t) with
  | none => false
  | some c => mayFire s t && (inputFirings s t c).any fun f => (f s).isSome

/-- The state as if every output of a unit had its credits, for entries of its section. -/
def openOutputs (t : Nat) (s : State) : State :=
  ([(0, 0), (0, 1), (0, 2), (0, 3), (1, 0), (1, 1)] : List (Nat × Nat)).foldl (fun s e => match outThread s t e.1 e.2 with
    | some (k, _) => setThread s k { threadAt s k with credits := [], lastSection := some (unitSecId s t) }
    | none => s) s

/-- The unit holds a complete set of inputs, whether or not its outputs have room. -/
def holdsSet (s : State) (t : Nat) : Bool := firesOnInputs (openOutputs t s) t

/-- The unit can fire now, or take a token other than FLUSH. -/
def unitMoves (s : State) (t : Nat) : Bool :=
  firesOnInputs s t || (List.range 4).any fun ci => (match headOf s t 2 ci with | some x => tokKind x != 5 | none => false) && (takeToken t ci s).isSome

/-- A field stands still but for its FLUSH tokens: no entry or credit is on its way, no tier request is outstanding, and no unit can go on. -/
def fieldStill (s : State) (f : Nat) : Bool :=
  let mine := fun (t : Nat) => match fieldOfTile s t with | some (g, _, _, _) => g == f | none => false
  (s.grid.threads.all fun e => keyField e.1 != f || (e.2.returning.all (fun r => r.2 == 0) && e.2.flying.all fun y => match threadCfgAt s e.1 with
    | some x => x.lane == 2 && tokKind y.item == 5
    | none => true))
  && !s.mem.requests.any (fun q => mine q.tile) && s.grid.units.all fun e => !mine e.1 || !unitMoves s e.1

/-! ### Tokens that wait at control outputs (R88, R113, R117) -/

/-- Every entry of a fence has had its credit returned from every destination (R88). -/
def creditsBack (s : State) (fence : List (Nat × Nat)) : Bool :=
  fence.all fun (k, n) => match threadCfgAt s k with
    | none => true
    | some x => (List.range x.dests.length).all fun d => decide (n + Config.fifoDepth ≤ (threadAt s k).sent + creditsOf (threadAt s k) d)

/-- A FLUSH leaves although its fence is not open: what holds the credits is residue that no unit can fire on, and that the park record keeps, for the
field stands still (R88, R117, R118; log 27). -/
def flushLeaves (s : State) (t : Nat) (w : WaitToken) : Bool :=
  bits w.token.toNat 5 3 == 5 && match fieldOfTile s t with
    | some (f, _, _, _) => fieldStill s f
    | none => false

/-- A waiting token that may leave: the first of its control output under its fence, or a FLUSH of a field that stands still. -/
def readyWait (s : State) (t : Nat) : Option WaitToken :=
  let u := unitAt s t
  u.waits.find? fun w =>
    (match outThread s t 2 w.co with
      | some (k, x) => hasCredit s k x && mayFollow s (keyField k) (unitSecId s t) k x
      | none => true)
    && (((u.waits.find? fun v => v.co == w.co) == some w && creditsBack s w.fence) || flushLeaves s t w)

/-- Let waiting tokens leave; n bounds their number. -/
def pumpTokens (t : Nat) : Nat → State → State
  | 0, s => s
  | n + 1, s =>
    match readyWait s t with
    | none => s
    | some w =>
      let u := unitAt s t
      pumpTokens t n (sendToken t w.co w.token (setUnit s t { u with waits := u.waits.erase w }))

/-! ### What a unit does by itself -/

/-- A bank of the matrix engine is open or drains. -/
def matrixBusy (m : Matrix) : Bool := m.closedRows != 0 || m.row != 0 || m.tile != 0

/-- The unit's work in its section is finished (R113 conditions 1 to 3). -/
def workDone (s : State) (t : Nat) : Bool :=
  let u := unitAt s t
  match unitCfg u with
  | none => true
  | some c => inputsEnded s t && (u.aborted || (countersDone u c && streamsDone s t c && !matrixBusy u.matrix && !holdsSet s t))

/-- Runs begin and scalar extents are read. -/
def beginRuns (t : Nat) (c : UnitCfg) (s : State) : State :=
  let s := (List.range 16).foldl (fun s n => streamExt t c n s) s
  if c.kind = 1 then countersBegin t c 64 s else s

/-- END_SECTION follows the end of a unit's work (R113). -/
def endWork (t : Nat) (s : State) : State :=
  let u := unitAt s t
  if workDone s t && !u.endEmitted && !u.aborted && !inDrain s t then
    (controlOutputs s t).foldl (fun s co => emitToken t co 4 6 s) (setUnit s t { u with endEmitted := true })
  else s

/-- FLUSH follows the last firing of a flushed unit: every complete set that it holds has fired, or can never fire because the field stands still
(R117 step 2). END_SECTION has already gone ahead of it where the unit's work was done. -/
def passFlush (t : Nat) (s : State) : State :=
  let u := unitAt s t
  if inDrain s t && inputsFlushed s t && !u.flushEmitted && (!holdsSet s t || match fieldOfTile s t with
      | some (f, _, _, _) => fieldStill s f
      | none => false) then
    let s := setUnit s t { u with flushEmitted := true }
    if u.endEmitted then s else (controlOutputs s t).foldl (fun s co => emitToken t co 5 6 s) s
  else s

/-- A unit whose FLUSH has left stops once its tier requests are complete (R117 step 2). -/
def stopUnit (t : Nat) (s : State) : State :=
  let u := unitAt s t
  if inDrain s t && u.flushEmitted && !(u.waits.any fun w => bits w.token.toNat 5 3 == 5) && !s.mem.requests.any (fun q => q.tile == t) then
    setUnit s t { u with stopped := true }
  else s

/-- After any event at a unit: runs begin, tokens leave, END_SECTION follows the end of the work, FLUSH the end of a drain. -/
def settleUnit (t : Nat) (s : State) : State :=
  match unitCfg (unitAt s t) with
  | none => s
  | some c =>
    if unitFenced s t || (unitAt s t).stopped || !atWork (unitAt s t) then s
    else stopUnit t (pumpTokens t 16 (passFlush t (endWork t (pumpTokens t 16 (beginRuns t c s)))))

end Sys2Proof.Machine
end

