-- ==== Sys2Proof/Machine/Counts.lean ====
section
/-!
DEFINITION. What the loader computes from a skein: records, shape axes, footprints, entry counts, joins and lags, accumulator tiles, and the static
cycle bound (R155 to R163, R168, R169, R171, R173, R174).
-/

namespace Sys2Proof.Machine

/-! ### Records (R102, R154) -/

def axesOf (i : SkeinImage) : List ShapeAxis := i.recs.flatMap fun r => match r.body with | .maxShapes l => l | _ => []
def extentsOf (i : SkeinImage) : List BufferExtent := i.recs.flatMap fun r => match r.body with | .bufferExtents l => l | _ => []
def joinsOf (i : SkeinImage) : List JoinDecl := i.recs.flatMap fun r => match r.body with | .pathBalance l => l | _ => []
def tilesOf (i : SkeinImage) : List AccumTiles := i.recs.flatMap fun r => match r.body with | .accumTiles l => l | _ => []
def sharesOf (i : SkeinImage) : List TierShare := i.recs.flatMap fun r => match r.body with | .cycleBound _ l => l | _ => []
def claimedOf (i : SkeinImage) : Option Nat := (i.recs.filterMap fun r => match r.body with | .cycleBound c _ => some c | _ => none).head?
def handoffsOf (i : SkeinImage) : List Handoff := i.recs.flatMap fun r => match r.body with | .handoff l => l | _ => []
def spillsOf (i : SkeinImage) : List SpillArea := i.recs.flatMap fun r => match r.body with | .spillArea l => l | _ => []
def claimsOf (i : SkeinImage) : List SramClaim := i.recs.flatMap fun r => match r.body with | .sramClaims l => l | _ => []
def capacityOf (i : SkeinImage) : List CapacityDecl := i.recs.flatMap fun r => match r.body with | .capacity l => l | _ => []

/-- Bytes of one entry of a record (R102, R155 to R162). -/
def entryBytes : MetaBody → Nat
  | .maxShapes _ => 16 | .bufferExtents _ => 24 | .pathBalance _ => 8 | .accumTiles _ => 8 | .cycleBound _ _ => 8
  | .handoff _ => 24 | .spillArea _ => 24 | .sramClaims _ => 16 | .capacity _ => 16 | .unknown _ => 0

/-- Where the entries of a record start (R154, R159). -/
def entryStart : MetaBody → Nat
  | .cycleBound _ _ => 16 | _ => 8

/-- The record's type number (R102). -/
def recType : MetaBody → Nat
  | .maxShapes _ => 1 | .bufferExtents _ => 2 | .pathBalance _ => 3 | .accumTiles _ => 4 | .cycleBound _ _ => 5
  | .handoff _ => 6 | .spillArea _ => 7 | .sramClaims _ => 8 | .capacity _ => 9 | .unknown t => t

/-- Units of a skein that work. -/
def workingUnits (i : SkeinImage) : List UnitCfg := i.units.filter fun u => u.kind != 0

/-- The unit at a tile of the field. -/
def unitIn (i : SkeinImage) (r c : Nat) : Option UnitCfg := i.units.find? fun u => u.row == r && u.col == c && u.kind != 0

/-- The thread that ends at an input port of a unit, and that which starts at an output port. -/
def threadTo (i : SkeinImage) (r c lane p : Nat) : Option ThreadCfg :=
  i.threads.find? fun x => x.lane == lane && x.dests.any fun d => d.row == r && d.col == c && d.port == p
def threadFrom (i : SkeinImage) (r c lane p : Nat) : Option ThreadCfg :=
  i.threads.find? fun x => x.lane == lane && x.srcRow == r && x.srcCol == c && x.srcPort == p

/-- The edge-sourced scalar threads, in the order of the thread table: thread k brings run-time scalar k (log 24). -/
def scalarThreads (i : SkeinImage) : List ThreadCfg := i.threads.filter fun x => x.lane == 1 && edgeSourced x

/-- The feeds: edge-sourced vector threads (R233). -/
def feedThreads (i : SkeinImage) : List ThreadCfg := i.threads.filter fun x => x.lane == 0 && edgeSourced x

/-- The axis of the scalar that reaches a scalar input of a unit (R155, R164). -/
def axisOf (i : SkeinImage) (r c si : Nat) : Option Nat :=
  match threadTo i r c 1 si with
  | none => none
  | some x =>
    if edgeSourced x then
      match (scalarThreads i).findIdx? fun y => y == x with
      | none => none
      | some k => (axesOf i).findIdx? fun a => a.src == 0 && a.scalar == k
    else (axesOf i).findIdx? fun a => a.src == 1 && a.row == x.srcRow && a.col == x.srcCol && a.so == x.srcPort

/-- MAX of an axis. -/
def axisMax (i : SkeinImage) (k : Nat) : Nat := match (axesOf i)[k]? with | some a => a.max | none => 0

/-! ### Counts as products (R164 order 8) -/

/-- A product of a constant and axes, the axes in rising order. -/
structure Mono where
  k : Nat
  axes : List Nat
  deriving DecidableEq, Repr

/-- Insert into a rising list. -/
def insertN (x : Nat) : List Nat → List Nat
  | [] => [x]
  | y :: l => if x ≤ y then x :: y :: l else y :: insertN x l

/-- A list in rising order. -/
def sortN (l : List Nat) : List Nat := l.foldl (fun m x => insertN x m) []

/-- Product; with a factor zero it names no axis. -/
def Mono.mul (a b : Mono) : Mono := if a.k * b.k = 0 then { k := 0, axes := [] } else { k := a.k * b.k, axes := a.axes.foldl (fun l x => insertN x l) b.axes }

/-- A constant. -/
def Mono.const (k : Nat) : Mono := { k, axes := [] }

/-- The value at given axis values. -/
def Mono.value (m : Mono) (v : Nat → Nat) : Nat := m.axes.foldl (fun a x => a * v x) m.k

/-- The quotient, where it is a product. -/
def Mono.div (a b : Mono) : Option Mono :=
  let rest := b.axes.foldl (fun l x => l.erase x) a.axes
  if b.k ≠ 0 ∧ a.k % b.k = 0 ∧ rest.length + b.axes.length = a.axes.length then some { k := a.k / b.k, axes := rest } else none

/-- A count of entries: a product, one that DONE or SELECT tokens fix as the section runs, or one that the words fix and that is no product (log 25). -/
inductive Count where
  | known (m : Mono)
  | open_
  | other
  deriving DecidableEq, Repr

/-- Product of counts. -/
def Count.mul : Count → Count → Count
  | .known a, .known b => .known (a.mul b)
  | .other, _ => .other
  | _, .other => .other
  | _, _ => .open_

/-- A constant count. -/
def Count.const (k : Nat) : Count := .known (.const k)

/-- Quotient of counts. -/
def Count.div : Count → Count → Count
  | .known a, .known b => match a.div b with | some m => .known m | none => .other
  | .other, _ => .other
  | _, .other => .other
  | _, _ => .open_

/-- Sum of counts: of those on one product of axes. -/
def Count.add : Count → Count → Count
  | .known a, .known b => if a.k = 0 then .known b else if b.k = 0 then .known a else if a.axes = b.axes then .known { a with k := a.k + b.k } else .other
  | .other, _ => .other
  | _, .other => .other
  | _, _ => .open_

/-- Sum of a list. -/
def Count.sum (l : List Count) : Count := l.foldl Count.add (.const 0)

/-- The value at given axis values, where the words fix it. -/
def Count.value? (c : Count) (v : Nat → Nat) : Option Nat := match c with | .known m => some (m.value v) | _ => none

/-- Two counts of one thread agree: as products, where tokens do not fix one of them (R164). -/
def Count.agrees : Count → Count → Bool
  | .open_, _ => true
  | _, .open_ => true
  | .known a, .known b => a == b
  | _, _ => false

/-- The count of a scalar that reaches a scalar input: its axis. -/
def axisCount (i : SkeinImage) (u : UnitCfg) (si : Nat) : Count := match axisOf i u.row u.col si with
  | some a => .known { k := 1, axes := [a] }
  | none => .other

/-- Iterations of a counter's run (R54): a product where it counts in ones from or to zero, or over constants. -/
def counterCount (i : SkeinImage) (u : UnitCfg) (c : CounterCfg) : Count :=
  if c.startSrc = 0 ∧ c.boundSrc = 0 then .const (iterations c.start c.bound c.stride)
  else if c.startSrc = 0 ∧ c.start = 0 ∧ c.stride = 1 then axisCount i u (c.boundSrc - 1)
  else if c.boundSrc = 0 ∧ c.bound = 0 ∧ c.stride = -1 then axisCount i u (c.startSrc - 1)
  else .other

/-- Largest iterations of a run over the axis ranges (R54, R164). -/
def counterMax (i : SkeinImage) (u : UnitCfg) (c : CounterCfg) : Nat :=
  let arg := fun (src value : Nat) (high : Bool) =>
    if src = 0 then value else if high then (match axisOf i u.row u.col (src - 1) with | some a => axisMax i a | none => 0) else 0
  if 0 < c.stride then iterations (arg c.startSrc c.start false) (arg c.boundSrc c.bound true) c.stride
  else iterations (arg c.startSrc c.start true) (arg c.boundSrc c.bound false) c.stride

/-- Enabled counters of a CU from a level outward, with their levels. -/
def countersFrom (u : UnitCfg) (l : Nat) : List (Nat × CounterCfg) :=
  (List.range 6).filterMap fun k => if k < l then none else (counterCfg u k).map fun c => (k, c)

/-- Runs of a counter per section: the iterations of the counters outward (R54, R90). -/
def runsCount (i : SkeinImage) (u : UnitCfg) (l : Nat) : Count := (countersFrom u (l + 1)).foldl (fun a e => a.mul (counterCount i u e.2)) (.const 1)

/-- Iterations of a counter over a whole section. -/
def loopCount (i : SkeinImage) (u : UnitCfg) (l : Nat) : Count := match counterCfg u l with
  | some c => (counterCount i u c).mul (runsCount i u l)
  | none => runsCount i u l

/-- Firings of a CU at maximum shape. -/
def firingsMax (i : SkeinImage) (u : UnitCfg) : Nat :=
  (u.counters.filter (·.enable)).foldl (fun a c => a * (if c.adv = 1 then counterMax i u c else c.maxIter)) 1

/-- EXT0 at maximum shape. -/
def ext0Max (i : SkeinImage) (u : UnitCfg) (x : StreamCfg) : Nat :=
  if x.extSrc = 0 then x.ext0 else match axisOf i u.row u.col (x.extSrc - 1) with | some a => axisMax i a | none => 0

/-- Vectors of a stream context's loop, n elements to a vector (log 23). -/
def streamCount (i : SkeinImage) (u : UnitCfg) (x : StreamCfg) (n : Nat) : Count :=
  let reps := Count.const (x.ext1 * x.ext2)
  if x.extSrc = 0 then (Count.const (ceilDiv x.ext0 n)).mul reps else if n = 1 then (axisCount i u (x.extSrc - 1)).mul reps else .other

/-- Elements that one 64-byte vector holds. -/
def perVector (x : StreamCfg) : Nat := max 1 (64 / elemBytes x)

/-- Vectors of a context's loop at maximum shape. -/
def streamMax (i : SkeinImage) (u : UnitCfg) (x : StreamCfg) : Nat := ceilDiv (ext0Max i u x) (perVector x) * x.ext1 * x.ext2

/-! ### Counts of a CU's work (R48 to R51, R93) -/

/-- A vector or scalar thread ends at this input of a unit. -/
def hasInput (i : SkeinImage) (u : UnitCfg) (lane p : Nat) : Bool := (threadTo i u.row u.col lane p).isSome

/-- Inputs of the matrix engine of a unit (log 25). -/
def matrixIns (i : SkeinImage) (u : UnitCfg) : Option Nat × Option Nat × List Nat := matrixInputs (hasInput i u) u

/-- A CU does matrix work: a streamed operand and weight tiles reach it. -/
def matrixUsed (i : SkeinImage) (u : UnitCfg) : Bool := u.kind == 1 && (matrixIns i u).1.isSome && (matrixIns i u).2.1.isSome

/-- Weight tiles per window: the iterations of the counter of the K loop, over the rows where that is the innermost one (R49; log 25). -/
def tilesCount (i : SkeinImage) (u : UnitCfg) : Count := match innermost u with
  | none => .const 1
  | some l => match counterCfg u l with
    | none => .const 1
    | some c =>
      let n := counterCount i u c
      if c.adv ≠ 1 then .open_
      else if n = .const u.cu.window then (match (outerLevel u l).bind (counterCfg u) with
        | some o => if o.adv = 1 then counterCount i u o else .open_
        | none => .const 1)
      else n.div (.const u.cu.window)

/-- Weight tiles per window at most, over given largest iterations of a run. -/
def tilesMax (u : UnitCfg) (most : CounterCfg → Nat) : Nat := match innermost u with
  | none => 1
  | some l => match counterCfg u l with
    | none => 1
    | some c =>
      let outer := match (outerLevel u l).bind (counterCfg u) with | some o => most o | none => 1
      let inner := ceilDiv (most c) (max 1 u.cu.window)
      max 1 (if c.startSrc = 0 ∧ c.boundSrc = 0 then (if iterations c.start c.bound c.stride = u.cu.window then outer else inner) else max outer inner)

/-- Firings of a CU per section (R93): the iterations of its counters, where the inputs of its own firings advance the innermost. A CU without a counter
fires on what reaches it: the count that `arrives`. -/
def firingsCount (i : SkeinImage) (u : UnitCfg) (arrives : Count) : Count := match innermost u with
  | none => arrives
  | some l => match counterCfg u l with
    | some c => if c.adv = 1 then loopCount i u l else .open_
    | none => arrives

/-- Output vectors of one drained row (R50). -/
def rowVectors (u : UnitCfg) : Nat :=
  let w := if drainRaw u.cu.drain then rawWidth u.cu.mfmt else match (drainOps u.cu.drain).getLast? with
    | some o => if o.op = 4 then (match o.param with | 0 => 32 | 1 => 16 | 2 => 16 | 8 => 6 | 9 => 6 | 10 => 4 | 12 => 4 | 13 => 64 | _ => 8)
      else (chainFmt u.cu.mfmt).width
    | none => (chainFmt u.cu.mfmt).width
  max 1 (ceilDiv (64 * w) 512)

/-- Rows that a CU drains, over its firings: one window of W rows for W × T firings. -/
def rowsCount (i : SkeinImage) (u : UnitCfg) (fires : Count) : Count := fires.div (tilesCount i u)

/-- Entries that an output of a CU sends per section. -/
def cuSends (i : SkeinImage) (u : UnitCfg) (lane p : Nat) (fires : Count) : Count :=
  let ends := if doneIterates u then loopCount i u 0 else runsCount i u 0
  let per := fun (late : Bool) => if lane = 0 then stageSends u late p
    else if p = 0 ∧ quantScales u = true then 0 else b2n (lateStage u (scalarStage u) == late)
  let stages := ((Count.const (per false)).mul fires).add ((Count.const (per true)).mul ends)
  let rows := rowsCount i u fires
  if matrixUsed i u = false then (if per true = 0 then (Count.const (per false)).mul fires else if per false = 0 then (Count.const (per true)).mul ends else stages)
  else if lane = 1 then (if p = 0 ∧ quantScales u = true then rows else .const 0)
  else if p = 0 then rows.mul (.const (if splitRow u then ceilDiv (rowVectors u) 2 else rowVectors u))
  else if splitRow u then rows.mul (.const (rowVectors u / 2)) else .const 0

/-- Entries that a CU pops at an input per section. -/
def cuPops (i : SkeinImage) (u : UnitCfg) (lane p : Nat) (fires : Count) : Count :=
  let m := matrixIns i u
  let rows := rowsCount i u fires
  let counters := (countersFrom u 0).flatMap fun e =>
    if e.2.startSrc = p + 1 ∨ e.2.boundSrc = p + 1 then [runsCount i u e.1] else []
  if (stageInputs u).contains (p + 1 + 4 * lane) then fires
  else if lane = 1 then
    if u.ctl.selSi.contains (p + 1) then .open_
    else if !counters.isEmpty then Count.sum counters
    else if m.2.2.contains p && matrixUsed i u then fires
    else .const 0
  else if (drainInputs u).contains p then
    Count.sum ((drainOps u.cu.drain).filterMap fun o => if operandVecs o ≠ 0 ∧ o.vi = p then
      some ((if o.op = 3 then rows else rows.div (.const u.cu.window)).mul (.const (operandVecs o))) else none)
  else if m.1 = some p ∧ matrixUsed i u = true then fires
  else if m.2.1 = some p ∧ matrixUsed i u = true then (fires.div (.const u.cu.window)).mul (.const (tileVecs u.cu.mfmt + scaleVecs u.cu.mfmt))
  else .const 0

/-- Entries that an MU pops at an input per section. -/
def muPops (i : SkeinImage) (u : UnitCfg) (lane p : Nat) : Count :=
  let ctx := u.streams.filter fun x => x.kind != 0
  if lane = 1 then
    if u.ctl.selSi.contains (p + 1) then .open_ else .const (ctx.filter fun x => x.extSrc == p + 1).length
  else Count.sum (ctx.flatMap fun x =>
    (if (x.kind == 2 || x.kind == 6 || x.kind == 7 || x.kind == 8 || x.kind == 9) && x.port == p then [streamCount i u x (perVector x)] else [])
      ++ (if decide (5 ≤ x.kind ∧ x.kind ≤ 7) && x.indexSrc == p then [streamCount i u x 16] else []))

/-- Entries that a vector output of an MU sends per section. Nothing feeds its scalar outputs. -/
def muSends (i : SkeinImage) (u : UnitCfg) (lane p : Nat) : Count :=
  if lane = 1 then .const 0
  else Count.sum (u.streams.zipIdx.filterMap fun (x, n) =>
    if (x.kind == 1 || x.kind == 5 || x.kind == 9) && x.port == p && (indexedBy u n).isNone then some (streamCount i u x (perVector x)) else none)

/-- Entries that a data thread carries per section, from its source: an edge scalar thread brings one word. n bounds the CUs without a counter that pass
on what reaches them. -/
def sendsCount (i : SkeinImage) : Nat → ThreadCfg → Count
  | 0, _ => .open_
  | n + 1, x =>
    if edgeSourced x then (if x.lane = 1 then .const 1 else .open_)
    else match unitIn i x.srcRow x.srcCol with
      | none => .const 0
      | some u =>
        if u.kind = 2 then muSends i u x.lane x.srcPort
        else
          let arrives := match ((List.range 4).find? fun p => hasInput i u 0 p).bind fun p => threadTo i u.row u.col 0 p with
            | some y => sendsCount i n y
            | none => .open_
          cuSends i u x.lane x.srcPort (firingsCount i u arrives)

/-- Entries that a thread carries. -/
def sentCount (i : SkeinImage) (x : ThreadCfg) : Count := sendsCount i ((workingUnits i).length + 1) x

/-- Firings of a CU per section. -/
def firings (i : SkeinImage) (u : UnitCfg) : Count :=
  firingsCount i u (match ((List.range 4).find? fun p => hasInput i u 0 p).bind fun p => threadTo i u.row u.col 0 p with
    | some y => sentCount i y
    | none => .open_)

/-- Entries that a destination pops per section. -/
def popsCount (i : SkeinImage) (lane : Nat) (d : Dest) : Count :=
  if edgeDest d then .open_
  else match unitIn i d.row d.col with
    | none => .const 0
    | some u => if u.kind = 1 then cuPops i u lane d.port (firings i u) else muPops i u lane d.port

/-- A thread's count under a value of the predicate: none where the thread is not active under it (R94, R164). -/
def underPred (x : ThreadCfg) (v : Nat) (c : Count) : Count := if x.pred = 0 ∨ x.pred = v then c else .const 0

/-- The entries of a feed: the count of its destination (R233). -/
def feedMono (i : SkeinImage) (x : ThreadCfg) : Option Mono :=
  match (x.dests.head?).map (popsCount i 0) with
  | some (.known m) => some m
  | _ => none

/-- A destination's level-0 counter has ADV = 2. -/
def advDone (i : SkeinImage) (d : Dest) : Bool := match unitIn i d.row d.col with
  | some u => doneIterates u
  | none => false

/-! ### Footprints (R163) -/

/-- The byte range of a stream context at maximum shape from a base: first byte and length; none for an empty one. -/
def footprint (i : SkeinImage) (u : UnitCfg) (x : StreamCfg) (base : Nat) : Option (Int × Nat) :=
  let e0 := ext0Max i u x
  spanOf x base e0 (if 5 ≤ x.kind ∧ x.kind ≤ 7 then x.indexLimit else e0)

/-- A footprint lies inside a range. -/
def fits (fp : Option (Int × Nat)) (base bytes : Nat) : Bool := match fp with
  | none => true
  | some (lo, n) => decide ((base : Int) ≤ lo ∧ lo + n ≤ (base : Int) + bytes)

/-! ### Accumulator tiles (R171, R173) -/

/-- N_need of a context: the tiles in its footprint of logical addresses (R163, R171). -/
def tilesNeeded (i : SkeinImage) (u : UnitCfg) (x : StreamCfg) : Nat :=
  let t := accTileBytes x
  match footprint i u x (accLogical u x x.sramBase) with
  | none => 0
  | some (lo, n) => (lo.toNat + n - 1) / t + 1 - lo.toNat / t

/-- Tiles that a context touches, in the order of its loop at maximum shape. The indices of an indexed context arrive with the data; they are taken in
rising order (log 166). -/
def tileTouches (i : SkeinImage) (u : UnitCfg) (x : StreamCfg) : List Nat :=
  let e0 := if 5 ≤ x.kind ∧ x.kind ≤ 7 then x.indexLimit else ext0Max i u x
  (List.range (e0 * x.ext1 * x.ext2)).filterMap fun k => accTile u x (elemAddr x e0 k)

/-- Spill transfers of a touch sequence under R172: frames, spilled tiles and the count so far. -/
def spillCount (c : Nat) : List Nat → Tab Nat → List Nat → Nat
  | [], _, _ => 0
  | n :: l, fr, sp =>
    match tfind (n % c) fr with
    | some m =>
      if m = n then spillCount c l fr sp
      else 1 + b2n (sp.contains n) + spillCount c l (tput (n % c) n fr) (m :: sp)
    | none => spillCount c l (tput (n % c) n fr) sp

/-- The tile touches that follow a unit's accumulation: those of its contexts that read accumulator memory, in context order (R172, R173). -/
def readTouches (i : SkeinImage) (u : UnitCfg) : List Nat :=
  (u.streams.filter fun x => x.kind == 1 || x.kind == 4 || x.kind == 5).flatMap (tileTouches i u)

/-- A context spills: it needs more tiles than it has frames (R171). -/
def spills (i : SkeinImage) (u : UnitCfg) (x : StreamCfg) : Bool := accumulates x && decide (tileFrames u x < tilesNeeded i u x) && tileFrames u x != 0

/-- Spill cycles of a unit (R173). The reads count with its last accumulating context (log 166). -/
def spillCycles (i : SkeinImage) (u : UnitCfg) : Nat :=
  let accs := u.streams.zipIdx.filter fun e => accumulates e.1
  sumN (accs.map fun (x, n) =>
    if spills i u x then
      match (spillsOf i).find? fun a => a.row == u.row && a.col == u.col && a.ctx == n with
      | some a =>
        let last := (accs.getLast?).map (·.2) == some n
        let seq := tileTouches i u x ++ if last then readTouches i u else []
        ceilDiv (spillCount (tileFrames u x) seq [] [] * accTileBytes x) (max 1 a.gSpill)
      | none => 0
    else 0)

/-! ### Lags (R168) -/

/-- Slots in a set. -/
def slotCount (s : Nat) : Nat := ((List.range 8).filter fun k => bitAt s k).length

/-- G: the largest cyclic distance between consecutive slots of a set (R83). -/
def slotGap (s : Nat) : Nat :=
  let next := fun k => ((List.range 8).map (· + 1)).find? fun d => bitAt s ((k + d) % 8)
  maxN (((List.range 8).filter fun k => bitAt s k).map fun k => (next k).getD 8)

/-- Nodes from the root of the tree to the end of a branch: branch numbers from the stem on, with the hops taken on each. -/
def branchPath (t : ThreadCfg) : Nat → Nat → List (Nat × Nat)
  | 0, _ => []
  | n + 1, k =>
    match t.branches[k]? with
    | none => []
    | some b =>
      let up := if b.parent = 255 then [] else
        match branchPath t n b.parent with
        | [] => []
        | l => l.dropLast ++ [(b.parent, b.forkHop)]
      up ++ [(k, b.hops.length)]

/-- Lag of a thread to destination d: minimum and maximum (R168). -/
def threadLag (g : Geo) (t : ThreadCfg) (d : Nat) : Nat × Nat :=
  let tr := traceThread g t
  let path := branchPath t 17 d
  let seg := path.map fun (k, h) =>
    match tr.walks[k]? with
    | none => (0, 0)
    | some w =>
      let cr := w.crossings.filter fun (e : Nat × Bool) => decide (e.1 < h)
      let base := h + sumN (cr.map fun (e : Nat × Bool) => if e.2 then 6 - 1 else 3)
      let wait := sumN (cr.map fun (e : Nat × Bool) => match w.nodes[e.1 + 1]? with | some (_, _, s) => slotGap s - 1 | none => 0)
      (base, base + wait)
  let edge := (if edgeSourced t then 3 else 0) + (match t.dests[d]? with | some x => if x.row = 63 ∧ x.col = 63 then 3 else 0 | none => 0)
  (sumN (seg.map (·.1)) + edge, sumN (seg.map (·.2)) + (slotGap t.slots.toNat - 1) + edge)

/-- D of a unit: drain cycles per row (R50). -/
def drainCycles (u : UnitCfg) : Nat :=
  let raw := drainRaw u.cu.drain
  let row := if raw then 64 * rawWidth u.cu.mfmt / 8 else
    match (drainOps u.cu.drain).getLast? with
    | some o => if o.op = 4 then (match o.param with | 0 => 256 | 1 => 128 | 2 => 128 | 8 => 48 | 9 => 48 | 10 => 32 | 12 => 32 | 13 => 512 | _ => 64)
      else (if u.cu.mfmt = 12 then 512 else 256)
    | none => if u.cu.mfmt = 12 then 512 else 256
  max (if raw then 1 else 2) (ceilDiv row (64 * (if splitRow u then 2 else 1)))

/-- Entries that a context writes before the read that follows it is released: those of one run of the dimension on whose DONE a control output names
the context, or of its whole loop (R92, R168; log 166). -/
def stagedEntries (i : SkeinImage) (u : UnitCfg) (n : Nat) (x : StreamCfg) : Nat :=
  let run := ceilDiv (ext0Max i u x) (perVector x)
  let dims := ((List.range 4).filter fun co => u.ctl.doneSrc.getD co 0 == 16 + n).map fun co => u.ctl.doneDim.getD co 0
  let size := fun (d : Nat) => if d = 0 then run else if d = 1 then run * x.ext1 else run * x.ext1 * x.ext2
  (dims.map size).foldl Nat.min (size 2)

/-- Lag through a unit from an input to an output (R168). -/
def unitLag (i : SkeinImage) (u : UnitCfg) (outPort : Nat) (k : Nat) : Nat :=
  if u.kind = 1 then
    if matrixUsed i u then u.cu.window * tilesMax u (counterMax i u) + drainCycles u + 6
    else
      let used := (List.range u.cu.stages.length).filter fun n => bits ((u.cu.stages.getD n 0).toNat) 28 3 != 0
      (used.getLast?).getD 0 + 1
  else if u.streams.any fun x => x.kind == 9 && x.port == outPort then 2
  else
    let staged := maxN (u.streams.zipIdx.map fun (x, n) => if x.kind == 2 || x.kind == 6 || accumulates x then stagedEntries i u n x else 0)
    ceilDiv (staged * 8) (max 1 k) + 2

/-- RELAY rings of a unit on an output port, in entries (R69). -/
def relayEntries (u : UnitCfg) (p : Nat) : Nat := sumN ((u.streams.filter fun x => x.kind == 9 && x.port == p).map fun x => x.ringBytes / 64)

/-! ### Joins (R168, R169) -/

/-- A path from a fork's output to an input of a join: where it goes first, as a destination of the fork's thread and the thread that follows there;
its lags, and the RELAY entries on it. -/
structure PathLag where
  dest : Nat
  next : Option ThreadCfg
  lo : Nat
  hi : Nat
  relay : Nat
  deriving DecidableEq, Repr

/-- Paths from a fork thread back from an input port of a unit, through units; n bounds the units on a path. -/
def pathsFrom (i : SkeinImage) (g : Geo) (fork : ThreadCfg) : Nat → Nat → Nat → Nat → Nat → List PathLag
  | 0, _, _, _, _ => []
  | n + 1, r, c, lane, p =>
    match threadTo i r c lane p with
    | none => []
    | some x =>
      match x.dests.findIdx? fun d => d.row == r && d.col == c && d.port == p with
      | none => []
      | some d =>
        let (lo, hi) := threadLag g x d
        if x = fork then [{ dest := d, next := none, lo, hi, relay := 0 }]
        else match unitIn i x.srcRow x.srcCol with
          | none => []
          | some u =>
            (List.range 8).flatMap fun q =>
              let lane' := q / 4
              match threadTo i u.row u.col lane' (q % 4) with
              | none => []
              | some y =>
                let l := unitLag i u x.srcPort (slotCount y.slots.toNat)
                (pathsFrom i g fork n u.row u.col lane' (q % 4)).map fun e =>
                  { e with next := e.next.or (some x), lo := e.lo + lo + l, hi := e.hi + hi + l, relay := e.relay + relayEntries u x.srcPort }

/-- Data inputs of a unit: lane and port. -/
def dataInputs (i : SkeinImage) (u : UnitCfg) : List (Nat × Nat) :=
  ((List.range 8).map fun q => (q / 4, q % 4)).filter fun e => (threadTo i u.row u.col e.1 e.2).isSome

/-- Two paths part right after the fork's thread. -/
def pathsPart (a b : PathLag) : Bool := a.dest != b.dest || a.next != b.next

/-- A join: the fork's thread, the unit, and its inputs whose paths part right after the fork, with the paths to each. -/
structure Join where
  fork : ThreadCfg
  row : Nat
  col : Nat
  ins : List ((Nat × Nat) × List PathLag)
  deriving DecidableEq, Repr

/-- The joins of a skein: two or more inputs of one unit trace back to one output thread of a unit (R168). Those upstream of the last thread that the
paths share are not joins of their own (log 166). -/
def joinsFound (i : SkeinImage) (g : Geo) : List Join :=
  let n := (workingUnits i).length
  (i.threads.filter fun x => !edgeSourced x && x.lane != 2).flatMap fun f =>
    (workingUnits i).filterMap fun u =>
      let all := (dataInputs i u).map fun e => (e, pathsFrom i g f (n + 1) u.row u.col e.1 e.2)
      let ins := all.filter fun a => all.any fun b => a.1 != b.1 && a.2.any fun x => b.2.any (pathsPart x)
      if ins.isEmpty then none else some { fork := f, row := u.row, col := u.col, ins }

/-- The PATH_BALANCE entries that name a join: one for each pair of its inputs (R157). -/
def joinDecls (j : Join) : List JoinDecl :=
  (List.range j.ins.length).flatMap fun b => (List.range b).filterMap fun a => match j.ins[a]?, j.ins[b]? with
    | some x, some y => if x.2.any fun p => y.2.any (pathsPart p) then
        some { forkRow := j.fork.srcRow, forkCol := j.fork.srcCol, forkPort := j.fork.srcPort, joinRow := j.row, joinCol := j.col, inA := x.1.2, inB := y.1.2 }
      else none
    | _, _ => none

/-- The path with the smallest minimum lag among a list. -/
def shortest (l : List PathLag) : Option PathLag := l.foldl (fun (o : Option PathLag) p => match o with
  | none => some p
  | some q => if p.lo < q.lo then some p else o) none

/-- The balance rule of a join: its input of smallest minimum lag against the largest maximum lag of all the others (R169). -/
def joinBalanced (j : Join) : Bool :=
  match shortest (j.ins.flatMap (·.2)) with
  | none => true
  | some s =>
    match j.ins.find? fun e => e.2.contains s with
    | none => true
    | some mine =>
      let long := maxN ((j.ins.filter fun e => e.1 != mine.1).flatMap fun e => e.2.map (·.hi))
      decide (ceilDiv ((long - s.lo) * slotCount j.fork.slots.toNat) 8 ≤ 8 + s.relay)

/-! ### The static cycle bound (R174) -/

/-- Credit round trip of a thread at nominal clock (R83): forward and back with the crossings' latencies. -/
def threadRtt (g : Geo) (t : ThreadCfg) : Nat := maxN ((List.range t.dests.length).map fun d => 2 * (threadLag g t d).1 + 2)

/-- Fenced DONEs that a unit emits per section at maximum shape, on all its control outputs (R53, R90, R92). -/
def doneCount (i : SkeinImage) (u : UnitCfg) : Nat :=
  if u.kind = 1 then
    sumN ((countersFrom u 0).map fun (l, c) =>
      let runs := (countersFrom u (l + 1)).foldl (fun a e => a * (if e.2.adv = 1 then counterMax i u e.2 else e.2.maxIter)) 1
      runs * ((List.range 4).filter fun co => c.doneOut.getLsbD co).length)
  else
    sumN ((List.range 4).map fun co => match u.streams[u.ctl.doneSrc.getD co 0 - 16]? with
      | some x => if u.ctl.doneSrc.getD co 0 < 16 ∨ x.kind = 0 then 0
        else match u.ctl.doneDim.getD co 0 with | 0 => x.ext1 * x.ext2 | 1 => x.ext2 | _ => 1
      | none => 0)

/-- Cycles that a count of entries takes on a thread: entries ÷ min(k/8, 8/RTT), and a round trip for each of a unit's fenced DONEs (R174). -/
def threadCycles (g : Geo) (t : ThreadCfg) (n dones : Nat) : Nat :=
  max (ceilDiv (n * 8) (max 1 (slotCount t.slots.toNat))) (ceilDiv (n * threadRtt g t) 8) + threadRtt g t * dones

/-- Entries of a thread at maximum shape. -/
def threadEntries (i : SkeinImage) (t : ThreadCfg) : Nat :=
  let v := axisMax i
  match (sentCount i t).value? v, (if edgeSourced t then feedMono i t else none) with
  | some n, _ => n
  | none, some m => m.value v
  | none, none => match unitIn i t.srcRow t.srcCol with
    | some u => if t.lane = 2 then doneCount i u + 1 else if u.kind = 1 then firingsMax i u else
        maxN ((u.streams.filter fun x => x.port == t.srcPort).map (streamMax i u))
    | none => 1

/-- Cycles that a firing keeps a stage busy: a transcendental operation counts as 4 (R47, R174). -/
def stageCycles (u : UnitCfg) (n : Nat) : Nat :=
  let op := bits (u.cu.stages.getD n 0).toNat 0 6
  if 18 ≤ op ∧ op ≤ 21 then 4 else if bits (u.cu.stages.getD n 0).toNat 28 3 = 0 then 0 else 1

/-- Cycles that the drain chain keeps a stage busy for one row: entry n works on stage n, 64 values through 32 lanes, and an activation other than
identity and ReLU counts as transcendental (R50, R52, R174; log 166). -/
def drainUse (u : UnitCfg) (n : Nat) : Nat := match (drainOps u.cu.drain)[n]? with
  | some o => if o.op = 2 ∧ 2 ≤ o.param then 8 else 2
  | none => 0

/-- Tier bytes of an MU at maximum shape. -/
def tierBytes (i : SkeinImage) (u : UnitCfg) : Nat :=
  sumN ((u.streams.filter fun x => x.kind == 3 || x.kind == 4).map fun x => ext0Max i u x * 2 ^ x.elem * x.ext1 * x.ext2)

/-- Requests in flight of an MU in bytes: Σ (MAX_OUT + 1) × 64 × 2^REQ_BYTES; R of R174 is this ÷ 1,400. -/
def tierFlight (u : UnitCfg) : Nat := sumN ((u.streams.filter fun x => x.kind == 3 || x.kind == 4).map fun x => (x.maxOut + 1) * 64 * 2 ^ x.reqBytes)

/-- W_u: the largest work term of a unit, and its spill cycles (R173, R174); latency is 1,400, or 3,500 with far pages (R175). -/
def unitWork (i : SkeinImage) (g : Geo) (u : UnitCfg) (latency : Nat) (withSpill : Bool) : Nat :=
  let ths := i.threads.filter fun x => (x.srcRow == u.row && x.srcCol == u.col) || x.dests.any fun d => d.row == u.row && d.col == u.col
  let links := ths.map fun x => threadCycles g x (threadEntries i x) (doneCount i u)
  let n := match (firings i u).value? (axisMax i) with | some n => n | none => firingsMax i u
  let w := max 1 u.cu.window
  let t := tilesMax u (counterMax i u)
  let windows := if matrixUsed i u then ceilDiv n (w * t) else 0
  let mat := windows * (w * max t (drainCycles u))
  let fires := if vectorUsed u then n else 0
  let stages := (List.range u.cu.stages.length).map fun k => fires * stageCycles u k + windows * w * drainUse u k
  let acc := sumN ((u.streams.filter accumulates).map (streamMax i u))
  let share := match (sharesOf i).find? fun e => e.row == u.row && e.col == u.col with | some e => e.gTier | none => 0
  let tb := tierBytes i u
  let tier := if tb = 0 then 0 else max (ceilDiv tb (max 1 share)) (ceilDiv (tb * latency) (max 1 (tierFlight u)))
  let work := links ++ (if u.kind = 1 then mat :: stages else [acc, tier])
  maxN work + (if withSpill && u.kind == 2 then spillCycles i u else 0)

/-- Threads of any lane that end at a unit, with their destination numbers there. -/
def threadsInto (i : SkeinImage) (r c : Nat) : List (ThreadCfg × Nat) :=
  i.threads.flatMap fun x => (List.range x.dests.length).filterMap fun d => match x.dests[d]? with
    | some e => if e.row = r ∧ e.col = c then some (x, d) else none
    | none => none

/-- Largest lag from an entry edge thread to a unit, with one round trip for each fenced END_SECTION on the way (R174); the path passes no unit twice,
n bounds its units. -/
def critLag (i : SkeinImage) (g : Geo) : Nat → List (Nat × Nat) → Nat → Nat → Nat
  | 0, _, _, _ => 0
  | n + 1, seen, r, c =>
    maxN ((threadsInto i r c).map fun (x, d) =>
      let l := (threadLag g x d).2
      if edgeSourced x then l
      else if seen.contains (x.srcRow, x.srcCol) then 0
      else match unitIn i x.srcRow x.srcCol with
        | none => 0
        | some u => l + threadRtt g x + unitLag i u x.srcPort (slotCount x.slots.toNat) + critLag i g n ((r, c) :: seen) x.srcRow x.srcCol)

/-- Largest lag from an entry edge thread to an exit edge port (R174). -/
def exitLag (i : SkeinImage) (g : Geo) : Nat :=
  let n := (workingUnits i).length
  maxN (i.threads.flatMap fun x => (List.range x.dests.length).filterMap fun d => match x.dests[d]?, unitIn i x.srcRow x.srcCol with
    | some e, some u => if edgeDest e then
        some ((threadLag g x d).2 + threadRtt g x + unitLag i u x.srcPort (slotCount x.slots.toNat) + critLag i g n [] u.row u.col)
      else none
    | _, _ => none)

/-- F: fill and end cost (R174). -/
def fillCost (i : SkeinImage) (g : Geo) : Nat :=
  max (maxN ((workingUnits i).map fun u => critLag i g (workingUnits i).length [] u.row u.col)) (exitLag i g) + 50

/-- B_q of each array island of the module, 0 outside the field (R174, R176). far tells which units read tier 2 (R175). -/
def islandBounds (i : SkeinImage) (g : Geo) (firstBand : Nat) (far : UnitCfg → Bool) (withSpill : Bool) : List Nat :=
  let f := fillCost i g
  let ws := (workingUnits i).map fun u => (islandIn g u.row u.col, unitWork i g u (if far u then 3500 else 1400) withSpill)
  (List.range 16).map fun q =>
    let b := q / 4
    if firstBand ≤ b ∧ b < firstBand + g.length then f + maxN ((ws.filter fun e => e.1 == (b - firstBand, q % 4)).map (·.2)) else 0

end Sys2Proof.Machine
end

