-- ==== Sys2Proof/Machine/Loader.lean ====
section
/-!
DEFINITION. The loader's checks of a skein image: R104, and the ordered checks of R164 with the rules they name. A check answers the status and
RESULT1 of the first failure (R274).
-/

namespace Sys2Proof.Machine

/-- A failed check: status and RESULT1. -/
abbrev Failure := Status × Nat

/-- The first failure of a list of checks. -/
def firstFail : List (Bool × Status × Nat) → Option Failure
  | [] => none
  | (bad, st, n) :: l => if bad then some (st, n) else firstFail l

/-! ### R104 steps 1 to 4 -/

/-- A table outside the image or misaligned (R104); an empty one is not checked. -/
def tableBad (off bytes unit sigOff : Nat) : Bool :=
  bytes != 0 && (decide (off < 256) || decide (sigOff < off + bytes) || off % 64 != 0 || bytes % unit != 0)

/-- The fields of a LOAD_SKEIN descriptor that check 1 of R104 judges before the image is read (R272, R276). -/
def loadFormBad (d : LoadDesc) : Bool := d.imageBytes == 0 || d.imageAddr.toNat % 4096 != 0 || d.reportAddr.toNat % 64 != 0

/-- Context words outside the image or misaligned (R98; log 158). -/
def contextBad (sigOff : Nat) (u : UnitCfg) : Bool :=
  u.kind != 0 && (u.ctxOff % 64 != 0 || decide (u.ctxOff < 256) || decide (sigOff < u.ctxOff + u.ctxBytes))

/-- Step 1 of R104: descriptor, header and tables. -/
def headerBad (d : LoadDesc) (i : SkeinImage) : Bool :=
  let h := i.hdr
  d.imageBytes != h.imageBytes || h.magic != 0x4E494B53 || h.format != 3 || h.headerBytes != 256
    || h.sigOff % 64 != 0 || decide (h.sigOff < 256) || h.sigOff + Config.sigBytes != h.imageBytes.toNat
    || tableBad h.unitOff h.unitBytes 16 h.sigOff || tableBad h.ctrOff h.ctrBytes 16 h.sigOff || tableBad h.thrOff h.thrBytes 8 h.sigOff
    || tableBad h.moonOff (64 * h.moonCount) 64 h.sigOff || tableBad h.metaOff h.metaBytes 1 h.sigOff || tableBad h.preOff h.preBytes 64 h.sigOff
    || !i.tablesEnd || i.units.any (contextBad h.sigOff)

/-- A signer that the running bundle lists (R96, R104). -/
def signerKnown (s : State) (id : BitVec 64) : Bool := match s.boot.bundle with | some b => b.skeinKeys.contains id | none => false

/-- Step 4 of R104: member, bands and profiles against the field. -/
def profileBad (s : State) (f : Nat) (i : SkeinImage) : Bool :=
  match fieldAt s f with
  | none => true
  | some fl =>
    let p := profilesOf (geoOf s fl)
    i.hdr.member != Config.member || i.hdr.bands != p.length || i.hdr.profile != p ++ List.replicate (4 - p.length) 0

/-! ### Check 1: alignment (R154, R164) -/

/-- A record that breaks the form of R154. -/
def recBad (r : MetaRec) : Bool := r.bytes % 8 != 0 || decide (r.bytes < entryStart r.body + r.count * entryBytes r.body)

/-- Check 1 of R164. -/
def alignBad (i : SkeinImage) : Bool :=
  let streams := i.units.flatMap fun u => if u.kind = 2 then u.streams.filter fun x => x.kind != 0 else []
  i.recs.any recBad || decide (i.hdr.metaBytes < sumN (i.recs.map (·.bytes)))
    || (streams.any fun x => x.sramBase % 32 != 0 || (x.kind == 9 && x.ringBytes % 64 != 0) ||
        (if x.kind = 3 ∨ x.kind = 4 then x.tierBase % 64 != 0 || x.stride0 % 64 != 0 || x.stride1 % 64 != 0 || x.stride2 % 64 != 0
         else x.stride0 % 32 != 0 || x.stride1 % 32 != 0 || x.stride2 % 32 != 0))
    || ((claimsOf i).any fun c => c.base % 32 != 0 || c.bytes % 32 != 0)
    || (i.preloads.any fun p => p.base % 32 != 0)
    || ((extentsOf i).any fun e => e.base % 64 != 0 || e.bytes % 64 != 0)
    || ((handoffsOf i).any fun h => h.base % 64 != 0)
    || ((spillsOf i).any fun e => e.base % 64 != 0)
    || ((capacityOf i).any fun e => e.base % 64 != 0)

/-! ### Check 2: encodings -/

/-- An enabled counter with a reserved code or a meaningless zero (R53, R54). -/
def counterBad (c : CounterCfg) : Bool :=
  c.enable && (c.stride == 0 || c.adv == 0 || decide (2 < c.adv) || decide (4 < c.startSrc) || decide (4 < c.boundSrc) || decide (3 < c.advIn))

/-- An enabled stream context with a reserved code, a PORT that no unit has, or a RELAY without a ring (R66; log 151). -/
def streamBad (x : StreamCfg) : Bool :=
  x.kind != 0 && (decide (9 < x.kind) || decide (5 < x.reqBytes) || decide (3 < x.port) || decide (6 < x.elem) || decide (2 < x.extSrc)
    || decide (3 < x.gen) || decide (7 < x.maxOut)
    || (decide (5 ≤ x.kind ∧ x.kind ≤ 7) && !(decide (x.indexSrc ≤ 3) || decide (16 ≤ x.indexSrc ∧ x.indexSrc ≤ 31)))
    || (x.kind == 9 && x.ringBytes == 0))

/-- The context an index chain leads to; n bounds its length. -/
def chainLength (u : UnitCfg) : Nat → Nat → Nat
  | 0, _ => 0
  | n + 1, k => match u.streams[k]? with
    | some x => if 5 ≤ x.kind ∧ x.kind ≤ 7 ∧ 16 ≤ x.indexSrc then 1 + chainLength u n (x.indexSrc - 16) else 1
    | none => 1

/-- An index source that breaks R228. -/
def indexBad (u : UnitCfg) : Bool :=
  let src := indexSources u
  !distinct src || src.any (fun k => match u.streams[k]? with
    | some x => !(x.kind == 1 || x.kind == 5) || x.elem != 2
    | none => true) || (List.range u.streams.length).any fun k => decide (4 < chainLength u 20 k)

/-- Control fields with a reserved code or a bit for a port the unit does not have (R92). -/
def ctlBad (u : UnitCfg) : Bool :=
  (u.ctl.selSi.any fun x => decide ((if u.kind = 1 then 4 else 2) < x))
    || (u.kind == 1 && u.ctl.fence.any fun m => m.getLsbD 2 || m.getLsbD 3)
    || (u.kind == 2 && ((u.ctl.doneSrc.zip u.ctl.doneDim).any fun (a, d) =>
        a != 0 && (decide (a < 16) || decide (31 < a) || decide (2 < d) || ((u.streams[a - 16]?).map (·.kind)).getD 0 == 0)))

/-- A CU context that R131, R137, R140, R143 or R53 rejects. -/
def cuBad (u : UnitCfg) : Bool :=
  let c := u.cu
  decide (12 < c.mfmt) || c.window == 0 || decide ((if c.mfmt = 12 then 64 else 128) < c.window) || (c.mfmt == 12 && decide (54 < c.spread))
    || c.stages.length != 6 || (c.stages.zipIdx.any fun e => stageBad e.2 e.1)
    || drainBad c.mfmt c.consts c.drain || u.counters.any counterBad

/-- An MU context that R62, R66 or R228 rejects. -/
def muBad (u : UnitCfg) : Bool := decide (8 < u.accBanks) || u.streams.any streamBad || indexBad u

/-- ENTRY_BYTES as laid out (R100). -/
def laidOut (t : ThreadCfg) : Nat :=
  roundUp (16 + 2 * t.dests.length + t.xslots.length + sumN (t.branches.map fun b => 4 + ceilDiv b.hops.length 4)) 8

/-- A thread entry that R77, R100 or R515 rejects at check 2. -/
def threadBad (g : Geo) (t : ThreadCfg) : Bool :=
  let tr := traceThread (geoRef g) t
  decide (2 < t.lane) || decide (2 < t.pred) || t.slots == 0 || t.ndest == 0 || decide (16 < t.ndest) || t.dests.length != t.ndest
    || t.branches.length != t.ndest || t.xslots.length != t.ncross || t.xslots.any (fun x => x == 0)
    || (t.branches.any fun b => b.hops == [] || decide (127 < b.hops.length))
    || t.entryBytes != laidOut t || treeBad t || (!tr.left && !tr.edgeBad && refCrossings g t != t.ncross)

/-- Output ports of a lane: of a CU (kind 1) or an MU (R57). -/
def outPorts (kind lane : Nat) : Nat := if lane = 0 then (if kind = 1 then 2 else 4) else if lane = 1 then 2 else 4

/-- Input ports of a lane (R57). -/
def inPorts (kind lane : Nat) : Nat := if lane = 1 then (if kind = 1 then 4 else 2) else 4

/-- A thread that names a port which its working unit does not have: a code that no port carries (R57, R77; log 151). -/
def portBad (i : SkeinImage) (t : ThreadCfg) : Bool :=
  (!edgeSourced t && match unitIn i t.srcRow t.srcCol with | some u => decide (outPorts u.kind t.lane ≤ t.srcPort) | none => false)
    || t.dests.any fun d => !(d.row == 63 && d.col == 63) && match unitIn i d.row d.col with
      | some u => decide (inPorts u.kind t.lane ≤ d.port)
      | none => false

/-- A data thread without its companion (R89). -/
def companionMissing (i : SkeinImage) (t : ThreadCfg) : Bool :=
  t.lane != 2 && !edgeSourced t && t.dests.any fun d => !(d.row == 63 && d.col == 63) &&
    !(i.threads.any fun c => c.lane == 2 && c.srcRow == t.srcRow && c.srcCol == t.srcCol
        && (c.dests.any fun e => e.row == d.row && e.col == d.col)
        && match unitIn i c.srcRow c.srcCol with
          | some u => (fenceMask u c.srcPort).getLsbD (if t.lane = 0 then t.srcPort else 4 + t.srcPort)
          | none => false)

/-- Units reached from the entry edge threads over control threads; n bounds the passes (R109). -/
def reached (i : SkeinImage) : Nat → List (Nat × Nat) → List (Nat × Nat)
  | 0, l => l
  | n + 1, l =>
    let more := (i.threads.filter fun t => t.lane == 2 && (edgeSourced t || l.contains (t.srcRow, t.srcCol))).flatMap fun t => t.dests.map fun d => (d.row, d.col)
    let l' := (l ++ more).eraseDups
    if l'.length = l.length then l else reached i n l'

/-- A scalar that reaches a START, BOUND or EXT0 without being a declared axis (R95, R164). -/
def scalarsBad (i : SkeinImage) : Bool :=
  (workingUnits i).any fun u =>
    (u.kind == 1 && u.counters.any fun c => c.enable &&
      ((c.startSrc != 0 && (axisOf i u.row u.col (c.startSrc - 1)).isNone) || (c.boundSrc != 0 && (axisOf i u.row u.col (c.boundSrc - 1)).isNone)))
    || (u.kind == 2 && u.streams.any fun x => x.kind != 0 && x.extSrc != 0 && (axisOf i u.row u.col (x.extSrc - 1)).isNone)

/-- Stage k is a MAX against zero in INT32 that passes its result on. -/
def maxZero (o : StageOp) : Bool := o.op == 6 && o.fmt == 3 && (o.srcA == 12 || o.srcB == 12) && bitAt o.dst 0

/-- The previous result of stage k is that of a MAX against zero, with no operation but PASS between (R155). -/
def fromMaxZero (ops : List StageOp) : Nat → Bool
  | 0 => false
  | k + 1 => match ops[k]? with
    | some o => maxZero o || (o.op == 0 && o.srcA == 0 && bitAt o.dst 0 && fromMaxZero ops k)
    | none => false

/-- The producer of a derived axis does not form it by a MAX against zero and a later MIN of that against a constant up to MAX, in INT32, whose result is
the one sent to SO (R155). -/
def derivedBad (i : SkeinImage) (a : ShapeAxis) : Bool :=
  a.src == 1 && match unitIn i a.row a.col with
    | none => true
    | some u =>
      let ops := u.cu.stages.map stageOp
      let k := scalarStage u
      u.kind != 1 || (a.so == 0 && quantScales u) || match ops[k]? with
        | none => true
        | some y =>
          let limit := fun (x : Nat) => (x == 9 && decide ((constReg u y.creg) ≤ a.max)) || (x == 10 && decide ((constReg u (y.creg + 1)) ≤ a.max))
          !(y.op == 5 && y.fmt == 3 && ((y.srcA == 0 && limit y.srcB) || (y.srcB == 0 && limit y.srcA)) && fromMaxZero ops k)

/-- A unit that works has the kind of its column (R44), so check 2 refuses another. -/
def kindBad (u : UnitCfg) : Bool := decide (2 < u.kind) || (u.kind != 0 && u.kind != 1 + u.col % 2)

/-- Check 2 of R164. -/
def encodingsBad (g : Geo) (i : SkeinImage) : Bool :=
  let types := i.recs.map fun r => recType r.body
  let once := [1, 3, 5, 9].any fun k => decide (1 < (types.filter (· == k)).length)
  let cap := capacityOf i
  once || types.any (fun t => t == 0 || decide (9 < t))
    || (i.units.map fun u => (u.row, u.col)) != fieldTiles g || i.units.any kindBad
    || i.units.any (fun u => u.kind == 1 && decide (i.hdr.ctrBytes < 16 * (u.ctrIndex + 6)))
    || ((workingUnits i).any fun u => ctlBad u || (u.kind == 1 && cuBad u) || (u.kind == 2 && muBad u))
    || i.threads.any (threadBad g) || i.threads.any (portBad i) || i.threads.any (companionMissing i)
    || (workingUnits i).any (fun u => !(reached i ((workingUnits i).length + 1) []).contains (u.row, u.col))
    || ((axesOf i).any fun a => decide (1 < a.src) || a.max == 0 || decide (16777215 < a.max) || decide (15 < a.scalar) || derivedBad i a)
    || ((extentsOf i).any fun e => e.gated && !(cap.any fun c => decide (e.expert < c.e)))
    || ((sharesOf i).any fun e => e.gTier == 0 || decide (512 < e.gTier))
    || ((workingUnits i).any fun u => u.kind == 2 && (tierBytes i u != 0 || u.streams.any (spills i u)) && !(sharesOf i).any fun e => e.row == u.row && e.col == u.col)
    || ((spillsOf i).any fun e => e.gSpill == 0 || decide (64 < e.gSpill))
    || ((claimsOf i).any fun c => decide (2 < c.kind))
    || ((handoffsOf i).any fun h => decide (2 < h.dir))
    || (cap.any fun c => decide (c.e < 2) || decide (256 < c.e))
    || scalarsBad i
    || (i.hdr.twoLanes && !(match (axesOf i).head? with | some a => a.src == 0 && a.max == 2 | none => false))

/-! ### Checks 3 to 5: routes, slots, moon references -/

/-- Check 3 of R164. -/
def routesBad (g : Geo) (i : SkeinImage) : Bool := i.threads.any fun t => let tr := traceThread (geoRef g) t; tr.left || tr.edgeBad || tr.endBad

/-- Two threads of one context clash (check 4; R76, R79). -/
def slotsBad (g : Geo) (i : SkeinImage) : Bool :=
  (List.range i.threads.length).any fun a => (List.range a).any fun b =>
    match i.threads[a]?, i.threads[b]? with | some x, some y => threadsClash g x y | _, _ => false

/-- A moon program in a slot of a stack. -/
def moonProg (s : State) (k p : Nat) : Option MoonImage := tget none (16 * k + p) s.moons.progs

/-- Check 5 of R164 (R101). -/
def moonsBad (s : State) (fl : Field) (i : SkeinImage) : Bool :=
  i.moons.any fun m => (List.range 16).any fun k => m.mask.getLsbD k &&
    (!fl.bands.contains (bandOf k) || (match moonProg s k m.index with | some p => p.progHash != m.digest | none => true))

/-! ### Check 6: unit capacity -/

/-- SRAM ranges that a unit of a skein takes: claims and accumulator memory (R60, R161). -/
def unitRanges (i : SkeinImage) (u : UnitCfg) : List (Nat × Nat) :=
  ((claimsOf i).filter fun c => c.row == u.row && c.col == u.col).map (fun c => (c.base, c.bytes))
    ++ (if u.accBanks = 0 then [] else [(accBase u, u.accBanks * 32768)])

/-- A skein declares an SRAM range of a unit as a DIR 2 hand-off (R60, R102). -/
def handsOver (i : SkeinImage) (u : UnitCfg) (a n : Nat) : Bool :=
  (handoffsDir i 2).any fun h => h.row == u.row && h.col == u.col && inside a n h.base h.bytes

/-- Ranges of two skeins overlap in a unit, and not both declare the overlap as a hand-off (R60). -/
def sharedBad (i j : SkeinImage) (u : UnitCfg) (a b : Nat × Nat) : Bool :=
  overlaps a.1 a.2 b.1 b.2 &&
    (let lo := max a.1 b.1
     let n := min (a.1 + a.2) (b.1 + b.2) - lo
     !(handsOver i u lo n && handsOver j u lo n))

/-- Skeins that count against a load of a slot: those of the field's other slots, resident or accepted for a fill (R165). -/
def otherSkeins (s : State) (f : Nat) (fl : Field) (slot : Nat) : List SkeinImage :=
  ((List.range 4).filterMap fun k => if k = slot then none else slotSkein fl k)
    ++ (s.fld.fills.filter fun w => w.field == f && w.slot != slot).map (·.img)

/-- Bytes of accumulator memory as the unit's contexts address it: the whole tiles of the context that needs most, where they are more than fit (R171). -/
def accSpan (i : SkeinImage) (u : UnitCfg) : Nat :=
  max (u.accBanks * 32768) (maxN ((accContexts u).map fun x => tilesNeeded i u x * accTileBytes x))

/-- Check 6 of R164 for one MU. -/
def muRangesBad (rest : List SkeinImage) (i : SkeinImage) (u : UnitCfg) : Bool :=
  let cl := (claimsOf i).filter fun c => c.row == u.row && c.col == u.col
  let top := accBase u
  let bufs := (cl.filter fun c => c.kind != 1).map (fun c => (c.base, c.bytes)) ++ [(top, accSpan i u)]
  let others := rest.flatMap fun j => match unitIn j u.row u.col with | some v => (unitRanges j v).map fun r => (j, r) | none => []
  (cl.any fun c => decide (top < c.base + c.bytes))
    || ((List.range cl.length).any fun a => (List.range a).any fun b => match cl[a]?, cl[b]? with
        | some x, some y => overlaps x.base x.bytes y.base y.bytes | _, _ => false)
    || (u.streams.any fun x => (x.kind == 1 || x.kind == 2 || x.kind == 3 || x.kind == 4) &&
        !bufs.any fun b => fits (footprint i u x x.sramBase) b.1 b.2)
    || (u.streams.any fun x => x.kind == 9 && !cl.any fun c => c.kind == 1 && c.base == x.sramBase && c.bytes == x.ringBytes)
    || ((unitRanges i u).any fun a => others.any fun b => sharedBad i b.1 u a b.2)
    || ((i.preloads.filter fun p => p.row == u.row && p.col == u.col).any fun p =>
        !(cl.any fun c => inside p.base p.data.length c.base c.bytes) || others.any fun b => overlaps p.base p.data.length b.2.1 b.2.2)

/-- Check 6 of R164. -/
def capacityBad (rest : List SkeinImage) (i : SkeinImage) : Bool :=
  ((workingUnits i).any fun u => decide ((if u.kind = 1 then 2048 else 1024) < u.ctxBytes) || (u.kind == 2 && muRangesBad rest i u))
    || (i.preloads.any fun p => match unitIn i p.row p.col with | some u => u.kind != 2 | none => true)

/-! ### Checks 7 to 10 -/

/-- Check 7 of R164, with the capacity table of R162. -/
def extentsBad (i : SkeinImage) : Bool :=
  ((workingUnits i).any fun u => u.kind == 2 && u.streams.zipIdx.any fun e => (e.1.kind == 3 || e.1.kind == 4) &&
      !(extentsOf i).any fun b => b.row == u.row && b.col == u.col && b.ctx == e.2 && fits (footprint i u e.1 e.1.tierBase) b.base b.bytes)
    || (capacityOf i).any fun c => !(extentsOf i).any fun b => inside c.base (ceilDiv (2 * c.e) 64 * 64) b.base b.bytes

/-- The largest term of MFMT 0, 1 and 2 (R133). -/
def largestTerm : Nat → Nat
  | 0 => 16384 | 1 => 200704 | _ => 3288334336

/-- R134: the terms of an accumulator at MAX_ITER, times the largest term, reach 2^(63 + MAT_LSB). -/
def termsBad (u : UnitCfg) : Bool :=
  decide (u.cu.mfmt ≤ 2) &&
    let (a, b) := scaleQ 1 1 (63 + u.cu.matLsb)
    decide (a ≤ tilesMax u (·.maxIter) * tileK u.cu.mfmt * largestTerm u.cu.mfmt * b)

/-- The entries that a data thread carries are not those that a destination pops, under a value of the predicate (R94, R164). -/
def threadCountBad (i : SkeinImage) (t : ThreadCfg) : Bool :=
  let sent := sentCount i t
  [1, 2].any fun v => t.dests.any fun d => !advDone i d && !((underPred t v sent).agrees (underPred t v (popsCount i t.lane d)))

/-- A feed without an E that its dispatch fixes (R164, R233), or whose destinations pop different counts. -/
def feedCountBad (i : SkeinImage) (t : ThreadCfg) : Bool := match feedMono i t with
  | none => true
  | some m => t.dests.any (advDone i) || (t.dests.any fun d => popsCount i 0 d != .known m)
    || m.axes.any fun a => ((axesOf i)[a]?.map (·.src)).getD 1 != 0

/-- The counts check, order 8 of R164. -/
def countsBad (i : SkeinImage) : Bool :=
  ((workingUnits i).any fun u => u.kind == 1 && (termsBad u || u.counters.any fun c => c.enable && decide (c.maxIter < counterMax i u c)))
    || ((i.threads.filter fun t => t.lane != 2).any (threadCountBad i))
    || ((feedThreads i).any (feedCountBad i))
    || ((spillsOf i).any fun a => (spillsOf i).any fun b => overlaps a.base a.bytes b.base b.bytes &&
        match (unitIn i a.row a.col).bind fun u => u.streams[a.ctx]?, (unitIn i b.row b.col).bind fun u => u.streams[b.ctx]? with
        | some x, some y => !x.accFmt && !y.accFmt && x.anchor != y.anchor
        | _, _ => false)

/-- Check 9 of R164. -/
def balanceBad (g : Geo) (i : SkeinImage) : Bool :=
  let found := joinsFound i g
  let decl := joinsOf i
  let named := found.flatMap joinDecls
  decl.any (fun d => !named.contains d) || named.any (fun d => !decl.contains d) || found.any fun j => !joinBalanced j

/-- Check 10 of R164 (R171): the status of the first context that fails. -/
def accumFail (rest : List SkeinImage) (i : SkeinImage) : Option Failure :=
  let others := rest.flatMap spillsOf
  let accs := (workingUnits i).flatMap fun u => (u.streams.zipIdx.filter fun e => u.kind == 2 && (e.1.kind == 7 || e.1.kind == 8)).map fun e => (u, e.1, e.2)
  firstFail (accs.flatMap fun (u, x, n) =>
    let need := tilesNeeded i u x
    let c := tileFrames u x
    let area := (spillsOf i).find? fun a => a.row == u.row && a.col == u.col && a.ctx == n
    [((tilesOf i).any (fun d => d.row == u.row && d.col == u.col && d.ctx == n && d.nNeed != need), .countMismatch, 20),
     (decide (c < need) && (area.isNone || c == 0), .accumOverCapacity, 20),
     (decide (c < need) && (match area with
        | some a => decide (a.bytes < need * accTileBytes x) || (extentsOf i).any (fun b => overlaps a.base a.bytes b.base b.bytes)
          || others.any (fun b => overlaps a.base a.bytes b.base b.bytes) || (rest.flatMap extentsOf).any (fun b => overlaps a.base a.bytes b.base b.bytes)
          || ((spillsOf i).filter (fun b => b != a)).any fun b => overlaps a.base a.bytes b.base b.bytes
        | none => false), .bufferTooSmall, 20)])

/-- The checks of R164 on the field's current map, in order. -/
def checkSkein (s : State) (f slot : Nat) (i : SkeinImage) : Option Failure :=
  match fieldAt s f with
  | none => some (.profileMismatch, 4)
  | some fl =>
    let g := geoOf s fl
    let rest := otherSkeins s f fl slot
    match firstFail [(alignBad i, .badAlignment, 11), (encodingsBad g i, .countMismatch, 12), (routesBad g i, .noPlacement, 13),
      (slotsBad g i, .slotConflict, 14), (moonsBad s fl i, .noPlacement, 15), (capacityBad rest i, .bufferTooSmall, 16),
      (extentsBad i, .bufferTooSmall, 17), (countsBad i, .countMismatch, 18), (balanceBad g i, .pathUnbalanced, 19)] with
    | some e => some e
    | none => accumFail rest i

/-- Step 3 of R106: member and profile, then the checks of R164. -/
def checkLoad (s : State) (f slot : Nat) (i : SkeinImage) : Option Failure :=
  if profileBad s f i then some (.profileMismatch, 4) else checkSkein s f slot i

/-- Largest island bound of a skein on a field with every page in tier 1 (R174, R176). -/
def skeinBounds (s : State) (fl : Field) (i : SkeinImage) : List Nat := islandBounds i (geoOf s fl) (firstBand fl) (fun _ => false) true

/-- The image as it is filled: SLICES is written by the loader (R151). -/
def filledUnit (u : UnitCfg) : UnitCfg := if u.kind = 1 ∧ u.cu.mfmt = 12 then { u with cu := { u.cu with slices := slicesOf u.cu.spread } } else u

end Sys2Proof.Machine
end

