-- ==== Sys2Proof/Machine/Records.lean ====
section
/-!
DEFINITION. Park records (05): what a unit's part holds, the bytes of a record with its unit entries and data records, the scan file, and
RECORD_DIGEST.
-/

namespace Sys2Proof.Machine

/-! ### A unit's part of a record (R72, R118, R119) -/

/-- The SRAM ranges of a unit in a release-form record: kind of the data record, base and length (R118, R119). -/
def recordRanges (i : SkeinImage) (u : UnitCfg) : List (Nat × Nat × Nat) :=
  (unitRanges i u).map fun e => (if u.accBanks ≠ 0 ∧ accBase u ≤ e.1 then 5 else 4, e.1, e.2)

/-- MU SRAM that a section claims in a unit, as cells (R119, R161). -/
def claimedSram (i : SkeinImage) (r c : Nat) (u : TileUnit) : Memory := match unitIn i r c with
  | some v => if v.kind = 2 then (unitRanges i v).foldl (fun m e => mwrites m e.1 (mreads u.sram e.1 e.2)) [] else []
  | none => []

/-- Claimed SRAM of a record goes back into a unit. -/
def restoreSram (i : SkeinImage) (r c : Nat) (saved sram : Memory) : Memory := match unitIn i r c with
  | some v => if v.kind = 2 then (unitRanges i v).foldl (fun m e => mwrites m e.1 (mreads saved e.1 e.2)) sram else sram
  | none => sram

/-- Where a unit stands in a section (R113). -/
def unitPhase (u : TileUnit) (id : Nat) : UnitPhase := match u.sectionId with
  | none => .ahead
  | some j => if j < id then .ahead else if id < j then .swapped else if u.pendingSwap then .swapped else .atWork

/-- A waiting token's fence as a record keeps it: of each thread, the entries sent after the fenced ones (log 132). -/
def savedFence (s : State) (w : WaitToken) : WaitToken := { w with fence := w.fence.map fun (e : Nat × Nat) => (e.1, (threadAt s e.1).sent - e.2) }

/-- A unit's part of the record: its state where it is at work, its FIFO residue, its claimed SRAM in the release form, and its tier requests, which
only a scan finds in flight (R72, R118, R119, R124). -/
def savedUnit (s : State) (i : SkeinImage) (slot id : Nat) (release : Bool) (t r c : Nat) : SavedUnit :=
  let u := unitAt s t
  let sram := if release then claimedSram i r c u else []
  let phase := unitPhase u id
  { tile := 40 * r + c, phase, withSram := release
    unit := if phase = .atWork then { u with slots := [], fifos := residueOf s t slot id, sram, stopped := false, waits := u.waits.map (savedFence s) }
      else { active := slot, pendingSwap := phase == .swapped, fifos := residueOf s t slot id, sram }
    requests := if phase = .atWork then s.mem.requests.filter (fun q => q.tile == t) else [] }

/-! ### The bytes of a record (R118; log 132) -/

/-- The kind of a unit by its column: CU or MU (R44). -/
def columnKind (c : Nat) : Nat := if c % 2 = 0 then 1 else 2

/-- n little-endian bytes of a signed number. -/
def intBytes (n : Nat) (v : Int) : List Byte := leBytes n (v % (2 ^ (8 * n) : Nat)).toNat

/-- Current value, START and BOUND of a counter (R72). -/
def counterBytes (r : CounterRun) : List Byte := intBytes 4 r.value ++ intBytes 4 r.start ++ intBytes 4 r.bound

/-- A stream context's position in three dimensions, its requests outstanding, its out-of-range count and its RELAY pointers (R72). -/
def streamBytes (x : Option StreamCfg) (r : StreamRun) : List Byte :=
  let (i, j, k) := match x with | some x => streamPos x ((ext0Of x r).getD 0) r.next | none => (0, 0, 0)
  leBytes 4 i ++ leBytes 4 j ++ leBytes 4 k ++ leBytes 2 r.inFlight ++ leBytes 4 r.outOfRange ++ leBytes 3 r.ringRead ++ leBytes 3 r.ringWrite

/-- The counters or stream contexts of a unit. -/
def runBytes (i : SkeinImage) (v : SavedUnit) : List Byte :=
  if columnKind (v.tile % 40) = 1 then (List.range 6).flatMap fun l => counterBytes (counterAt v.unit l)
  else (List.range 16).flatMap fun n => streamBytes ((unitIn i (v.tile / 40) (v.tile % 40)).bind fun c => streamCfg c n) (streamAt v.unit n)

/-- A unit entry: 128 bytes for a CU, with its slot tag after the counters, 448 for an MU (R72, R118). -/
def unitEntry (i : SkeinImage) (v : SavedUnit) : List Byte :=
  let c := v.tile % 40
  [BitVec.ofNat 8 (v.tile / 40), BitVec.ofNat 8 c, BitVec.ofNat 8 (columnKind c), BitVec.ofNat 8 (v.unit.ended.toNat + 16 * b2n v.unit.pendingSwap)] ++ zeros 12
    ++ (if columnKind c = 1 then padTo 112 (runBytes i v ++ [BitVec.ofNat 8 v.unit.active]) else padTo 432 (runBytes i v))

/-- A data record: its 16-byte head, with the base of an SRAM range in bytes 8 to 11, then its data. -/
def dataRecord (tile kind port base : Nat) (bs : List Byte) : List Byte :=
  [BitVec.ofNat 8 (tile / 40), BitVec.ofNat 8 (tile % 40), BitVec.ofNat 8 kind, BitVec.ofNat 8 port] ++ leBytes 4 bs.length ++ leBytes 4 base ++ zeros 4 ++ bs

/-- An entry of an input FIFO: a vector, a scalar word or a token (R75). -/
def itemBytes (p : Nat) (it : Item) : List Byte := leBytes (if p < 4 then 64 else if p < 8 then 4 else 1) it.data.toNat

/-- A raw bank: 64 rows of 64 accumulators of 16 bytes (R50). -/
def bankBytes (b : Tab (List (BitVec 128))) : List Byte :=
  (List.range 64).flatMap fun r => (List.range 64).flatMap fun j => leBytes 16 ((tget [] r b).getD j 0).toNat

/-- Weight and shadow weight registers with their scales. -/
def weightBytes (m : Matrix) : List Byte := (m.weight ++ m.weightScales ++ m.shadow ++ m.shadowScales).flatMap fun v => leBytes 64 v.toNat

/-- The data records of a unit. -/
def unitRecords (i : SkeinImage) (v : SavedUnit) : List Byte :=
  let m := v.unit.matrix
  (v.unit.fifos.flatMap fun e => dataRecord v.tile 1 e.1 0 (e.2.flatMap (itemBytes e.1)))
    ++ (if m.openBank = [] then [] else dataRecord v.tile 2 0 0 (bankBytes m.openBank))
    ++ (if m.closedBank = [] then [] else dataRecord v.tile 2 1 0 (bankBytes m.closedBank))
    ++ (if weightBytes m = [] then [] else dataRecord v.tile 3 0 0 (weightBytes m))
    ++ (if v.withSram then
        match unitIn i (v.tile / 40) (v.tile % 40) with
        | some c => if c.kind = 2 then (recordRanges i c).flatMap fun e => dataRecord v.tile e.1 0 e.2.1 (mreads v.unit.sram e.2.1 e.2.2) else []
        | none => []
      else [])

/-! ### The scan file (R124) -/

/-- A unit's scan chain in its order. Crossing buffers are empty once entries have landed. -/
def chainBytes (i : SkeinImage) (v : SavedUnit) : List Byte :=
  let words := match unitIn i (v.tile / 40) (v.tile % 40) with | some c => c.words | none => []
  let m := v.unit.matrix
  words ++ runBytes i v ++ (v.unit.fifos.flatMap fun e => e.2.flatMap (itemBytes e.1)) ++ (v.unit.latches.flatMap fun e => leBytes 128 e.2.toNat)
    ++ weightBytes m ++ (if m.openBank = [] then [] else bankBytes m.openBank) ++ (if m.closedBank = [] then [] else bankBytes m.closedBank)

/-- A unit of the scan file: an 8-byte head with the chain's length in bits, and the chain, padded to 64 bytes. -/
def scanUnit (i : SkeinImage) (v : SavedUnit) : List Byte :=
  let c := v.tile % 40
  let bs := chainBytes i v
  let all := [BitVec.ofNat 8 (v.tile / 40), BitVec.ofNat 8 c, BitVec.ofNat 8 (columnKind c), 0] ++ leBytes 4 (8 * bs.length) ++ bs
  padTo (roundUp all.length 64) all

/-- The scan file of units in logical order. -/
def scanFile (i : SkeinImage) (profile : List Nat) (units : List SavedUnit) : List Byte :=
  leBytes 4 0x4E414353 ++ leBytes 4 units.length ++ leBytes 48 i.headerHash.toNat ++ padTo 4 (profile.map (BitVec.ofNat 8)) ++ zeros 4
    ++ units.flatMap (scanUnit i)

/-! ### The whole record -/

/-- Unit entries and data records; a scan file is one data record (R118, R124). -/
def recordBody (i : SkeinImage) (form : Nat) (profile : List Nat) (units : List SavedUnit) : List Byte :=
  units.flatMap (unitEntry i) ++ (if form = 2 then dataRecord 0 0 0 0 (scanFile i profile units) else units.flatMap (unitRecords i))

/-- RECORD_DIGEST (R118). -/
def recordDigest (i : SkeinImage) (p : ParkRec) : Digest := sha384 (recordBody i p.form p.profile p.units)

/-- The bytes of a park record (R118). -/
def parkBytes (i : SkeinImage) (p : ParkRec) : List Byte :=
  let body := recordBody i p.form p.profile p.units
  leBytes 4 0x4B524150 ++ [BitVec.ofNat 8 p.form, BitVec.ofNat 8 p.reason, BitVec.ofNat 8 p.slot, BitVec.ofNat 8 p.bands] ++ leBytes 48 p.headerHash.toNat
    ++ leBytes 4 p.units.length ++ leBytes 4 (128 + (p.units.flatMap (unitEntry i)).length) ++ leBytes 8 (128 + body.length)
    ++ padTo 4 (p.profile.map (BitVec.ofNat 8)) ++ zeros 4 ++ leBytes 48 p.digest.toNat ++ body

/-- The park record of a section as its units stand, one entry for each unit of the field in logical order (R118). -/
def parkRecord (s : State) (f : Nat) (fl : Field) (x : Section) (i : SkeinImage) (handle form reason : Nat) : ParkRec :=
  let units := (fieldTiles (geoOf s fl)).map fun (e : Nat × Nat) => savedUnit s i x.slot x.id (form == 1) (tileAt fl e.1 e.2) e.1 e.2
  let profile := profilesOf (geoOf s fl)
  { handle, field := f, form, reason, slot := x.slot, bands := fl.bands.length, headerHash := i.headerHash, profile
    digest := sha384 (recordBody i form profile units), units
    feeds := x.feeds, exits := x.exits, scalars := x.scalars, empty := x.empty, idleEn := x.idleEn, idleLimit := x.idleLimit, watchdog := x.watchdog
    outOfRange := x.outOfRange, sectionId := x.id
    origin := match x.acc.bind fun a => tfind a s.host.opens with | some d => (d.q, d.seq.toNat) | none => (0, 0)
    valid := true, room := if form = 1 then x.room else none }

/-! ### Restoring a unit (R121) -/

/-- The residue of a record ahead of what has arrived since (R121 step 2). -/
def mergeFifos (old new : Tab (List Item)) : Tab (List Item) := old.foldl (fun m (e : Nat × List Item) => tset [] e.1 (e.2 ++ tget [] e.1 m) m) new

/-- A fence of a record against what its threads have sent by now (log 132). -/
def restoredFence (s : State) (w : WaitToken) : WaitToken := { w with fence := w.fence.map fun (e : Nat × Nat) => (e.1, (threadAt s e.1).sent - e.2) }

/-- Entries sent after a fence count again for the threads of a restored unit (log 132). -/
def countFences (waits : List WaitToken) (s : State) : State :=
  (waits.flatMap (·.fence)).foldl (fun s (e : Nat × Nat) => setThread s e.1 { threadAt s e.1 with sent := max (threadAt s e.1).sent e.2 }) s

/-- The residue that a record keeps for a destination of a thread uses its credits again (R81, R121). -/
def useCredits (k d n : Nat) (s : State) : State :=
  let th := threadAt s k
  setThread s k { th with credits := tset Config.fifoDepth d (creditsOf th d - n) th.credits }

/-- A unit of a record that is still to be restored. -/
def savedAt (x : Section) (r c : Nat) : Option SavedUnit := x.restore.find? fun v => v.tile == 40 * r + c

/-- A unit is about to be restored: residue takes credits of the threads from it, and of the threads to it whose source is an edge or has been
restored before (R121). -/
def takeResidue (f : Nat) (x : Section) (v : SavedUnit) (i : SkeinImage) (s : State) : State :=
  i.threads.zipIdx.foldl (fun s (e : ThreadCfg × Nat) =>
    let k := threadKey f x.slot e.2
    let mine := decide (40 * e.1.srcRow + e.1.srcCol = v.tile)
    e.1.dests.zipIdx.foldl (fun s (d : Dest × Nat) =>
      let p := inPort e.1.lane d.1.port
      match savedAt x d.1.row d.1.col with
      | none => s
      | some w =>
        let n := (tget [] p w.unit.fifos).length
        let here := decide (w.tile = v.tile)
        if n = 0 ∨ (mine = false ∧ here = false) then s
        else if mine || edgeSourced e.1 || (savedAt x e.1.srcRow e.1.srcCol).isSome then
          let s := useCredits k d.2 n s
          if here then setThread s k { threadAt s k with owner := some x.id } else s
        else setThread s k { threadAt s k with owner := some x.id }) s) s

end Sys2Proof.Machine
end

