-- ==== Sys2Proof/Machine/Requests.lean ====
section
/-!
DEFINITION. The request table as other parts use it (13): entries, KV pages, and the ways a request ends.
-/

namespace Sys2Proof.Machine

/-- The entry of an index; none where it is FREE (R280). -/
def reqAt (s : State) (r : Nat) : Option Request := tfind r s.serv.reqs
/-- Replace an entry. -/
def setReq (s : State) (r : Nat) (v : Request) : State := { s with serv := { s.serv with reqs := tput r v s.serv.reqs } }
/-- Change an entry that is not FREE. -/
def modReq (r : Nat) (g : Request → Request) (s : State) : State := { s with serv := { s.serv with reqs := tup r g s.serv.reqs } }

/-- Sections of a field: in its sequencer, then waiting. -/
def sectionsOf (fl : Field) : List Section := fl.seq ++ fl.waiting

/-- A section serves the request (R281). -/
def usedBySection (s : State) (r : Nat) : Bool := s.fld.fields.any fun e => (sectionsOf e.2).any fun x => x.serves.any fun p => p.1 == r

/-- Release a request's pages (R294); freed frames may let demoted units return (R194). -/
def freeKv (r : Nat) (s : State) : State :=
  match reqAt s r with
  | none => s
  | some q =>
    let s := modField q.field (fun fl => { fl with pages := fl.pages.filter fun p => !pageOf r p }) s
    let s := { s with mem := { s.mem with moves := s.mem.moves.filter fun m => !(m.field == q.field && !(match fieldAt s q.field with
      | some fl => fl.pages.any fun p => p.dva == m.dva
      | none => false)) } }
    let s := { s with moons := { s.moons with services :=
      (s.moons.services.map fun (e : Nat × List MoonService) => (e.1, e.2.filter fun v => v.req != some r)).filter fun (e : Nat × List MoonService) => e.2 != [] } }
    framesFreed q.field (modReq r (fun q => { q with pages := 0, draftPages := 0, received := [] }) s)

/-- Tokens delivered to OUTPUT_ADDR: GENERATED, less the comet's own for a resumed request (R302, R321). -/
def tokensOut (q : Request) : Nat := q.generated - q.base

/-- Frames of the module pool that a comet reserved are free again (R314). -/
def releaseReserve (d : Option CometDest) (s : State) : State :=
  match d with
  | some (.pool fr n) => { s with mem := { s.mem with poolUsed := s.mem.poolUsed.erase (fr, n) } }
  | _ => s

/-- A PARK that waits for the request ends because the request ended first (R306). -/
def dropPark (q : Request) (s : State) : State :=
  match q.park with
  | some (.descriptor a, d) => finish a .alreadyDone 0 0 (releaseReserve d s)
  | some (_, d) => releaseReserve d s
  | none => s

/-- A request ends: its descriptor completes, cancels that govern it complete, its pages and entry are freed (R302, R303, R305). -/
def closeReq (r : Nat) (st : BitVec 16) (handle : Nat) (s : State) : State :=
  match reqAt s r with
  | none => s
  | some q =>
    let s := finish? q.acc st (tokensOut q) (r + 4096 * handle) s
    let s := q.cancels.foldl (fun s a => finish a .ok 0 0 s) s
    let s := freeKv r (dropPark q s)
    { s with serv := { s.serv with reqs := tdel r s.serv.reqs } }

/-- Cancels and parks that are held for a descriptor's entry find that it completed without one (R279, R324). -/
def dropHolds (acc : Nat) (s : State) : State :=
  (s.serv.holds.filter fun (e : Nat × Nat × Option ParkDesc) => e.2.1 == acc).foldl (fun s (e : Nat × Nat × Option ParkDesc) =>
    finish e.1 .alreadyDone 0 0 s) { s with serv := { s.serv with holds := s.serv.holds.filter fun (e : Nat × Nat × Option ParkDesc) => e.2.1 != acc } }

/-- A CANCELLING request that no dispatched section uses completes CANCELLED; RETAIN_ON_CANCEL keeps it PARKED with its pages (R303, R304). -/
def settleCancel (r : Nat) (s : State) : State :=
  match reqAt s r with
  | none => s
  | some q =>
    if q.state ≠ .cancelling ∨ usedBySection s r = true then s
    else if q.retain then
      let s := finish? q.acc (statusCode .cancelled) (tokensOut q) r s
      let s := q.cancels.foldl (fun s a => finish a .ok 0 0 s) s
      modReq r (fun q => { q with state := .parked, retained := true, acc := none, park := none, parkDesc := none, cancels := [] }) (dropPark q s)
    else closeReq r (statusCode .cancelled) 0 s

/-- A cancel, or the deadline that acts as one, reaches an entry in QUEUED, PREFILL or DECODE (R303). -/
def beginCancel (r : Nat) (cancel : Option Nat) (s : State) : State :=
  settleCancel r (modReq r (fun q => { q with state := .cancelling, before := q.state, cancels := q.cancels ++ cancel.toList }) s)

/-- The statuses of a section that end the requests it served (R305). -/
def endsRequests (st : BitVec 16) : Bool :=
  st == statusCode .fencedUnit || st == statusCode .quarantinedShard || st == statusCode .stallDetected || st == statusCode .linkDown

/-- Prompt positions are written; PREFILL ends when KV_DONE reaches PROMPT_TOKENS - 1, unless PREFILL_ONLY (R281). -/
def advanceKv (n : Nat) (q : Request) : Request :=
  if q.state ≠ .prefill then q
  else { q with kvDone := q.kvDone + n, state := if q.promptTokens ≤ q.kvDone + n + 1 ∧ q.prefillOnly = false then .decode else .prefill }

/-- A section ended normally. -/
def endedWell (st : BitVec 16) : Bool := st == statusCode .ok || st == statusCode .okEmpty

/-- A section of a field's step has ended: its logits can be read, and the chunks of a verifying step are written; or nothing of the step is
committed (R286, R290, R305). -/
def stepEnded (f : Nat) (id : Nat) (st : BitVec 16) (s : State) : State :=
  match (fieldAt s f).bind (·.step) with
  | none => s
  | some r =>
    if r.sectionId ≠ id then s
    else if endedWell st then
      let s := modField f (fun fl => { fl with step := some { r with ended := true } }) s
      if r.depth.isSome then s else r.chunks.foldl (fun s (e : Nat × Nat × Nat) => modReq e.1 (advanceKv e.2.2) s) s
    else modField f (fun fl => { fl with step := none }) s

/-- A step or prefill section has ended (R281, R303, R305). -/
def serveEnded (f : Nat) (x : Section) (st : BitVec 16) (s : State) : State :=
  let s := stepEnded f x.id st s
  x.serves.foldl (fun s (e : Nat × Nat) =>
    match reqAt s e.1 with
    | none => s
    | some q =>
      if openState q.state && endsRequests st then closeReq e.1 st 0 s
      else if x.isPrefill && endedWell st && x.config == some q.config then modReq e.1 (advanceKv e.2) s
      else settleCancel e.1 s) s

end Sys2Proof.Machine
end

