-- ==== Sys2Proof/Machine/Sections.lean ====
section
/-!
DEFINITION. The life of a section (05, 10, 13): the checks of R166, the sequencer, feeds, the end of a section with what follows from it, drains,
the abort procedure, park records and their restoration.
-/

namespace Sys2Proof.Machine

/-! ### Sections of a field -/

/-- A section of a field by number. -/
def secAt (s : State) (f id : Nat) : Option Section := (fieldAt s f).bind fun fl => (sectionsOf fl).find? fun x => x.id == id

/-- Change a section. -/
def modSec (f id : Nat) (g : Section → Section) (s : State) : State :=
  modField f (fun fl => { fl with seq := mapIf (fun x => x.id == id) g fl.seq, waiting := mapIf (fun x => x.id == id) g fl.waiting }) s

/-- Module tiles of a field (R16, R98). -/
def moduleTiles (s : State) (fl : Field) : List Nat := (fieldTiles (geoOf s fl)).map fun e => tileAt fl e.1 e.2

/-- The governor or the thermal ladder has parked the field (R404, R411). -/
def fieldParked (s : State) (f : Nat) : Bool := s.gov.parked.getLsbD f || s.gov.thermalParked.getLsbD f

/-- An in-place or scan record holds the field (R119, R124). -/
def heldInPlace (s : State) (f : Nat) : Bool := s.fld.parks.any fun p => p.field == f && p.form != 1 && p.valid

/-- The section is active in a unit of its field. -/
def activeIn (s : State) (fl : Field) (id : Nat) : Bool :=
  (moduleTiles s fl).any fun t => (unitAt s t).sectionId == some id && !(unitAt s t).pendingSwap

/-- A drain of any kind runs in the field, or it is parked in place. -/
def drainingField (fl : Field) : Bool := fl.seq.any fun x => match x.phase with
  | .draining | .settled | .parkedInPlace => true
  | _ => false

/-- The section shows progress in this tick (R377). -/
def showProgress (f id : Nat) (s : State) : State := modSec f id (fun x => { x with progress := true }) s

/-! ### Quarantined shards (R336, R337) -/

/-- DVA ranges of the shards quarantined in a field (R336). -/
def quarantined (s : State) (f : Nat) : List (Nat × Nat) :=
  ((tget [] f s.models.tier1).flatMap fun m => m.copies).filterMap fun c => if c.quarantined then some (c.dva, c.bytes) else none

/-- A GATED buffer whose expert's capacity reads zero (R337). -/
def gatedOut (s : State) (f : Nat) (i : SkeinImage) (e : BufferExtent) : Bool :=
  e.gated && (capacityOf i).any fun c => readDva s f (c.base + 2 * e.expert) 2 == some [0, 0]

/-- A skein references a range of shards in a field (R337). -/
def refsRange (s : State) (f : Nat) (i : SkeinImage) (a n : Nat) : Bool :=
  (extentsOf i).any fun e => overlaps e.base e.bytes a n && !gatedOut s f i e

/-- A skein references a shard quarantined in the field (R337). -/
def refsQuarantined (s : State) (f : Nat) (i : SkeinImage) : Bool := (quarantined s f).any fun (r : Nat × Nat) => refsRange s f i r.1 r.2

/-- An address lies in a page of a copy quarantined in the field: no read of it is served (R337). -/
def inQuarantine (s : State) (f a : Nat) : Bool :=
  (quarantined s f).any fun (r : Nat × Nat) => decide (r.1 ≤ a ∧ a < r.1 + roundUp r.2 2097152)

/-! ### Checks of a dispatch (R166) -/

/-- Run-time values of the axes: scalars for SRC 0, MAX for a derived one. -/
def axisValue (i : SkeinImage) (scalars : List Nat) (k : Nat) : Nat := match (axesOf i)[k]? with
  | some a => if a.src = 0 then scalars.getD a.scalar 0 else a.max
  | none => 0

/-- Axes that the dispatch supplies. -/
def suppliedAxes (i : SkeinImage) : List ShapeAxis := (axesOf i).filter fun a => a.src == 0

/-- A unit that the skein uses is under a unit fence, or a band of the field is fenced (R166 step 3, R469). -/
def usesFenced (s : State) (fl : Field) (i : SkeinImage) : Bool :=
  fl.bands.any (fun b => s.faults.fencedBands.getLsbD b)
    || (workingUnits i).any fun u => s.faults.fencedUnits.contains (tileAt fl u.row u.col)

/-- Checks 2 to 4 of R166, with that of R337 between 3 and 4; the first failure. -/
def checkRun (s : State) (f : Nat) (fl : Field) (i : SkeinImage) (scalars : List Nat) : Option Status :=
  let p := profilesOf (geoOf s fl)
  if i.hdr.profile ≠ p ++ List.replicate (4 - p.length) 0 then some .profileMismatch
  else if ((extentsOf i).any fun e => !rangeMapped s f e.base e.bytes) || ((spillsOf i).any fun e => !rangeMapped s f e.base e.bytes) then some .bufferTooSmall
  else if usesFenced s fl i then some .fencedUnit
  else if refsQuarantined s f i then some .quarantinedShard
  else if (suppliedAxes i).any fun a => decide (a.max < scalars.getD a.scalar 0) then some .shapeExceedsPlan
  else none

/-- Some byte of a range lies in tier 2 now. -/
def rangeFar (s : State) (f a n : Nat) : Bool :=
  (List.range (ceilDiv (a % 4096 + n) 4096)).any fun i => match dvaCell s f (a / 4096 * 4096 + 4096 * i) with
    | some ((t2, _), _) => t2
    | none => false

/-- The bound in force for a run (R175). -/
def runBound (s : State) (f : Nat) (fl : Field) (i : SkeinImage) : Nat :=
  if (spillsOf i).any fun e => rangeFar s f e.base e.bytes then 0xFFFFFFFF
  else
    let far := fun (u : UnitCfg) => (extentsOf i).any fun e => e.row == u.row && e.col == u.col && rangeFar s f e.base e.bytes
    min (maxN (islandBounds i (geoOf s fl) (firstBand fl) far true)) 0xFFFFFFFF

/-- The feeds of a section (R233); an empty dispatch pops nothing, so it expects nothing (R167; log 28). -/
def feedsFor (i : SkeinImage) (scalars : List Nat) (empty : Bool) : List Feed :=
  (feedThreads i).map fun t =>
    let e := if empty then 0 else match feedMono i t with | some m => m.value (axisValue i scalars) | none => 0
    { port := t.srcPort, expects := e, accepted := 0, delivered := 0, before := 0 }

/-! ### Entering the sequencer (R108) -/

/-- The islands of a field run again (R463). -/
def wakeIslands (fl : Field) (s : State) : State :=
  { s with fld := { s.fld with stopped := fl.bands.foldl (fun m b => [0, 1, 2, 3].foldl (fun m q => setBit m (4 * b + q) false) m) s.fld.stopped } }

/-- A descriptor's section is placed (R278). -/
def place? (acc : Option Nat) (s : State) : State := match acc with
  | some a => place a s
  | none => s

/-- Sections that wait take free sequencer entries, in order; n bounds them (R108). A retirement that waits for its map holds them (R484;
log 62). -/
def pullWaiting (f : Nat) : Nat → State → State
  | 0, s => s
  | n + 1, s =>
    match fieldAt s f with
    | none => s
    | some fl =>
      match fl.waiting with
      | [] => s
      | x :: xs =>
        if !fl.held && decide (fl.seq.length < Config.seqDepth) then
          pullWaiting f n (place? x.acc (wakeIslands fl (setField s f { fl with seq := fl.seq ++ [x], waiting := xs })))
        else s

/-- A section enters the sequencer, or waits for an entry (R108). -/
def enterSection (f : Nat) (x : Section) (s : State) : State :=
  pullWaiting f 1 (modField f (fun fl => loadTrans x { fl with waiting := fl.waiting ++ [x] }) s)

/-- An in-place record's section returns before the sections that were dispatched after it, and its units are as before it (R121; log 29). Where the
sequencer is full, its youngest section, not yet sent, waits in front of the others (R108). -/
def returnSection (f : Nat) (x : Section) (s : State) : State :=
  match fieldAt s f with
  | none => s
  | some fl =>
    let before := fl.seq.filter fun y => decide (y.id < x.id)
    let after := fl.seq.filter fun y => decide (x.id < y.id)
    let all := before ++ [x] ++ after
    let s := (x.restore.filter fun v => v.phase == .atWork).foldl (fun s v => modUnit (tileAt fl (v.tile / 40) (v.tile % 40)) (fun u =>
      { u with sectionId := if x.id = 0 then none else some (x.id - 1), pendingSwap := true }) s) s
    place? x.acc (wakeIslands fl (setField s f { loadTrans x fl with seq := all.take Config.seqDepth, waiting := all.drop Config.seqDepth ++ fl.waiting }))

/-- A new section; the number rises with the order of dispatch. -/
def newSection (s : State) (f : Nat) (acc : Option Nat) (slot : Nat) (scalars : List Nat) : Section :=
  { id := s.fld.nextSection, acc, slot, image := skeinAt s f slot, scalars, empty := false, phase := .queued, why := none, watchdog := 0, wdCount := 0, progress := false,
    idleEn := false, idleLimit := 0, idle := 0, fed := false, feeds := [], blockAddr := 0, bound := 0, outOfRange := 0, exits := [], serves := [],
    isPrefill := false, config := none, calls := 0, tag := none, counts := {}, restored := false, restore := [] }

/-- Take the next section number. -/
def countSection (s : State) : State := { s with fld := { s.fld with nextSection := s.fld.nextSection + 1 } }

/-! ### Feeds (R233 to R241) -/

/-- The edge thread of a feed: key and entry. -/
def feedThread (s : State) (f slot port : Nat) : Option (Nat × ThreadCfg) :=
  (skeinAt s f slot).bind fun i =>
    match i.threads.findIdx? fun t => t.lane == 0 && edgeSourced t && t.srcPort == port with
    | none => none
    | some k => (i.threads[k]?).map fun t => (threadKey f slot k, t)

/-- Bytes of a COPY's source from an offset; none where they cannot be read (R193, R199). Source 4 is a packet of a FEED transfer (R356). -/
def copySource (s : State) (c : CopyRun) (off n : Nat) : Option (List Byte) :=
  if c.srcPlace = 0 ∨ c.srcPlace = 4 then some (padTo n ((c.data.drop off).take n))
  else if c.srcPlace = 1 then readDva s c.field (c.src + off) n
  else readWindow s (c.src + off) n

/-- Replace a COPY. -/
def modCopy (acc : Nat) (g : CopyRun → CopyRun) (s : State) : State :=
  { s with fld := { s.fld with copies := mapIf (fun c => c.acc == acc) g s.fld.copies } }

/-- A place that a COPY reads through the host link may be read now. -/
def copyLink (s : State) (c : CopyRun) : Bool := (c.srcPlace != 0 && c.dstPlace != 0) || hostDma s c.acc

/-- Charge a COPY's read or write of n bytes at a place (R389). -/
def chargePlace (s : State) (tag : Nat) (field pl a n : Nat) : State :=
  if pl = 0 then chargeHost (some tag) n s
  else if pl = 1 then
    match dvaCell s field a with
    | some ((t2, _), _) => chargeTier (some tag) t2 n s
    | none => s
  else if pl = 2 then chargeTier (some tag) true n s
  else s

/-- A destination of a thread is still to be restored from a record: its residue comes first (R121). -/
def awaitsRestore (x : Section) (t : ThreadCfg) : Bool := t.dests.any fun d => match savedAt x d.row d.col with
  | some v => v.phase != .swapped
  | none => false

/-- The next entry of the first unfinished COPY of a feed enters its edge thread, where it can; a COPY whose host source is out of reach goes no further
(R81, R114, R194, R234, R259). -/
def feedOne (f : Nat) (x : Section) (port : Nat) (s : State) : Option State :=
  match s.fld.copies.find? (fun c => c.secId == some x.id && c.port == port && decide (c.moved < c.length) && c.fault.isNone), feedThread s f x.slot port with
  | some c, some (k, t) =>
    if copyLink s c = false then some (modCopy c.acc (fun c => { c with fault := some (statusCode .linkDown) }) s)
    else if x.phase ≠ .dispatched ∨ c.started = false ∨ hasCredit s k t = false ∨ mayFollow s f x.id k t = false ∨ awaitsRestore x t = true then none
    else match copySource s c c.moved 64 with
      | none => some (modCopy c.acc (fun c => { c with fault := some (statusCode .fencedUnit) }) s)
      | some bs =>
        let s := chargePlace s c.tag c.field c.srcPlace (c.src + c.moved) 64
        let s := if c.srcPlace = 1 then touchDva c.field (c.src + c.moved) s else s
        let s := sendOn x.id k t { tag := x.slot, data := BitVec.ofNat 512 (leNat bs) } s
        let s := modCopy c.acc (fun c => { c with moved := c.moved + 64 }) s
        let count := fun (e : Feed) => { e with delivered := e.delivered + 1 }
        some (modSec f x.id (fun x => { x with progress := true, fed := true, feeds := mapIf (fun e => e.port == port) count x.feeds }) s)
  | _, _ => none

/-- Entries enter the feeds of a field while they can; n bounds them. -/
def pumpFeeds (f : Nat) : Nat → State → State
  | 0, s => s
  | n + 1, s =>
    match fieldAt s f with
    | none => s
    | some fl =>
      match (fl.seq.flatMap fun x => x.feeds.map fun e => (x, e.port)).findSome? fun (e : Section × Nat) => feedOne f e.1 e.2 s with
      | some s => pumpFeeds f n s
      | none => s

/-- Most entries that the feeds of a field can take at once: eight credits for each of 16 edge ports. -/
def feedBurst : Nat := 128

/-- COPYs into the feeds of a section that ends: what has been delivered stands, the rest ends with a status (R241). -/
def closeFeeds (id : Nat) (st : BitVec 16) (s : State) : State :=
  (s.fld.copies.filter fun c => c.secId == some id).foldl (fun s c =>
    finishCode c.acc (if c.moved = c.length then statusCode .ok else st) c.moved 0
      { s with fld := { s.fld with copies := s.fld.copies.filter fun e => e.acc != c.acc } }) s

/-! ### The end of a section (R110, R112) -/

/-- Tier ranges that a skein writes: extents of STORE contexts and DIR 0 hand-offs. -/
def writtenRanges (i : SkeinImage) : List (Nat × Nat) :=
  ((extentsOf i).filter fun e => match unitIn i e.row e.col with
    | some u => ((u.streams[e.ctx]?).map (·.kind)) == some 4
    | none => false).map (fun e => (e.base, e.bytes))
    ++ ((handoffsOf i).filter fun h => h.dir == 0).map fun h => (h.base, h.bytes)

/-- Tier ranges that a skein reads: extents of FETCH contexts and DIR 1 hand-offs. -/
def readRanges (i : SkeinImage) : List (Nat × Nat) :=
  ((extentsOf i).filter fun e => match unitIn i e.row e.col with
    | some u => ((u.streams[e.ctx]?).map (·.kind)) == some 3
    | none => false).map (fun e => (e.base, e.bytes))
    ++ ((handoffsOf i).filter fun h => h.dir == 1).map fun h => (h.base, h.bytes)

/-- A later section reads a range that an earlier one writes (R112). -/
def readsFrom (fl : Field) (x y : Section) : Bool :=
  match secSkein fl x, secSkein fl y with
  | some i, some j => (writtenRanges i).any fun a => (readRanges j).any fun b => overlaps a.1 a.2 b.1 b.2
  | _, _ => false

/-- Counts of a section: its tag's, or kept with a firmware section until its end (R387, R388). -/
def chargeSection (f id : Nat) (g : TagCounters → TagCounters) (activity : Nat) (s : State) : State :=
  match secAt s f id with
  | none => s
  | some x => match x.tag with
    | some t => charge (some t) g activity s
    | none =>
      let count := fun (c : TagCounters) => let y := g c; { y with activity := y.activity + BitVec.ofNat 64 activity }
      modSec f id (fun x => { x with counts := count x.counts }) s

/-- Tier bytes of a section in 64-byte beats (R389, R390). -/
def chargeSecTier (f id : Nat) (tier2 : Bool) (bytes : Nat) (s : State) : State :=
  let beats := ceilDiv bytes 64
  let b := BitVec.ofNat 64 (64 * beats)
  if tier2 then chargeSection f id (fun x => { x with t2Bytes := x.t2Bytes + b }) (6 * beats) s
  else chargeSection f id (fun x => { x with t1Bytes := x.t1Bytes + b }) (2 * beats) s

/-- Insert an attribution in rising order of tag. -/
def insertTag (x : Nat × Nat) : List (Nat × Nat) → List (Nat × Nat)
  | [] => [x]
  | y :: l => if x.1 ≤ y.1 then x :: y :: l else y :: insertTag x l

/-- A total split over weights: the floors, then the remainder one count at a time in rising order of tag (R388). -/
def splitTotal (total : Nat) (l : List (Nat × Nat)) : List (Nat × Nat) :=
  let w := sumN (l.map fun (e : Nat × Nat) => e.2)
  let floors := l.map fun (e : Nat × Nat) => (e.1, total * e.2 / max 1 w)
  let rest := total - sumN (floors.map fun (e : Nat × Nat) => e.2)
  floors.zipIdx.map fun (e : (Nat × Nat) × Nat) => (e.1.1, e.1.2 + b2n (decide (e.2 < rest)))

/-- A step's counts go to the tags of the requests that it served (R388). -/
def splitCounts (x : Section) (s : State) : State :=
  let l := (x.serves.filterMap fun (e : Nat × Nat) => (reqAt s e.1).map fun q => (q.tag.toNat, e.2)).foldl (fun l e => insertTag e l) []
  let give := fun (total : BitVec 64) (g : TagCounters → BitVec 64 → TagCounters) (s : State) =>
    (splitTotal total.toNat l).foldl (fun s (e : Nat × Nat) => charge (some e.1) (fun c => g c (BitVec.ofNat 64 e.2)) 0 s) s
  if x.tag.isSome || sumN (l.map fun (e : Nat × Nat) => e.2) == 0 then s
  else
    let s := give x.counts.cuCycles (fun c n => { c with cuCycles := c.cuCycles + n }) s
    let s := give x.counts.muCycles (fun c n => { c with muCycles := c.muCycles + n }) s
    let s := give x.counts.t1Bytes (fun c n => { c with t1Bytes := c.t1Bytes + n }) s
    let s := give x.counts.t2Bytes (fun c n => { c with t2Bytes := c.t2Bytes + n }) s
    let s := give x.counts.hostBytes (fun c n => { c with hostBytes := c.hostBytes + n }) s
    give x.counts.activity (fun c n => { c with activity := c.activity + n }) s

/-- PARKs that wait for a descriptor's section complete, because the section ended first (R117). -/
def dropParkWait (acc : Nat) (st : Status) (s : State) : State :=
  (s.fld.parkWait.filter fun (w : Nat × Nat × Bool × Bool) => w.2.1 == acc).foldl (fun s (w : Nat × Nat × Bool × Bool) =>
    finish w.1 st 0 0 { s with fld := { s.fld with parkWait := s.fld.parkWait.filter fun v => v.1 != w.1 } }) s

/-- The PARK descriptor that drains a section. -/
def parkOf (x : Section) : Option Nat := match x.why with
  | some (.park a _ _) => some a
  | _ => none

/-- Mark the active sections of a field as draining; the abort procedure ends the named one (R117, R122). A PARK that was draining it finds it
being ended. -/
def markAbort (f id : Nat) (st : BitVec 16) (s : State) : State :=
  match fieldAt s f, secAt s f id with
  | some fl, some x =>
    let s := match parkOf x with
      | some a => finish a .alreadyDone 0 0 s
      | none => s
    let co := (fl.seq.filter fun y => y.id != id && y.phase == .dispatched && activeIn s fl y.id).map (·.id)
    let mark := fun (y : Section) =>
      if y.id = id then { y with phase := .draining, why := some (.abort st) }
      else if co.contains y.id then { y with phase := .draining, why := none } else y
    modField f (fun fl => { fl with seq := fl.seq.map mark }) s
  | _, _ => s

/-- The record of a governor park is gone: its section goes on, has ended, or has a PARK's record (R117, R119). -/
def dropFieldRecord (f id : Nat) (s : State) : State :=
  { s with fld := { s.fld with parks := s.fld.parks.filter fun p => !(p.handle == 0 && p.field == f && p.sectionId == id) } }

/-- End a section: it leaves the sequencer, its feeds close, its descriptor completes, requests it served settle, and later sections that read what
it did not write end with CANCELLED (R110, R112, R305). A section that has been sent is ended by the abort procedure; n bounds the cascade. -/
def endSection (f id : Nat) (st : BitVec 16) (r0 r1 : Nat) : Nat → State → State
  | 0, s => s
  | n + 1, s =>
    match fieldAt s f, secAt s f id with
    | some fl, some x =>
      let later := if st = statusCode .ok ∨ st = statusCode .okEmpty then [] else (sectionsOf fl).filter fun y => decide (id < y.id) && readsFrom fl x y
      let s := dropFieldRecord f id (modField f (fun fl =>
        { dropTrans id fl with seq := fl.seq.filter fun y => y.id != id, waiting := fl.waiting.filter fun y => y.id != id }) s)
      let s := closeFeeds id (if st = statusCode .parked then st else statusCode .cancelled) s
      let s := finish? x.acc st r0 r1 s
      let s := match x.acc with
        | some a => dropParkWait a .alreadyDone s
        | none => s
      let s := serveEnded f x st (splitCounts x s)
      let s := later.foldl (fun s y =>
        match secAt s f y.id with
        | none => s
        | some z => if z.phase = .queued then endSection f z.id (statusCode .cancelled) 0 0 n s
          else match z.why with
            | some (.abort _) => s
            | _ => markAbort f z.id (statusCode .cancelled) s) s
      pullWaiting f Config.seqDepth s
    | _, _ => s

/-- The longest cascade: every section of a field. -/
def cascade (s : State) (f : Nat) : Nat := match fieldAt s f with
  | some fl => (sectionsOf fl).length + 1
  | none => 1

/-- A section ends with a code (R110). -/
def closeSection (f id : Nat) (st : BitVec 16) (r0 r1 : Nat) (s : State) : State := endSection f id st r0 r1 (cascade s f) s

/-! ### Drains (R117) -/

/-- Every unit of a field reconsiders its state. -/
def settleField (f : Nat) (s : State) : State := match fieldAt s f with
  | some fl => (moduleTiles s fl).foldl (fun s t => settleUnit t s) s
  | none => s

/-- The cause that co-drained sections take under the same drain (R116). -/
def coCause : EndCause → Option EndCause
  | .park _ r c => some (.parkWith r c)
  | .parkWith r c => some (.parkWith r c)
  | .inputPark => some .inputPark
  | .governor => some .governor
  | .abort _ => none

/-- Frames of a section's release-form record at its largest: header, unit entries, CU data, claimed SRAM and accumulator memory (R118, R119, R191). -/
def recordFrames (s : State) (f id : Nat) : Nat :=
  match fieldAt s f, (secAt s f id).bind (·.image) with
  | some fl, some i =>
    let tiles := fieldTiles (geoOf s fl)
    let most := fun (u : UnitCfg) => if u.kind = 1 then 75 * 1024 else 2048 + sumN ((unitRanges i u).map fun (e : Nat × Nat) => 16 + e.2)
    ceilDiv (128 + sumN (tiles.map fun e => if columnKind e.2 = 1 then 128 else 448) + sumN ((workingUnits i).map most)) Config.frame
  | _, _ => 1

/-- Room for the release-form records of sections: in the firmware reserves, else in the field's tier-1 share, demoting pages (R191, R194). -/
def recordRoom (f : Nat) : List Nat → State → Option State
  | [], s => some s
  | id :: l, s =>
    if Config.reserveHolds s.fresh then recordRoom f l { s with fresh := s.fresh + 1 }
    else match allocT1 f 1 0 (recordFrames s f id) { s with fresh := s.fresh + 1 } with
      | some (fr, u) => recordRoom f l (modSec f id (fun x => { x with room := some (fr, recordFrames s f id) }) u)
      | none => none

/-- Sections that a drain of the field begins with (R116, R117). -/
def drainIds (s : State) (fl : Field) : List Nat := (fl.seq.filter fun y => y.phase == .dispatched && activeIn s fl y.id).map (·.id)

/-- Room for the records of a drain: release-form ones only; none where there is none (R191; log 132). -/
def parkRoom (release : Bool) (f : Nat) (ids : List Nat) (s : State) : Option State := if release then recordRoom f ids s else some s

/-- What is left of a drain that found no room: the free values that it took. -/
def noRoom (ids : List Nat) (s : State) : State := { s with fresh := s.fresh + ids.length }

/-- Start a drain of a field's active sections; the named one has a cause of its own (R116, R117). A scan drain stops every unit at once (R124). -/
def startDrain (f id : Nat) (why : EndCause) (scan : Bool) (s : State) : State :=
  match fieldAt s f with
  | none => s
  | some fl =>
    let on := (fl.seq.filter fun y => (y.phase == .dispatched || y.phase == .draining) && activeIn s fl y.id).map (·.id)
    let mark := fun (y : Section) =>
      if y.id = id then { y with phase := .draining, why := some why }
      else if y.phase = .dispatched ∧ on.contains y.id then { y with phase := .draining, why := coCause why } else y
    let s := modField f (fun fl => { fl with seq := fl.seq.map mark }) s
    if scan then (moduleTiles s fl).foldl (fun s t => modUnit t (fun u => { u with stopped := true }) s) s else settleField f s

/-- The abort procedure begins (R122 step 1): a section not yet sent ends at once, one at work is drained first. A fence or an overflow that meets a
section already being aborted gives it its status (R116, R123, R152). -/
def startAbort (f id : Nat) (st : BitVec 16) (s : State) : State :=
  match secAt s f id with
  | none => s
  | some x =>
    if x.phase = .queued then closeSection f id st 0 0 s
    else match x.why with
      | some (.abort _) => if st = statusCode .fencedUnit then modSec f id (fun x => { x with why := some (.abort st) }) s else s
      | _ => settleField f (markAbort f id st s)

/-- Take a section's entries off its threads and out of the FIFOs of every unit; their credits are home again. -/
def purgeSection (f : Nat) (fl : Field) (x : Section) (s : State) : State :=
  let tiles := (moduleTiles s fl).filter fun t => residueOf s t x.slot x.id != []
  let left := tiles.map fun t => (t, withoutEntries s t x.slot x.id)
  let s := left.foldl (fun s e => modUnit e.1 (fun u => { u with fifos := e.2 }) s) s
  match skeinAt s f x.slot with
  | none => s
  | some img => img.threads.zipIdx.foldl (fun s (e : ThreadCfg × Nat) =>
      let k := threadKey f x.slot e.2
      let th := threadAt s k
      if th.owner ≠ some x.id then s
      else
        let home := fun (c : Tab Nat) (d : Nat) => tset Config.fifoDepth d (Config.fifoDepth - tget 0 d th.returning) c
        setThread s k { th with sent := 0, flying := [], owner := none, credits := (List.range e.1.dests.length).foldl home [] }) s

/-- Units in which a section is active. -/
def unitsOn (s : State) (fl : Field) (id : Nat) : List Nat :=
  (moduleTiles s fl).filter fun t => (unitAt s t).sectionId == some id && !(unitAt s t).pendingSwap

/-- A unit leaves its section without the wave: it waits for the next dispatch (R113, R122). -/
def leaveUnit (u : TileUnit) : TileUnit :=
  { u with pendingSwap := true, waits := [], stopped := false, aborted := false, emptyRun := false, matrix := {}, counters := [], streams := [] }

/-- Steps 2 to 4 of R122 for one section: ABORT reaches every unit, its entries are discarded, its written ranges are undefined, and it completes. Its
park record, of REASON 2, would be written by the drain and discarded here: nothing can read it in between, so none is kept. -/
def deliverAbort (f id : Nat) (st : BitVec 16) (s : State) : State :=
  match fieldAt s f, secAt s f id with
  | some fl, some x =>
    let tiles := unitsOn s fl id
    let s := purgeSection f fl x s
    let s := { s with mem := { s.mem with requests := s.mem.requests.filter fun q => q.write || !tiles.contains q.tile } }
    let s := tiles.foldl (fun s t => modUnit t leaveUnit s) s
    let s := match secSkein fl x with
      | some i => (writtenRanges i).foldl (fun s e => undefine f e.1 e.2 s) s
      | none => s
    closeSection f id st 0 0 s
  | _, _ => s

/-- Sections of a field that a drain took along with an aborted one go on, or those that the governor parked (R116, R119); their feeds move on. -/
def resumeDrained (f : Nat) (p : Section → Bool) (s : State) : State :=
  match fieldAt s f with
  | none => s
  | some fl =>
    let ids := (fl.seq.filter fun x => (x.phase == .draining || x.phase == .parkedInPlace) && p x).map (·.id)
    let s := modField f (fun fl => { fl with seq := mapIf (fun x => ids.contains x.id) (fun x => { x with phase := .dispatched, why := none }) fl.seq }) s
    let tiles := (moduleTiles s fl).filter fun t => match (unitAt s t).sectionId with | some i => ids.contains i | none => false
    let s := tiles.foldl (fun s t => modUnit t (fun u => { u with stopped := false, flushed := 0, flushEmitted := false }) s) s
    let s := tiles.foldl (fun s t => settleUnit t s) (ids.foldl (fun s id => dropFieldRecord f id s) s)
    pumpFeeds f feedBurst s

/-- Sections of a field with a cause, in order of dispatch. -/
def causes (s : State) (f : Nat) : List (Nat × EndCause) := match fieldAt s f with
  | some fl => fl.seq.filterMap fun x => if x.phase = .draining ∨ x.phase = .settled then x.why.map fun w => (x.id, w) else none
  | none => []

/-- A section ends by a scan park (R124). -/
def wantsScan : EndCause → Bool
  | .park _ _ scan => scan
  | .parkWith _ scan => scan
  | _ => false

/-- End every section of a field that the abort procedure holds; others go on once none is left (R122). -/
def finishAborts (f : Nat) (s : State) : State :=
  let s := (causes s f).foldl (fun s (e : Nat × EndCause) => match e.2 with
    | .abort st => deliverAbort f e.1 st s
    | _ => s) s
  if (causes s f).any fun e => match e.2 with | .abort _ => true | _ => false then s
  else resumeDrained f (fun x => x.why.isNone) s

/-! ### Park records (R118 to R121) -/

/-- Delivered counts of the feeds, from the section's first run on, go to the section block (R237, R272; log 150). -/
def writeFeedCounts (x : Section) (s : State) : State :=
  if x.blockAddr = 0 then s
  else x.feeds.foldl (fun s e => hostWrite s (x.blockAddr.toNat + 64 + 4 * e.port) (leBytes 4 (e.before + e.delivered))) s

/-- A section parks: its record is written, its units are left, and it completes PARKED with the handle (R117, R119, R237, R274). -/
def parkSectionNow (f id form reason : Nat) (s : State) : State :=
  match fieldAt s f, secAt s f id with
  | some fl, some x =>
    match secSkein fl x with
    | none => s
    | some i =>
      let rec_ := parkRecord s f fl x i s.fld.nextHandle form reason
      let s := { s with fld := { s.fld with parks := s.fld.parks ++ [rec_], nextHandle := s.fld.nextHandle + 1 } }
      let tiles := unitsOn s fl id
      let s := purgeSection f fl x s
      let s := { s with mem := { s.mem with requests := s.mem.requests.filter fun q => !tiles.contains q.tile } }
      let s := tiles.foldl (fun s t => modUnit t leaveUnit s) s
      let s := writeFeedCounts x s
      let park := parkOf x
      let s := closeSection f id (statusCode .parked) rec_.handle (if x.blockAddr = 0 then 0 else x.feeds.length) s
      match park with
      | some a => finish a .ok rec_.handle 0 s
      | none => s
  | _, _ => s

/-- The governor parks a section: its in-place record of REASON 3 is written, and its units keep it (R119). -/
def governorPark (f id : Nat) (s : State) : State :=
  match fieldAt s f, secAt s f id with
  | some fl, some x => match secSkein fl x with
    | none => s
    | some i => modSec f id (fun x => { x with phase := .parkedInPlace })
        { s with fld := { s.fld with parks := s.fld.parks ++ [parkRecord s f fl x i 0 0 3] } }
  | _, _ => s

/-- What a drain does with one section once every unit has stopped, by the cause it has now (R117, R119, R237). -/
def drainOne (f : Nat) (s : State) (id : Nat) : State :=
  match (secAt s f id).bind (·.why) with
  | some (.park _ release _) => parkSectionNow f id (b2n release) 0 s
  | some (.parkWith release _) => parkSectionNow f id (b2n release) 0 s
  | some .inputPark => parkSectionNow f id 1 1 s
  | some .governor => governorPark f id s
  | some (.abort st) => deliverAbort f id st s
  | none => s

/-- A unit has stopped for the drain: it holds no section under the drain, is fenced, or has written its part (R117 step 2). -/
def unitStopped (s : State) (fl : Field) (t : Nat) : Bool :=
  let u := unitAt s t
  unitFenced s t || u.stopped || u.pendingSwap || (unitCfg u).isNone || match u.sectionId with
    | none => true
    | some id => !(fl.seq.any fun x => x.id == id && x.phase == .draining)

/-- No entry of the field's draining sections is on its way. -/
def nothingFlying (s : State) (f : Nat) (fl : Field) : Bool :=
  (fl.seq.filter fun x => x.phase == .draining).all fun x => match secSkein fl x with
    | none => true
    | some i => (List.range i.threads.length).all fun k => (threadAt s (threadKey f x.slot k)).flying.isEmpty

/-- Every unit of a draining field has stopped, its tier requests are complete and its entries have landed (R117 step 3). -/
def drainDone (s : State) (f : Nat) (fl : Field) : Bool :=
  (fl.seq.any fun x => x.phase == .draining) && (moduleTiles s fl).all (fun t => unitStopped s fl t) && nothingFlying s f fl
    && (fl.seq.filter fun x => x.phase == .draining).all (fun x => x.calls == 0) && !s.mem.requests.any fun q => (moduleTiles s fl).contains q.tile

/-! ### Activation (R58, R113, R167, R121) -/

/-- A unit as it activates a fresh run of a section (R54, R92, R108, R113, R172). -/
def freshUnit (u : TileUnit) (x : Section) : TileUnit :=
  let u' : TileUnit := { u with active := x.slot, sectionId := some x.id, pendingSwap := false, counters := [], predicate := none, predLevel := 6,
                                ended := 0, flushed := 0, endEmitted := false, flushEmitted := false, stopped := false, aborted := false, waits := [],
                                latches := [], perCol := [], matrix := {}, streams := [], genLast := [], emptyRun := x.empty, frames := [], spilled := [],
                                swap := none, ovfRaised := false }
  match unitCfg u' with
  | some c => match outermost c with
    | some l => if c.ctl.startWait || x.empty then u' else { u' with counters := tset {} l { released := 1 } [] }
    | none => u'
  | none => u'

/-- A unit restored from its part of a record; claimed SRAM comes with the release form (R121). One that had not reached the section when it parked
begins it here; one that had swapped away from it does so again. -/
def restoredUnit (s : State) (t : Nat) (x : Section) (v : SavedUnit) (i : SkeinImage) : TileUnit :=
  let u := unitAt s t
  let fifos := mergeFifos v.unit.fifos u.fifos
  let sram := if v.withSram then restoreSram i (v.tile / 40) (v.tile % 40) v.unit.sram u.sram else u.sram
  match v.phase with
  | .atWork => { v.unit with slots := u.slots, active := x.slot, sectionId := some x.id, pendingSwap := false, flushed := 0, flushEmitted := false
                             stopped := false, fifos, sram, waits := v.unit.waits.map (restoredFence s) }
  | .ahead => freshUnit { u with fifos, sram } x
  | .swapped => { u with active := x.slot, sectionId := some x.id, pendingSwap := true, fifos, sram }

/-- An empty dispatch: every enabled counter and context emits its one DONE (R167). -/
def emptyDones (t : Nat) (c : UnitCfg) (s : State) : State :=
  if c.kind = 1 then (List.range 6).foldl (fun s l => match counterCfg c l with | some cc => emitDone t cc l s | none => s) s
  else (List.range 16).foldl (fun s n => if (streamCfg c n).isSome then streamEmpty t c n s else s) s

/-- Contexts whose extents hold a zero signal their end at once (R66). -/
def zeroDones (t : Nat) (c : UnitCfg) (s : State) : State :=
  (List.range 16).foldl (fun s n => match streamCfg c n with
    | some x => if x.extSrc = 0 ∧ x.ext0 * x.ext1 * x.ext2 = 0 then streamEmpty t c n s else s
    | none => s) s

/-- The out-of-range counts of a unit join its section's (R68, R274). -/
def collectCounts (f t : Nat) (s : State) : State :=
  let u := unitAt s t
  match u.sectionId with
  | some id => modSec f id (fun x => { x with outOfRange := x.outOfRange + sumN (u.streams.map fun (e : Nat × StreamRun) => e.2.outOfRange) }) s
  | none => s

/-- A unit begins a fresh run of a section. -/
def startUnit (t : Nat) (x : Section) (s : State) : State := match unitCfg (unitAt s t) with
  | some c => if x.empty then emptyDones t c s else if c.kind = 2 then zeroDones t c s else s
  | none => s

/-- A unit activates a section. -/
def activate (f : Nat) (fl : Field) (t : Nat) (x : Section) (s : State) : State :=
  let s := match savedAt x (t / 40 - 10 * firstBand fl) (t % 40), secSkein fl x with
    | some v, some i =>
      let s := countFences v.unit.waits (takeResidue f x v i s)
      let s := setUnit s t (restoredUnit s t x v i)
      let s := modSec f x.id (fun x => { x with restore := x.restore.filter fun w => w.tile != v.tile }) s
      let s := { s with mem := { s.mem with requests := s.mem.requests ++ v.requests.map fun q => { q with tile := t, field := f } } }
      if v.phase = .ahead then startUnit t x s else s
    | _, _ => startUnit t x (modUnit t (fun u => freshUnit u x) s)
  settleUnit t s

/-- The section a unit takes next: the next one that has been sent (R109, R113). -/
def nextFor (fl : Field) (u : TileUnit) : Option Section :=
  fl.seq.find? fun x => x.phase == .dispatched && match u.sectionId with
    | none => true
    | some id => decide (id < x.id)

/-- The swap conditions of R113 hold at a unit. -/
def swapReady (s : State) (t : Nat) : Bool :=
  let u := unitAt s t
  match unitCfg u with
  | none => true
  | some _ => workDone s t && (u.aborted || (u.endEmitted && u.waits.isEmpty))

/-- PARKs that wait for a section become drains when it is active (R117). -/
def takeParkWait (f id : Nat) (s : State) : State :=
  match (secAt s f id).bind (·.acc) with
  | none => s
  | some a =>
    match s.fld.parkWait.find? fun (w : Nat × Nat × Bool × Bool) => w.2.1 == a with
    | none => s
    | some (p, _, rel, scan) =>
      let s := { s with fld := { s.fld with parkWait := s.fld.parkWait.filter fun v => v.1 != p } }
      let ids := match fieldAt s f with | some fl => drainIds s fl | none => []
      match parkRoom rel f ids s with
      | some s => startDrain f id (.park p rel scan) scan s
      | none => finish p .noPlacement 0 0 (noRoom ids s)

/-- Every unit of the field has swapped away from a section or set its pending-swap flag (R110). -/
def allSwept (s : State) (fl : Field) (id : Nat) : Bool := (moduleTiles s fl).all fun t => sweptBy s id t

/-- Control threads of a skein that end at an edge port. -/
def exitThreads (i : SkeinImage) : List Nat :=
  (List.range i.threads.length).filter fun k => match i.threads[k]? with
    | some t => t.lane == 2 && t.dests.any fun d => d.row == 63 && d.col == 63
    | none => false

/-! ### Feeds: the checks that need the target (R234, R272) -/

/-- The section that a descriptor carries, with its field. -/
def sectionOfAcc (s : State) (a : Nat) : Option (Nat × Section) :=
  s.fld.fields.findSome? fun (e : Nat × Field) => ((sectionsOf e.2).find? fun x => x.acc == some a).map fun x => (e.1, x)

/-- Remove a COPY. -/
def dropCopy (acc : Nat) (s : State) : State := { s with fld := { s.fld with copies := s.fld.copies.filter fun c => c.acc != acc } }

/-- End a COPY with a code and its bytes moved (R274). -/
def endCopy (c : CopyRun) (st : BitVec 16) (s : State) : State := finishCode c.acc st c.moved 0 (dropCopy c.acc s)

/-- An input-parked record of a target that names this feed (R234). -/
def parkedFeed (s : State) (c : CopyRun) : Bool :=
  s.fld.parks.any fun p => p.reason == 1 && p.origin == c.target && p.field == c.field && p.feeds.any fun e => e.port == c.port

/-- Settle a COPY to a feed against its target, once the target has been accepted (R234, R241, R272, R279). -/
def resolveFeed (s : State) (c : CopyRun) : State :=
  match targetDesc s c.target.1 c.target.2 with
  | none =>
    if parkedFeed s c then endCopy c (statusCode .parked) s
    else if s.host.closed.contains c.target then endCopy c (statusCode .countMismatch) s
    else s
  | some (a, t) =>
    match sectionOfAcc s a with
    | none =>
      if (t.op == 0x21 || t.op == 0x43) && t.phase != .placed && (t.op == 0x21 || t.phase != .waiting) then s
      else endCopy c (statusCode .countMismatch) s
    | some (f, x) =>
      match x.feeds.find? (fun e => e.port == c.port) with
      | none => endCopy c (statusCode .countMismatch) s
      | some e =>
        if f ≠ c.field then endCopy c (statusCode .countMismatch) s
        else if x.phase = .draining ∧ x.why = some .inputPark then endCopy c (statusCode .parked) s
        else if e.expects < e.accepted + c.length / 64 then endCopy c (statusCode .countMismatch) s
        else
          let s := modSec f x.id (fun x => { x with feeds := mapIf (fun e => e.port == c.port) (fun e => { e with accepted := e.accepted + c.length / 64 }) x.feeds }) s
          modCopy c.acc (fun c => { c with secId := some x.id }) s

/-- Settle every COPY to a feed whose target is not yet known, in order of acceptance. -/
def resolveFeeds (s : State) : State :=
  (s.fld.copies.filter fun c => c.dstPlace == 3 && c.secId.isNone).foldl resolveFeed s

/-- Entries enter the feeds of every field while they can. -/
def pumpAll (s : State) : State := s.fld.fields.foldl (fun s (e : Nat × Field) => pumpFeeds e.1 feedBurst s) s

/-- COPYs to feeds find their targets, and entries move on. -/
def settleCopies (s : State) : State := pumpAll (resolveFeeds s)

/-! ### Slots (R107) -/

/-- Sections of a field that run the image a slot holds, up to a resumed one that waits for the slot's next fill. -/
def slotSections (fl : Field) (slot : Nat) : List Section :=
  ((sectionsOf fl).filter fun x => x.slot == slot).takeWhile fun x => (x.image.map (·.headerHash)) == ((slotSkein fl slot).map (·.headerHash))

/-- A section of the slot has units that have not swapped away, sent or not, or a unit has the slot active (R107). -/
def slotBusy (s : State) (fl : Field) (slot : Nat) : Bool :=
  ((slotSections fl slot).any fun x => !allSwept s fl x.id) || (moduleTiles s fl).any fun t => (unitAt s t).active == slot && atWork (unitAt s t)

/-- Entries of a slot's threads on their way to an exit (R110). -/
def leavingOf (f slot : Nat) (fl : Field) (s : State) : List (Nat × Nat × Nat × Bool) := match slotSkein fl slot with
  | none => []
  | some i => (i.threads.zipIdx.filter fun e => e.1.lane == 2).flatMap fun e =>
    let k := threadKey f slot e.2
    match (threadAt s k).owner with
    | none => []
    | some id => (threadAt s k).flying.filterMap fun y => match e.1.dests[y.dest]? with
      | some d => if d.row = 63 ∧ d.col = 63 then some (id, k, y.dest, tokKind y.item == 4) else none
      | none => none

/-- Write preloads into MU SRAM (R103). -/
def writePreloads (fl : Field) (i : SkeinImage) (s : State) : State :=
  i.preloads.foldl (fun s p => modUnit (tileAt fl p.row p.col) (fun u => { u with sram := mwrites u.sram p.base p.data }) s) s

/-- Fill a slot in every band of the field (R106 step 4): the units' contexts, the threads at rest, the preloads. Tokens of the old image on their way
to an exit still arrive there (R110). -/
def fillSlot (f : Nat) (slot : Nat) (i : SkeinImage) (s : State) : State :=
  match fieldAt s f with
  | none => s
  | some fl =>
    let bounds := skeinBounds s fl i
    let s := wakeIslands fl (setField s f { fl with slots := tset {} slot { skein := some i, refillFail := none, bound := maxN bounds } fl.slots })
    let base := threadKey f slot 0
    let s := { s with grid := { s.grid with
      leaving := s.grid.leaving ++ leavingOf f slot fl s
      threads := s.grid.threads.filter fun (e : Nat × Thread) => !(decide (base ≤ e.1) && decide (e.1 < base + 65536)) } }
    let s := i.units.foldl (fun s u => modUnit (tileAt fl u.row u.col) (fun v => { v with slots := tput slot (filledUnit u) v.slots }) s) s
    writePreloads fl i s

end Sys2Proof.Machine
end

