-- ==== Sys2Proof/Machine/Faults.lean ====
section
/-!
DEFINITION. Detections and what follows from them (23): injection slots, history entries, fences by scope, and the fatal sequence.
-/

namespace Sys2Proof.Machine

/-! ### Places of detections (R468) -/

/-- An island's cycle counter (R20). -/
def islandCycles (s : State) (i : Nat) : BitVec 64 := tget 0 i s.grid.cycles

/-- The tile that a WHERE names: row in [5:0], column in [13:8]. -/
def locTile (loc : Nat) : Nat := 40 * bits loc 0 6 + bits loc 8 6

/-- The detectors whose events are fatal; CLOCK is fatal in islands 0x10 to 0x13 (R468). -/
def fatalDetector (det island : Nat) : Bool :=
  decide (0x0F ≤ det ∧ det ≤ 0x13) || (det == 0x0E && decide (0x10 ≤ island ∧ island ≤ 0x13))

/-! ### Injection (R479, R480) -/

/-- The armed slot that matches a check (R479). -/
def injSlot (s : State) (det island loc : Nat) : Option Nat :=
  if s.faults.test then
    (s.faults.inj.find? fun (e : Nat × InjSlot) => e.2.arm && e.2.detector.toNat == det && e.2.island.toNat == island && e.2.loc.toNat == loc).map (·.1)
  else none

/-- PATTERN of a slot. -/
def injPattern (s : State) (k : Nat) : Nat := (tget ({} : InjSlot) k s.faults.inj).pattern.toNat

/-- A slot fires: FIRED counts, and without REPEAT it disarms (R479, R480). -/
def injFire (k : Nat) (s : State) : State :=
  let g := fun (x : InjSlot) => { x with fired := satAdd x.fired 1, arm := x.rep }
  { s with faults := { s.faults with inj := tmod {} k g s.faults.inj } }

/-- The slot that a real detection meets fires, and the real outcome stands (R481). -/
def injMeet (det island loc : Nat) (s : State) : State := match injSlot s det island loc with
  | some k => injFire k s
  | none => s

/-- Ones of a number's low n bits. -/
def weight (n x : Nat) : Nat := ((List.range n).filter fun i => bitAt x i).length

/-- Disarm the slots that satisfy a test and return them to their reset values (R456). -/
def injReset (p : InjSlot → Bool) (s : State) : State :=
  { s with faults := { s.faults with inj := s.faults.inj.filter fun (e : Nat × InjSlot) => !p e.2 } }

/-! ### Fences (R469, R470) -/

/-- Put a number into a rising list once. -/
def insertOnce (x : Nat) (l : List Nat) : List Nat := if l.contains x then l else insertN x l

/-- A section ends under a fence: FENCED_UNIT, and a PARK that was draining it likewise (R116, R123). -/
def fenceEnds (f id : Nat) (s : State) : State :=
  let s := match (secAt s f id).bind parkOf with
    | some a => modSec f id (fun x => { x with why := none }) (finish a .fencedUnit 0 0 s)
    | none => s
  startAbort f id (statusCode .fencedUnit) s

/-- In-place and scan records of a field lose their validity (R123). -/
def spoilRecords (f : Nat) (s : State) : State :=
  { s with fld := { s.fld with parks := mapIf (fun p => p.field == f && p.form != 1) (fun p => { p with valid := false }) s.fld.parks } }

/-- Sections of a field whose skein uses a tile of the field. -/
def sectionsUsing (fl : Field) (r c : Nat) : List Nat :=
  ((sectionsOf fl).filter fun x => match secSkein fl x with
    | some i => (unitIn i r c).isSome
    | none => false).map (·.id)

/-- A fence of a unit, stack, channel, lane, link or band, or a quarantine, takes hold: a recorded event, unless the part is fenced already
(R12, R13, R21, R481; log 146). -/
def noteFence (already : Bool) (loc : Nat) (s : State) : State := if already then s else recordEvent 1 (BitVec.ofNat 64 loc) s

/-- A unit fence takes hold (R116, R123, R469). -/
def fenceUnit (t : Nat) (s : State) : State :=
  if s.faults.fencedUnits.contains t then s
  else
    let isl := tileIsland s t
    let s := noteFence false (tileLoc t) { s with faults := { s.faults with fencedUnits := insertOnce t s.faults.fencedUnits } }
    let s := injReset (fun x => x.island.toNat == isl && decide (bits x.loc.toNat 0 14 = tileLoc t)) s
    match fieldOfTile s t with
    | none => s
    | some (f, fl, r, c) => (sectionsUsing fl r c).foldl (fun s id => fenceEnds f id s) (spoilRecords f s)

/-- A section fence takes hold; it lifts when the section has ended (R135, R193, R469). -/
def fenceSection (f id island loc : Nat) (s : State) : State :=
  fenceEnds f id { s with faults := { s.faults with sectionFences := s.faults.sectionFences ++ [(f, id, island, loc)] } }

/-- A note that the fence of a part of the module is lifted (R468, R471; log 146). -/
def noteLift (island loc : Nat) (scope : BitVec 8) (s : State) : State :=
  logDetection (BitVec.ofNat 8 island) 0x21 3 false scope (islandCycles s island) (BitVec.ofNat 64 loc) 0 s

/-- Section fences whose section has ended lift (R135, R469); a section is no part of the module, so no FENCE_LIFT entry tells of it (log 146). -/
def liftFences (s : State) : State :=
  { s with faults := { s.faults with sectionFences := s.faults.sectionFences.filter fun (e : Nat × Nat × Nat × Nat) => (secAt s e.1 e.2.1).isSome } }

/-- A band fence takes hold: every section of its field ends with FENCED_UNIT (R469). -/
def fenceBand (b : Nat) (s : State) : State :=
  let s := noteFence (s.faults.fencedBands.getLsbD b) b { s with faults := { s.faults with fencedBands := setBit s.faults.fencedBands b true } }
  match fieldOfBand s b with
  | none => s
  | some f => match fieldAt s f with
    | none => s
    | some fl => (sectionsOf fl).foldl (fun s x => fenceEnds f x.id s) (spoilRecords f s)

/-- A stack is fenced (R469). -/
def fenceStack (k : Nat) (s : State) : State :=
  noteFence (s.faults.fencedStacks.getLsbD k) (0x30 + k) { s with faults := { s.faults with fencedStacks := setBit s.faults.fencedStacks k true } }

/-- A channel is fenced (R469). -/
def fenceChannel (k : Nat) (s : State) : State :=
  noteFence (s.faults.fencedChannels.getLsbD k) (0x40 + k) { s with faults := { s.faults with fencedChannels := setBit s.faults.fencedChannels k true } }

/-- A frame of a stack or channel is retired with a pending repair record (R199, R489, R490, R491). -/
def retireFrame (tier2 : Bool) (k line : Nat) (s : State) : State :=
  let e := (if tier2 then 2 else 1, k, line / Config.frame)
  if s.mem.retired.contains e then s
  else
    let s := { s with mem := { s.mem with retired := s.mem.retired ++ [e] } }
    if s.store.repairs.length < Config.maxRepairs then
      { s with store := { s.store with repairs := s.store.repairs ++ [{ kind := if tier2 then 2 else 0, state := 0, place := k, sub := (Config.lineSub tier2 line).toNat, line }] } }
    else s

/-! ### Detections -/

/-- SCOPE code of a class-1 detection (R468, R472). -/
def scopeOf (det island : Nat) : BitVec 8 :=
  if det = 0x01 ∨ det = 0x05 ∨ det = 0x06 then 2
  else if det = 0x02 ∨ det = 0x03 then 3
  else if det = 0x04 then (if island < 0x10 then 2 else 10)
  else if det = 0x07 ∨ det = 0x09 then 1
  else if det = 0x08 then (if island = 0x10 then 10 else 1)
  else if det = 0x0A then (if island = 0x10 then 10 else 9)
  else if det = 0x0B then 7
  else if det = 0x0D then (if island < 0x40 then 4 else 5)
  else if det = 0x0E then (if island < 0x10 then 8 else if island < 0x20 then 7 else if island < 0x40 then 4 else 5)
  else if 0x0F ≤ det ∧ det ≤ 0x13 then 11
  else 0

/-- Write the entry of a class-1 detection of a scope (R471, R472). -/
def logScoped (scope : BitVec 8) (det island loc : Nat) (injected : Bool) (st : BitVec 16) (s : State) : State :=
  logDetection (BitVec.ofNat 8 island) (BitVec.ofNat 8 det) 1 injected scope (islandCycles s island) (BitVec.ofNat 64 loc) st s

/-- Write the entry of a class-1 detection (R471, R472). -/
def logClass1 (det island loc : Nat) (injected : Bool) (st : BitVec 16) (s : State) : State := logScoped (scopeOf det island) det island loc injected st s

/-- Write the entry of a corrected detection (R200, R473). -/
def logCorrected (det island loc : Nat) (injected : Bool) (s : State) : State :=
  logDetection (BitVec.ofNat 8 island) (BitVec.ofNat 8 det) 0 injected 0 (islandCycles s island) (BitVec.ofNat 64 loc) 0 s

/-- A unit raises a class-1 detection: its unit, or the section active in it, is fenced (R468 to R470). -/
def unitDetection (t det extra : Nat) (injected : Bool) (s : State) : State :=
  let isl := tileIsland s t
  let loc := tileLoc t + extra
  let s := logClass1 det isl loc injected (statusCode .fencedUnit) s
  if scopeOf det isl = 2 then
    let s := if injected then s else { s with faults := { s.faults with unitEvents := s.faults.unitEvents ++ [(t, s.tick)] } }
    fenceUnit t s
  else match unitSection s t with
    | some (f, x) => fenceSection f x.id isl loc s
    | none => s

/-- The detections that units have raised in this command reach the fault manager. -/
def drainReports (s : State) : State :=
  s.grid.reports.foldl (fun s (e : Nat × Nat × Nat) => unitDetection e.1 e.2.1 e.2.2 false s) { s with grid := { s.grid with reports := [] } }

/-- A translation fault or an uncorrectable line that fails one descriptor only: its entry carries ISLAND 0x10 (R193, R468). -/
def dmaFault (a : Nat) (s : State) : State :=
  logClass1 0x08 0x10 (63 + 256 * 63 + 65536 * (a / 4096)) false (statusCode .fencedUnit) s

/-- The slot armed for the line of a cell, with its detector and island; a line's address is that of its first byte (R468, R479; log 145). -/
def lineSlot (s : State) (c : CellAt) : Option (Nat × Nat × Nat) :=
  let span := if c.1 then channelSpan else Config.stackBytes
  let det := if c.1 then 0x03 else 0x02
  let isl := (if c.1 then 0x40 else 0x30) + c.2 / span
  (injSlot s det isl (c.2 % span / 64 * 64)).map fun k => (k, det, isl)

/-- The repair-map index of the subchannel that holds a DDR5 line: 2k + s (R491). -/
def subchannel (k line : Nat) : Nat := 2 * k + (Config.lineSub true line).toNat % 2

/-- The device that is marked in the subchannel of a tier-2 cell; 15 for none (R198, R491). -/
def markedDevice (s : State) (c : CellAt) : Nat :=
  if c.1 then tget 15 (subchannel (c.2 / channelSpan) (c.2 % channelSpan / 64 * 64)) s.store.devMark else 15

/-- Code bytes that a line code corrects: 4, or 8 of DDR5, where a marked device, whose own bytes are erasures, leaves 4 (R196 to R198). -/
def lineLimit (s : State) (c : CellAt) : Nat := if c.1 && markedDevice s c == 15 then 8 else 4

/-- Code bytes in error of a PATTERN, less those of a marked device, which are decoded as erasures (R198, R479). -/
def lineErrors (s : State) (c : CellAt) (pattern : Nat) : Nat :=
  ((List.range 16).filter fun j => bitAt pattern j && !(c.1 && (Config.codeDevice j).val == markedDevice s c)).length

/-- Injection into the read of a line: a pattern within the code's limit is corrected and recorded, a heavier one fails the read and retires no
frame (R479); on a line that is lost the real outcome stands (R481). st is the status of the affected work (R472). False where the pattern failed the
read. -/
def injectLine (st : BitVec 16) (c : CellAt) (s : State) : Bool × State :=
  match lineSlot s c with
  | none => (true, s)
  | some (k, det, isl) =>
    if cellLost s c then (true, injFire k s) else
    let loc := c.2 % (if c.1 then channelSpan else Config.stackBytes) / 64 * 64
    let w := weight 16 (injPattern s k)
    let small := decide (lineErrors s c (injPattern s k) ≤ lineLimit s c)
    let s := injFire k s
    if w = 0 then (true, s) else if small then (true, logCorrected det isl loc true s) else (false, logClass1 det isl loc true st s)

/-- Injection into the reads of lines, in order. False where a read failed. -/
def injectLines (st : BitVec 16) : List CellAt → State → Bool × State
  | [], s => (true, s)
  | c :: l, s =>
    let (ok, s) := injectLine st c s
    let (rest, s) := injectLines st l s
    (ok && rest, s)

/-- The distinct lines of cells, in order. -/
def linesOf (l : List CellAt) : List CellAt := (l.map fun c => (c.1, c.2 / 64 * 64)).eraseDups

/-- The reads of the lines of some cells meet the injection slots, while test mode is on (R479). -/
def meetLines (st : BitVec 16) (l : List CellAt) (s : State) : Bool × State :=
  if s.faults.test then injectLines st (linesOf l) s else (true, s)

/-- The lines of a range of a field. -/
def dvaLines (s : State) (f a n : Nat) : List CellAt :=
  if n = 0 then [] else ((List.range ((a + n - 1) / 64 - a / 64 + 1)).filterMap fun i => (dvaCell s f (a / 64 * 64 + 64 * i)).map (·.1))

/-- The lines of a range of the window. -/
def windowLines (s : State) (a n : Nat) : List CellAt :=
  if n = 0 then [] else ((List.range ((a + n - 1) / 64 - a / 64 + 1)).filterMap fun i => windowCell s (a / 64 * 64 + 64 * i))

/-- The stack or channel of a cell is fenced (R204). -/
def cellFenced (s : State) (c : CellAt) : Bool :=
  if c.1 then s.faults.fencedChannels.getLsbD (c.2 / channelSpan) else s.faults.fencedStacks.getLsbD (c.2 / Config.stackBytes)

/-- The event of a read that meets a lost line: as at the line's first failure (R199); none for a chunk of a fenced stack or channel, which no code
decodes (R204; log 147). -/
def lostEntry (c : CellAt) (s : State) : State :=
  if cellFenced s c then s
  else
    let span := if c.1 then channelSpan else Config.stackBytes
    logClass1 (if c.1 then 0x03 else 0x02) ((if c.1 then 0x40 else 0x30) + c.2 / span) (c.2 % span / 64 * 64) false (statusCode .fencedUnit) s

/-- The event of the first lost line among cells that some work reads (R199). -/
def noteLost (l : List CellAt) (s : State) : State := match l.find? (cellLost s) with
  | some c => lostEntry c s
  | none => s

/-- A failed access of the hub DMA to a place: a translation fault, or a lost line (R193, R199, R204). -/
def accessFault (f a : Nat) (s : State) : State :=
  match dvaCell s f a with
  | none => dmaFault a s
  | some (c, _) => if cellLost s c then lostEntry c s else dmaFault a s

/-- A failed access of the hub DMA to the window: a lost line (R199, R204). -/
def windowFault (a : Nat) (s : State) : State := match windowCell s a with
  | some c => lostEntry c s
  | none => s

/-- A failed access of a COPY to one of its places. -/
def placeFault (pl f a : Nat) (s : State) : State := if pl = 1 then accessFault f a s else if pl = 2 then windowFault a s else s

/-- The first place of a range that the hub DMA cannot read: unmapped, or lost (R193, R199, R204). -/
def hubLost (s : State) (pl f a n : Nat) : Option Nat :=
  let places := if n = 0 then [] else (List.range ((a + n - 1) / 4096 - a / 4096 + 1)).map fun i => if i = 0 then a else a / 4096 * 4096 + 4096 * i
  if pl = 1 then places.find? fun x => match dvaCell s f x with | some (c, _) => cellLost s c | none => true
  else if pl = 2 then places.find? fun x => match windowCell s x with | some c => cellLost s c | none => false
  else none

/-- The hub DMA reads an image or a manifest: false, with the entry, where the range cannot be read or an injection fails it (R193, R199, R479). -/
def hubRead (pl f a n : Nat) (s : State) : Bool × State := match hubLost s pl f a n with
  | some x => (false, placeFault pl f x s)
  | none => meetLines (statusCode .fencedUnit)
      (if !s.faults.test then [] else if pl = 1 then dvaLines s f a n else if pl = 2 then windowLines s a n else []) s

/-- The bytes of an image or a manifest from its first on: device memory and the window as they stand, host memory as the command found it (R104,
R209, R330). -/
def sourceByte (s : State) (pl f a : Nat) (host : ReadBytes) (i : Nat) : Byte :=
  if pl = 1 then match dvaCell s f (a + i) with
    | some (c, _) => (undefAt s f (a + i)).getD (cellRead s c)
    | none => 0
  else if pl = 2 then match windowCell s (a + i) with
    | some c => cellRead s c
    | none => 0
  else mread host i

/-! ### FLD.SERVICE (R493) -/

/-- REPLACE: a band is fenced (R487, R493). -/
def replaceFlag (s : State) : Bool := s.faults.fencedBands != 0

/-- DEGRADED: a band below profile 40 or fenced, a stack or channel fenced, a spare lane in use, or a device marked (R493). -/
def degradedFlag (s : State) : Bool :=
  replaceFlag s || (List.range 4).any (fun b => decide (bandProfile (bandPairs s b) < 40)) || s.faults.fencedStacks != 0 || s.faults.fencedChannels != 0
    || s.fab.links.any (fun (e : Nat × Link) => e.2.spared != 31) || s.store.devMark.any fun (e : Nat × Nat) => e.2 != 15

/-- POWER_EVENT SERVICE when DEGRADED or REPLACE has become 1 (R493). -/
def noteService (before s : State) : State :=
  if (degradedFlag s && !degradedFlag before) || (replaceFlag s && !replaceFlag before) then powerEvent 9 s else s

/-! ### The fatal sequence (R474, R475) -/

/-- The detector lets requests be parked (R475). -/
def fatalParks (det island loc : Nat) : Bool :=
  !(det == 0x0F || det == 0x11 || det == 0x12 || det == 0x13 || (det == 0x10 && loc % 2 == 0) ||
    (det == 0x0E && (island == 0x10 || island == 0x12 || island == 0x13)))

/-- The ring, oldest entry first. -/
def ringOldest (s : State) : List HistEntry :=
  (List.range Config.historyDepth).filterMap fun i => tfind ((s.faults.next + i) % Config.historyDepth) s.faults.ring

/-- Park every field in place; each park is a recorded event (R21, R119, R409 step 3, R474 step 3). -/
def parkFields (s : State) : State :=
  s.fld.fields.foldl (fun s (e : Nat × Field) =>
    let s := if s.gov.parked.getLsbD e.1 then s else recordEvent 3 (BitVec.ofNat 64 e.1) s
    match e.2.seq.find? fun x => x.phase == .dispatched && activeIn s e.2 x.id with
    | some x => startDrain e.1 x.id .governor false s
    | none => s) s

/-- Requests that the firmware takes to be parked (R475): they become PARKED from their last commit. -/
def parkRequests (s : State) : State :=
  { s with serv := { s.serv with reqs := s.serv.reqs.map fun (e : Nat × Request) =>
      (e.1, if openState e.2.state then { e.2 with before := e.2.state, state := .parked, park := some (.fatal, none), parkDesc := none } else e.2) } }

/-- A fatal detection (R474, R475): the entry; and, where none is latched yet, the latch, the snapshot, the messages and the stop. -/
def fatalStart (det island loc : Nat) (injected rails : Bool) (s : State) : State :=
  let first := !s.faults.fatal
  let snap := s.faults.nextSeq
  let s := { s with faults := { s.faults with fatal := true, fatalRails := s.faults.fatalRails || rails }, entry := { s.entry with alive := false } }
  let s := logDetection (BitVec.ofNat 8 island) (BitVec.ofNat 8 det) 2 injected 11 (islandCycles s island) (BitVec.ofNat 64 loc) (statusCode .deviceFatal) s
  if !first then s
  else
    let s := if s.faults.fatalCopied then s
      else { s with faults := { s.faults with fatalCopied := true }, store := { s.store with lastFatal := some (snap, ringOldest s) } }
    let s := powerEvent 8 s
    let s := if linkUp s then raiseVector 1027 s else s
    let may := fatalParks det island loc
    let s := parkFields s
    let s := { s with faults := { s.faults with fatalPhase := .stopped, fatalMayPark := may } }
    if may && s.faults.fatalParkMs != 0 && s.boot.stage == .ready then parkRequests s else s

end Sys2Proof.Machine
end

