-- ==== Sys2Proof/Machine/Channels.lean ====
section
/-!
DEFINITION. The channels of the moon window (09): their places, their header lines and their result areas.
-/

namespace Sys2Proof.Machine

/-- The key of a channel: 64 × stack + channel (R210). -/
def chanKey (k c : Nat) : Nat := 64 * k + c

/-- The first DVA of a channel (R210). -/
def chanDva (k c : Nat) : Nat := Config.moonDva + k * 0x2000000 + c * 0x80000

/-- The tier-1 key of byte off of a channel (R210; log 13). -/
def chanKeyByte (s : State) (k c off : Nat) : Nat := k * Config.stackBytes + stackShare s + c * 0x80000 + off

/-- Stack, channel and offset of a DVA of the moon window. -/
def chanOf (a : Nat) : Option (Nat × Nat × Nat) :=
  if a < Config.moonDva then none
  else some ((a - Config.moonDva) / 0x2000000, (a - Config.moonDva) % 0x2000000 / 0x80000, (a - Config.moonDva) % 0x80000)

/-- The channel has a call that has not completed: its header is written, or it runs (R212, R213). -/
def callPending (s : State) (k c : Nat) : Bool :=
  s.moons.headers.any (fun h => h.lead == k && h.channel == c) || s.moons.calls.any fun x => x.lead == k && x.channel == c

/-- Channels whose header line a write of [a, a + n) reaches (R212). -/
def headersHit (a n : Nat) : List (Nat × Nat) :=
  if n = 0 ∨ a + n ≤ Config.moonDva then []
  else
    let lo := (a - Config.moonDva) / 0x80000
    let hi := (a + n - 1 - Config.moonDva) / 0x80000
    ((List.range (hi - lo + 1)).map fun i => ((lo + i) / 64, (lo + i) % 64)).filter fun (e : Nat × Nat) => overlaps a n (chanDva e.1 e.2) 64

/-- The stack of a channel serves the field's moon window. -/
def inWindow (s : State) (f a : Nat) : Bool := match fieldAt s f with
  | some fl => (moonCell s fl a).isSome
  | none => false

/-- A write must wait at a header line whose channel has a call that has not completed (R212). -/
def headerHeld (s : State) (f a n : Nat) : Bool :=
  (headersHit a n).any fun (e : Nat × Nat) => inWindow s f (chanDva e.1 e.2) && callPending s e.1 e.2

/-- The moon's call queue is empty, so that it may run a service step (R224). -/
def moonFree (s : State) (k : Nat) : Bool := (tget [] k s.moons.queues).isEmpty

/-- Bytes of a channel. -/
def chanBytes (s : State) (k c off n : Nat) : List Byte := mreads s.mem.tier1 (chanKeyByte s k c off) n

/-- Argument area and result area of a channel (R210). -/
def argArea : Nat := 0x20000 - 0x40
def resArea : Nat := 0x80000 - 0x20000

/-- Header lines that a write of a section, or of a COPY, has reached: the lead reads the line and its arguments as they stand, and the call may fire
(R212). -/
def noteHeaders (f a n : Nat) (sec : Option Nat) (s : State) : State :=
  (headersHit a n).foldl (fun s (e : Nat × Nat) =>
    if inWindow s f (chanDva e.1 e.2) && !callPending s e.1 e.2 then
      let args := natAt (chanBytes s e.1 e.2 4 4) 0 4
      let h : MoonHeader := { lead := e.1, channel := e.2, field := f, sec, bytes := chanBytes s e.1 e.2 0 (64 + min args argArea) }
      { s with moons := { s.moons with headers := s.moons.headers ++ [h] } }
    else s) s

/-- The result area that a read reaches: the key of its channel (R210, R213). -/
def resultArea (s : State) (f a : Nat) : Option Nat :=
  match chanOf a with
  | some (k, c, off) => if inWindow s f a && decide (0x20000 ≤ off) then some (chanKey k c) else none
  | none => none

end Sys2Proof.Machine
end

