-- ==== Sys2Proof/Machine/Images.lean ====
section
/-!
DEFINITION. The byte layouts of what the module reads of memory: skein images (R96 to R103, R154 to R162), moon programs (R208, R216, R223),
manifests (R325, R326), firmware bundles (R437, R438), comets (R307, R308, R311) and test tokens (R478). Every parser is total; what a field's value may be is checked later.
Reserved bytes and bits are not read (R6). Digests are computed from the bytes; whether a signature of R97 verifies is an operand (log 127).
-/

namespace Sys2Proof.Machine

/-! ### Bytes by offset -/

/-- The number in n little-endian bytes from an offset (R5). -/
def rdN (rd : Nat → Byte) (off n : Nat) : Nat := leNat ((List.range n).map fun i => rd (off + i))

/-- The bytes of a host read. -/
def hostBytes (m : ReadBytes) (i : Nat) : Byte := mread m i

/-- n bytes from an offset. -/
def rdBytes (rd : Nat → Byte) (off n : Nat) : List Byte := (List.range n).map fun i => rd (off + i)

/-- SHA-384 of n bytes from an offset. -/
def rdDigest (rd : Nat → Byte) (off n : Nat) : Digest := sha384 (rdBytes rd off n)

/-- The signature block at an offset, over the first n bytes (R97). -/
def parseSigned (rd : Nat → Byte) (off n : Nat) : SignedBlock :=
  { ed := rdBytes rd off 64, ml := rdBytes rd (off + 64) 3309, pad := rdBytes rd (off + 3373) 19, covers := rdBytes rd 0 n }

/-- The SIGNER_ID or OWNER_ID of a key block: the first 8 bytes of its SHA-384 (R325, R438). -/
def keyId (block : List Byte) : BitVec 64 := BitVec.ofNat 64 (bits (sha384 block).toNat 0 64)

/-! ### Context words (R98): fields in the order of their tables from bit 0; one that would cross a 32-bit word starts at the next word -/

/-- Where a field of w bits starts, at or after bit p. -/
def fieldPos (p w : Nat) : Nat := if p % 32 = 0 ∨ p % 32 + w ≤ 32 then p else roundUp p 32

/-- w bits of a context from bit p on. -/
def ctxBits (rd : Nat → Byte) (p w : Nat) : Nat := bits (rdN rd (p / 8) (ceilDiv (p % 8 + w) 8)) (p % 8) w

/-- Fields of the given widths from bit p on, and the bit after the last. -/
def ctxFields (rd : Nat → Byte) : List Nat → Nat → List Nat × Nat
  | [], p => ([], p)
  | w :: ws, p =>
    let q := fieldPos p w
    let r := ctxFields rd ws (q + w)
    (ctxBits rd q w :: r.1, r.2)

/-- Context words past CTX_BYTES read as 0 (log 158). -/
def ctxByte (rd : Nat → Byte) (off n i : Nat) : Byte := if i < n then rd (off + i) else 0

/-- The control-port fields of a context (R92); DONE_SRC and DONE_DIM of an MU only. -/
def parseCtl (rd : Nat → Byte) (mu : Bool) (p : Nat) : CtlCfg × Nat :=
  let (l, e) := ctxFields rd ([1] ++ List.replicate 4 3 ++ List.replicate 4 6 ++ if mu then List.replicate 4 5 ++ List.replicate 4 2 else []) p
  ({ startWait := l.getD 0 0 == 1, selSi := (l.drop 1).take 4, fence := ((l.drop 5).take 4).map (BitVec.ofNat 6)
     doneSrc := if mu then (l.drop 9).take 4 else [0, 0, 0, 0], doneDim := if mu then (l.drop 13).take 4 else [0, 0, 0, 0] }, e)

/-- A stream context (R66). -/
def parseStream (rd : Nat → Byte) (p : Nat) : StreamCfg × Nat :=
  let (l, e) := ctxFields rd [4, 2, 3, 20, 52, 3, 24, 24, 24, 3, 32, 32, 32, 5, 24, 3, 3, 1, 12, 20] p
  let f := fun k => l.getD k 0
  ({ kind := f 0, gen := f 1, port := f 2, sramBase := f 3, tierBase := f 4, elem := f 5, ext0 := f 6, ext1 := f 7, ext2 := f 8, extSrc := f 9
     stride0 := signed 32 (f 10), stride1 := signed 32 (f 11), stride2 := signed 32 (f 12), indexSrc := f 13, indexLimit := f 14, reqBytes := f 15
     maxOut := f 16, accFmt := f 17 == 1, anchor := signed 12 (f 18), ringBytes := f 19 }, e)

/-- The stream contexts from bit p on. -/
def parseStreams (rd : Nat → Byte) : Nat → Nat → List StreamCfg × Nat
  | 0, p => ([], p)
  | n + 1, p =>
    let x := parseStream rd p
    let r := parseStreams rd n x.2
    (x.1 :: r.1, r.2)

/-- The rest of a CU context: stage words, drain chain, matrix configuration, lane permutations (R131, R137, R140; log 158). -/
def parseCu (rd : Nat → Byte) (p : Nat) : CuCfg :=
  let (l, _) := ctxFields rd (List.replicate 6 64 ++ [128, 4, 10, 8, 6, 4] ++ List.replicate 16 32 ++ List.replicate 128 5) p
  let f := fun k => l.getD k 0
  { stages := (l.take 6).map (BitVec.ofNat 64), drain := BitVec.ofNat 128 (f 6), mfmt := f 7, matLsb := signed 10 (f 8), window := f 9
    spread := f 10, slices := f 11, consts := ((l.drop 12).take 16).map (BitVec.ofNat 32)
    perms := (List.range 4).map fun k => ((l.drop (28 + 32 * k)).take 32) }

/-- A context that an idle unit does not hold. -/
def noCu : CuCfg := { stages := [], perms := [], drain := 0, mfmt := 0, matLsb := 0, window := 0, spread := 0, slices := 0, consts := [] }

/-- A counter record (R99). -/
def parseCounter (rd : Nat → Byte) (off : Nat) : CounterCfg :=
  let x := rdN rd off 16
  { enable := bitAt x 0, start := bits x 1 24, startSrc := bits x 25 3, bound := bits x 28 24, boundSrc := bits x 52 3, stride := signed 24 (bits x 55 24)
    adv := bits x 79 2, advIn := bits x 81 2, doneOut := BitVec.ofNat 4 (bits x 83 4), maxIter := bits x 87 24 }

/-- An entry of the unit context table with its context (R98). -/
def parseUnit (rd : Nat → Byte) (ctrOff off : Nat) : UnitCfg :=
  let kind := (rd (off + 2)).toNat
  let ctxOff := rdN rd (off + 4) 4
  let ctxBytes := rdN rd (off + 8) 2
  let ctr := rdN rd (off + 10) 2
  let rc := ctxByte rd ctxOff ctxBytes
  let base : UnitCfg :=
    { row := bits (rd off).toNat 0 6, col := bits (rd (off + 1)).toNat 0 6, kind, ctxOff, ctxBytes, ctrIndex := ctr
      words := if kind = 0 then [] else rdBytes rd ctxOff ctxBytes, ctl := (parseCtl (fun _ => 0) false 0).1
      counters := [], cu := noCu, streams := [], accBanks := 0 }
  if kind = 1 then
    let (ctl, p) := parseCtl rc false 0
    { base with ctl, cu := parseCu rc p, counters := (List.range 6).map fun k => parseCounter rd (ctrOff + 16 * (ctr + k)) }
  else if kind = 2 then
    let (streams, p) := parseStreams rc 16 0
    let (ctl, p) := parseCtl rc true p
    { base with ctl, streams, accBanks := ((ctxFields rc [4] p).1).getD 0 0 }
  else base

/-! ### The thread table (R100) -/

/-- The direction of a code. -/
def dirOf : Nat → Dir
  | 0 => .n | 1 => .e | 2 => .s | _ => .w

/-- Branches from an offset on. -/
def parseBranches (rd : Nat → Byte) : Nat → Nat → List Branch
  | 0, _ => []
  | n + 1, off =>
    let hops := (rd (off + 2)).toNat
    { parent := (rd off).toNat, forkHop := (rd (off + 1)).toNat
      hops := (List.range hops).map fun k => dirOf (bits (rd (off + 4 + k / 4)).toNat (2 * (k % 4)) 2) }
      :: parseBranches rd n (off + 4 + ceilDiv hops 4)

/-- A thread table entry. -/
def parseThread (rd : Nat → Byte) (off : Nat) : ThreadCfg :=
  let n := bits (rd (off + 5)).toNat 0 5
  let x := (rd (off + 6)).toNat
  { lane := bits (rd off).toNat 0 2, srcRow := bits (rd (off + 1)).toNat 0 6, srcCol := bits (rd (off + 2)).toNat 0 6
    srcPort := bits (rd (off + 3)).toNat 0 4, pred := bits (rd (off + 3)).toNat 4 2, slots := rd (off + 4), ndest := n, ncross := x
    entryBytes := rdN rd (off + 8) 2
    dests := (List.range n).map fun k => let w := rdN rd (off + 16 + 2 * k) 2; { row := bits w 10 6, col := bits w 4 6, port := bits w 0 4 }
    xslots := (List.range x).map fun k => rd (off + 16 + 2 * n + k)
    branches := parseBranches rd n (off + 16 + 2 * n + x) }

/-- Entries of the thread table up to its end, and whether the last ends exactly there; fuel bounds their number. -/
def parseThreads (rd : Nat → Byte) : Nat → Nat → Nat → List ThreadCfg × Bool
  | 0, off, stop => ([], off == stop)
  | n + 1, off, stop =>
    if stop ≤ off then ([], off == stop)
    else
      let t := parseThread rd off
      if t.entryBytes = 0 then ([t], false)
      else
        let r := parseThreads rd n (off + t.entryBytes) stop
        (t :: r.1, r.2)

/-! ### Loader metadata (R102, R154 to R162) -/

/-- n entries of z bytes from an offset on. -/
def entriesAt {α : Type} (off z n : Nat) (f : Nat → α) : List α := (List.range n).map fun k => f (off + z * k)

/-- The entries of a record by its type; those of CYCLE_BOUND start at byte 16, all others at byte 8. -/
def parseBody (rd : Nat → Byte) (type off n : Nat) : MetaBody :=
  let b := fun o => (rd o).toNat
  match type with
  | 1 => .maxShapes (entriesAt (off + 8) 16 n fun o =>
      { src := b o, scalar := bits (b (o + 1)) 0 4, row := b (o + 2), col := b (o + 3), so := bits (b (o + 4)) 0 1, max := bits (rdN rd (o + 8) 4) 0 24 })
  | 2 => .bufferExtents (entriesAt (off + 8) 24 n fun o =>
      { base := rdN rd o 8, bytes := rdN rd (o + 8) 8, row := b (o + 16), col := b (o + 17), ctx := bits (b (o + 18)) 0 4
        gated := bitAt (b (o + 19)) 0, expert := rdN rd (o + 20) 2 })
  | 3 => .pathBalance (entriesAt (off + 8) 8 n fun o =>
      { forkRow := b o, forkCol := b (o + 1), forkPort := bits (b (o + 2)) 0 4, joinRow := b (o + 4), joinCol := b (o + 5)
        inA := bits (b (o + 6)) 0 4, inB := bits (b (o + 7)) 0 4 })
  | 4 => .accumTiles (entriesAt (off + 8) 8 n fun o => { row := b o, col := b (o + 1), ctx := bits (b (o + 2)) 0 4, nNeed := rdN rd (o + 4) 4 })
  | 5 => .cycleBound (rdN rd (off + 8) 8) (entriesAt (off + 16) 8 n fun o => { row := b o, col := b (o + 1), gTier := rdN rd (o + 2) 2 })
  | 6 => .handoff (entriesAt (off + 8) 24 n fun o =>
      { base := rdN rd o 8, bytes := rdN rd (o + 8) 8, dir := b (o + 16), row := b (o + 17), col := b (o + 18) })
  | 7 => .spillArea (entriesAt (off + 8) 24 n fun o =>
      { base := rdN rd o 8, bytes := rdN rd (o + 8) 8, row := b (o + 16), col := b (o + 17), ctx := bits (b (o + 18)) 0 4, gSpill := b (o + 19) })
  | 8 => .sramClaims (entriesAt (off + 8) 16 n fun o =>
      { row := b o, col := b (o + 1), kind := b (o + 2), base := rdN rd (o + 4) 4, bytes := rdN rd (o + 8) 4 })
  | 9 => .capacity (entriesAt (off + 8) 16 n fun o => { base := rdN rd o 8, e := rdN rd (o + 8) 2 })
  | t => .unknown t

/-- Records of the metadata table; a record whose BYTES cannot lead to a next one is the last read. -/
def parseRecs (rd : Nat → Byte) : Nat → Nat → Nat → List MetaRec
  | 0, _, _ => []
  | n + 1, off, stop =>
    if stop ≤ off then []
    else
      let z := rdN rd (off + 2) 2
      let c := rdN rd (off + 4) 2
      let r : MetaRec := { bytes := z, count := c, body := parseBody rd (rdN rd off 2) off c }
      if z < 8 ∨ z % 8 ≠ 0 then [r] else r :: parseRecs rd n (off + z) stop

/-! ### Preloads and moon references (R101, R103) -/

/-- Preload records, and whether the last ends exactly at the table's end. -/
def parsePreloads (rd : Nat → Byte) : Nat → Nat → Nat → List Preload × Bool
  | 0, off, stop => ([], off == stop)
  | n + 1, off, stop =>
    if stop ≤ off then ([], off == stop)
    else
      let z := rdN rd (off + 8) 4
      let next := off + roundUp (16 + z) 64
      if stop < next then ([], false)
      else
        let p : Preload := { row := (rd off).toNat, col := (rd (off + 1)).toNat, base := rdN rd (off + 4) 4, data := (List.range z).map fun k => rd (off + 16 + k) }
        let r := parsePreloads rd n next stop
        (p :: r.1, r.2)

/-- A moon reference. -/
def parseMoonRef (rd : Nat → Byte) (off : Nat) : MoonRef :=
  { digest := BitVec.ofNat 384 (rdN rd off 48), index := (rd (off + 48)).toNat, mask := BitVec.ofNat 16 (rdN rd (off + 50) 2) }

/-! ### A skein image (R96) -/

/-- The header. -/
def parseSkeinHeader (rd : Nat → Byte) : SkeinHeader :=
  let u := fun (o : Nat) => rdN rd o 4
  { magic := BitVec.ofNat 32 (u 0), format := BitVec.ofNat 16 (rdN rd 4 2), headerBytes := BitVec.ofNat 16 (rdN rd 6 2), member := BitVec.ofNat 16 (rdN rd 8 2)
    bands := (rd 10).toNat, twoLanes := bitAt (rd 11).toNat 0, profile := (List.range 4).map fun k => (rd (12 + k)).toNat
    imageBytes := BitVec.ofNat 32 (u 16), sectionIndex := BitVec.ofNat 32 (u 20), graphId := BitVec.ofNat 64 (rdN rd 24 8)
    unitOff := u 32, unitBytes := u 36, ctrOff := u 40, ctrBytes := u 44, thrOff := u 48, thrBytes := u 52, moonOff := u 56, moonCount := rdN rd 60 2
    metaOff := u 64, metaBytes := u 68, preOff := u 72, preBytes := u 76, sigOff := u 80, signerId := BitVec.ofNat 64 (rdN rd 88 8)
    bodyDigest := BitVec.ofNat 384 (rdN rd 96 48) }

/-- The image that bytes spell (R96 to R103). -/
def parseSkein (rd : Nat → Byte) : SkeinImage :=
  let h := parseSkeinHeader rd
  let t := parseThreads rd (h.thrBytes + 1) h.thrOff (h.thrOff + h.thrBytes)
  let p := parsePreloads rd (h.preBytes + 1) h.preOff (h.preOff + h.preBytes)
  { head := (List.range 256).map rd
    hdr := h
    units := entriesAt h.unitOff 16 (h.unitBytes / 16) (parseUnit rd h.ctrOff)
    threads := t.1
    moons := entriesAt h.moonOff 64 h.moonCount (parseMoonRef rd)
    recs := parseRecs rd (h.metaBytes + 1) h.metaOff (h.metaOff + h.metaBytes)
    preloads := p.1
    tablesEnd := t.2 && p.2
    headerHash := rdDigest rd 0 256
    bodyHash := rdDigest rd 256 (h.sigOff - 256) }

/-- The signature block of a skein covers its header (R97). -/
def skeinSigned (rd : Nat → Byte) (i : SkeinImage) : SignedBlock := parseSigned rd i.hdr.sigOff 256

/-! ### A moon program image (R208, R216, R223) -/

/-- The parameter block of a class: ATTEND's and KV_WRITE's, or GATHER's and SCATTER's. -/
def parseParams (rd : Nat → Byte) (cls : Nat) : MoonParams :=
  let b := fun o => (rd (24 + o)).toNat
  if cls ≤ 2 then .attend (b 0) (b 1) (b 2) (b 3) (rdN rd 28 2) (BitVec.ofNat 32 (rdN rd 32 4)) (signed 16 (rdN rd 36 2))
  else .table (BitVec.ofNat 64 (rdN rd 24 8)) (rdN rd 32 4) (b 12)

/-- SIG_OFF of a program of so many code bytes (R208). -/
def moonSigOff (codeBytes : Nat) : Nat := roundUp (256 + codeBytes) 64

/-- The program that bytes spell; its length is the descriptor's. -/
def parseMoon (rd : Nat → Byte) (imageBytes : Nat) : MoonImage :=
  let cls := rdN rd 6 2
  { magic := BitVec.ofNat 32 (rdN rd 0 4), format := BitVec.ofNat 16 (rdN rd 4 2), cls, codeBytes := rdN rd 8 2, imageBytes
    signerId := BitVec.ofNat 64 (rdN rd 16 8), params := parseParams rd cls
    progHash := rdDigest rd 0 (moonSigOff (rdN rd 8 2)) }

/-- The signature block of a program covers bytes 0 to SIG_OFF - 1 (R208). -/
def moonSigned (rd : Nat → Byte) (m : MoonImage) : SignedBlock := parseSigned rd (moonSigOff m.codeBytes) (moonSigOff m.codeBytes)

/-! ### A manifest (R325, R326) -/

/-- A shard entry. -/
def parseShard (rd : Nat → Byte) (off : Nat) : ShardEntry :=
  { bytes := rdN rd off 4, srcPage := rdN rd (off + 4) 4, dva := bits (rdN rd (off + 8) 8) 0 52, digest := BitVec.ofNat 384 (rdN rd (off + 16) 48) }

/-- The manifest that bytes spell; of more shards than a manifest can hold, one too many is read. -/
def parseManifest (rd : Nat → Byte) (sig : SigCheck) : Manifest :=
  let n := rdN rd 8 4
  { magic := BitVec.ofNat 32 (rdN rd 0 4), format := BitVec.ofNat 16 (rdN rd 4 2), headerBytes := BitVec.ofNat 16 (rdN rd 6 2), shardCount := n
    entryBytes := BitVec.ofNat 32 (rdN rd 12 4), modelBytes := rdN rd 16 8, ownerId := BitVec.ofNat 64 (rdN rd 24 8), sigOff := rdN rd 32 4
    entriesDigest := BitVec.ofNat 384 (rdN rd 40 48), shards := entriesAt 256 64 (min n 65537) (parseShard rd)
    entriesHash := rdDigest rd 256 (rdN rd 32 4 - 256), manifestHash := rdDigest rd 0 (rdN rd 32 4), sig }

/-! ### A firmware bundle (R437, R438) -/

/-- A part table entry, with the digest found on the part. -/
def parsePart (rd : Nat → Byte) (off : Nat) : BundlePart :=
  let o := rdN rd (off + 4) 4
  let n := rdN rd (off + 8) 4
  { type := rdN rd off 2, offset := o, bytes := n, digest := BitVec.ofNat 384 (rdN rd (off + 16) 48), found := rdDigest rd o n }

/-- The bundle that bytes spell; of more parts or keys than it can hold, one too many is read. -/
def parseBundle (rd : Nat → Byte) (blockAddr : BitVec 64) (blockBytes : Nat) (r : BundleFound) : Bundle :=
  let partOff := rdN rd 28 4
  let keysOff := rdN rd 36 4
  let nParts := min (rdN rd 24 4) 33
  let nKeys := min (rdN rd 32 4) 17
  { blockAddr, blockBytes, magic := BitVec.ofNat 32 (rdN rd 0 4), format := BitVec.ofNat 16 (rdN rd 4 2)
    headerBytes := BitVec.ofNat 16 (rdN rd 6 2), bundleBytes := rdN rd 8 4, version := rdN rd 12 4, floor := rdN rd 16 4
    steppings := BitVec.ofNat 3 (rd 20).toNat, keySlot := Fin.ofNat 4 (rd 21).toNat, revoke := BitVec.ofNat 4 (rd 22).toNat
    partOff, skeinKeysOff := keysOff, tableDigest := BitVec.ofNat 384 (rdN rd 40 48), sigOff := rdN rd 88 4
    parts := entriesAt partOff 64 nParts (parsePart rd)
    skeinKeys := entriesAt keysOff 2048 nKeys fun o => keyId (rdBytes rd o 2048)
    headerHash := rdDigest rd 0 256, keyHash := r.keyHash
    tableHash := sha384 (rdBytes rd partOff (64 * nParts) ++ rdBytes rd keysOff (2048 * nKeys)), sig := r.sig }

/-! ### A comet (R307, R308, R311) -/

/-- The 64-byte head of a page record (R311). -/
def recordHead (p : CometPage) : List Byte :=
  leBytes 4 p.page ++ leBytes 2 p.column ++ [BitVec.ofNat 8 (b2n p.draft), 0] ++ leBytes 8 (p.blocks.flatten).length ++ leBytes 48 p.digest.toNat

/-- Bytes of an encoded block that lies at the front of a list (R225). -/
def blockLength (b : List Byte) : Nat := match (byteAt b 2).toNat with
  | 0 => 4104
  | 1 => roundUp (132 + natAt b 0 2) 8
  | _ => 8

/-- Cut encoded bytes into blocks; n bounds their number. -/
def cutBlocks : Nat → List Byte → List (List Byte)
  | 0, _ => []
  | _ + 1, [] => []
  | n + 1, b => b.take (blockLength b) :: cutBlocks n (b.drop (blockLength b))

/-- The page records at the front of a list of bytes; n bounds their number (R311). -/
def parseRecords : Nat → List Byte → List CometPage
  | 0, _ => []
  | n + 1, b =>
    let k := natAt b 8 8
    { page := natAt b 0 4, column := natAt b 4 2, draft := bitAt (byteAt b 6).toNat 0, digest := BitVec.ofNat 384 (natAt b 16 48)
      blocks := cutBlocks (k / 8) ((b.drop 64).take k) } :: parseRecords n (b.drop (64 + roundUp k 64))

/-- The header of a comet (R308). -/
def parseCometHeader (b : List Byte) : CometHeader :=
  { state := (byteAt b 8).toNat % 8, awaitKv := bitAt (byteAt b 9).toNat 0, prefillOnly := bitAt (byteAt b 9).toNat 1, promptTokens := natAt b 12 4
    maxNew := natAt b 16 4, tokens := natAt b 20 4, generated := natAt b 24 4, steps := natAt b 28 4, kvDone := natAt b 32 4, pages := natAt b 36 4
    draftPages := natAt b 40 4, rngSeed := BitVec.ofNat 64 (natAt b 48 8), rngCounter := natAt b 56 8, skeinDigest := BitVec.ofNat 384 (natAt b 64 48)
    manifestDigest := BitVec.ofNat 384 (natAt b 112 48), bodyDigest := BitVec.ofNat 384 (natAt b 160 48), bodyBytes := natAt b 208 8
    pageBytes := natAt b 216 4, draftPageBytes := natAt b 220 4, keyId := BitVec.ofNat 64 (natAt b 224 8) }

/-- The comet that bytes spell, with the digest of its body: identity block, token section and page record heads (R307, R308). -/
def parseComet (b : List Byte) : Comet :=
  let h := parseCometHeader b
  let toks := 5696
  let recs := parseRecords (h.pages + h.draftPages) (b.drop (toks + roundUp (4 * h.tokens) 64))
  { hdr := h, identity := sha384 ((b.drop 3648).take 2048)
    tokens := (List.range h.tokens).map fun i => BitVec.ofNat 32 (natAt b (toks + 4 * i) 4)
    records := recs
    bodyFound := sha384 ((b.drop 3648).take (2048 + roundUp (4 * h.tokens) 64) ++ recs.flatMap recordHead) }

/-! ### A test token (R478) -/

/-- The token that bytes spell. -/
def parseToken (r : TokenRead) : TestToken :=
  let rd := hostBytes r.bytes
  { tokenBytes := r.tokenBytes, tokenAddr := r.tokenAddr, magic := BitVec.ofNat 32 (rdN rd 0 4), format := BitVec.ofNat 16 (rdN rd 4 2)
    headerBytes := BitVec.ofNat 16 (rdN rd 6 2), keySlot := Fin.ofNat 4 (rd 8).toNat, scope := BitVec.ofNat 3 (rd 9).toNat
    duration := BitVec.ofNat 32 (rdN rd 12 4), identity := BitVec.ofNat 384 (rdN rd 16 48), nonce := BitVec.ofNat 256 (rdN rd 64 32)
    keyHash := r.keyHash, sig := r.sig }

end Sys2Proof.Machine
end

