-- ==== Sys2Proof/Machine/Runs.lean ====
section
/-!
DEFINITION. Meanings of the commands that load and fill slots and that dispatch, end, park and resume sections (05, 07, 10).
-/

namespace Sys2Proof.Machine

/-! ### LOAD_SKEIN (R104 to R107, R165) -/

/-- Wake a sleeping field (R464). -/
def wakeField (f : Nat) (s : State) : State := match fieldAt s f with
  | some fl => if fl.asleep then wakeIslands fl (setField s f { fl with asleep := false }) else s
  | none => s

/-- A part of a range of a field lies in its tier 1 (R464). -/
def rangeNear (s : State) (f a n : Nat) : Bool := match fieldAt s f with
  | none => false
  | some fl => fl.pages.any (fun p => isDva p && p.place == .tier1 && !p.demoted && overlaps a n p.dva p.bytes)
      || (decide (Config.batchDva < a + n) && s.mem.fwReserve != 0)

/-- Something needs a cached image: a slot, a waiting fill or load, a park record, a valid serving configuration (R105). -/
def pinned (s : State) (h : Digest) : Bool :=
  (s.fld.fields.any fun e => e.2.slots.any fun x => (x.2.skein.map (·.headerHash)) == some h)
    || s.fld.fills.any (fun w => w.img.headerHash == h) || s.fld.parks.any (fun p => p.headerHash == h)
    || s.serv.configs.any fun e => e.2.skeins.contains h

/-- The cached image with these header bytes. -/
def cached (s : State) (h : Digest) : Option (Nat × CachedSkein) := s.fld.cache.find? fun e => e.2.img.headerHash == h

/-- The cached image with the same 256 header bytes (R105). -/
def cachedHead (s : State) (i : SkeinImage) : Option SkeinImage := (s.fld.cache.find? fun e => e.2.img.head == i.head).map (·.2.img)

/-- Loads that hold a reservation in the cache: those of images that it does not hold, and of moon programs being copied and checked (R105, R209). -/
def reserved (s : State) : Nat := (s.fld.loads.filter fun l => match l.skein with
  | some i => (cached s i.headerHash).isNone
  | none => l.moon.isSome && !l.checked).length

/-- The unpinned image least recently used. -/
def evictable (s : State) : Option Nat :=
  ((s.fld.cache.filter fun e => !pinned s e.2.img.headerHash).foldl (fun (best : Option (Nat × Nat)) e => match best with
    | none => some (e.1, e.2.lastUse)
    | some b => if e.2.lastUse < b.2 then some (e.1, e.2.lastUse) else some b) none).map (·.1)

/-- Reserve room for a new image; none when every image is pinned (R105). -/
def reserveRoom (s : State) : Option State :=
  if s.fld.cache.length + reserved s < Config.cacheImages then some s
  else (evictable s).map fun k => { s with fld := { s.fld with cache := tdel k s.fld.cache } }

/-- Put a verified image into the cache, or mark it used. -/
def cacheImage (i : SkeinImage) (s : State) : State :=
  let n := s.fld.useStamp
  let s := { s with fld := { s.fld with useStamp := n + 1 } }
  match cached s i.headerHash with
  | some (k, c) => { s with fld := { s.fld with cache := tput k { c with lastUse := n } s.fld.cache } }
  | none => { s with fld := { s.fld with cache := tput n { img := i, lastUse := n } s.fld.cache } }

/-- The load report of R176. -/
def loadReport (s : State) (f slot : Nat) (fl : Field) (i : SkeinImage) : List Byte :=
  let g := geoOf s fl
  let b := islandBounds i g (firstBand fl) (fun _ => false) true
  let b0 := islandBounds i g (firstBand fl) (fun _ => false) false
  let spill := (workingUnits i).any fun u => spillCycles i u != 0
  let above := match claimedOf i with | some c => b.any fun x => decide (c < x) | none => false
  leBytes 2 1 ++ [BitVec.ofNat 8 f, BitVec.ofNat 8 slot, BitVec.ofNat 8 (b2n above + 2 * b2n spill), 0, 0, 0]
    ++ (List.range 16).flatMap (fun k => leBytes 8 (b.getD k 0)) ++ leBytes 8 (maxN ((List.range 16).map fun k => b.getD k 0 - b0.getD k 0))
    ++ leBytes 8 (fillCost i g) ++ zeros 40

/-- Drop a load. -/
def dropLoad (acc : Nat) (s : State) : State := { s with fld := { s.fld with loads := s.fld.loads.filter fun l => l.acc != acc } }

/-- A skein's copy and digest have ended: signatures, digest, member and profile, the checks of R164; then its fill waits for the slot (R104, R106,
R107). An image whose header matches a cached one skips the digest and the signatures, and the cached copy is what is checked and filled (R105). -/
def skeinChecked (l : LoadRun) (i : SkeinImage) (sig : SigCheck) (s : State) : State :=
  let s := dropLoad l.acc s
  let known := (cachedHead s i).isSome
  let i := (cachedHead s i).getD i
  if !known && !(sig.ed && sig.ml && signerKnown s i.hdr.signerId) then finish l.acc .signatureFail 0 2 s
  else if !known && i.bodyHash != i.hdr.bodyDigest then finish l.acc .digestFail 0 3 s
  else match checkLoad s l.field l.slot i with
    | some (st, n) => finish l.acc st 0 n s
    | none =>
      let s := cacheImage i s
      let s := { s with fld := { s.fld with fills := s.fld.fills ++ [{ field := l.field, slot := l.slot, acc := some l.acc, img := i, report := l.report }] } }
      if l.abort then
        match fieldAt s l.field with
        | some fl => (fl.seq.filter fun x => x.slot == l.slot && activeIn s fl x.id).foldl
            (fun s x => startAbort l.field x.id (statusCode .cancelled) s) s
        | none => s
      else s

/-- No earlier LOAD_SKEIN of the field is still being checked (R165). -/
def firstLoad (s : State) (l : LoadRun) : Bool :=
  !s.fld.loads.any fun e => decide (e.acc < l.acc) && e.skein.isSome && e.field == l.field

/-- The load of an image that LOAD_SKEIN has copied; a cached one with the same header goes straight to its checks (R105, R106). -/
def loadStart (acc : Nat) (d : LoadDesc) (img : SkeinImage) (signed : SignedBlock) (s : State) : State :=
  if headerBad d img then finish acc .badAlignment 0 1 s
  else match (if (cachedHead s img).isSome then some s else reserveRoom s) with
    | none => finish acc .noPlacement 0 2 s
    | some s =>
      let run : LoadRun := { acc, field := d.field, slot := d.slot, report := d.reportAddr, abort := d.abort, skein := some img, moon := none, signed, mask := 0, index := 0, checked := false }
      let s := { s with fld := { s.fld with loads := s.fld.loads ++ [run] } }
      if (cachedHead s img).isSome && firstLoad s run then skeinChecked run img { ed := true, ml := true } s else s

/-- LOAD_SKEIN: its own fields, the way to its image (R259), the image's read (log 149), the header, room in the cache; then the image is copied and hashed (R104, R106, R272). -/
def execLoadSkein (q : QId) (h : DescHdr) (d : LoadDesc) (host : ReadBytes) (s : State) : Host.Outcome State Fault Refusal :=
  .next (withDesc q .loadSkein h false (fun acc s =>
    let s := wakeField d.field s
    if d.srcPlace = 3 then finish acc .countMismatch 0 0 s
    else if loadFormBad d then finish acc .badAlignment 0 1 s
    else if hostLost s acc (d.srcPlace == 0) then finish acc .linkDown 0 0 s
    else
      let (met, s) := hubRead d.srcPlace.toNat d.field d.imageAddr.toNat d.imageBytes.toNat s
      if !met then finish acc .fencedUnit 0 0 s
      else
        let rd := sourceByte s d.srcPlace.toNat d.field d.imageAddr.toNat host
        let img := parseSkein rd
        loadStart acc d ((cachedHead s img).getD img) (skeinSigned rd img) s) s)

/-- The first fill of a field and slot that waits (R107). -/
def firstFill (s : State) (f slot : Nat) : Option FillWait := s.fld.fills.find? fun w => w.field == f && w.slot == slot

/-- A pending fill writes its slot once every unit has swapped away from it, and the load completes (R106 steps 4 and 5, R107, R176). -/
def execSlotFill (f : FieldId) (slot : SlotId) (s : State) : Host.Outcome State Fault Refusal :=
  .next (match fieldAt s f, firstFill s f slot with
    | some fl, some w =>
      if slotBusy s fl slot then s
      else
        let s := { s with fld := { s.fld with fills := s.fld.fills.erase w } }
        let s := fillSlot f slot w.img s
        match w.acc, fieldAt s f with
        | some a, some fl =>
          if hostLost s a (w.report != 0) then finish a .linkDown 0 0 s
          else
            let s := if w.report = 0 then s else hostWrite s w.report.toNat (loadReport s f slot fl w.img)
            finish a .ok (maxN (skeinBounds s fl w.img)) 0 s
        | _, _ => s
    | _, _ => s)

/-! ### RUN_SECTION (R108, R166, R236, R272) -/

/-- The run-time scalars of a descriptor: 0 to 7 from it, 8 to 15 from the section block (R272). -/
def runScalars (d : RunDesc) (block : List (BitVec 32)) : List Nat :=
  (List.range d.nscalars.toNat).map fun k => if k < 8 then (d.scalars.getD k 0).toNat else bits (block.getD (k - 8) 0).toNat 0 24

/-- One more than the highest SCALAR of the supplied axes (R166 step 1). -/
def scalarsNeeded (i : SkeinImage) : Nat := maxN ((suppliedAxes i).map fun a => a.scalar + 1)

/-- The descriptor's own codes, and step 1 of R166. -/
def runCodesBad (d : RunDesc) (i : SkeinImage) : Bool :=
  decide (16 < d.nscalars.toNat) || (decide (8 < d.nscalars.toNat) && d.blockAddr == 0) || d.watchdog == 0
    || (d.idleEn && !decide (1000 ≤ d.idleLimit.toNat ∧ d.idleLimit.toNat ≤ 86400000000)) || decide (d.nscalars.toNat < scalarsNeeded i)

/-- RUN_SECTION: the slot check, the checks of R166, then the sequencer (R108). -/
def execRunSection (q : QId) (h : DescHdr) (d : RunDesc) (block : List (BitVec 32)) (s : State) : Host.Outcome State Fault Refusal :=
  .next (settleCopies <| withDesc q .runSection h false (fun acc s =>
    let s := wakeField d.field s
    let fail := fun (st : BitVec 16) (s : State) => dropParkWait acc .alreadyDone (finishCode acc st 0 0 s)
    match fieldAt s d.field with
    | none => fail (statusCode .noPlacement) s
    | some fl =>
      let sl := tget ({} : Slot) d.slot fl.slots
      match sl.skein with
      | none => fail (sl.refillFail.getD (statusCode .noPlacement)) s
      | some i =>
        let scalars := runScalars d block
        if runCodesBad d i then fail (statusCode .countMismatch) s
        else if hostLost s acc (8 < d.nscalars.toNat) then fail (statusCode .linkDown) s
        else match checkRun s d.field fl i scalars with
          | some st => fail (statusCode st) s
          | none =>
            let empty := (suppliedAxes i).any fun a => scalars.getD a.scalar 0 == 0
            let x := { newSection s d.field (some acc) d.slot scalars with
              empty, watchdog := d.watchdog.toNat, idleEn := d.idleEn, idleLimit := d.idleLimit.toNat, feeds := feedsFor i scalars empty
              blockAddr := d.blockAddr, bound := runBound s d.field fl i, tag := some h.tag.toNat }
            enterSection d.field x (countSection (setPhase acc .waiting s))) s)

/-- The entry edge threads of a skein on a lane, with their keys. -/
def entryThreads (i : SkeinImage) (f slot lane : Nat) : List (Nat × ThreadCfg) :=
  (i.threads.zipIdx.filter fun e => e.1.lane == lane && edgeSourced e.1).map fun e => (threadKey f slot e.2, e.1)

/-- The skein asks for a START on an entry control thread: its unit waits for one (R86, R109). -/
def wantsStart (i : SkeinImage) (t : ThreadCfg) : Bool := t.dests.any fun d => match unitIn i d.row d.col with
  | some u => u.ctl.startWait
  | none => false

/-- The sequencer can send a section's dispatch now: credits for its scalars and tokens, and every clashing thread released (R81, R114). -/
def sendReady (s : State) (f : Nat) (x : Section) (i : SkeinImage) : Bool :=
  (entryThreads i f x.slot 1).all (fun e => hasCredit s e.1 e.2 && mayFollow s f x.id e.1 e.2) &&
  (entryThreads i f x.slot 2).all (fun e => mayFollow s f x.id e.1 e.2 &&
    (List.range e.2.dests.length).all fun d => decide (1 + b2n (wantsStart i e.2) ≤ creditsOf (threadAt s e.1) d))

/-- Send scalars, then START where asked for, then END_SECTION (R109). -/
def sendDispatch (f : Nat) (x : Section) (i : SkeinImage) (s : State) : State :=
  let tok := fun (k : Nat) => ({ tag := x.slot, data := BitVec.ofNat 512 (tokenByte k 6 x.slot).toNat } : Item)
  let s := (entryThreads i f x.slot 1).zipIdx.foldl (fun s (e : (Nat × ThreadCfg) × Nat) =>
    sendOn x.id e.1.1 e.1.2 { tag := x.slot, data := BitVec.ofNat 512 (x.scalars.getD e.2 0) } s) s
  (entryThreads i f x.slot 2).foldl (fun s (e : Nat × ThreadCfg) =>
    let s := if wantsStart i e.2 then sendOn x.id e.1 e.2 (tok 1) s else s
    sendOn x.id e.1 e.2 (tok 4) s) s

/-- Dispatches to a field are let through: formed, awake, not held, not parked, not draining (R14, R117, R464, R484). -/
def dispatchOpen (s : State) (f : Nat) (fl : Field) : Bool :=
  running s && !fl.asleep && !fieldParked s f && !drainingField fl

/-- The sequencer dispatches its oldest section that has not been sent (R109). A field that an in-place record holds dispatches only that record's
section (R119). -/
def execSectionDispatch (f : FieldId) (s : State) : Host.Outcome State Fault Refusal :=
  .next (match fieldAt s f with
    | none => s
    | some fl =>
      match fl.seq.find? fun x => x.phase == .queued with
      | none => s
      | some x =>
        match secSkein fl x with
        | none => s
        | some i =>
          if !dispatchOpen s f fl || heldInPlace s f || (x.restored && (firstFill s f x.slot).isSome) then s
          else if x.restored then pumpFeeds f feedBurst (modSec f x.id (fun x => { x with phase := .dispatched }) s)
          else if sendReady s f x i then
            pumpFeeds f feedBurst (sendDispatch f x i (modSec f x.id (fun x => { x with phase := .dispatched, progress := true }) s))
          else s)

/-- A unit changes to the next section's slot when the swap rule holds, or sets its pending-swap flag (R109, R113). A field that an in-place record
holds takes up that record's section only (R119). A waiting PARK of a section takes effect when the section is first active (R117). -/
def execUnitSwap (t : Tile) (s : State) : Host.Outcome State Fault Refusal :=
  let k := 40 * t.row.val + t.col.val
  .next (match fieldOfTile s k with
    | none => s
    | some (f, fl, _, _) =>
      if unitFenced s k || !(moduleTiles s fl).contains k || fl.asleep || s.fld.stopped.getLsbD (tileIsland s k) then s
      else
        let u := unitAt s k
        let inSection := !u.pendingSwap && (fl.seq.any fun x => some x.id == u.sectionId)
        if drainingField fl || (inSection && !swapReady s k) then s
        else
          match (nextFor fl u).filter fun x => x.restored || !heldInPlace s f with
          | some x =>
            let s := if inSection then collectCounts f k s else s
            let s := pumpFeeds f feedBurst (activate f fl k x s)
            liftFences (takeParkWait f x.id s)
          | none => if inSection then modUnit k (fun u => { u with pendingSwap := true }) (collectCounts f k s) else s)

/-- The section completes when END_SECTION has reached every exit and every unit has swapped away or waits to (R110, R167, R274). -/
def sectionOver (s : State) (fl : Field) (x : Section) : Bool :=
  x.phase == .dispatched && allSwept s fl x.id && match secSkein fl x with
    | some i => (exitThreads i).all fun k => x.exits.contains k
    | none => true

/-- SECTION_COMPLETE (R110). The oldest finished section of the field completes. -/
def execSectionComplete (f : FieldId) (s : State) : Host.Outcome State Fault Refusal :=
  .next (match fieldAt s f with
    | none => s
    | some fl => match fl.seq.find? fun x => sectionOver s fl x with
      | none => s
      | some x => liftFences (settleCopies
          (if x.empty then closeSection f x.id (statusCode .okEmpty) 0 0 s else closeSection f x.id (statusCode .ok) x.outOfRange x.bound s)))

/-! ### Drains, parks and aborts (R117 to R124, R236, R378) -/

/-- PARK of a section settles against its target's state (R117, R272); one that releases needs room for its records (R191). A section that only drains
along with an aborted one is in no row of R117's table: the model counts it as draining, so the PARK completes ALREADY_DONE though the section goes on
(DESIGN CHOICE, log 131). -/
def parkTarget (acc : Nat) (d : ParkDesc) (s : State) : State :=
  match targetDesc s d.targetSq d.targetSeq.toNat with
  | none => finish acc .alreadyDone 0 0 s
  | some (a, t) =>
    let found := s.fld.fields.findSome? fun (e : Nat × Field) => ((sectionsOf e.2).find? fun x => x.acc == some a).map fun x => (e.1, e.2, x)
    let wait := { setPhase acc .waiting s with fld := { s.fld with parkWait := s.fld.parkWait ++ [(acc, a, d.release, d.scan)] } }
    match found with
    | none =>
      if t.op == 0x21 || (t.op == 0x43 && t.phase != .placed && t.phase != .waiting) then wait else finish acc .countMismatch 0 0 s
    | some (f, fl, x) =>
      let named := fun (s : State) => modSec f x.id (fun x => { x with why := some (.park acc d.release d.scan) }) (setPhase acc .waiting s)
      match x.phase, x.why with
      | .parkedInPlace, _ => (match parkRoom d.release f [x.id] s with
        | some s => parkSectionNow f x.id (b2n d.release) 0 (named s)
        | none => finish acc .noPlacement 0 0 (noRoom [x.id] s))
      | _, some .governor => (match parkRoom d.release f [x.id] s with
        | some s => named s
        | none => finish acc .noPlacement 0 0 (noRoom [x.id] s))
      | .draining, _ => finish acc .alreadyDone 0 0 s
      | .settled, _ => finish acc .alreadyDone 0 0 s
      | _, _ =>
        if activeIn s fl x.id then
          match parkRoom d.release f (drainIds s fl) s with
          | some s => startDrain f x.id (.park acc d.release d.scan) d.scan (setPhase acc .waiting s)
          | none => finish acc .noPlacement 0 0 (noRoom (drainIds s fl) s)
        else wait

/-- PARK with TARGET_KIND 1 (R117, R272). -/
def execParkSection (q : QId) (h : DescHdr) (d : ParkDesc) (s : State) : Host.Outcome State Fault Refusal :=
  .next (withDesc q .park h false (fun acc s =>
    if (d.scan && d.release) || d.destPlace == 3 then finish acc .countMismatch 0 0 s else parkTarget acc d s) s)

/-- Every unit of a draining field has stopped: records are written and sections park, or the abort goes on (R117 step 3, R122, R237). -/
def execRunEmptyDrainDone (f : FieldId) (s : State) : Host.Outcome State Fault Refusal :=
  .next (match fieldAt s f with
    | none => s
    | some fl =>
      if !drainDone s f fl || (causes s f).any (fun e => wantsScan e.2) then s
      else liftFences (settleCopies <| finishAborts f (((causes s f).map (·.1)).foldl (drainOne f) s)))

/-- The drain of an abort has had its 20 µs: ABORT is delivered (R122). -/
def execAbortDrainTimeout (f : FieldId) (s : State) : Host.Outcome State Fault Refusal := .next (liftFences (settleCopies <| finishAborts f s))

/-- Entries in flight of a scan drain have landed: every flying entry of its sections is in its FIFO (R124). -/
def landEntries (f : Nat) (fl : Field) (x : Section) (s : State) : State :=
  match secSkein fl x with
  | none => s
  | some i => i.threads.zipIdx.foldl (fun s (e : ThreadCfg × Nat) =>
      let k := threadKey f x.slot e.2
      let th := threadAt s k
      let s := setThread s k { th with flying := [] }
      th.flying.foldl (fun s y => match e.1.dests[y.dest]? with
        | some d => if d.row = 63 ∧ d.col = 63 then returnCredit k y.dest s
          else modUnit (tileAt fl d.row d.col) (fun u => { u with fifos := tmod [] (inPort e.1.lane d.port) (· ++ [y.item]) u.fifos }) s
        | none => s) s) s

/-- 200 band-clock cycles of settling have passed (R124). -/
def execScanSettleExpiry (f : FieldId) (s : State) : Host.Outcome State Fault Refusal :=
  .next (match fieldAt s f with
    | none => s
    | some fl =>
      let on := fl.seq.filter fun x => x.phase == .draining && x.why.any wantsScan
      on.foldl (fun s x => modSec f x.id (fun x => { x with phase := .settled }) (landEntries f fl x s)) s)

/-- The scan chains have been shifted out: records of FORM 2 are written, and the sections park (R124). -/
def execScanShiftDone (f : FieldId) (s : State) : Host.Outcome State Fault Refusal :=
  .next (match fieldAt s f with
    | none => s
    | some fl => liftFences (settleCopies <| finishAborts f (((fl.seq.filter fun x => x.phase == .settled).map (·.id)).foldl (fun s id =>
      match secAt s f id with
      | some x => if x.phase = .settled then parkSectionNow f id 2 0 s else s
      | none => s) s)))

/-- The idle counter of a section has reached IDLE_LIMIT: an input park, which waits while its record finds no room (R191, R236, R237). -/
def execInputPark (f : FieldId) (s : State) : Host.Outcome State Fault Refusal :=
  .next (match fieldAt s f with
    | none => s
    | some fl => match fl.seq.find? fun x => x.phase == .dispatched && x.idleEn && decide (x.idleLimit ≤ x.idle) && activeIn s fl x.id with
      | some x => match parkRoom true f (drainIds s fl) s with
        | some s => startDrain f x.id .inputPark false s
        | none => noRoom (drainIds s fl) s
      | none => s)

/-- WHERE of a watchdog event: queue and SEQ of the section's descriptor (R468). -/
def watchdogLoc (s : State) (x : Section) : Nat := match x.acc.bind fun a => tfind a s.host.opens with
  | some d => d.q + 65536 * d.seq.toNat
  | none => 0

/-- A no-progress counter has reached its limit: the section ends with STALL_DETECTED, and a watchdog event is recorded (R378). -/
def execWatchdogExpiry (f : FieldId) (s : State) : Host.Outcome State Fault Refusal :=
  .next (match fieldAt s f with
    | none => s
    | some fl =>
      let due := fl.seq.find? fun x => (x.phase == .dispatched || (x.phase == .draining && !(match x.why with | some (.abort _) => true | _ => false))) && (decide (x.watchdog ≤ x.wdCount) || (injSlot s 0x0C 0x10 (watchdogLoc s x)).isSome)
      match due with
      | none => s
      | some x =>
        let inj := injSlot s 0x0C 0x10 (watchdogLoc s x)
        let real := decide (x.watchdog ≤ x.wdCount)
        let s := match inj with | some k => injFire k s | none => s
        let s := logClass1 0x0C 0x10 (watchdogLoc s x) (!real) (statusCode .stallDetected) s
        startAbort f x.id (statusCode .stallDetected) s)

/-! ### RESUME of a park record (R121, R124, R237) -/

/-- The park record of a handle; 0 names none (R274). -/
def parkAt (s : State) (h : Nat) : Option ParkRec := s.fld.parks.find? fun p => p.handle == h && h != 0

/-- Free a record, and with it the frames that it holds (R191, R194). -/
def dropRecord (h : Nat) (s : State) : State :=
  let held := (s.fld.parks.filter fun p => p.handle == h && p.room.isSome).map (·.field)
  held.foldl (fun s f => framesFreed f s) { s with fld := { s.fld with parks := s.fld.parks.filter fun p => p.handle != h } }

/-- The first reason why a record cannot be resumed into a field, in order; else the cached skein (R121, R123, R124, R166, R486). -/
def resumeCheck (s : State) (f : Nat) (p : ParkRec) : BitVec 16 ⊕ SkeinImage :=
  if !p.valid then .inl (statusCode .fencedUnit)
  else if p.form ≠ 1 ∧ p.field ≠ f then .inl (statusCode .noPlacement)
  else match fieldAt s f with
    | none => .inl (statusCode .noPlacement)
    | some fl =>
      if profilesOf (geoOf s fl) ≠ p.profile then .inl (statusCode .profileMismatch)
      else match cached s p.headerHash with
        | none => .inl (statusCode .digestFail)
        | some (_, c) => match checkLoad s f p.slot c.img with
          | some (st, _) => .inl (statusCode st)
          | none => match checkRun s f fl c.img p.scalars with
            | some st => .inl (statusCode st)
            | none => if recordDigest c.img p ≠ p.digest then .inl (statusCode .digestFail) else .inr c.img

/-- RESUME with SOURCE_KIND 1: the slot is refilled, and the section returns with its record to be restored as its units activate it (R121). -/
def execResumeParkRecord (q : QId) (h : DescHdr) (d : ResumeDesc) (s : State) : Host.Outcome State Fault Refusal :=
  .next (settleCopies <| withDesc q .resume h false (fun acc s =>
    let s := wakeField d.field s
    let fail := fun (st : BitVec 16) (s : State) => dropParkWait acc .alreadyDone (finishCode acc st 0 0 s)
    match parkAt s d.source.toNat with
    | none => fail (statusCode .countMismatch) s
    | some p => match resumeCheck s d.field p, fieldAt s d.field with
      | .inl st, _ => fail st s
      | .inr _, none => fail (statusCode .noPlacement) s
      | .inr i, some fl =>
        let same := ((slotSkein fl p.slot).map (·.headerHash)) == some p.headerHash
        let s := cacheImage i s
        let s := if same then s
          else if slotBusy s fl p.slot then { s with fld := { s.fld with fills := s.fld.fills ++ [{ field := d.field, slot := p.slot, acc := none, img := i, report := 0 }] } }
          else fillSlot d.field p.slot i s
        let inPlace := p.form != 1
        let x := { newSection s d.field (some acc) p.slot p.scalars with
          image := some i
          id := if inPlace then p.sectionId else s.fld.nextSection
          empty := p.empty, watchdog := p.watchdog, idleEn := p.idleEn, idleLimit := p.idleLimit
          feeds := p.feeds.map fun e => { e with expects := e.expects - e.delivered, accepted := 0, delivered := 0, before := e.before + e.delivered }
          blockAddr := d.outAddr, bound := runBound s d.field fl i, tag := some h.tag.toNat, outOfRange := p.outOfRange, exits := p.exits
          restored := true, restore := p.units, phase := if inPlace then .dispatched else .queued }
        let s := dropRecord p.handle (setPhase acc .waiting s)
        if inPlace then returnSection d.field x s else enterSection d.field x (countSection s)) s)

/-- RESUME with DISCARD: the record is freed (R121, R237). -/
def execResumeDiscard (q : QId) (h : DescHdr) (d : ResumeDesc) (s : State) : Host.Outcome State Fault Refusal :=
  .next (withDesc q .resume h false (fun acc s =>
    match parkAt s d.source.toNat with
    | none => finish acc .countMismatch 0 0 s
    | some p => finish acc .ok 0 0 (dropRecord p.handle s)) s)

end Sys2Proof.Machine
end

