-- ==== Sys2Proof/Machine/Moons.lean ====
section
/-!
DEFINITION. Meanings of the commands of the moons (09): loading programs, calls and their parts, and the firmware's services.
-/

namespace Sys2Proof.Machine

/-! ### Images (R104, R207 to R209, R216, R223) -/

/-- Element bytes of a KV format (R216). -/
def kvElem (f : Nat) : Nat := if f = 2 then 2 else 1

/-- A parameter out of its range for the class, or a reserved class (R207, R216, R223). -/
def moonParamsBad (m : MoonImage) : Bool :=
  match m.params with
  | .attend fmt d h g l sc a =>
    !(m.cls == 1 || m.cls == 2) || decide (2 < fmt) || !decide (6 ≤ d ∧ d ≤ 8) || !decide (1 ≤ h ∧ h ≤ 64) || !decide (1 ≤ g ∧ g ≤ 16)
      || !decide (1 ≤ l ∧ l ≤ 256) || bitAt sc.toNat 31 || sc == 0 || bits sc.toNat 23 8 == 255 || !decide (-2048 ≤ a ∧ a ≤ 2047)
      || decide (24576 < h * g * (2 ^ d + 1)) || decide (2 ^ d * kvElem fmt < 64)
  | .table base rows log =>
    !(m.cls == 3 || m.cls == 4) || decide (2 ^ 52 ≤ base.toNat) || !decide (6 ≤ log ∧ log ≤ 12) || base.toNat % 2 ^ log != 0
      || !decide (1 ≤ rows ∧ rows < 2 ^ 32)

/-- The fields of a MOON_LOAD descriptor that are judged before the image is read (R272, R276). -/
def moonFormBad (d : LoadDesc) : Bool := d.imageBytes == 0 || d.imageAddr.toNat % 64 != 0

/-- Check 1 of R209, with the descriptor's own alignment and length (R272). -/
def moonHeaderBad (d : LoadDesc) (m : MoonImage) : Bool :=
  d.imageBytes.toNat != m.imageBytes || m.magic != 0x4E4F4F4D || m.format != 1
    || !decide (1 ≤ m.codeBytes ∧ m.codeBytes ≤ 4096) || m.imageBytes != roundUp (256 + m.codeBytes) 64 + Config.sigBytes

/-- A skein resident in a field references a program slot of a stack (R101, R209). -/
def slotReferenced (s : State) (k p : Nat) : Bool :=
  s.fld.fields.any fun e => e.2.bands.contains (bandOf k) && e.2.slots.any fun x => match x.2.skein with
    | some i => i.moons.any fun m => m.index == p && m.mask.getLsbD k
    | none => false

/-- A valid serving configuration of the stack's field names the slot as its ATTEND_PROG (R209, R283). -/
def slotServes (s : State) (k p : Nat) : Bool :=
  s.serv.configs.any fun e => e.2.block.attendProg.val == p && match fieldAt s e.2.block.field with
    | some fl => fl.bands.contains (bandOf k)
    | none => false

/-- Check 4 of R209 for one stack. -/
def moonSlotLocked (s : State) (m : MoonImage) (p k : Nat) : Bool :=
  s.faults.fencedStacks.getLsbD k || (fieldOfBand s (bandOf k)).isNone ||
    (match moonProg s k p with
      | some old => old.progHash != m.progHash && (slotReferenced s k p || slotServes s k p)
      | none => false)

/-- Stacks of a mask. -/
def maskStacks (m : BitVec 16) : List Nat := (List.range 16).filter fun k => m.getLsbD k

/-- MOON_LOAD: its own codes, then its image is copied into room of the skein cache and checked (R105, R209, R272). -/
def execMoonLoad (q : QId) (h : DescHdr) (d : LoadDesc) (host : ReadBytes) (s : State) : Host.Outcome State Fault Refusal :=
  .next (withDesc q .moonLoad h false (fun acc s =>
    let s := (maskStacks d.stackMask).foldl (fun s k => match fieldOfBand s (bandOf k) with | some f => wakeField f s | none => s) s
    if d.srcPlace = 3 then finish acc .countMismatch 0 0 s
    else if d.stackMask = 0 then finish acc .okEmpty 0 0 s
    else if moonFormBad d then finish acc .badAlignment 0 0 s
    else if hostLost s acc (d.srcPlace == 0) then finish acc .linkDown 0 0 s
    else
      let (met, s) := hubRead d.srcPlace.toNat d.field d.imageAddr.toNat d.imageBytes.toNat s
      let rd := sourceByte s d.srcPlace.toNat d.field d.imageAddr.toNat host
      let img := parseMoon rd d.imageBytes.toNat
      if !met then finish acc .fencedUnit 0 0 s
      else if moonHeaderBad d img then finish acc .badAlignment 0 0 s
      else match reserveRoom s with
      | none => finish acc .noPlacement 0 0 s
      | some s =>
      let run : LoadRun := { acc, field := d.field, slot := 0, report := 0, abort := false, skein := none, moon := some img, signed := moonSigned rd img, mask := d.stackMask, index := d.progIndex, checked := false }
      { s with fld := { s.fld with loads := s.fld.loads ++ [run] } }) s)

/-- A queued call names a program slot of a stack (R227). -/
def callNames (s : State) (k p : Nat) : Bool := s.moons.calls.any fun c => c.prog == p && (c.lead == k || c.mask.getLsbD k)

/-- Write a program into its slots, and complete the load (R209). -/
def writeProgram (l : LoadRun) (m : MoonImage) (s : State) : State :=
  let s := dropLoad l.acc s
  finish l.acc .ok 0 0 { s with moons := { s.moons with progs := (maskStacks l.mask).foldl (fun t k => tset none (16 * k + l.index) (some m) t) s.moons.progs } }

/-- Moon loads that waited for queued calls write their slots where they can; one whose slot has been locked meanwhile fails check 4 (R209, R227). -/
def settleMoonLoads (s : State) : State :=
  (s.fld.loads.filter fun l => l.checked).foldl (fun s l => match l.moon with
    | some m =>
      if (maskStacks l.mask).any fun k => moonSlotLocked s m l.index k then finish l.acc .noPlacement 0 0 (dropLoad l.acc s)
      else if (maskStacks l.mask).any fun k => callNames s k l.index then s else writeProgram l m s
    | none => s) s

/-- A moon program's copy has ended: signatures, parameters and slots decide (R209). -/
def moonChecked (l : LoadRun) (m : MoonImage) (sig : SigCheck) (s : State) : State :=
  let fail := fun (st : Status) => finish l.acc st 0 0 (dropLoad l.acc s)
  if !(sig.ed && sig.ml && signerKnown s m.signerId) then fail .signatureFail
  else if moonParamsBad m then fail .countMismatch
  else if (maskStacks l.mask).any fun k => moonSlotLocked s m l.index k then fail .noPlacement
  else
    settleMoonLoads { s with fld := { s.fld with loads := mapIf (fun e => e.acc == l.acc) (fun e => { e with checked := true }) s.fld.loads } }

/-- The copy of an image and its digest have ended: the load is decided (R104, R106, R165, R209). The hash engine's digest is that of the copy; a command
that brings another one for a skein stands for no event and changes nothing (log 127). -/
def execImageChecked (acc : Nat) (bodyHash : Digest) (sig : SigCheck) (s : State) : Host.Outcome State Fault Refusal :=
  .next (match s.fld.loads.find? fun l => l.acc == acc && !l.checked with
    | none => s
    | some l => match l.skein, l.moon with
      | some i, _ => if bodyHash = i.bodyHash ∧ firstLoad s l = true then settleCopies (skeinChecked l i sig s) else s
      | none, some m => moonChecked l m sig s
      | none, none => s)

/-! ### Calls (R211 to R215) -/

/-- Write bytes into a channel. -/
def chanWrite (k c off : Nat) (bs : List Byte) (s : State) : State :=
  { s with mem := { s.mem with tier1 := mwrites s.mem.tier1 (chanKeyByte s k c off) bs } }

/-- The call that a header line spells, with its arguments as they stood at its write (R211, R212). -/
def headerCall (w : MoonHeader) (secs : List Nat) (draft : Bool) : MoonCallRun :=
  let h := w.bytes
  let n := natAt h 4 4
  { lead := w.lead, channel := w.channel, prog := bits (byteAt h 0).toNat 0 4, append := bitAt (byteAt h 1).toNat 0, mask := BitVec.ofNat 16 (natAt h 2 2),
    argBytes := n, seq := BitVec.ofNat 64 (natAt h 8 8), count := natAt h 16 4, layer := natAt h 20 4, args := (h.drop 64).take n,
    ended := [], field := w.field, sections := secs, draft, rows := [], outOfRange := 0, status := statusCode .ok }

/-- One request record of ATTEND or KV_WRITE (R218, R221). -/
structure KvRecord where
  req : Nat
  tokens : Nat
  fresh : Nat
  /-- Q, K_NEW and V_NEW as bytes -/
  q : List Byte
  k : List Byte
  v : List Byte
  deriving DecidableEq, Repr

/-- The parameters of an ATTEND or KV_WRITE program. -/
structure KvParams where
  fmt : Nat
  dLog2 : Nat
  hKv : Nat
  group : Nat
  layers : Nat
  scale : BitVec 32
  anchor : Int
  deriving DecidableEq, Repr

/-- Parameters of a program that works on KV pages. -/
def kvParams (m : MoonImage) : Option KvParams := match m.params with
  | .attend fmt d h g l sc a => some { fmt, dLog2 := d, hKv := h, group := g, layers := l, scale := sc, anchor := a }
  | .table .. => none

/-- D, query heads, and bytes of one row and one page (R216, R217). -/
def KvParams.d (p : KvParams) : Nat := 2 ^ p.dLog2
def KvParams.hq (p : KvParams) : Nat := p.hKv * p.group
def KvParams.rowBytes (p : KvParams) : Nat := p.d * kvElem p.fmt
def KvParams.pageBytes (p : KvParams) : Nat := p.layers * p.hKv * 2 * 256 * p.rowBytes

/-- The records of a call; none where the arguments are too small (R215, R218, R221). withQ: ATTEND; rows: K and V rows are carried. -/
def kvRecords (p : KvParams) (withQ rows : Bool) : Nat → List Byte → Option (List KvRecord)
  | 0, _ => some []
  | n + 1, bs =>
    let fresh := (byteAt bs 8).toNat + (if withQ then 0 else 256 * (byteAt bs 9).toNat)
    let nq := if withQ then p.hq * p.d * 2 else 0
    let nk := if rows then fresh * p.hKv * p.rowBytes else 0
    let len := roundUp (64 + nq + 2 * nk) 64
    if bs.length < len ∨ bs.length < 64 then none
    else
      let r : KvRecord := { req := natAt bs 0 2 % 4096, tokens := natAt bs 4 4, fresh, q := (bs.drop 64).take nq, k := (bs.drop (64 + nq)).take nk, v := (bs.drop (64 + nq + nk)).take nk }
      (kvRecords p withQ rows n (bs.drop len)).map fun l => r :: l

/-- The KV page of a request in a list. -/
def kvPage (fl : Field) (req page : Nat) (draft : Bool) : Option Page := fl.pages.find? fun p => p.owner == .kv req page draft

/-- The KV page that the published list of a request names: what a moon goes by (R217). -/
def listPage (fl : Field) (req page : Nat) (draft : Bool) : Option Page := fl.lists.find? fun p => p.owner == .kv req page draft

/-- The class of the call's program at its lead, with the program. -/
def callProg (s : State) (c : MoonCallRun) : Option MoonImage := moonProg s c.lead c.prog

/-- A record whose arguments are out of range: its NEW, or a position without a page in the published list (R215, R217, R218, R221). -/
def recordBad (fl : Field) (c : MoonCallRun) (withQ : Bool) (r : KvRecord) : Bool :=
  (if withQ then (if c.append then !decide (1 ≤ r.fresh ∧ r.fresh ≤ 64) else r.fresh != 0) else !decide (1 ≤ r.fresh ∧ r.fresh ≤ 256))
    || (List.range (ceilDiv (r.tokens + r.fresh) 256)).any fun p => (listPage fl r.req p c.draft).isNone

/-- Indices of a GATHER or SCATTER. -/
def callIndices (c : MoonCallRun) : List Nat := (List.range c.count).map fun i => natAt c.args (4 * i) 4

/-- The call is malformed (R215). -/
def callBad (s : State) (fl : Field) (c : MoonCallRun) : Bool :=
  c.argBytes % 64 != 0 || decide (argArea < c.argBytes) ||
    match callProg s c with
    | none => true
    | some m => match kvParams m, m.params with
      | some p, _ =>
        !c.mask.getLsbD c.lead || (maskStacks c.mask).any (fun k => !fl.stackList.contains k || s.faults.fencedStacks.getLsbD k)
          || decide (p.layers ≤ c.layer)
          || (match kvRecords p (m.cls == 1) (m.cls == 2 || c.append) c.count c.args with
            | none => true
            | some l => l.any (recordBad fl c (m.cls == 1)) || decide (resArea < 64 + (if m.cls = 1 then c.count * p.hq * roundUp (4 * (p.d + 2)) 64 else 0)))
      | none, .table _ _ log =>
        c.mask != 0 || decide (c.argBytes < roundUp (4 * c.count) 64 + (if m.cls = 4 then c.count * 2 ^ log else 0))
          || decide (resArea < 64 + (if m.cls = 3 then c.count * 2 ^ log else 0))
      | none, _ => true

/-- Sections at work in a field. -/
def runningSections (s : State) (fl : Field) : List Nat := (fl.seq.filter fun x => x.phase != .queued && activeIn s fl x.id).map (·.id)

/-- Change the count of calls in flight of a call's sections, and show their progress (R227, R377). -/
def countCalls (c : MoonCallRun) (g : Nat → Nat) (s : State) : State :=
  c.sections.foldl (fun s id => modSec c.field id (fun x => { x with calls := g x.calls, progress := true }) s) s

/-- The result area: header, then results (R213). -/
def writeResults (c : MoonCallRun) (cycles : Nat) (body : List Byte) (s : State) : State :=
  chanWrite c.lead c.channel 0x20000 (leBytes 8 c.seq.toNat ++ leBytes 2 c.status.toNat ++ [0, 0] ++ leBytes 4 c.outOfRange ++ leBytes 8 cycles ++ zeros 40 ++ body) s

/-- Held FETCHes of a channel are answered (R213). -/
def answerFetches (k c : Nat) (s : State) : State :=
  let held := s.moons.fetches.filter fun (e : Nat × Nat × Nat × Nat) => e.1 == k && e.2.1 == c
  { s with moons := { s.moons with
    fetches := s.moons.fetches.filter fun (e : Nat × Nat × Nat × Nat) => !(e.1 == k && e.2.1 == c)
    answers := s.moons.answers ++ held.map fun (e : Nat × Nat × Nat × Nat) => (chanKey k c, e.2.2.1, e.2.2.2) } }

/-- A malformed call: the detector's event, and the running sections of the field are fenced; the call does no work (R215). -/
def callFormat (c : MoonCallRun) (fl : Field) (injected : Bool) (s : State) : State :=
  let isl := 0x20 + c.lead
  let s := logClass1 0x09 isl c.channel injected (statusCode .fencedUnit) s
  answerFetches c.lead c.channel ((runningSections s fl).foldl (fun s id => fenceSection c.field id isl c.channel s) s)

/-- The call works on the draft's pages: a section of a draft configuration made it (R296). -/
def callDraft (s : State) (f : Nat) (secs : List Nat) : Bool :=
  secs.any fun id => match (secAt s f id).bind (·.config) with
    | some c => s.serv.configs.any fun e => e.2.block.draftConfig.toNat == c && decide (0 < e.2.nodes)
    | none => false

/-- The moons of a field's stacks run: awake and powered (R462). -/
def moonRuns (s : State) (k : Nat) : Bool :=
  s.entry.main && !s.host.d3hot && !s.boot.warmBusy && match fieldOfBand s (bandOf k) with
    | some f => (match fieldAt s f with | some fl => !fl.asleep | none => false)
    | none => false

/-- The calling sections of a header: the one that wrote it, or those of the field that run (R212). -/
def callers (s : State) (fl : Field) : Option Nat → List Nat
  | some id => [id]
  | none => runningSections s fl

/-- A written header line fires its call (R212, R214, R215). A malformed call fires none; one of COUNT 0 completes at once (log 33). -/
def execMoonCall (k : StackId) (channel : Fin 64) (s : State) : Host.Outcome State Fault Refusal :=
  .next (match s.moons.headers.find? fun h => h.lead == k.val && h.channel == channel.val with
    | none => s
    | some h => match fieldAt s h.field with
      | none => s
      | some fl =>
        if !moonRuns s k then s
        else
          let secs := callers s fl h.sec
          let c := headerCall h secs (callDraft s h.field secs)
          let s := { s with moons := { s.moons with headers := s.moons.headers.erase h } }
          let inj := injSlot s 0x09 (0x20 + k.val) channel.val
          match inj with
          | some j => callFormat c fl true (injFire j s)
          | none =>
            if callBad s fl c then callFormat c fl false s
            else if c.count = 0 then
              answerFetches k channel (countCalls c id (writeResults { c with status := statusCode .okEmpty } 0 [] s))
            else
              let others := (maskStacks c.mask).filter (· != k.val)
              let s := countCalls c (· + 1) s
              { s with moons := { s.moons with
                calls := s.moons.calls ++ [c]
                queues := tmod [] k.val (· ++ [(k.val, channel.val)]) s.moons.queues
                forwards := s.moons.forwards ++ others.map fun m => (m, k.val, channel.val)
                combine := tdel (chanKey k channel) s.moons.combine } })

/-- Calls on their way to a moon that may arrive next: the oldest of each lead. -/
def arriving (k : Nat) (s : State) : List (Nat × Nat × Nat) :=
  let mine := s.moons.forwards.filter fun (e : Nat × Nat × Nat) => e.1 == k
  (mine.map fun (e : Nat × Nat × Nat) => e.2.1).eraseDups.filterMap fun l => mine.find? fun (e : Nat × Nat × Nat) => e.2.1 == l

/-- A forwarded call arrives at a moon, which queues it (R214). Calls of several leads arrive in any order, theirs by number among them (R227): which
one comes is a free value (log 168). -/
def execMoonCallForward (k : StackId) (s : State) : Host.Outcome State Fault Refusal :=
  .next (
    let l := arriving k s
    match l[(Config.freeWord s.fresh).toNat % l.length]? with
    | none => s
    | some e =>
      if !moonRuns s k then s
      else { s with
        fresh := s.fresh + 1
        moons := { s.moons with forwards := s.moons.forwards.erase e, queues := tmod [] k.val (· ++ [(e.2.1, e.2.2)]) s.moons.queues } })

/-! ### Parts of a call (R219, R221, R223) -/

/-- The stack on which a KV page of a request lies (R217, R292). -/
def homeStack (fl : Field) (req page : Nat) : Nat := (fl.stackList[homeColumn fl req page]?).getD 0

/-- Offset in its page of the K row (side 0) or V row (side 1) of a position (R217). -/
def rowOffset (p : KvParams) (layer g side pos : Nat) : Nat := ((layer * p.hKv + g) * 2 + side) * 256 * p.rowBytes + pos % 256 * p.rowBytes

/-- The cells of a KV row; none where the page is not held. -/
def rowCells (s : State) (fl : Field) (c : MoonCallRun) (p : KvParams) (req g side pos : Nat) : List CellAt :=
  match listPage fl req (pos / 256) c.draft with
  | none => []
  | some pg => (List.range p.rowBytes).filterMap fun i => unitCell s fl pg (rowOffset p c.layer g side pos + i)

/-- The bytes of a KV row. -/
def rowRead (s : State) (fl : Field) (c : MoonCallRun) (p : KvParams) (req g side pos : Nat) : List Byte :=
  (rowCells s fl c p req g side pos).map (cellRead s)

/-- The cells of the new rows whose pages have this home stack (R219 step 1, R221). -/
def newCells (s : State) (fl : Field) (c : MoonCallRun) (p : KvParams) (k : Nat) (r : KvRecord) : List CellAt :=
  ((List.range r.fresh).filter fun i => homeStack fl r.req ((r.tokens + i) / 256) == k).flatMap fun i => (List.range p.hKv).flatMap fun g =>
    rowCells s fl c p r.req g 0 (r.tokens + i) ++ rowCells s fl c p r.req g 1 (r.tokens + i)

/-- Write the new K and V rows whose pages have this home stack (R219 step 1, R221); a lost byte takes nothing (R204). -/
def writeRows (fl : Field) (c : MoonCallRun) (p : KvParams) (k : Nat) (r : KvRecord) (s : State) : State :=
  (List.range r.fresh).foldl (fun s i =>
    let pos := r.tokens + i
    if homeStack fl r.req (pos / 256) ≠ k then s
    else (List.range p.hKv).foldl (fun s g =>
      let at_ := (i * p.hKv + g) * p.rowBytes
      let put := fun (side : Nat) (bs : List Byte) (s : State) =>
        ((rowCells s fl c p r.req g side pos).zip ((bs.drop at_).take p.rowBytes)).foldl (fun s (e : CellAt × Byte) =>
          if cellLost s e.1 then s else cellWrite s e.1 e.2) s
      put 1 r.v (put 0 r.k s)) s) s

/-- Positions of a record whose pages have this home stack (R219 step 2). -/
def homePositions (fl : Field) (k : Nat) (r : KvRecord) : List Nat :=
  (List.range (r.tokens + r.fresh)).filter fun t => homeStack fl r.req (t / 256) == k

/-- A KV element's value. -/
def kvValue (fmt code : Nat) : FVal := fdecode (if fmt = 0 then e4m3 else if fmt = 1 then e5m2 else bf16) code

/-- The elements of a row of bytes, w bytes each. -/
def rowElems (w n : Nat) (bs : List Byte) : List Nat := (List.range n).map fun i => natAt bs (w * i) w

/-- floor of a finite value. -/
def ffloor : FVal → Int
  | .fin neg m e => (if neg then -(m : Int) else (m : Int)) * (2 ^ e.toNat : Nat) / (2 ^ (-e).toNat : Nat)
  | _ => 0

/-- A value times 2^n. -/
def fscale (n : Int) : FVal → FVal
  | .fin neg m e => .fin neg m (e + n)
  | v => v

/-- The score s_t of a query head and a K row, as FP32 bits (R219 step 3). -/
def score (p : KvParams) (q k : List Nat) : Nat :=
  let r := fun v => fencode fp32 0 false v
  let add := fun a b => r (fadd 0 (fdecode fp32 a) (fdecode fp32 b))
  let prods := List.zipWith (fun a b => r (fmul (fdecode bf16 a) (kvValue p.fmt b))) q k
  let x := ((tree add p.dLog2 prods).head?).getD 0
  r (fmul (fdecode fp32 x) (fdecode fp32 p.scale.toNat))

/-- M, and the cells L and O of a head (R219). -/
abbrev HeadSum := BitVec 32 × List (BitVec 256)

/-- Nothing added yet: M is -Inf. -/
def headZero (p : KvParams) : HeadSum := (BitVec.ofNat 32 (fp32.infCode false true), List.replicate (p.d + 1) 0)

/-- One position joins a head's sums (R219 steps 3 to 6). -/
def addPosition (p : KvParams) (q : List Nat) (k v : List Nat) (h : HeadSum) : HeadSum :=
  let st := score p q k
  let m := BitVec.ofNat 32 (fencode fp32 0 false (fmax (fdecode fp32 h.1.toNat) (fdecode fp32 st)))
  match fdecode fp32 st with
  | .inf true => (m, h.2)
  | .fin neg a e =>
    let x : FVal := .fin neg a e
    let n := ffloor x
    let f := fdecode fp32 (exp2Exactly (fadd 0 x (ofInt (-n) 0)))
    let w := fscale n f
    let addends := w :: v.map fun c => fmul w (kvValue p.fmt c)
    (m, List.zipWith (fun c a => (gridAdd p.anchor c a).1) h.2 addends)
  | _ => (m, h.2.map fun c => mkCell (cellG c) true)

/-- The sums of head h of a record over the positions that lie at moon k. -/
def headSum (s : State) (fl : Field) (c : MoonCallRun) (p : KvParams) (k h : Nat) (r : KvRecord) : HeadSum :=
  let g := h / p.group
  let q := rowElems 2 p.d (r.q.drop (h * p.d * 2))
  (homePositions fl k r).foldl (fun acc t =>
    addPosition p q (rowElems (kvElem p.fmt) p.d (rowRead s fl c p r.req g 0 t)) (rowElems (kvElem p.fmt) p.d (rowRead s fl c p r.req g 1 t)) acc) (headZero p)

/-- The cells of a part: request and head as one number, M, L and O. -/
abbrev Cells := List (Nat × BitVec 32 × List (BitVec 256))

/-- The partial of moon k (R219). -/
def attendPart (s : State) (fl : Field) (c : MoonCallRun) (p : KvParams) (k : Nat) (l : List KvRecord) : Cells :=
  l.zipIdx.flatMap fun (e : KvRecord × Nat) => (List.range p.hq).map fun h => let x := headSum s fl c p k h e.1; (e.2 * p.hq + h, x.1, x.2)

/-- Add a partial into a combine area (R147, R214): a request and head that it names first begins there. -/
def combineCells (a b : Cells) : Cells :=
  let fresh := b.filter fun (x : Nat × BitVec 32 × List (BitVec 256)) => !a.any fun (e : Nat × BitVec 32 × List (BitVec 256)) => e.1 == x.1
  (a.map fun (e : Nat × BitVec 32 × List (BitVec 256)) => match b.find? fun (x : Nat × BitVec 32 × List (BitVec 256)) => x.1 == e.1 with
    | some x => (e.1, BitVec.ofNat 32 (fencode fp32 0 false (fmax (fdecode fp32 e.2.1.toNat) (fdecode fp32 x.2.1.toNat))), List.zipWith gridCombine e.2.2 x.2.2)
    | none => e) ++ fresh

/-- Add a partial at a channel. -/
def addPartial (key : Nat) (b : Cells) (s : State) : State :=
  { s with moons := { s.moons with combine := tput key (combineCells ((tfind key s.moons.combine).getD []) b) s.moons.combine } }

/-- Change a call. -/
def modCall (k c : Nat) (g : MoonCallRun → MoonCallRun) (s : State) : State :=
  { s with moons := { s.moons with calls := mapIf (fun x => x.lead == k && x.channel == c) g s.moons.calls } }

/-- A call's sections end with FENCED_UNIT, and so does the call (R199, R227). -/
def callFails (c : MoonCallRun) (s : State) : State :=
  c.sections.foldl (fun s id => fenceEnds c.field id s) (modCall c.lead c.channel (fun x => { x with status := statusCode .fencedUnit }) s)

/-- Charge a call's work to its calling section (R387, R390). -/
def chargeCall (c : MoonCallRun) (bytes macCycles : Nat) (s : State) : State :=
  match c.sections.head? with
  | some id => chargeSecTier c.field id false bytes (chargeSection c.field id (fun x => x) (16 * macCycles) s)
  | none => chargeTier none false bytes s

/-- A part's partials, request by request (R214). -/
def partialsOf (c : MoonCallRun) (p : KvParams) (k : Nat) (part : Cells) : List MoonPartial :=
  (List.range c.count).filterMap fun i =>
    match part.filter fun (e : Nat × BitVec 32 × List (BitVec 256)) => e.1 / p.hq == i with
    | [] => none
    | cells => some { lead := c.lead, channel := c.channel, source := k, cells }

/-- A moon's part of ATTEND or KV_WRITE; its work fails where it reaches a lost byte (R199, R204). -/
def kvPart (k : Nat) (fl : Field) (m : MoonImage) (p : KvParams) (c : MoonCallRun) (s : State) : State :=
  let l := (kvRecords p (m.cls == 1) (m.cls == 2 || c.append) c.count c.args).getD []
  let writes := m.cls = 2 || c.append
  let lost := writes && l.any fun r => (newCells s fl c p k r).any (cellLost s)
  let s := if writes then l.foldl (fun s r => writeRows fl c p k r s) s else s
  if lost then callFails c s
  else if m.cls ≠ 1 then s
  else
    let cells := l.flatMap fun r => (homePositions fl k r).flatMap fun t => (List.range p.hKv).flatMap fun g => rowCells s fl c p r.req g 0 t ++ rowCells s fl c p r.req g 1 t
    let (ok, s) := meetLines (statusCode .fencedUnit) cells s
    let s := noteLost cells s
    if cells.any (cellLost s) || !ok then callFails c s
    else
      let n := sumN (l.map fun r => (homePositions fl k r).length)
      let s := chargeCall c (n * p.hKv * 2 * p.rowBytes) (ceilDiv (n * p.hq * p.d * 2) 1024) s
      let part := attendPart s fl c p k l
      if k = c.lead then addPartial (chanKey c.lead c.channel) part s
      else { s with moons := { s.moons with partials := s.moons.partials ++ partialsOf c p k part } }

/-- The moon that serves a row: that of the stack that holds its chunk; the lead for rows on tier 2 and for unmapped ones (R189, R223). -/
def rowMoon (s : State) (c : MoonCallRun) (a : Nat) : Nat := match dvaCell s c.field a with
  | some ((false, key), _) => key / Config.stackBytes
  | _ => c.lead

/-- A translation fault of a row that moon k serves: the calling sections are fenced (R193, R223). -/
def moonFault (k : Nat) (c : MoonCallRun) (a : Nat) (s : State) : State :=
  let isl := 0x20 + k
  let loc := 63 + 256 * 63 + 65536 * (a / 4096)
  let s := logClass1 0x08 isl loc false (statusCode .fencedUnit) s
  let s := c.sections.foldl (fun s id => fenceSection c.field id isl loc s) s
  modCall c.lead c.channel (fun x => { x with status := statusCode .fencedUnit }) s

/-- The rows of GATHER or SCATTER, in index order, each at the moon of its chunk (R223); what has been done when a row fails stands. -/
def tableRows (c : MoonCallRun) (cls base rows size : Nat) : List (Nat × Nat) → State → State
  | [], s => s
  | (i, idx) :: l, s =>
    let a := base + idx * size
    let count := fun (b : List Byte) (s : State) => modCall c.lead c.channel (fun x => { x with rows := x.rows ++ b, outOfRange := x.outOfRange + b2n (decide (rows ≤ idx)) }) s
    let lost := fun (s : State) => match dvaCell s c.field a with
      | some (cell, w) => if cellLost s cell then callFails c (lostEntry cell s) else if w then callFails c s else moonFault (rowMoon s c a) c a s
      | none => moonFault c.lead c a s
    if rows ≤ idx then tableRows c cls base rows size l (count (if cls = 3 then zeros size else []) s)
    else if cls = 3 then
      let (ok, s) := meetLines (statusCode .fencedUnit) (dvaLines s c.field a size) s
      if !ok then callFails c s
      else match readDva s c.field a size with
      | some bs => tableRows c cls base rows size l (count bs (chargeCall c size 0 s))
      | none => lost s
    else
      match writeDva s c.field a ((c.args.drop (roundUp (4 * c.count) 64 + i * size)).take size) with
      | some s => tableRows c cls base rows size l (chargeCall c size 0 s)
      | none => lost s

/-- The call at the head of a moon's queue. -/
def headCall (s : State) (k : Nat) : Option MoonCallRun :=
  match tget [] k s.moons.queues with
  | [] => none
  | (l, ch) :: _ => s.moons.calls.find? fun c => c.lead == l && c.channel == ch

/-- Take the head off a moon's queue. -/
def popCall (k : Nat) (s : State) : State := { s with moons := { s.moons with queues := tmod [] k (fun l => l.drop 1) s.moons.queues } }

/-- A moon ends its part of the call at the head of its queue (R214, R219, R223). -/
def execMoonCallPartDone (k : StackId) (s : State) : Host.Outcome State Fault Refusal :=
  .next (if !moonRuns s k || s.faults.fencedStacks.getLsbD k then s
    else match headCall s k with
      | none => s
      | some c =>
        let s := modCall c.lead c.channel (fun x => { x with ended := insertN k.val x.ended }) (popCall k s)
        match fieldAt s c.field, callProg s c with
        | some fl, some m => match kvParams m, m.params with
          | some p, _ => liftFences (kvPart k fl m p c s)
          | none, .table base rows log => liftFences (tableRows c m.cls base.toNat rows (2 ^ log) ((callIndices c).zipIdx.map fun (e : Nat × Nat) => (e.2, e.1)) s)
          | none, _ => s
        | _, _ => s)

/-- A partial arrives at the lead's combine engine and is added (R147, R214). -/
def execMoonPartialCombine (k : StackId) (s : State) : Host.Outcome State Fault Refusal :=
  .next (match s.moons.partials.find? fun p => p.lead == k.val with
    | none => s
    | some p => if !moonRuns s k then s
      else addPartial (chanKey p.lead p.channel) p.cells { s with moons := { s.moons with partials := s.moons.partials.erase p } })

/-- The record of one head of an ATTEND result: M, L and O in FP32 (R220). -/
def headResult (p : KvParams) (h : HeadSum) : List Byte :=
  padTo (roundUp (4 * (p.d + 2)) 64) (leBytes 4 h.1.toNat ++ h.2.flatMap fun c => leBytes 4 (gridRead fp32 p.anchor c))

/-- The records of an ATTEND result, request by request and head by head (R220). -/
def attendResults (p : KvParams) (count : Nat) (l : Cells) : List Byte :=
  (List.range (count * p.hq)).flatMap fun i => headResult p (match l.find? fun (e : Nat × BitVec 32 × List (BitVec 256)) => e.1 == i with
    | some e => e.2
    | none => headZero p)

/-- Every moon of a call has ended its part, and every partial has been added; a fenced stack ends none (R214, R227). -/
def callOver (s : State) (c : MoonCallRun) : Bool :=
  let parts := if (maskStacks c.mask).isEmpty then [c.lead] else maskStacks c.mask
  parts.all (fun k => c.ended.contains k || s.faults.fencedStacks.getLsbD k) && !s.moons.partials.any fun p => p.lead == c.lead && p.channel == c.channel

/-- The results of a call: the records of ATTEND, the rows of GATHER, nothing for KV_WRITE and SCATTER (R220, R223). -/
def callBody (s : State) (c : MoonCallRun) : List Byte := match callProg s c with
  | some m => (match kvParams m with
    | some p => if m.cls = 1 then attendResults p c.count ((tfind (chanKey c.lead c.channel) s.moons.combine).getD []) else []
    | none => c.rows)
  | none => []

/-- A call completes: its result area is written and held FETCHes are answered (R213, R220, R227). -/
def execMoonCallComplete (k : StackId) (channel : Fin 64) (cycles : Nat) (s : State) : Host.Outcome State Fault Refusal :=
  .next (match s.moons.calls.find? fun c => c.lead == k.val && c.channel == channel.val with
    | none => s
    | some c =>
      if !moonRuns s k || !callOver s c then s
      else
        let fenced := (maskStacks c.mask ++ [c.lead]).any fun j => s.faults.fencedStacks.getLsbD j
        let s := if fenced then callFails c s else s
        let c := if fenced then { c with status := statusCode .fencedUnit } else c
        let s := writeResults c cycles (callBody s c) s
        let drop := fun (l : List (Nat × Nat)) => l.filter fun (e : Nat × Nat) => !(e.1 == k.val && e.2 == channel.val)
        let s := { s with moons := { s.moons with
          calls := s.moons.calls.filter fun x => !(x.lead == k.val && x.channel == channel.val)
          forwards := s.moons.forwards.filter fun (e : Nat × Nat × Nat) => !(e.2.1 == k.val && e.2.2 == channel.val)
          queues := (s.moons.queues.map fun (e : Nat × List (Nat × Nat)) => (e.1, drop e.2)).filter fun (e : Nat × List (Nat × Nat)) => e.2 != []
          combine := tdel (chanKey k channel) s.moons.combine } }
        liftFences (settleMoonLoads (answerFetches k channel (countCalls c (· - 1) s))))

/-- A FETCH of a result area is answered with the last results, or held while a call is pending (R213). -/
def execMoonResultFetch (k : StackId) (channel : Fin 64) (t : Tile) (ctx : Fin 16) (s : State) : Host.Outcome State Fault Refusal :=
  let tile := 40 * t.row.val + t.col.val
  .next (match s.mem.requests.find? fun q => q.tile == tile && q.ctx == ctx.val with
    | none => s
    | some q =>
      let key := chanKey k channel
      if q.write || resultArea s q.field (q.places.headD 0) != some key || s.moons.answers.contains (key, tile, ctx.val)
        || s.moons.fetches.contains (k.val, channel.val, tile, ctx.val) then s
      else if callPending s k channel then { s with moons := { s.moons with fetches := s.moons.fetches ++ [(k.val, channel.val, tile, ctx.val)] } }
      else { s with moons := { s.moons with answers := s.moons.answers ++ [(key, tile, ctx.val)] } })

/-! ### Services (R224) -/

/-- Bytes that one service step moves at most. -/
def serviceBytes : Nat := 16384

/-- A copy's first byte that cannot be read or written: its stack is fenced, or its frame retired (R199, R204). -/
def lostByte (s : State) (e : Nat × Nat × Nat) : Option CellAt :=
  (if e.2.2 = 0 then [] else [(false, e.1), (false, e.1 + e.2.2 - 1), (false, e.2.1), (false, e.2.1 + e.2.2 - 1)]).find? (cellLost s)

/-- One step of a list of copies: up to n bytes are moved in order; what is left stays, and with it the lost byte that a copy meets. -/
def serviceStep : Nat → List (Nat × Nat × Nat) → State → Option CellAt × List (Nat × Nat × Nat) × State
  | _, [], s => (none, [], s)
  | n, (src, dst, len) :: l, s =>
    match lostByte s (src, dst, len) with
    | some c => (some c, (src, dst, len) :: l, s)
    | none =>
      let m := min n len
      let s := { s with mem := { s.mem with tier1 := mwrites s.mem.tier1 dst (mreads s.mem.tier1 src m) } }
      if m < len then (none, (src + m, dst + m, len - m) :: l, s) else serviceStep (n - m) l s

/-- Bytes of a list of copies. -/
def copiesBytes (l : List (Nat × Nat × Nat)) : Nat := sumN (l.map fun (e : Nat × Nat × Nat) => e.2.2)

/-- A moon runs one service step when its call queue is empty (R224). A row that is lost ends the request whose rows move (R199, R305). -/
def execMoonServiceStep (k : StackId) (s : State) : Host.Outcome State Fault Refusal :=
  .next (match tget [] k.val s.moons.services with
    | [] => s
    | v :: vs =>
      if !moonRuns s k || !moonFree s k then s
      else
        let (lost, rest, s) := serviceStep serviceBytes v.copies s
        let s := chargeTier v.tag false (2 * (copiesBytes v.copies - copiesBytes rest)) s
        let queue := fun (l : List MoonService) (s : State) => { s with moons := { s.moons with services := tset [] k.val l s.moons.services } }
        match lost, v.req with
        | some c, some r => closeReq r (statusCode .fencedUnit) 0 (lostEntry c (queue vs s))
        | some c, none => lostEntry c (queue vs s)
        | none, _ => queue (if rest.isEmpty then vs else { v with copies := rest } :: vs) s)

end Sys2Proof.Machine
end

