-- ==== Sys2Proof/Machine/Sampling.lean ====
section
/-!
DEFINITION. The sampler of the general cores (13): one token from one logit row, and the acceptance of a speculative tree. Every operation rounds
once to FP32, to nearest even (R295). A logit row is its list of FP32 codes, entry v the logit of token v.
-/

namespace Sys2Proof.Machine

/-- FP32 sum, difference and product, rounded once. -/
def f32Add (a b : Nat) : Nat := fencode fp32 0 false (fadd 0 (fdecode fp32 a) (fdecode fp32 b))
def f32Sub (a b : Nat) : Nat := fencode fp32 0 false (fadd 0 (fdecode fp32 a) (fneg (fdecode fp32 b)))
def f32Mul (a b : Nat) : Nat := fencode fp32 0 false (fmul (fdecode fp32 a) (fdecode fp32 b))
/-- a < b as numbers; false with a NaN. -/
def f32Lt (a b : Nat) : Bool := flt (fdecode fp32 a) (fdecode fp32 b)

/-- L2E (R245). -/
def l2e : Nat := 0x3FB8AA3B

/-! ### Philox4x32-10 (R295 step 1; its constants are those of Random123, PRESUMED, log 40) -/

/-- One round. -/
def philoxRound (k c : Nat × Nat × Nat × Nat) : Nat × Nat × Nat × Nat :=
  let p0 := 0xD2511F53 * c.1
  let p1 := 0xCD9E8D57 * c.2.2.1
  ((p1 / 2 ^ 32) ^^^ c.2.1 ^^^ k.1, p1 % 2 ^ 32, (p0 / 2 ^ 32) ^^^ c.2.2.2 ^^^ k.2.1, p0 % 2 ^ 32)

/-- n rounds with the key bumped between rounds. -/
def philoxRounds : Nat → Nat × Nat → Nat × Nat × Nat × Nat → Nat × Nat × Nat × Nat
  | 0, _, c => c
  | n + 1, k, c => philoxRounds n ((k.1 + 0x9E3779B9) % 2 ^ 32, (k.2 + 0xBB67AE85) % 2 ^ 32) (philoxRound (k.1, k.2, 0, 0) c)

/-- The first output word for a seed and a generation index. -/
def philoxWord (seed g : Nat) : Nat := (philoxRounds 10 (seed % 2 ^ 32, seed / 2 ^ 32) (g % 2 ^ 32, 0, 0, 0)).1

/-- u = floor(w / 256) times 2^-24, exactly an FP32 number. -/
def drawOf (seed g : Nat) : Nat := fencode fp32 0 false (.fin false (philoxWord seed g / 256) (-24))

/-! ### The candidate order (R295 step 2) -/

/-- x ranks before y: larger logit first, NaN last, ties to the lower token. -/
def ranksBefore (x y : Nat × Nat) : Bool :=
  let a := fdecode fp32 x.2
  let b := fdecode fp32 y.2
  if a = .nan then b == .nan && decide (x.1 < y.1)
  else if b = .nan then true
  else if flt b a then true
  else if flt a b then false
  else decide (x.1 < y.1)

/-- Put a candidate in its place. -/
def rankIn (x : Nat × Nat) : List (Nat × Nat) → List (Nat × Nat)
  | [] => [x]
  | y :: l => if ranksBefore x y then x :: y :: l else y :: rankIn x l

/-- Tokens with their logits in candidate order. -/
def candidates (row : List Nat) : List (Nat × Nat) := (row.zipIdx.map fun (e : Nat × Nat) => (e.2, e.1)).foldl (fun l x => rankIn x l) []

/-- Running sums of a list, each rounded. -/
def runningSums : Nat → List Nat → List Nat
  | _, [] => []
  | c, e :: l => let d := f32Add c e; d :: runningSums d l

/-- Running sums, the first the first element itself. -/
def runningFrom : List Nat → List Nat
  | [] => []
  | e :: l => e :: runningSums e l

/-! ### One token (R295) -/

/-- The settings that a draw uses (R283). -/
structure SampleCfg where
  temp : Nat
  topP : Nat
  topK : Nat

/-- e_v = EXP2(((x - m) times RECIP(TEMP)) times L2E) (R295 step 4). -/
def candWeight (temp m x : Nat) : Nat := transc 18 (f32Mul (f32Mul (f32Sub x m) (transc 21 temp)) l2e)

/-- The token of a row at generation index g (R295). -/
def sampleToken (k : SampleCfg) (seed g : Nat) (row : List Nat) : Nat :=
  let cand := candidates row
  let first := (cand.head?.map (·.1)).getD 0
  let cold := match fdecode fp32 k.temp with
    | .fin _ 0 _ => true
    | _ => false
  if cold then first
  else
    let kept := cand.take k.topK
    let m := (cand.head?.map (·.2)).getD 0
    let sums := runningFrom (kept.map fun (e : Nat × Nat) => candWeight k.temp m e.2)
    let total := sums.getLast?.getD 0
    let bad := match fdecode fp32 total with
      | .fin false (_ + 1) _ => false
      | _ => true
    if bad then first
    else
      let need := f32Mul k.topP total
      let n := (sums.findIdx fun c => !f32Lt c need) + 1
      let part := (kept.zip sums).take n
      let limit := f32Mul (drawOf seed g) ((part.getLast?.map (·.2)).getD 0)
      match part.find? fun e => f32Lt limit e.2 with
      | some e => e.1.1
      | none => ((part.getLast?.map (·.1.1)).getD first)

/-! ### A tree (R296, R297) -/

/-- Children per node by depth, up to the first zero (R283). -/
def treeBranches : List Nat → List Nat
  | [] => []
  | b :: l => if b = 0 then [] else b :: treeBranches l

/-- Nodes at each depth: 1 for the root, then the products of the branches. -/
def depthCounts : Nat → List Nat → List Nat
  | _, [] => []
  | w, b :: l => w * b :: depthCounts (w * b) l

/-- Nodes of a tree (R283). -/
def treeNodes (branch : List Nat) : Nat := sumN (depthCounts 1 (treeBranches branch))

/-- First node and count of nodes at depth d, from 1; depth 0 is the root. -/
def depthStart (branch : List Nat) (d : Nat) : Nat := sumN ((depthCounts 1 (treeBranches branch)).take (d - 1))
def depthCount (branch : List Nat) (d : Nat) : Nat := if d = 0 then 1 else (depthCounts 1 (treeBranches branch)).getD (d - 1) 0

/-- PARENT of every node: 0xFF at depth 1, else the parent's number (R296). -/
def treeParents (branch : List Nat) : List Nat :=
  ((treeBranches branch).zipIdx.flatMap fun (e : Nat × Nat) =>
    (List.range (depthCount branch (e.2 + 1))).map fun j => if e.2 = 0 then 0xFF else depthStart branch e.2 + j / e.1)

/-- The accepted nodes and committed tokens from a node on: each token is sampled at the current node; a child that carries it is accepted
(R297). `row` gives the logit row of the root (0) or of node i (i + 1); fuel bounds the depth. -/
def acceptFrom (k : SampleCfg) (seed : Nat) (row : Nat → List Nat) (parents nodes : List Nat) : Nat → Nat → Nat → List Nat × List Nat
  | 0, _, _ => ([], [])
  | n + 1, at_, g =>
    let t := sampleToken k seed g (row at_)
    let mine := if at_ = 0 then 0xFF else at_ - 1
    match ((List.range nodes.length).find? fun i => parents.getD i 0 == mine && nodes.getD i 0 == t) with
    | some i => let (a, ts) := acceptFrom k seed row parents nodes n (i + 1) (g + 1); (i :: a, t :: ts)
    | none => ([], [t])

/-- A commit is cut after EOS and after the tokens that still fit (R297). -/
def cutTokens (eos room : Nat) : List Nat → List Nat
  | [] => []
  | t :: l => if room = 0 then [] else if t = eos then [t] else t :: cutTokens eos (room - 1) l

end Sys2Proof.Machine
end

