-- ==== Sys2Proof/Machine/Kv.lean ====
section
/-!
DEFINITION. What serving and comets share (13, 14): rank order, KV pages, firmware pages, the comet of a request, and how a request parks, is
cancelled, and takes its entry.
-/

namespace Sys2Proof.Machine

/-! ### Configurations and requests -/

/-- A valid serving configuration (R283). -/
def configAt (s : State) (c : Nat) : Option ServConfig := tfind c s.serv.configs

/-- The draft configuration of one that speculates (R296). -/
def draftOf (s : State) (c : ServConfig) : Option ServConfig := if c.nodes = 0 then none else configAt s c.block.draftConfig.toNat

/-- BRANCH1 to BRANCH8 as numbers. -/
def branches (c : ServConfig) : List Nat := c.block.branch.map (·.toNat)

/-- The parameters of a configuration's ATTEND program, on the field's lowest stack (R216, R283). -/
def configKv (s : State) (c : ServConfig) : Option KvParams :=
  ((fieldAt s c.block.field).bind fun fl => fl.stackList.head?).bind fun k => (moonProg s k c.block.attendProg).bind kvParams

/-- A dispatched section, the field's step or an uncommitted sample holds the request. -/
def inFlight (s : State) (r : Nat) (q : Request) : Bool :=
  (match fieldAt s q.field with
    | some fl => (sectionsOf fl).any (fun x => x.serves.any fun p => p.1 == r) || (match fl.step with
        | some st => st.rows.any (fun e => e == (r, q.order)) || st.chunks.any (fun e => e.1 == r)
        | none => false)
    | none => false)
  || s.serv.samples.any fun (e : Nat × Nat × Commit) => e.2.1 == q.order

/-! ### Firmware pages (R287, R292, R293) -/

/-- The key under which a KV page stands in its field's list; above every DVA. -/
def kvKey (r page : Nat) (draft : Bool) : Nat := 2 ^ 53 + 2 * (65536 * r + page) + b2n draft

/-- Frames of a KV page of a byte size (R292). -/
def kvFrames (bytes : Nat) : Nat := ceilDiv bytes Config.frame

/-- Put a page into a field's translation. -/
def putPage (f : Nat) (p : Page) (s : State) : State := modField f (fun fl => { fl with pages := fl.pages ++ [p] }) s

/-- A KV page of a request in its home stack; one it holds already stays (R292, R293). -/
def allocKv (f r page : Nat) (draft : Bool) (bytes : Nat) (s : State) : Option State :=
  match fieldAt s f with
  | none => none
  | some fl =>
    if (kvPage fl r page draft).isSome then some s
    else (allocT1 f fl.stackList.length (homeColumn fl r page) (kvFrames bytes) s).map fun (e : Nat × State) =>
      putPage f { dva := kvKey r page draft, bytes := kvFrames bytes * Config.frame, place := .tier1, frame := e.1, write := true, demotable := true
                  demoted := false, touch := e.2.fld.useStamp, owner := .kv r page draft } e.2

/-- Pages of one list up to a count. -/
def allocList (f r n : Nat) (draft : Bool) (bytes : Nat) (s : State) : Option State :=
  (List.range n).foldl (fun (o : Option State) p => o.bind (allocKv f r p draft bytes)) (some s)

/-- Pages a request holds in a list. -/
def heldPages (s : State) (f r : Nat) (draft : Bool) : Nat := match fieldAt s f with
  | some fl => (fl.pages.filter fun p => match p.owner with | .kv x _ d => x == r && d == draft | _ => false).length
  | none => 0

/-- The entry's page counts follow its pages (R280). -/
def countPages (r : Nat) (s : State) : State :=
  modReq r (fun q => { q with pages := heldPages s q.field r false, draftPages := heldPages s q.field r true }) s

/-- Allocate every page that positions 0 to n - 1 of a request reach, in both lists; none where one cannot be had (R293, R296). -/
def allocPositions (r n : Nat) (q : Request) (s : State) : Option State :=
  match configAt s q.config with
  | none => none
  | some c =>
    let k := ceilDiv n 256
    match allocList q.field r k false c.pageBytes s with
    | none => none
    | some s => (match draftOf s c with
        | some d => allocList q.field r k true d.pageBytes s
        | none => some s).map (countPages r)

/-- Pages of a field that satisfy a test go; frames are freed (R194, R287, R294). -/
def dropPages (f : Nat) (p : Page → Bool) (s : State) : State :=
  match fieldAt s f with
  | none => s
  | some fl =>
    let gone := (fl.pages.filter p).map (·.dva)
    let s := modField f (fun fl => { fl with pages := fl.pages.filter fun x => !p x }) s
    framesFreed f { s with mem := { s.mem with moves := s.mem.moves.filter fun m => !(m.field == f && gone.contains m.dva) } }

/-- Every page of a request lies in tier 1 (R288, R293), and no COMPACT still moves its rows (R298). -/
def allNear (s : State) (r : Nat) (q : Request) : Bool :=
  (match fieldAt s q.field with
    | some fl => fl.pages.all fun p => !pageOf r p || !p.demoted
    | none => false)
  && !s.moons.services.any fun (e : Nat × List MoonService) => e.2.any fun v => v.req == some r

/-- Start promoting a request's demoted pages while tier-1 frames are free (R293). -/
def promoteReq (r : Nat) (q : Request) (s : State) : State :=
  match fieldAt s q.field with
  | none => s
  | some fl => (fl.pages.filter fun p => pageOf r p && p.demoted && !pageLost s fl p).foldl (fun s p =>
      if s.mem.moves.any fun m => m.field == q.field && m.dva == p.dva then s
      else match fieldAt s q.field with
        | none => s
        | some fl => match promoteFrame s q.field fl p with
          | some fr => { s with mem := { s.mem with moves := s.mem.moves ++ [{ field := q.field, dva := p.dva, promote := true, frame := fr }] } }
          | none => s) s

/-! ### Parking (R314 to R316) -/

/-- Page records of a request's comet: ceil(KV_DONE / 256) pages of each list (R311). -/
def recordPages (q : Request) : Nat := ceilDiv q.kvDone 256

/-- The comet's largest possible length (R314). -/
def cometMax (s : State) (q : Request) : Nat :=
  let rec_ := fun (bytes : Nat) => 64 + roundUp (bytes / 4096 * 4104) 64
  match configAt s q.config with
  | none => 0
  | some c => 5696 + roundUp (4 * q.tokens) 64 + recordPages q * (rec_ c.pageBytes + match draftOf s c with
      | some d => rec_ d.pageBytes
      | none => 0)

/-- Frames of the module pool for a comet, reserved (R314). -/
def reservePool (bytes : Nat) (s : State) : Option (CometDest × State) :=
  let n := ceilDiv bytes Config.frame
  (firstFit (usedModule s) (capModule s) 1 0 n).map fun fr => (.pool fr n, { s with mem := { s.mem with poolUsed := s.mem.poolUsed ++ [(fr, n)] } })

/-- The entry becomes PARKED and its comet is on its way (R315 step 1). -/
def enterPark (r : Nat) (ask : ParkAsk) (d : CometDest) (s : State) : State :=
  modReq r (fun q => { q with before := q.state, state := .parked, park := some (ask, some d), parkDesc := none }) s

/-- The first entry of the active bank that matches a destination and class (R349). -/
def routeFor (s : State) (dest : BitVec 20) (tc : Nat) : Option Route :=
  (s.fab.active.find? fun (e : Nat × Route) => e.2.valid && decide (e.2.lo.toNat ≤ dest.toNat ∧ dest.toNat ≤ e.2.hi.toNat) && e.2.tcMask.getLsbD tc).map (·.2)

/-- A link carries traffic (R344, R362). -/
def linkLive (s : State) (l : Nat) : Bool :=
  let x := tget ({} : Link) l s.fab.links
  x.enable && (x.state == .up || x.state == .upSpare)

/-- A transfer to a destination can start: its first hop is a live link, or the module itself (R349). -/
def routeOpen (s : State) (dest : BitVec 20) (tc : Nat) : Bool := match routeFor s dest tc with
  | some e => e.egress == 0 || (decide (1 ≤ e.egress.toNat ∧ e.egress.toNat ≤ 6) && linkLive s (e.egress.toNat - 1))
  | none => false

/-- Start a transfer at this source: its packets go out in OFFSET order (R347, R352). -/
def startTx (use : TxUse) (dest : BitVec 20) (kind : Nat) (tag : BitVec 8) (arg0 : BitVec 8) (arg2 arg3 : BitVec 16) (bytes : List Byte) (s : State) : State :=
  let t : TxRun := { id := s.fab.nextId, dest, kind, use, bytes, acked := 0, sent := 0, window := s.fab.windowUs.toNat, times := [], tag, arg0, arg1 := 0, arg2, arg3 }
  { s with fab := { s.fab with tx := s.fab.tx ++ [t], nextId := (s.fab.nextId + 1) % 2 ^ 32 } }

/-- A park whose request is at a step boundary takes effect, or fails for want of space or of a route (R314 to R316). -/
def tryPark (r : Nat) (s : State) : State :=
  match reqAt s r with
  | none => s
  | some q =>
    let clear := modReq r (fun q => { q with park := none, parkDesc := none, idle := 0 })
    match q.park with
    | some (ask, none) =>
      if !openState q.state || inFlight s r q then s
      else
        let need := cometMax s q
        match ask, q.parkDesc with
        | .descriptor a, some d =>
          match d.destPlace.toNat with
          | 0 => (match reservePool need s with
            | some (p, s) => enterPark r ask p s
            | none => finish a .bufferTooSmall 0 0 (clear s))
          | 1 => if d.destBytes.toNat < need then finish a .bufferTooSmall 0 0 (clear s) else enterPark r ask (.host d.destAddr.toNat) s
          | _ => if routeOpen s d.destNode 2 then enterPark r ask (.peer d.destNode.toNat) s else finish a .linkDown 0 0 (clear s)
        | _, _ => (match reservePool need s with
          | some (p, s) => enterPark r ask p s
          | none => clear s)
    | _ => s

/-- A PARK reaches the request table (R306, R314): it governs an entry that is not being cancelled or parked; an idle park gives way to it (R324). -/
def applyPark (acc : Nat) (d : ParkDesc) (r : Nat) (s : State) : State :=
  match reqAt s r with
  | none => finish acc .alreadyDone 0 0 s
  | some q =>
    let free := match q.park with
      | none => true
      | some (.idle, none) => true
      | _ => false
    if openState q.state && free then
      tryPark r (setPhase acc .waiting (modReq r (fun q => { q with park := some (.descriptor acc, none), parkDesc := some d, idle := if q.park.isSome then 0 else q.idle }) s))
    else finish acc .alreadyDone 0 0 s

/-- A REQUEST_CANCEL reaches the request table (R303, R306). -/
def applyCancel (acc : Nat) (r : Nat) (s : State) : State :=
  match reqAt s r with
  | none => finish acc .alreadyDone 0 0 s
  | some q =>
    if openState q.state && q.park.isNone then beginCancel r (some acc) (setPhase acc .waiting s)
    else if q.state = .cancelling ∧ q.cancels = [] ∧ q.noDeadline = false ∧ q.due = s.tick then modReq r (fun q => { q with cancels := [acc] }) (setPhase acc .waiting s)
    else finish acc .alreadyDone 0 0 s

/-- The entry that completes a descriptor. -/
def reqOfAcc (s : State) (a : Nat) : Option Nat := (s.serv.reqs.find? fun (e : Nat × Request) => e.2.acc == some a).map (·.1)

/-- A cancel or a park whose target has its entry takes effect; one whose target has completed finds nothing; one whose target carries a section has
named no request (R279, R324). -/
def settleHold (s : State) (e : Nat × Nat × Option ParkDesc) : State :=
  let drop := { s with serv := { s.serv with holds := s.serv.holds.erase e } }
  match reqOfAcc s e.2.1, tfind e.2.1 s.host.opens with
  | some r, _ => (match e.2.2 with
    | some d => applyPark e.1 d r drop
    | none => applyCancel e.1 r drop)
  | none, none => finish e.1 .alreadyDone 0 0 drop
  | none, some _ => if (sectionOfAcc s e.2.1).isSome then finish e.1 .countMismatch 0 0 drop else s

/-- Every held cancel and park is looked at again. -/
def settleHolds (s : State) : State := s.serv.holds.foldl settleHold s

/-- A REQUEST_CANCEL or a PARK finds its target (R272, R279, R324). -/
def targetRequest (acc q seq : Nat) (park : Option ParkDesc) (s : State) : State :=
  match targetDesc s q seq with
  | none => finish acc .alreadyDone 0 0 s
  | some (a, t) =>
    if !(t.op == 0x40 || t.op == 0x43) then finish acc .countMismatch 0 0 s
    else settleHolds (setPhase acc .waiting { s with serv := { s.serv with holds := s.serv.holds ++ [(acc, a, park)] } })

/-! ### Entries (R280, R281, R285, R320) -/

/-- The FREE entry that is taken next: the lowest (log 41). -/
def freeEntry (s : State) : Option Nat := (List.range Config.requests).find? fun r => (reqAt s r).isNone

/-- Pages of a list that an AWAIT_KV request must receive (R301). -/
def promptPages (q : Request) : Nat := ceilDiv (q.promptTokens - 1) 256

/-- A QUEUED entry whose prompt needs no section moves on to DECODE at once, by way of PREFILL for a resumed comet (R281, R320; log 42). -/
def settleQueued (q : Request) : Request :=
  if q.state ≠ .queued then q
  else if q.promptTokens ≤ q.kvDone + 1 then { q with state := if q.prefillOnly then .prefill else .decode }
  else if q.awaitKv = true ∧ (List.range (promptPages q)).all (fun p => q.received.contains p) = true then { q with state := .decode, kvDone := q.promptTokens - 1 }
  else q

/-- UNPACK of a page record: its bytes, none where a block is malformed (R320, R225). -/
def unpackRecord (p : CometPage) (bytes : Nat) : Option (List Byte) :=
  if p.blocks.length ≠ bytes / 4096 then none
  else p.blocks.foldl (fun (o : Option (List Byte)) b => o.bind fun l => (unpackBlock p.column b).map fun x => l ++ x) (some [])

/-- Write bytes into a KV page. -/
def writeKv (f r page : Nat) (draft : Bool) (bs : List Byte) (s : State) : State :=
  match (fieldAt s f).bind fun fl => (kvPage fl r page draft).map fun p => (fl, p) with
  | some (fl, p) => bs.zipIdx.foldl (fun s (e : Byte × Nat) => match unitCell s fl p e.2 with
      | some c => cellWrite s c e.1
      | none => s) s
  | none => s

/-- Restore the page records of a comet onto the pages of entry r (R320). -/
def restoreRecords (f r : Nat) (c : ServConfig) (d : Option ServConfig) (l : List CometPage) (s : State) : Option State :=
  l.foldl (fun (o : Option State) p => o.bind fun s =>
    let size := if p.draft then (d.map (·.pageBytes)).getD 0 else c.pageBytes
    (unpackRecord p size).map fun bs => writeKv f r p.page p.draft bs s) (some s)

/-- A page that a comet is unpacked into lies on a fenced stack (R204). -/
def unpackLost (s : State) (f r : Nat) : Bool := match fieldAt s f with
  | some fl => fl.pages.any fun p => pageOf r p && pageLost s fl p
  | none => false

/-- The comet of a waiter takes its pages and its records; the status of a failure (R204, R318 check 8, R320). -/
def restoreComet (r : Nat) (w : Waiter) (s : State) : Status × State :=
  match w.comet with
  | none => (.ok, s)
  | some (x, handle, right) =>
    if (match handle with | some h => (tfind h s.serv.comets).isNone | none => false) then (.countMismatch, s)
    else match configAt s w.req.config, allocPositions r w.req.kvDone w.req s with
    | some c, some t =>
      if !right then (.digestFail, s)
      else if unpackLost t w.req.field r then (.fencedUnit, s)
      else match restoreRecords w.req.field r c (draftOf s c) x.records t with
        | none => (.digestFail, s)
        | some t => (.ok, match handle with
          | some h => { t with serv := { t.serv with comets := tdel h t.serv.comets } }
          | none => t)
    | _, _ => (.noPlacement, s)

/-- A request that passed its checks takes entry r and enters QUEUED (R281, R285, R320). -/
def takeEntry (r : Nat) (w : Waiter) (s : State) : State :=
  let t := setReq s r w.req
  match restoreComet r w t with
  | (.ok, t) => settleHolds (place w.acc (modReq r settleQueued t))
  | (st, _) => settleHolds (finish w.acc st 0 0 s)

/-- A request that passed its checks takes a FREE entry, or waits for one in acceptance order (R285). -/
def awaitEntry (w : Waiter) (s : State) : State :=
  match freeEntry s, s.serv.waiters with
  | some r, [] => takeEntry r w s
  | _, _ =>
    let before := s.serv.waiters.filter fun x => decide (x.acc < w.acc)
    let after := s.serv.waiters.filter fun x => decide (w.acc < x.acc)
    setPhase w.acc .waiting { s with serv := { s.serv with waiters := before ++ [w] ++ after } }

end Sys2Proof.Machine
end

