-- ==== Sys2Proof/Machine/Serving.lean ====
section
/-!
DEFINITION. Meanings of the serving commands (13, 18): modes, configurations, replica groups, submission, cancels, steps, sampling and commits.
-/

namespace Sys2Proof.Machine

/-! ### Modes and maps (R254, R282) -/

/-- SERVE_MODE (R282). -/
def execServeMode (b : ServeModeBlock) (s : State) : Host.Outcome State Fault Refusal :=
  .next (mailbox 0x0020 (fun s =>
    let chunk := b.rideChunk.toNat
    let rows := b.rideRows.toNat
    let mods := b.sliceModules.toNat
    if 4 < weight 64 b.rideMask.toNat ∨ chunk < 1 ∨ 512 < chunk ∨ rows < 1 ∨ 4096 < rows ∨ mods < 1 ∨ (if b.firmware then 262144 else 512) < mods
        ∨ s.serv.reqs ≠ [] then mboxEnd 0x0020 .countMismatch [] s
    else mboxEnd 0x0020 .ok [] { s with serv := { s.serv with
      firmware := b.firmware, rideMask := b.rideMask, rideChunk := chunk, rideRows := rows, sliceModules := mods } }) s)

/-- EXPERT_MAP (R254, R282). -/
def execExpertMap (config : BitVec 8) (count : BitVec 32) (entries : List ExpertEntry) (s : State) : Host.Outcome State Fault Refusal :=
  .next (mailbox 0x0022 (fun s =>
    if !s.serv.firmware then mboxEnd 0x0022 .noPlacement [] s
    else if (configAt s config.toNat).isNone then mboxEnd 0x0022 .countMismatch [] s
    else if count = 0 then mboxEnd 0x0022 .okEmpty [] s
    else mboxEnd 0x0022 .ok [] { s with serv := { s.serv with experts := tput config.toNat (entries.take count.toNat) s.serv.experts } }) s)

/-! ### Configurations (R283, R287, R309) -/

/-- The FP32 code of TEMP is zero or positive and finite; of TOP_P, above 0 and at most 1 (R283). -/
def tempOk (x : BitVec 32) : Bool := match fdecode fp32 x.toNat with
  | .fin _ 0 _ => true
  | .fin false _ _ => true
  | _ => false
def topPOk (x : BitVec 32) : Bool := match fdecode fp32 x.toNat with
  | .fin false (m + 1) e => !flt (ofInt 1 0) (.fin false (m + 1) e)
  | _ => false

/-- A value of the block is out of its range (R283). -/
def configRangeBad (b : ServeConfigBlock) : Bool :=
  !decide (1 ≤ b.maxContext.toNat ∧ b.maxContext.toNat ≤ 16777216) || !decide (1 ≤ b.maxBatch.toNat ∧ b.maxBatch.toNat ≤ 4096)
    || b.prefillTokens == 0 || !decide (2 ≤ b.vocab.toNat ∧ b.vocab.toNat ≤ 1048576) || !tempOk b.temp || !topPOk b.topP
    || !decide (1 ≤ b.topK.toNat ∧ b.topK.toNat ≤ b.vocab.toNat) || b.branch.any (fun x => decide (8 < x.toNat))

/-- A request, or one that waits for an entry, uses the configuration, or uses it as a draft (R283). -/
def configUsed (s : State) (i : Nat) : Bool :=
  ((s.serv.reqs.map fun (e : Nat × Request) => e.2.config) ++ s.serv.waiters.map fun w => w.req.config).any fun c =>
    c == i || match configAt s c with
      | some x => decide (0 < x.nodes) && x.block.draftConfig.toNat == i
      | none => false

/-- First DVA and bytes of a configuration's logits range (R287). -/
def logitsDva (i : Nat) : Nat := Config.firmwareDva + i * Config.logitsStride
def logitsBytes (b : ServeConfigBlock) (nodes : Nat) : Nat := roundUp (b.maxBatch.toNat * (1 + nodes) * b.vocab.toNat * 4) 2097152

/-- n pages of 2 MiB from a DVA upward, written by the firmware (R287). -/
def allocRange (f : Nat) (o : PageOwner) : Nat → Nat → State → Option State
  | 0, _, s => some s
  | n + 1, a, s => (allocT1 f 1 0 512 s).bind fun (e : Nat × State) =>
      allocRange f o n (a + 2097152) (putPage f { dva := a, bytes := 2097152, place := .tier1, frame := e.1, write := true, demotable := false
                                                  demoted := false, touch := 0, owner := o } e.2)

/-- A configuration goes, with its logits range, its expert map and its place in a replica group (R283, R287, R383). -/
def removeConfig (i : Nat) (s : State) : State :=
  match configAt s i with
  | none => s
  | some c =>
    let groups := (s.serv.groups.map fun (e : Nat × List Nat) => (e.1, e.2.filter (· != i))).filter fun (e : Nat × List Nat) => e.2 != []
    dropPages c.block.field (fun p => p.owner == .logits i)
      { s with serv := { s.serv with configs := tdel i s.serv.configs, experts := tdel i s.serv.experts, groups } }

/-- The ATTEND programs of the field's stacks in service in a slot, when each holds one and all are equal (R283). -/
def attendProgram (s : State) (fl : Field) (p : Nat) : Option MoonImage :=
  let l := (fl.stackList.filter fun k => !s.faults.fencedStacks.getLsbD k).map fun k => moonProg s k p
  match l with
  | some m :: rest => if m.cls = 1 ∧ rest.all (fun x => (x.map (·.progHash)) == some m.progHash) = true then some m else none
  | _ => none

/-- The checked skein of a slot: SHA-384 of its header (R309). -/
def slotHash (fl : Field) (slot : Nat) : List Byte := match slotSkein fl slot with
  | some i => leBytes 48 i.headerHash.toNat
  | none => zeros 48

/-- SERVE_CONFIG block bytes 32 to 59 (R309). -/
def samplingBytes (b : ServeConfigBlock) : List Byte :=
  leBytes 4 b.vocab.toNat ++ leBytes 4 b.eos.toNat ++ leBytes 4 b.temp.toNat ++ leBytes 4 b.topP.toNat ++ leBytes 4 b.topK.toNat
    ++ (List.range 8).map fun i => b.branch.getD i 0

/-- The skein record of a configuration (R309). -/
def skeinRecord (s : State) (fl : Field) (b : ServeConfigBlock) (m : MoonImage) (draft : Option ServConfig) : List Byte :=
  let d := match draft with
    | some c => (slotHash fl c.block.prefillSlot ++ slotHash fl c.block.decodeSlot, match attendProgram s fl c.block.attendProg with
        | some x => leBytes 48 x.progHash.toNat
        | none => zeros 48, leBytes 48 c.block.manifestDigest.toNat)
    | none => (zeros 96, zeros 48, zeros 48)
  slotHash fl b.prefillSlot ++ slotHash fl b.decodeSlot ++ d.1 ++ leBytes 48 m.progHash.toNat ++ d.2.1 ++ samplingBytes b ++ d.2.2

/-- Header hashes of the images that a configuration names: its own and its draft's prefill and decode skeins (R105, R283). -/
def namedSkeins (fl : Field) (b : ServeConfigBlock) (draft : Option ServConfig) : List Digest :=
  ([b.prefillSlot.val, b.decodeSlot.val].filterMap fun k => (slotSkein fl k).map (·.headerHash)) ++ (match draft with | some c => c.skeins.take 2 | none => [])

/-- A valid configuration is defined: its status and the state it leaves (R283). -/
def defineConfig (b : ServeConfigBlock) (s : State) : Status × State :=
  let i := b.index.val
  let t := removeConfig i s
  let branch := b.branch.map (·.toNat)
  let nodes := treeNodes branch
  let draft := if nodes = 0 then none else configAt t b.draftConfig.toNat
  let bytes := logitsBytes b nodes
  if configRangeBad b || decide (64 < nodes) || (decide (0 < nodes) && (draft.map (·.block.field)) != some b.field) || decide (64 * gib < bytes) then (.countMismatch, s)
  else match fieldAt t b.field with
    | none => (.noPlacement, s)
    | some fl => match attendProgram t fl b.attendProg with
      | none => (.noPlacement, s)
      | some m =>
        if (slotSkein fl b.prefillSlot).isNone || (slotSkein fl b.decodeSlot).isNone || decide (s.mem.fwReserve.toNat < 2) then (.noPlacement, s)
        else match allocRange b.field (.logits i) (bytes / 2097152) (logitsDva i) t with
          | none => (.noPlacement, s)
          | some t =>
            let record := sha384 (skeinRecord t fl b m draft)
            let c : ServConfig := { block := b, record, nodes, pageBytes := (match kvParams m with | some p => p.pageBytes | none => 0)
                                    skeins := namedSkeins fl b draft }
            (.ok, { t with serv := { t.serv with configs := tput i c t.serv.configs } })

/-- SERVE_CONFIG (R283). -/
def execServeConfig (b : ServeConfigBlock) (s : State) : Host.Outcome State Fault Refusal :=
  .next (mailbox 0x0021 (fun s =>
    if configUsed s b.index then mboxEnd 0x0021 .countMismatch [] s
    else if !b.valid then mboxEnd 0x0021 .ok [] (removeConfig b.index s)
    else let (st, s) := defineConfig b s; mboxEnd 0x0021 st [] s) s)

/-! ### Replica groups (R383, R384) -/

/-- The members of a group may form it (R383). -/
def groupOk (s : State) (g : Nat) (l : List Nat) : Bool :=
  let cs := l.filterMap (configAt s)
  cs.length == l.length && distinct (cs.map fun c => c.block.field) && cs.all (fun c => cs.all fun d => c.record == d.record && c.block.manifestDigest == d.block.manifestDigest)
    && !s.serv.groups.any fun (e : Nat × List Nat) => e.1 != g && e.2.any fun m => l.contains m

/-- PLACE_GROUP (R383). -/
def execPlaceGroup (group : BitVec 8) (count : BitVec 8) (members : List ConfId) (s : State) : Host.Outcome State Fault Refusal :=
  .next (mailbox 0x0051 (fun s =>
    let g := group.toNat
    let l := (members.take count.toNat).map (·.val)
    if 63 < g ∨ 4 < count.toNat then mboxEnd 0x0051 .countMismatch [] s
    else if count = 0 then mboxEnd 0x0051 .ok [] { s with serv := { s.serv with groups := tdel g s.serv.groups } }
    else if groupOk s g l then mboxEnd 0x0051 .ok [] { s with serv := { s.serv with groups := tput g l s.serv.groups } }
    else mboxEnd 0x0051 .countMismatch [] s) s)

/-- A shard of a manifest is quarantined in a field (R285, R336). -/
def manifestHeld (s : State) (f : Nat) (d : Digest) : Bool :=
  (tget [] f s.models.tier1).any fun m => m.digest == d && m.copies.any (·.quarantined)

/-- Entries of a field that are not FREE. -/
def fieldEntries (s : State) (f : Nat) : Nat := (s.serv.reqs.filter fun (e : Nat × Request) => e.2.field == f).length

/-- The member that takes a request: the fewest entries, ties to the named one, then to the lower field (R384); none when every one is left out. -/
def placeMember (s : State) (c : Nat) : Option Nat :=
  match s.serv.groups.find? fun (e : Nat × List Nat) => e.2.contains c with
  | none => some c
  | some g =>
    let ok := g.2.filterMap fun m => (configAt s m).bind fun x => if manifestHeld s x.block.field x.block.manifestDigest then none else some (m, x.block.field.val)
    (ok.foldl (fun (best : Option (Nat × Nat)) (e : Nat × Nat) => match best with
      | none => some e
      | some b =>
        let nb := fieldEntries s b.2
        let ne := fieldEntries s e.2
        if ne < nb ∨ (ne = nb ∧ (e.1 = c ∨ (b.1 ≠ c ∧ e.2 < b.2))) then some e else some b) none).map (·.1)

/-! ### Submission (R284, R285) -/

/-- Zero fields of a REQUEST_SUBMIT (R276); a meaningless zero comes before a MAX_NEW of zero (log 43). -/
def submitZero (d : SubmitDesc) : Option Status :=
  if d.promptTokens = 0 ∨ (d.noDeadline = false ∧ d.deadline = 0) ∨ (d.parkEn = true ∧ d.parkLimit = 0) then some .countMismatch
  else if d.maxNew = 0 then some .okEmpty
  else none

/-- Checks 1 to 4 of R285; the first failure. -/
def submitCheck (s : State) (d : SubmitDesc) (prompt : List (BitVec 32)) : Option Status :=
  match submitZero d with
  | some st => some st
  | none => match (if d.config.toNat < 256 then configAt s d.config.toNat else none) with
    | none => some .countMismatch
    | some c =>
      if (d.awaitKv && d.prefillOnly) || prompt.any (fun t => decide (c.block.vocab.toNat ≤ t.toNat)) then some .countMismatch
      else if c.block.maxContext.toNat < d.promptTokens.toNat + d.maxNew.toNat then some .shapeExceedsPlan
      else if !s.serv.firmware && (d.awaitKv || d.prefillOnly) then some .noPlacement
      else none

/-- The entry of a submission (R280, R282, R291). -/
def submitEntry (s : State) (acc since : Nat) (h : DescHdr) (d : SubmitDesc) (prompt : List (BitVec 32)) (member field : Nat) : Request :=
  { state := .queued, awaitKv := d.awaitKv, prefillOnly := d.prefillOnly, retain := d.retain, parkEn := d.parkEn, noDeadline := d.noDeadline
    cls := h.cls, ride := s.serv.rideMask.getLsbD h.cls.toNat, tag := h.tag, config := member, tokens := d.promptTokens.toNat
    promptTokens := d.promptTokens.toNat, maxNew := d.maxNew.toNat, kvDone := 0, generated := 0, steps := 0, rngSeed := d.rngSeed
    due := since + d.deadline.toNat, parkLimit := d.parkLimit.toNat, idle := 0, field, acc := some acc, order := acc, outAddr := d.outputAddr.toNat
    base := 0, ids := prompt, received := [], retained := false, park := none, parkDesc := none, before := .queued, cancels := [], pages := 0, draftPages := 0 }

/-- The control tick at which a descriptor was accepted. -/
def acceptedAt (s : State) (acc : Nat) : Nat := match tfind acc s.host.opens with
  | some d => d.since
  | none => s.tick

/-- REQUEST_SUBMIT (R285): its checks, its place (R384), then an entry of the table or the wait for one. -/
def execRequestSubmit (q : QId) (h : DescHdr) (d : SubmitDesc) (prompt : List (BitVec 32)) (s : State) : Host.Outcome State Fault Refusal :=
  .next (withDesc q .requestSubmit h false (fun acc s =>
    let prompt := (prompt ++ List.replicate d.promptTokens.toNat 0).take d.promptTokens.toNat
    let fail := fun st => settleHolds (finish acc st 0 0 s)
    if (submitZero d).isNone && !hostDma s acc then fail .linkDown
    else match submitCheck s d prompt with
    | some st => fail st
    | none => match placeMember s d.config.toNat with
      | none => fail .quarantinedShard
      | some m => match configAt s m with
        | none => fail .countMismatch
        | some c =>
          if manifestHeld s c.block.field c.block.manifestDigest then fail .quarantinedShard
          else awaitEntry { acc, req := submitEntry s acc (acceptedAt s acc) h d prompt m c.block.field, comet := none } (wakeField c.block.field s)) s)

/-- ENTRY_ALLOCATE: the earliest waiting request takes a FREE entry (R285). -/
def execEntryAllocate (s : State) : Host.Outcome State Fault Refusal :=
  .next (match freeEntry s, s.serv.waiters with
    | some r, w :: rest => if running s then takeEntry r w { s with serv := { s.serv with waiters := rest } } else s
    | _, _ => s)

/-- REQUEST_CANCEL (R303). -/
def execRequestCancel (q : QId) (h : DescHdr) (targetSq : QId) (targetSeq : BitVec 16) (s : State) : Host.Outcome State Fault Refusal :=
  .next (withDesc q .requestCancel h false (fun acc s => targetRequest acc targetSq targetSeq.toNat none s) s)

/-- DEADLINE_EXPIRY: DUE has been reached, and the deadline acts as a cancel (R291, R303). -/
def execDeadlineExpiry (r : ReqId) (s : State) : Host.Outcome State Fault Refusal :=
  .next (match reqAt s r with
    | some q => if running s && openState q.state && !q.noDeadline && q.park.isNone && decide (q.due ≤ s.tick) then beginCancel r none s else s
    | none => s)

/-! ### Steps (R286 to R290) -/

/-- Axis values of a firmware section leave it empty (R166 step 5). -/
def emptyRun (i : SkeinImage) (scalars : List Nat) : Bool := (suppliedAxes i).any fun a => scalars.getD a.scalar 0 == 0

/-- The page lists of requests are published for a dispatch (R217). -/
def publishLists (f : Nat) (reqs : List Nat) (s : State) : State :=
  modField f (fun fl =>
    { fl with lists := (fl.lists.filter fun p => !reqs.any fun r => pageOf r p) ++ fl.pages.filter fun p => reqs.any fun r => pageOf r p }) s

/-- Dispatch a section of the firmware: the checks of R166, then the sequencer. none where a check refuses it; a refusal of R305 ends its requests. -/
def firmwareSection (f slot : Nat) (scalars : List Nat) (config : Nat) (prefill : Bool) (serves : List (Nat × Nat)) (s : State) : Option Nat × State :=
  match fieldAt s f with
  | none => (none, s)
  | some fl => match slotSkein fl slot with
    | none => (none, s)
    | some i => match checkRun s f fl i scalars with
      | some st =>
        let s := if endsRequests (statusCode st) then serves.foldl (fun s (e : Nat × Nat) => closeReq e.1 (statusCode st) 0 s) s else s
        (none, s)
      | none =>
        let e := emptyRun i scalars
        let x := { newSection s f none slot scalars with
          empty := e, watchdog := s.arbs.stepTicks.toNat, feeds := feedsFor i scalars e, bound := runBound s f fl i, isPrefill := prefill
          config := some config, serves }
        (some x.id, enterSection f x (countSection (publishLists f (serves.map (·.1)) s)))

/-- Take part in a step: IDLE clears, and a QUEUED request enters PREFILL (R280, R281). -/
def joinStep (r : Nat) (s : State) : State :=
  modReq r (fun q => { q with idle := 0, state := if q.state = .queued then .prefill else q.state }) s

/-- A request may be scheduled: no park waits for it, it is not in flight, its pages are near (R288). -/
def schedulable (s : State) (r : Nat) (q : Request) : Bool := q.park.isNone && !inFlight s r q && allNear s r q

/-- A request that still has prompt positions to write in this module (R289, R290, R301). -/
def hasPrompt (q : Request) : Bool := (q.state == .queued || q.state == .prefill) && !q.awaitKv && decide (q.kvDone + 1 < q.promptTokens)

/-- Take the ready DECODE requests of a configuration in rank order, up to a limit; each gets its pages first (R288, R293). -/
def takeRows (f c nodes limit : Nat) (l : List (Nat × Request)) (s : State) : State :=
  l.foldl (fun s (e : Nat × Request) =>
    match (fieldAt s f).bind (·.step), reqAt s e.1 with
    | some st, some q =>
      if q.state ≠ .decode ∨ q.config ≠ c ∨ limit ≤ st.rows.length ∨ schedulable s e.1 q = false then s
      else match allocPositions e.1 (q.tokens + nodes) q s with
        | some t => modField f (fun fl => { fl with step := some { st with rows := st.rows ++ [(e.1, q.order)] } }) t
        | none => s
    | _, _ => s) s

/-- Chunks of the ride-along requests of a configuration in rank order, until RIDE_ROWS would be exceeded (R290). True once it is. -/
def takeChunks (f c : Nat) (l : List (Nat × Request)) (s : State) : State :=
  (l.foldl (fun (a : Bool × State) (e : Nat × Request) =>
    let (full, s) := a
    match (fieldAt s f).bind (·.step), reqAt s e.1 with
    | some st, some q =>
      if full || !q.ride || q.config != c || !hasPrompt q || !schedulable s e.1 q then a
      else
        let n := min s.serv.rideChunk (q.promptTokens - 1 - q.kvDone)
        if s.serv.rideRows < sumN (st.chunks.map fun (x : Nat × Nat × Nat) => x.2.2) + n then (true, s)
        else match allocPositions e.1 (q.kvDone + n) q s with
          | some t => (false, modField f (fun fl => { fl with step := some { st with chunks := st.chunks ++ [(e.1, q.kvDone, n)] } }) t)
          | none => a
    | _, _ => a) (false, s)).2

/-- A decode row of the batch block (R286). -/
def rowBytes (r : Nat) (q : Request) (nodes : List (BitVec 32)) (parents : List Nat) : List Byte :=
  leBytes 2 r ++ zeros 2 ++ leBytes 4 q.tokens ++ leBytes 4 (q.ids.getLast?.getD 0).toNat ++ zeros 52
    ++ padTo 256 (nodes.flatMap fun t => leBytes 4 t.toNat) ++ padTo 64 ((parents.take nodes.length).map fun p => BitVec.ofNat 8 p)

/-- Write the batch block of a step (R286, R287). -/
def writeBatch (f : Nat) (parents : List Nat) (st : StepRun) (s : State) : State :=
  let put := fun (a : Nat) (bs : List Byte) (s : State) => (writeDva s f (Config.batchDva + a) bs).getD s
  let s := st.rows.zipIdx.foldl (fun s (e : (Nat × Nat) × Nat) => match reqAt s e.1.1 with
    | some q => put (384 * e.2) (rowBytes e.1.1 q (st.nodes.getD e.2 []) parents) s
    | none => s) s
  st.chunks.zipIdx.foldl (fun s (e : (Nat × Nat × Nat) × Nat) =>
    put (0x180000 + 16 * e.2) (leBytes 2 e.1.1 ++ leBytes 2 e.1.2.2 ++ leBytes 4 e.1.2.1 ++ leBytes 8 (Config.promptDva e.1.1).toNat) s) s

/-- Dispatch the section that a step needs next: the draft's for a tree depth, or the verifying one (R286, R296; log 44). -/
def sendStep (f : Nat) (c : ServConfig) (s : State) : State :=
  match (fieldAt s f).bind (·.step) with
  | none => s
  | some st =>
    let cfg := match st.depth, draftOf s c with
      | some _, some d => (c.block.draftConfig.toNat, d)
      | _, _ => (st.config, c)
    let n := match st.depth with
      | some d => depthStart (branches c) d
      | none => c.nodes
    let s := writeBatch f (treeParents (branches c)) st s
    let chunks := if st.depth.getD 1 = 1 then sumN (st.chunks.map fun (x : Nat × Nat × Nat) => x.2.2) else 0
    let two := match (fieldAt s f).bind fun fl => slotSkein fl cfg.2.block.decodeSlot with
      | some i => i.hdr.twoLanes && decide (2 ≤ st.rows.length + (if chunks = 0 then 0 else st.chunks.length))
      | none => false
    let scalars := [if two then 2 else 1, st.rows.length, chunks, n]
    let serves := (st.rows.map fun (e : Nat × Nat) => (e.1, 1 + c.nodes)) ++ st.chunks.map fun (e : Nat × Nat × Nat) => (e.1, e.2.2)
    match firmwareSection f cfg.2.block.decodeSlot scalars cfg.1 false serves s with
    | (some id, s) => modField f (fun fl => { fl with step := fl.step.map fun x => { x with sectionId := id, ended := false } }) s
    | (none, s) => modField f (fun fl => { fl with step := none }) s

/-- Lever 2 and lever 3 act at the boundary; a new limit is a recorded actuation (R12, R21, R288 step 1, R403, R405); no limit stands for the largest MAX_BATCH of the field (log 45). -/
def actuateBatch (f : Nat) (s : State) : State :=
  let top := maxN ((s.serv.configs.filter fun (e : Nat × ServConfig) => e.2.block.field.val == f).map fun (e : Nat × ServConfig) => e.2.block.maxBatch.toNat)
  let cur := tget 0 f s.gov.batch
  let next := match s.gov.batchMove with
    | .hold => cur
    | .halve => max 1 ((if cur = 0 then top else cur) / 2)
    | .double => if cur = 0 ∨ top ≤ 2 * cur then 0 else 2 * cur
  let t := { s with gov := { s.gov with promptPause := s.gov.pauseAsked, batch := tset 0 f next s.gov.batch } }
  if next = cur then t else actuate (BitVec.ofNat 64 (4 + 256 * f + 65536 * next)) t

/-- The configuration whose best ready request ranks first: DECODE requests before ride-along chunks (R288 step 2, R290). -/
def chooseConfig (s : State) (l : List (Nat × Request)) : Option Nat :=
  match l.find? fun (e : Nat × Request) => e.2.state == .decode && schedulable s e.1 e.2 with
  | some e => some e.2.config
  | none => if s.gov.promptPause then none else (l.find? fun (e : Nat × Request) => e.2.ride && hasPrompt e.2 && schedulable s e.1 e.2).map fun (e : Nat × Request) => e.2.config

/-- Dispatch the field's next step, if it has rows or chunks (R286 to R290). -/
def dispatchStep (f : Nat) (l : List (Nat × Request)) (s : State) : State :=
  match (chooseConfig s l).bind fun c => (configAt s c).map fun x => (c, x) with
  | none => s
  | some (c, x) =>
    if (decide (0 < x.nodes) && (draftOf s x).isNone) then s
    else
      let lim := tget 0 f s.gov.batch
      let limit := if lim = 0 then x.block.maxBatch.toNat else min lim x.block.maxBatch.toNat
      let s := modField f (fun fl => { fl with step := some { config := c, rows := [], chunks := [], depth := if x.nodes = 0 then none else some 1, nodes := [], sectionId := 0, ended := false } }) s
      let s := takeRows f c x.nodes limit l s
      let s := if s.gov.promptPause then s else takeChunks f c l s
      match (fieldAt s f).bind (·.step) with
      | some st =>
        if st.rows = [] ∧ st.chunks = [] then modField f (fun fl => { fl with step := none }) s
        else
          let s := modField f (fun fl => { fl with step := some { st with nodes := st.rows.map fun _ => [] } }) s
          let s := (st.rows.map (·.1) ++ st.chunks.map (·.1)).foldl (fun s r => joinStep r s) s
          sendStep f x s
      | none => s

/-- Dispatch at most one prefill section: the first-ranked request without RIDE that can have one (R289, R293). A speculating configuration's draft
writes the same positions with a section of its own (log 44). -/
def dispatchPrefill (f : Nat) (l : List (Nat × Request)) (s : State) : State :=
  match fieldAt s f with
  | none => s
  | some fl =>
    if s.gov.promptPause || decide (Config.seqDepth ≤ (sectionsOf fl).length) then s
    else
      let ready := l.findSome? fun (e : Nat × Request) =>
        if e.2.ride || !hasPrompt e.2 || !schedulable s e.1 e.2 then none
        else (configAt s e.2.config).bind fun c =>
          let n := min c.block.prefillTokens.toNat (e.2.promptTokens - 1 - e.2.kvDone)
          (allocPositions e.1 (e.2.kvDone + n) e.2 s).map fun t => (e.1, c, n, e.2.config, t)
      match ready with
      | none => s
      | some (r, c, n, i, t) =>
        match firmwareSection f c.block.prefillSlot [1, 0, n, 0] i true [(r, n)] (joinStep r t) with
        | (none, t) => t
        | (some _, t) => match draftOf t c with
          | some d => (firmwareSection f d.block.prefillSlot [1, 0, n, 0] c.block.draftConfig.toNat true [(r, n)] t).2
          | none => t

/-- A prefill section of the field has not ended. -/
def prefillRuns (fl : Field) : Bool := (sectionsOf fl).any fun x => x.isPrefill

/-- STEP_BOUNDARY: parks take effect, the limits are sampled, then the next step and at most one prefill section are dispatched (R288, R289, R293,
R315). The field has no step in flight and no uncommitted sample. -/
def execStepBoundary (f : FieldId) (s : State) : Host.Outcome State Fault Refusal :=
  .next (match fieldAt s f with
    | none => s
    | some fl =>
      if !running s || fl.step.isSome || s.serv.samples.any (fun (e : Nat × Nat × Commit) => e.1 == f.val) then s
      else
        let s := (rankedReqs s f).foldl (fun s (e : Nat × Request) => tryPark e.1 s) s
        let s := actuateBatch f s
        if fl.held || fieldParked s f || drainingField fl then s
        else
          let l := rankedReqs s f
          let s := if l.any fun (e : Nat × Request) => openState e.2.state then wakeField f s else s
          let s := l.foldl (fun s (e : Nat × Request) => if openState e.2.state && !allNear s e.1 e.2 then promoteReq e.1 e.2 s else s) s
          let s := dispatchStep f l s
          match fieldAt s f with
          | some fl => if fl.step.isSome || !prefillRuns fl then dispatchPrefill f (rankedReqs s f) s else s
          | none => s)

/-! ### Sampling (R295 to R298) -/

/-- One logit row of a configuration's range; none where it cannot be read (R287). -/
def logitRow (s : State) (f i vocab nodes r at_ : Nat) : Option (List Nat) :=
  (readDva s f (logitsDva i + (r * (1 + nodes) + at_) * vocab * 4) (4 * vocab)).map fun bs => rowElems 4 vocab bs

/-- The draft's children at a depth: its first BRANCH candidates at each node of the depth before (R296). -/
def draftChildren (s : State) (f : Nat) (c d : ServConfig) (depth row : Nat) : Option (List (BitVec 32)) :=
  let n := depthStart (branches c) depth
  let b := (branches c).getD (depth - 1) 0
  let first := if depth = 1 then 0 else 1 + depthStart (branches c) (depth - 1)
  (List.range (depthCount (branches c) (depth - 1))).foldl (fun (o : Option (List (BitVec 32))) i => o.bind fun l =>
    (logitRow s f c.block.draftConfig.toNat d.block.vocab.toNat n row (first + i)).map fun x =>
      l ++ ((candidates x).take b).map fun (e : Nat × Nat) => BitVec.ofNat 32 e.1) (some [])

/-- What the sampler makes of one decode row: the commit, cut as R297 says; none where a row cannot be read. -/
def sampleRow (s : State) (f : Nat) (c : ServConfig) (i row r : Nat) (q : Request) (nodes : List (BitVec 32)) : Option Commit :=
  let rows := (List.range (1 + c.nodes)).map fun at_ => logitRow s f i c.block.vocab.toNat c.nodes row at_
  if rows.any (·.isNone) then none
  else
    let k : SampleCfg := { temp := c.block.temp.toNat, topP := c.block.topP.toNat, topK := c.block.topK.toNat }
    let (acc, ts) := acceptFrom k q.rngSeed.toNat (fun a => ((rows[a]?).getD none).getD []) (treeParents (branches c)) (nodes.map (·.toNat)) 9 0 q.generated
    let ts := cutTokens c.block.eos.toNat (min (q.maxNew - q.generated) (q.promptTokens + q.maxNew - q.tokens)) ts
    some { req := Fin.ofNat 4096 r, tokens := ts.map fun t => BitVec.ofNat 32 t, nodes := acc.take (ts.length - 1) }

/-- TOKEN_SAMPLE: the logits of the step's last section are read. A draft's give the next depth of each tree; the verifying step's give the commits
(R295 to R297). -/
def execTokenSample (f : FieldId) (s : State) : Host.Outcome State Fault Refusal :=
  .next (match (fieldAt s f).bind (·.step) with
    | none => s
    | some st =>
      if !st.ended || !running s then s
      else match configAt s st.config with
        | none => modField f (fun fl => { fl with step := none }) s
        | some c =>
          let live := fun (e : Nat × Nat) => (reqAt s e.1).filter fun (q : Request) => q.order == e.2 && q.state == ReqState.decode
          match st.depth, draftOf s c with
          | some depth, some d =>
            let grown := st.rows.zipIdx.map fun (e : (Nat × Nat) × Nat) => (e.1, (draftChildren s f c d depth e.2).map fun l => st.nodes.getD e.2 [] ++ l)
            let lost := grown.filter fun (e : (Nat × Nat) × Option (List (BitVec 32))) => e.2.isNone && (live e.1).isSome
            let next := if depth < (treeBranches (branches c)).length ∧ st.rows ≠ [] then some (depth + 1) else none
            let s := lost.foldl (fun s (e : (Nat × Nat) × Option (List (BitVec 32))) => closeReq e.1.1 (statusCode .fencedUnit) 0 s) s
            sendStep f c (modField f (fun fl => { fl with step := some { st with
              depth := next, nodes := grown.map fun (e : (Nat × Nat) × Option (List (BitVec 32))) => e.2.getD [] } }) s)
          | _, _ =>
            let got := st.rows.zipIdx.filterMap fun (e : (Nat × Nat) × Nat) => (live e.1).map fun q => (e.1, sampleRow s f c st.config e.2 e.1.1 q (st.nodes.getD e.2 []))
            let s := modField f (fun fl => { fl with step := none }) s
            got.foldl (fun s (e : (Nat × Nat) × Option Commit) => match e.2 with
              | some k => { s with serv := { s.serv with samples := s.serv.samples ++ [(f.val, e.1.2, k)] } }
              | none => closeReq e.1.1 (statusCode .fencedUnit) 0 s) s)

/-! ### Commits (R298, R302) -/

/-- The copies that move one KV row of a request from a position to another, layer by layer (R217, R298). -/
def compactRow (s : State) (fl : Field) (p : KvParams) (r : Nat) (draft : Bool) (src dst : Nat) : List (Nat × Nat × Nat) :=
  match kvPage fl r (src / 256) draft, kvPage fl r (dst / 256) draft with
  | some a, some b =>
    let at_ := fun (pg : Page) (off : Nat) => (unitCell s fl pg off).map (·.2)
    (List.range p.layers).flatMap fun l => (List.range p.hKv).flatMap fun g => [0, 1].filterMap fun side =>
      match at_ a (rowOffset p l g side src), at_ b (rowOffset p l g side dst) with
      | some x, some y => some (x, y, p.rowBytes)
      | _, _ => none
  | _, _ => []

/-- The rows of the accepted nodes move to the positions that follow the committed ones, in both lists: one COMPACT, in order, at the home moon of the
first of them (R224, R298; log 46). -/
def compactNodes (r : Nat) (q : Request) (nodes : List Nat) (s : State) : State :=
  match fieldAt s q.field, configAt s q.config with
  | some fl, some c =>
    let moved := nodes.zipIdx.filter fun (e : Nat × Nat) => e.1 != e.2
    let copies := moved.flatMap fun (e : Nat × Nat) =>
      let move := fun (draft : Bool) (k : Option KvParams) => match k with
        | some p => compactRow s fl p r draft (q.tokens + e.1) (q.tokens + e.2)
        | none => []
      move false (configKv s c) ++ move true ((draftOf s c).bind (configKv s))
    match moved with
    | e :: _ =>
      let k := homeStack fl r ((q.tokens + e.2) / 256)
      { s with moons := { s.moons with services := tmod [] k (· ++ [{ compact := true, req := some r, copies, tag := some q.tag.toNat }]) s.moons.services } }
    | [] => s
  | _, _ => s

/-- A commit makes a request final: EOS, MAX_NEW tokens or MAX_LEN positions (R302). -/
def finalCommit (eos : Nat) (q : Request) (ts : List (BitVec 32)) : Bool :=
  (ts.getLast?.map (·.toNat)) == some eos || decide (q.maxNew ≤ q.generated + ts.length) || decide (q.promptTokens + q.maxNew ≤ q.tokens + ts.length)

/-- The entry after a commit (R298, R302). -/
def committed (q : Request) (ts : List (BitVec 32)) : Request :=
  { q with ids := q.ids ++ ts, tokens := q.tokens + ts.length, generated := q.generated + ts.length, steps := q.steps + 1
           kvDone := q.tokens + ts.length - 1 }

/-- STEP_COMMIT: a sample of the field reaches the request table: its tokens at OUTPUT_ADDR, then one update, then DONE or the moves of R298 and the
release of pages past TOKENS - 1 (R294, R302); tokens that cannot reach the host end the request (R259). From CANCELLING on no commit is made (R303). -/
def execStepCommit (f : FieldId) (c : Commit) (s : State) : Host.Outcome State Fault Refusal :=
  .next (match s.serv.samples.find? fun (e : Nat × Nat × Commit) => e.1 == f.val && e.2.2 == c with
    | none => s
    | some e =>
      let drop := { s with serv := { s.serv with samples := s.serv.samples.erase e } }
      let r := c.req.val
      match reqAt s r with
      | none => drop
      | some q =>
        if q.order ≠ e.2.1 ∨ q.state ≠ .decode ∨ s.faults.fatalPhase ≠ .none then drop
        else if (match q.acc with | some a => !hostDma s a | none => false) then closeReq r (statusCode .linkDown) 0 drop
        else
          let eos := match configAt s q.config with | some x => x.block.eos.toNat | none => 0xFFFFFFFF
          let s := hostWrite drop (q.outAddr + 4 * tokensOut q) (c.tokens.flatMap fun t => leBytes 4 t.toNat)
          if finalCommit eos q c.tokens then closeReq r (statusCode .ok) 0 (setReq s r { committed q c.tokens with state := .done })
          else
            let s := compactNodes r q c.nodes (setReq s r (committed q c.tokens))
            countPages r (dropPages q.field (fun p => match p.owner with
              | .kv x pg _ => x == r && decide (q.tokens + c.tokens.length - 1 ≤ 256 * pg)
              | _ => false) s))

end Sys2Proof.Machine
end

