-- ==== Sys2Proof/Machine/Comets.lean ====
section
/-!
DEFINITION. Meanings of the comet commands (14): parks of requests, the comet's record, resumption, retained entries and the trust list.
-/

namespace Sys2Proof.Machine

/-! ### The record (R307 to R312) -/

/-- A page record: its head, and its encoded blocks padded to a multiple of 64 (R311). -/
def recordBytes (p : CometPage) : List Byte :=
  let e := p.blocks.flatten
  recordHead p ++ padTo (roundUp e.length 64) e

/-- The token section (R307, R312). -/
def tokenSection (ids : List (BitVec 32)) : List Byte := padTo (roundUp (4 * ids.length) 64) (ids.flatMap fun t => leBytes 4 t.toNat)

/-- The comet header (R308). -/
def headerBytes (h : CometHeader) : List Byte :=
  leBytes 4 0x544D4F43 ++ leBytes 2 1 ++ leBytes 2 256 ++ [BitVec.ofNat 8 h.state, BitVec.ofNat 8 (b2n h.awaitKv + 2 * b2n h.prefillOnly), 0, 0]
    ++ leBytes 4 h.promptTokens ++ leBytes 4 h.maxNew ++ leBytes 4 h.tokens ++ leBytes 4 h.generated ++ leBytes 4 h.steps ++ leBytes 4 h.kvDone
    ++ leBytes 4 h.pages ++ leBytes 4 h.draftPages ++ zeros 4 ++ leBytes 8 h.rngSeed.toNat ++ leBytes 8 h.rngCounter ++ leBytes 48 h.skeinDigest.toNat
    ++ leBytes 48 h.manifestDigest.toNat ++ leBytes 48 h.bodyDigest.toNat ++ leBytes 8 h.bodyBytes ++ leBytes 4 h.pageBytes ++ leBytes 4 h.draftPageBytes
    ++ leBytes 8 h.keyId.toNat ++ zeros 24

/-- The digest of this module's identity block (R310, R318). -/
def ownIdentity : Digest := sha384 Config.identityBlock

/-- The bytes of a comet that this module signs (R97, R307, R310). -/
def cometBytes (c : Comet) : List Byte :=
  let h := headerBytes c.hdr
  h ++ padTo Config.sigBytes (padTo 64 (Config.ed25519Sign h) ++ Config.mldsaSign h) ++ padTo 2048 Config.identityBlock ++ tokenSection c.tokens
    ++ c.records.flatMap recordBytes

/-- The comet's length (R307). -/
def cometLength (c : Comet) : Nat := 3648 + c.hdr.bodyBytes

/-- The page record of a KV page: rows at or beyond KV_DONE are packed as zero bytes (R311); none where a line of the page is lost (R204). -/
def pageRecord (s : State) (fl : Field) (r : Nat) (q : Request) (p : KvParams) (bytes page : Nat) (draft : Bool) : Option CometPage :=
  match kvPage fl r page draft with
  | none => none
  | some pg =>
    let cells := (List.range bytes).filterMap fun o => unitCell s fl pg o
    if cells.any (cellLost s) ∨ cells.length ≠ bytes then none
    else
      let raw := cells.zipIdx.map fun (e : CellAt × Nat) => if 256 * page + e.2 / p.rowBytes % 256 < q.kvDone then cellRead s e.1 else 0
      let blocks := (List.range (bytes / 4096)).map fun i => packBlock p.rowBytes ((raw.drop (4096 * i)).take 4096)
      some { page, column := p.rowBytes, draft, digest := sha384 blocks.flatten, blocks }

/-- Page records of one list, in page order. -/
def listRecords (s : State) (fl : Field) (r : Nat) (q : Request) (k : Option KvParams) (bytes : Nat) (draft : Bool) : Option (List CometPage) :=
  match k with
  | none => if recordPages q = 0 then some [] else none
  | some p => (List.range (recordPages q)).foldl (fun (o : Option (List CometPage)) pg => o.bind fun l =>
      (pageRecord s fl r q p bytes pg draft).map fun x => l ++ [x]) (some [])

/-- Entry state as a comet carries it (R308). -/
def stateCode : ReqState → Nat
  | .queued => 1
  | .prefill => 2
  | _ => 3

/-- The cells of pages of one page list of a request. -/
def pageCells (s : State) (fl : Field) (r first count size : Nat) (draft : Bool) : List CellAt :=
  (List.range count).flatMap fun i => match kvPage fl r (first + i) draft with
    | some pg => (List.range size).filterMap fun o => unitCell s fl pg o
    | none => []

/-- The cells that packing a request reads. -/
def cometCells (s : State) (r : Nat) (q : Request) : List CellAt := match fieldAt s q.field, configAt s q.config with
  | some fl, some c => pageCells s fl r 0 (recordPages q) c.pageBytes false ++ (match draftOf s c with
    | some x => pageCells s fl r 0 (recordPages q) x.pageBytes true
    | none => [])
  | _, _ => []

/-- The comet of a parked request (R307 to R312); none where a line is lost. -/
def buildComet (s : State) (r : Nat) (q : Request) : Option Comet :=
  match fieldAt s q.field, configAt s q.config with
  | some fl, some c =>
    let d := draftOf s c
    match listRecords s fl r q (configKv s c) c.pageBytes false, (match d with
        | some x => listRecords s fl r q (configKv s x) x.pageBytes true
        | none => some []) with
    | some a, some b =>
      let ids := padTo 2048 Config.identityBlock
      let toks := tokenSection q.ids
      let recs := a ++ b
      let body := 2048 + toks.length + (recs.flatMap recordBytes).length
      let found := sha384 (ids ++ toks ++ recs.flatMap recordHead)
      let h : CometHeader := { state := stateCode q.before, awaitKv := q.awaitKv, prefillOnly := q.prefillOnly, promptTokens := q.promptTokens, maxNew := q.maxNew
                               tokens := q.tokens, generated := q.generated, steps := q.steps, kvDone := q.kvDone, pages := a.length, draftPages := b.length
                               rngSeed := q.rngSeed, rngCounter := q.generated, skeinDigest := c.record, manifestDigest := c.block.manifestDigest
                               bodyDigest := found, bodyBytes := body, pageBytes := c.pageBytes
                               draftPageBytes := match d with | some x => x.pageBytes | none => 0
                               keyId := BitVec.ofNat 64 ownIdentity.toNat }
      some { hdr := h, identity := ownIdentity, tokens := q.ids, records := recs, bodyFound := found }
    | _, _ => none
  | _, _ => none

/-! ### Parking (R314 to R316) -/

/-- PARK with TARGET_KIND 0 (R272, R306, R314). -/
def execParkRequest (q : QId) (h : DescHdr) (d : ParkDesc) (s : State) : Host.Outcome State Fault Refusal :=
  .next (withDesc q .park h false (fun acc s =>
    if d.destPlace = 3 ∨ (d.scan = true ∧ d.release = true) then finish acc .countMismatch 0 0 s
    else targetRequest acc d.targetSq d.targetSeq.toNat (some d) s) s)

/-- REQUEST_IDLE_PARK: IDLE has reached PARK_LIMIT with PARK_EN (R291). -/
def execRequestIdlePark (r : ReqId) (s : State) : Host.Outcome State Fault Refusal :=
  .next (match reqAt s r with
    | some q =>
      if running s && (q.state == .queued || q.state == .decode) && q.parkEn && q.park.isNone && decide (q.parkLimit ≤ q.idle) then
        tryPark r (modReq r (fun q => { q with park := some (.idle, none), parkDesc := none }) s)
      else s
    | none => s)

/-- A park that fails after step 1: the entry returns to its state with its pages, and whoever asked gets the failure (R316). -/
def parkFails (r : Nat) (st : Status) (s : State) : State :=
  match reqAt s r with
  | none => s
  | some q => match q.park with
    | none => s
    | some (ask, d) =>
      let s := releaseReserve d s
      match ask with
      | .retained => mboxEnd 0x0023 st [] (modReq r (fun q => { q with park := none }) s)
      | .fatal => modReq r (fun q => { q with park := none }) s
      | .descriptor a => finish a st 0 0 (modReq r (fun q => { q with state := q.before, park := none, idle := 0 }) s)
      | .idle => modReq r (fun q => { q with state := q.before, park := none, idle := 0 }) s

/-- A comet is complete: the request ends PARKED, with the handle of a module-pool comet, and whoever asked gets handle and bytes (R304, R316). -/
def parkDone (r handle bytes : Nat) (s : State) : State :=
  match reqAt s r with
  | none => s
  | some q =>
    let s := closeReq r (statusCode .parked) handle (modReq r (fun q => { q with park := none }) s)
    match q.park with
    | some (.descriptor a, _) => finish a .ok handle bytes s
    | some (.retained, _) => mboxEnd 0x0023 .ok (leBytes 8 handle) s
    | _ => s

/-- The next unused comet handle (R313; log 8). -/
def freeHandle (s : State) : Nat :=
  ((List.range (Config.cometHandles - 1)).find? fun i => (tfind (1 + (s.serv.nextComet - 1 + i) % (Config.cometHandles - 1)) s.serv.comets).isNone).elim s.serv.nextComet
    fun i => 1 + (s.serv.nextComet - 1 + i) % (Config.cometHandles - 1)

/-- A comet made here goes into the module pool (R313). -/
def poolComet (c : Comet) (fr : Nat) (s : State) : Nat × State :=
  let h := freeHandle s
  let n := ceilDiv (cometLength c) Config.frame
  let p : PoolComet := { comet := c, bytes := cometLength c, frame := fr, frames := n, identity := ownIdentity, signed := true }
  (h, { s with serv := { s.serv with comets := tput h p s.serv.comets, nextComet := 1 + h % (Config.cometHandles - 1) } })

/-- The writes of a park may reach host memory: the port of its PARK is up (R259). -/
def parkLink (s : State) (ask : ParkAsk) : Bool := match ask with
  | .descriptor a => hostDma s a
  | _ => linkUp s

/-- Charge PACK and the write of a comet to the request's tag (R387, R389, R390). -/
def chargeComet (tag bytes raw : Nat) (d : CometDest) (s : State) : State :=
  let s := chargeTier (some tag) false raw s
  match d with
  | .pool .. => chargeTier (some tag) true bytes s
  | .host _ => chargeHost (some tag) bytes s
  | .peer _ => s

/-- Raw bytes of a comet's pages. -/
def rawBytes (c : Comet) : Nat := sumN (c.records.map fun p => 4096 * p.blocks.length)

/-- COMET_WRITTEN: the records of a PARKED request are packed and its header is signed; or packing or the way to its place has failed (R315, R316). A
comet for a peer now goes out as one COMET transfer, and ends with its last ACK (R357). -/
def execCometWritten (r : ReqId) (fail : Option Status) (s : State) : Host.Outcome State Fault Refusal :=
  .next (match reqAt s r with
    | none => s
    | some q => match q.park with
      | none => s
      | some (ask, dest) =>
        let fatal := ask == .fatal && s.faults.fatalPhase == .stopped && s.faults.fatalMayPark
        if q.state ≠ .parked ∨ (running s || fatal) = false then s
        else if s.fab.tx.any fun t => t.use == .comet r then s
        else match fail with
          | some st => if st = .fencedUnit ∨ st = .linkDown then parkFails r st s else s
          | none =>
            match (match dest with | some d => some (d, s) | none => if fatal then reservePool (cometMax s q) s else none) with
            | none => if fatal then modReq r (fun q => { q with park := none }) s else s
            | some (d, s) =>
              let (met, s) := meetLines (statusCode .fencedUnit) (cometCells s r q) s
              match (if met then buildComet s r q else none) with
              | none => parkFails r .fencedUnit (modReq r (fun q => { q with park := some (ask, some d) }) (noteLost (cometCells s r q) s))
              | some c =>
                let charged := chargeComet q.tag.toNat (cometLength c) (rawBytes c) d
                match d with
                | .pool fr n =>
                  let (h, s) := poolComet c fr (releaseReserve (some (.pool fr n)) s)
                  parkDone r h (cometLength c) (charged s)
                | .host a => if parkLink s ask then parkDone r 0 (cometLength c) (charged (hostWrite s a (cometBytes c)))
                  else parkFails r .linkDown (modReq r (fun q => { q with park := some (ask, some d) }) s)
                | .peer n => startTx (.comet r) (BitVec.ofNat 20 n) 4 q.tag 0 0 0 (cometBytes c) (charged s))

/-! ### Resuming (R317 to R321) -/

/-- Zero fields of a comet RESUME (R276, R317, R318). -/
def resumeZero (d : ResumeDesc) : Option Status :=
  if d.srcPlace = true ∧ d.sourceBytes = 0 then some .badAlignment
  else if (d.noDeadline = false ∧ d.deadline = 0) ∨ (d.parkEn = true ∧ d.parkLimit = 0) then some .countMismatch
  else none

/-- The digest of each page of a comet is right (R311, R318). -/
def pagesRight (c : Comet) : Bool := c.records.all fun p => sha384 p.blocks.flatten == p.digest

/-- Where a RESUME's comet comes from: the comet, its handle, and whether its signatures, its body and its page digests are right; or the failure of
check 1 (R318). A pool comet made here is as it was written; the verdict on the signatures of any other one comes with the command (log 127). -/
def resumeSource (s : State) (d : ResumeDesc) (c : CometRead) : Except Status (Comet × Option Nat × Bool × Bool × Bool) :=
  let signed := c.sig.ed && c.sig.ml
  if !d.srcPlace then
    match tfind d.source.toNat s.serv.comets with
    | none => .error .countMismatch
    | some p => if !p.formed then .error .badAlignment else .ok (p.comet, some d.source.toNat, p.signed || signed, p.signed || p.comet.bodyFound == p.comet.hdr.bodyDigest, p.signed || pagesRight p.comet)
  else
    let rd := hostBytes c.bytes
    let n := d.sourceBytes.toNat
    if rdN rd 0 4 ≠ 0x544D4F43 ∨ rdN rd 4 2 ≠ 1 ∨ rdN rd 6 2 ≠ 256 ∨ n ≠ 3648 + (parseCometHeader (rdBytes rd 0 256)).bodyBytes then .error .badAlignment
    else
      let x := parseComet (rdBytes rd 0 n)
      .ok (x, none, signed, x.bodyFound == x.hdr.bodyDigest, pagesRight x)

/-- The entry of a resumed request (R280, R320, R321). -/
def resumeEntry (s : State) (acc since : Nat) (h : DescHdr) (d : ResumeDesc) (c : Comet) (member field : Nat) : Request :=
  let x := c.hdr
  { state := .queued, awaitKv := x.awaitKv, prefillOnly := x.prefillOnly, retain := d.retain, parkEn := d.parkEn, noDeadline := d.noDeadline
    cls := h.cls, ride := s.serv.rideMask.getLsbD h.cls.toNat, tag := h.tag, config := member, tokens := x.tokens, promptTokens := x.promptTokens
    maxNew := x.maxNew, kvDone := x.kvDone, generated := x.generated, steps := x.steps, rngSeed := x.rngSeed, due := since + d.deadline.toNat
    parkLimit := d.parkLimit.toNat, idle := 0, field, acc := some acc, order := acc, outAddr := d.outAddr.toNat, base := x.generated, ids := c.tokens
    received := [], retained := false, park := none, parkDesc := none, before := .queued, cancels := [], pages := 0, draftPages := 0 }

/-- RESUME with SOURCE_KIND 0: the checks of R318 in order, its place (R384), then an entry or the wait for one. -/
def execResumeComet (q : QId) (h : DescHdr) (d : ResumeDesc) (c : CometRead) (s : State) : Host.Outcome State Fault Refusal :=
  .next (withDesc q .resume h false (fun acc s =>
    let fail := fun st => settleHolds (finish acc st 0 0 s)
    match resumeZero d with
    | some st => fail st
    | none => if hostLost s acc d.srcPlace then fail .linkDown else match resumeSource s d c with
      | .error st => fail st
      | .ok (x, handle, signed, body, pages) =>
        if !signed || !(x.identity == ownIdentity || s.serv.trust.contains x.identity) then fail .signatureFail
        else if !body then fail .digestFail
        else if (configAt s d.config.toNat).isNone then fail .countMismatch
        else if !s.serv.firmware && (x.hdr.awaitKv || x.hdr.prefillOnly) then fail .noPlacement
        else match placeMember s d.config.toNat with
          | none => fail .quarantinedShard
          | some m => match configAt s m with
            | none => fail .countMismatch
            | some k =>
              if x.hdr.skeinDigest ≠ k.record ∨ x.hdr.manifestDigest ≠ k.block.manifestDigest then fail .digestFail
              else if k.block.maxContext.toNat < x.hdr.promptTokens + x.hdr.maxNew then fail .shapeExceedsPlan
              else if manifestHeld s k.block.field k.block.manifestDigest then fail .quarantinedShard
              else awaitEntry { acc, req := resumeEntry s acc (acceptedAt s acc) h d x m k.block.field, comet := some (x, handle, pages) } (wakeField k.block.field s)) s)

/-! ### Retained entries and the trust list (R304, R319) -/

/-- The retained entry of an index (R304). -/
def retainedAt (s : State) (r : Nat) : Option Request := match reqAt s r with
  | some q => if q.retained && q.state == .parked then some q else none
  | none => none

/-- RETAINED with ACTION 0 (R304). -/
def execRetainedFree (req : BitVec 16) (s : State) : Host.Outcome State Fault Refusal :=
  .next (mailbox 0x0023 (fun s => match retainedAt s req.toNat with
    | none => mboxEnd 0x0023 .countMismatch [] s
    | some _ => mboxEnd 0x0023 .ok [] (closeReq req.toNat 0 0 s)) s)

/-- A retained request's comet gets its room and is on its way (R304); without room the command ends with BUFFER_TOO_SMALL. -/
def packRetained (r : Nat) (q : Request) (s : State) : State :=
  match reservePool (cometMax s q) s with
  | none => mboxEnd 0x0023 .bufferTooSmall [] s
  | some (d, s) => setHost (modReq r (fun q => { q with park := some (.retained, some d) }) s) { s.host with mboxRun := some (.retainedPack r) }

/-- RETAINED with ACTION 1: the comet goes to the module pool, if it has room (R304, R314). -/
def execRetainedPack (req : BitVec 16) (s : State) : Host.Outcome State Fault Refusal :=
  .next (mailbox 0x0023 (fun s => match retainedAt s req.toNat with
    | none => mboxEnd 0x0023 .countMismatch [] s
    | some q => if (configAt s q.config).isNone then mboxEnd 0x0023 .countMismatch [] s else packRetained req.toNat q s) s)

/-- COMET_TRUST replaces the trust list (R319); a COUNT of zero leaves it as it is (R8). -/
def execCometTrust (count : BitVec 32) (digests : List Digest) (s : State) : Host.Outcome State Fault Refusal :=
  .next (mailbox 0x0030 (fun s =>
    if 1024 < count.toNat then mboxEnd 0x0030 .countMismatch [] s
    else if count = 0 then mboxEnd 0x0030 .okEmpty [] s
    else mboxEnd 0x0030 .ok [] { s with serv := { s.serv with trust := digests.take count.toNat } }) s)

end Sys2Proof.Machine
end

