-- ==== Sys2Proof/Machine/Links.lean ====
section
/-!
DEFINITION. Fabric links and routing (16): flits and packets, the routing tables and their check, the hop, the link layer and its training.
-/

namespace Sys2Proof.Machine

/-! ### Packets and flits (R343, R345, R347) -/

/-- The traffic class of a kind of packet (R345). -/
def kindClass : Nat → Nat
  | 2 => 3 | 3 => 2 | 4 => 2 | 5 => 1 | 6 => 3 | _ => 0

/-- The 32-byte packet header (R347). -/
def packetHead (p : Packet) : List Byte :=
  leBytes 3 p.dest.toNat ++ leBytes 3 p.src.toNat ++ [BitVec.ofNat 8 p.kind, BitVec.ofNat 8 (p.routeDim % 4)] ++ leBytes 2 (p.hops % 1024)
    ++ [p.tag, BitVec.ofNat 8 (b2n p.last)] ++ leBytes 4 p.transfer.toNat ++ leBytes 8 p.offset ++ leBytes 2 p.payload.length
    ++ [p.arg0, p.arg1] ++ leBytes 2 p.arg2.toNat ++ leBytes 2 p.arg3.toNat

/-- The packet that a header and its payload spell (R347). -/
def parsePacket (b : List Byte) : Packet :=
  { dest := BitVec.ofNat 20 (natAt b 0 3), src := BitVec.ofNat 20 (natAt b 3 3), kind := (byteAt b 6).toNat, routeDim := (byteAt b 7).toNat % 4
    hops := natAt b 8 2 % 1024, tag := byteAt b 10, last := bitAt (byteAt b 11).toNat 0, transfer := BitVec.ofNat 32 (natAt b 12 4), offset := natAt b 16 8
    arg0 := byteAt b 26, arg1 := byteAt b 27, arg2 := BitVec.ofNat 16 (natAt b 28 2), arg3 := BitVec.ofNat 16 (natAt b 30 2)
    payload := (b.drop 32).take (natAt b 24 2) }

/-- Payload bytes of a flit (R343). -/
def flitPayload : Nat := 248

/-- Flits of a packet of n payload bytes (R347). -/
def packetFlits (n : Nat) : Nat := ceilDiv (32 + n) flitPayload

/-- A packet as flits of a channel (R343, R347). Sequence numbers are given on the wire. -/
def flitsOf (p : Packet) (tc : Fin 4) (vc : Bool) : List Flit :=
  let b := packetHead p ++ p.payload
  (List.range (packetFlits p.payload.length)).map fun i =>
    { seq := 0, ackSeq := 0, tc, vc, ctrl := false, nak := false, sop := i == 0, credits := []
      payload := padTo flitPayload ((b.drop (flitPayload * i)).take flitPayload), corrected := false, good := true }

/-- The channel number of a class and a VC (R345). -/
def channelNo (tc : Fin 4) (vc : Bool) : Nat := 2 * tc.val + b2n vc

/-! ### Links -/

/-- A link. -/
def linkAt (s : State) (l : Nat) : Link := tget ({} : Link) l s.fab.links
/-- Replace a link. -/
def setLink (s : State) (l : Nat) (x : Link) : State := { s with fab := { s.fab with links := tset {} l x s.fab.links } }
/-- Change a link. -/
def modLink (l : Nat) (g : Link → Link) (s : State) : State := setLink s l (g (linkAt s l))
/-- The link controllers run. -/
def fabricOn (s : State) : Bool := s.entry.main && !s.boot.warmBusy
/-- Egress credits of a channel; a partner holds 512 flits (R345). -/
def creditOf (x : Link) (ch : Nat) : Nat := tget 512 ch x.credits

/-- Count the n flits of a packet on a link, for its tag at an end of its way and for no tag in transit (R387, R389, R390). -/
def chargeLink (l : Nat) (p : Packet) (n : Nat) (s : State) : State :=
  let b := BitVec.ofNat 64 (flitPayload * n)
  if p.src = s.fab.nodeId ∨ p.dest = s.fab.nodeId then
    charge (some p.tag.toNat) (fun c => { c with links := tmod 0 l (· + b) c.links }) (12 * n) s
  else
    let s := charge none (fun c => c) (12 * n) s
    { s with acct := { s.acct with live := { s.acct.live with transit := tmod 0 l (· + b) s.acct.live.transit } } }

/-! ### Routing tables (R348 to R351) -/

/-- [lo, hi] holds an ID of the block of 2^k IDs numbered b. -/
def meetsBlock (lo hi k b : Nat) : Bool := decide (b * 2 ^ k ≤ hi ∧ lo < (b + 1) * 2 ^ k)

/-- The module's coordinates (R362). -/
def coordX (s : State) : Nat := bits s.fab.coord.toNat 0 6
def coordY (s : State) : Nat := bits s.fab.coord.toNat 6 6
def coordZ (s : State) : Nat := bits s.fab.coord.toNat 12 6

/-- Encoding check (R350). -/
def routeEncoding (s : State) (e : Route) : Bool :=
  decide (e.lo.toNat ≤ e.hi.toNat) && e.tcMask != 0 && ((e.egress != 0 && e.egress != 7) || e.dim == 0)
    && (e.egress != 0 || (e.lo == s.fab.nodeId && e.hi == s.fab.nodeId))

/-- The entry forwards over a link. -/
def linkEntry (e : Route) : Bool := e.egress != 0 && e.egress != 7

/-- Axis check (R350). -/
def routeAxis (e : Route) : Bool := !linkEntry e || e.dim == 3 || e.dim.toNat == (e.egress.toNat - 1) / 2

/-- Order check (R350). -/
def routeOrder (s : State) (e : Route) : Bool :=
  let lo := e.lo.toNat
  let hi := e.hi.toNat
  !linkEntry e || match e.dim.toNat with
    | 0 => !(List.range 4).any fun h => meetsBlock lo hi 12 (64 * h + coordX s)
    | 1 => lo / 4096 == hi / 4096 && lo / 4096 % 64 == coordX s && !meetsBlock lo hi 6 (64 * (lo / 4096) + coordY s)
    | 2 => lo / 64 == hi / 64 && lo / 4096 % 64 == coordX s && lo / 64 % 64 == coordY s && !meetsBlock lo hi 0 (64 * (lo / 64) + coordZ s)
    | _ => true

/-- The egress crosses the dateline of its wrapped axis (R350). -/
def crossesDateline (s : State) (e : Route) : Bool :=
  let k := (e.egress.toNat - 1) / 2
  let at_ := bits s.fab.coord.toNat (6 * k) 6
  let last := bits s.fab.dims.toNat (6 * k) 6
  linkEntry e && bitAt s.fab.dims.toNat (18 + k) && (if e.egress.toNat % 2 = 1 then at_ == last else at_ == 0)

/-- Dateline check (R350). -/
def routeDateline (s : State) (e : Route) : Bool := e.dim == 3 || e.dateline == crossesDateline s e

/-- Mode check (R350). -/
def routeMode (bank : Tab Route) (e : Route) : Bool := e.dim != 3 || !bank.any fun (x : Nat × Route) => x.2.valid && linkEntry x.2 && x.2.dim != 3

/-- RESULT of one entry: 0, or the first check that fails (R350, R362). -/
def routeResult (s : State) (bank : Tab Route) (e : Route) : Nat :=
  if !e.valid then 0 else if !routeEncoding s e then 1 else if !routeAxis e then 2 else if !routeOrder s e then 3
  else if !routeDateline s e then 4 else if !routeMode bank e then 5 else 0

/-- The first failing entry of a bank, with its RESULT. -/
def firstBad (s : State) (bank : Tab Route) : Option (Nat × Nat) :=
  (bank.find? fun (x : Nat × Route) => routeResult s bank x.2 != 0).map fun (x : Nat × Route) => (x.1, routeResult s bank x.2)

/-- COMMIT: the firmware's check of the staging bank begins; ignored while one runs (R351, R362). -/
def execCommit (s : State) : Host.Outcome State Fault Refusal :=
  .next (if !barOpen s || s.fab.busy then s else { s with fab := { s.fab with busy := true } })

/-- ROUTING_BANK_SWAP: the check has ended (R351). -/
def execRoutingBankSwap (s : State) : Host.Outcome State Fault Refusal :=
  .next (if !s.fab.busy || !running s then s
    else match firstBad s s.fab.staging with
      | none => { s with fab := { s.fab with busy := false, result := 0, firstBad := 0, active := s.fab.staging } }
      | some (i, r) => { s with fab := { s.fab with busy := false, result := r, firstBad := i } })

/-! ### Failures of transfers (R352) -/

/-- The rank of this module in a group, none outside it. -/
def groupRank (s : State) (g : CollGroup) : Option Nat := g.nodes.findIdx? fun n => n == s.fab.nodeId

/-- The next instance of a group opens when none runs (R359). -/
def openInstance (g : Nat) (s : State) : State :=
  match tfind g s.fab.groups with
  | none => s
  | some x =>
    if s.fab.runs.any fun r => r.group == g then s
    else match x.queue with
      | [] => s
      | (acc, d) :: rest =>
        { s with fab := { s.fab with groups := tput g { x with queue := rest } s.fab.groups
                                     runs := s.fab.runs ++ [{ group := g, acc, d, phase := .setup 0, cells := [], out := [] }] } }

/-- An instance ends on this module: its COPY completes, and the group's next one opens (R359, R360). -/
def endInstance (g : Nat) (st : Status) (bytes : Nat) (s : State) : State :=
  match s.fab.runs.find? fun r => r.group == g with
  | none => s
  | some r => openInstance g (finish r.acc st bytes 0 { s with fab := { s.fab with runs := s.fab.runs.filter fun x => x.group != g } })

/-- The transfer at its source. -/
def txAt (s : State) (id : Nat) : Option TxRun := s.fab.tx.find? fun t => t.id == id

/-- Replace a transfer. -/
def setTx (t : TxRun) (s : State) : State := { s with fab := { s.fab with tx := mapIf (fun x => x.id == t.id) (fun _ => t) s.fab.tx } }

/-- Remove a transfer. -/
def dropTx (id : Nat) (s : State) : State := { s with fab := { s.fab with tx := s.fab.tx.filter fun t => t.id != id } }

/-- A shipment of KV pages ends (R300). -/
def dropShip (acc : Nat) (s : State) : State :=
  { s with serv := { s.serv with ships := s.serv.ships.filter fun (e : Nat × Nat × Nat × Nat × Nat × Bool) => e.1 != acc } }

/-- A feed transfer of the firmware ends: its result gives the bytes that were delivered (R10, R352); a link that is down ends the section whose rows
it carried (R255). -/
def endFeedTx (t : TxRun) (f id : Nat) (st : Status) (s : State) : State :=
  let s := { s with fab := { s.fab with feedEnds := s.fab.feedEnds ++ [(t.id, statusCode st, t.acked)] } }
  if st = .linkDown then startAbort f id (statusCode .linkDown) s else s

/-- A transfer fails with a status, with the bytes acknowledged (R352). -/
def failTx (id : Nat) (st : Status) (s : State) : State :=
  match txAt s id with
  | none => s
  | some t =>
    let s := dropTx id s
    match t.use with
    | .kvShip acc => finish acc st t.acked 0 (dropShip acc s)
    | .comet r => parkFails r st s
    | .collective g => endInstance g st 0 s
    | .feed f x => endFeedTx t f x st s

/-! ### The hop (R349, R350) -/

/-- HOP_LIMIT (R354, R362). -/
def hopLimit (s : State) : Nat := s.fab.windowUs.toNat - 2

/-- The accept list takes packets of a source (R349, R362). -/
def acceptsFrom (s : State) (src : BitVec 20) : Bool :=
  s.fab.accept.any fun (e : Nat × Accept) => e.2.valid && decide (e.2.lo.toNat ≤ src.toNat ∧ src.toNat ≤ e.2.hi.toNat)

/-- The packet and its VC as one entry forwards it (R349, R350). -/
def forwarded (p : Packet) (vc : Bool) (e : Route) : Packet × Bool :=
  let vc := if e.dim.toNat = p.routeDim then vc else false
  ({ p with hops := p.hops + 1, routeDim := e.dim.toNat }, vc || e.dateline)

/-- Queue a packet for egress on a link (R345). -/
def enqueue (l : Nat) (p : Packet) (tc : Fin 4) (vc : Bool) (s : State) : State :=
  modLink l (fun x => { x with queues := tmod [] (channelNo tc vc) (· ++ flitsOf p tc vc) x.queues }) s

/-- What the active bank decides for a packet: deliver it, forward it, or drop it with a REASON (R349). -/
inductive HopTo where
  | deliver
  | forward (link : Nat) (e : Route)
  | drop (reason : Nat)
  deriving DecidableEq, Repr

/-- The decision of R349. -/
def hopOf (s : State) (p : Packet) (tc : Nat) : HopTo :=
  match routeFor s p.dest tc with
  | none => .drop 1
  | some e =>
    if e.egress = 0 then (if acceptsFrom s p.src then .deliver else .drop 8)
    else if e.egress = 7 ∨ linkLive s (e.egress.toNat - 1) = false then .drop 1
    else if hopLimit s ≤ p.hops then .drop 7
    else .forward (e.egress.toNat - 1) e

/-- Put a packet where its hop decides; a dropped one is left out. -/
def takeHop (p : Packet) (tc : Fin 4) (vc : Bool) (s : State) : State :=
  match hopOf s p tc with
  | .deliver => { s with fab := { s.fab with delivered := s.fab.delivered ++ [(p, tc.val)] } }
  | .forward l e => let (q, v) := forwarded p vc e; enqueue l q tc v s
  | .drop _ => s

/-- A DROP packet for the source of a packet (R347, R349, R352). An ACK or a DROP belongs to no transfer of its sender, so none answers it. -/
def sendDrop (p : Packet) (reason : Nat) (st : BitVec 16) (s : State) : State :=
  if p.kind ≤ 1 then s
  else
    let q : Packet := { dest := p.src, src := s.fab.nodeId, kind := 1, routeDim := 0, hops := 0, tag := p.tag, last := true, transfer := p.transfer, offset := 0
                        arg0 := BitVec.ofNat 8 reason, arg1 := 0, arg2 := st, arg3 := 0, payload := [] }
    takeHop q 0 false s

/-- Route a packet; one that is dropped at a later hop, or on arrival, sends a DROP to its source (R349). -/
def routePacket (p : Packet) (tc : Fin 4) (vc : Bool) (s : State) : State :=
  match hopOf s p tc with
  | .drop n => sendDrop p n 0 s
  | _ => takeHop p tc vc s

/-- The packet of a transfer at an OFFSET (R347, R352). -/
def packetOf (s : State) (t : TxRun) (off : Nat) : Packet :=
  { dest := t.dest, src := s.fab.nodeId, kind := t.kind, routeDim := 0, hops := 0, tag := t.tag, last := decide (t.bytes.length ≤ off + 4096)
    transfer := BitVec.ofNat 32 t.id, offset := off, arg0 := t.arg0, arg1 := t.arg1, arg2 := t.arg2, arg3 := t.arg3
    payload := (t.bytes.drop off).take 4096 }

/-- Bytes that acknowledgements must cover. -/
def txLength (t : TxRun) : Nat := t.bytes.length

/-- Note that the packet at an OFFSET was sent now (R352). -/
def noteSent (t : TxRun) (off len : Nat) (s : State) : State :=
  let k := off / 4096
  let first := (tfind k t.times).elim s.tick (·.1)
  setTx { t with sent := max t.sent (off + len), times := tput k (first, s.tick) t.times } s

/-- Send a packet at its source: a route that refuses it fails its transfer with LINK_DOWN at once (R349). -/
def sendPacket (p : Packet) (tc : Fin 4) (s : State) : State :=
  match hopOf s p tc with
  | .drop 1 => failTx p.transfer.toNat .linkDown s
  | .drop n => sendDrop p n 0 s
  | _ =>
    let s := takeHop p tc false s
    match txAt s p.transfer.toNat with
    | some t => noteSent t p.offset p.payload.length s
    | none => s

/-- PACKET_HOP: a packet is at a switch: this module's, at its source, or one that a link brought (R349, R350). -/
def execPacketHop (p : Packet) (tc : Fin 4) (vc : Bool) (arrival : Option LinkId) (s : State) : Host.Outcome State Fault Refusal :=
  .next (if !fabricOn s then s
    else match arrival with
      | none => sendPacket p tc s
      | some l =>
        let here := s.fab.arrived.contains (l.val, tc.val, vc, p)
        let s := if here then modLink l (fun x => { x with toReturn := tmod 0 (channelNo tc vc) (· + packetFlits p.payload.length) x.toReturn })
            { s with fab := { s.fab with arrived := s.fab.arrived.erase (l.val, tc.val, vc, p) } }
          else s
        routePacket p tc vc s)

/-! ### The link layer (R342 to R345) -/

/-- Put a flit on the wire: it takes the next SEQ, carries the last good SEQ received, and stays in the retry buffer (R343, R344). -/
def putOnWire (l : Nat) (f : Flit) (s : State) : State :=
  modLink l (fun x =>
    let f := { f with seq := x.txSeq, ackSeq := x.rxSeq }
    { x with txSeq := x.txSeq + 1, retry := x.retry ++ [f], wire := x.wire ++ [f] }) s

/-- A control flit: credit returns, and NAK where asked for (R343). -/
def ctrlFlit (nak : Bool) (credits : List Nat) : Flit :=
  { seq := 0, ackSeq := 0, tc := 0, vc := false, ctrl := true, nak, sop := false, credits
    payload := padTo flitPayload (credits.flatMap fun c => leBytes 2 c), corrected := false, good := true }

/-- Flits that an ACK_SEQ covers leave the retry buffer (R344). -/
def ackFlits (ack : BitVec 12) (l : List Flit) : List Flit := l.dropWhile fun f => decide ((ack - f.seq).toNat < 2048)

/-- The LINK slot armed for a link (R479). -/
def linkSlot (s : State) (l : Nat) : Option Nat :=
  if s.faults.test then
    (s.faults.inj.find? fun (e : Nat × InjSlot) => e.2.arm && e.2.detector.toNat == 0x0B && e.2.island.toNat == 0x18 + l
      && bits e.2.pattern.toNat 0 8 != 0 && bits e.2.pattern.toNat 8 8 != 0).map (·.1)
  else none

/-- Codewords that an injection spoils, the one at hand included (R479). -/
def injectLink (l : Nat) (s : State) : State :=
  if (linkAt s l).injLeft ≠ 0 then s
  else match linkSlot s l with
    | some k => modLink l (fun x => { x with injLeft := bits (injPattern s k) 8 8 }) (injFire k s)
    | none => s

/-- Record a resend episode that ended well: at most one entry per millisecond (R344, R468). -/
def logResend (l : Nat) (injected : Bool) (s : State) : State :=
  match (linkAt s l).eventAt with
  | some t => if s.tick < t + 1000 then s else modLink l (fun x => { x with eventAt := some s.tick }) (logCorrected 0x0B (0x18 + l) 0 injected s)
  | none => modLink l (fun x => { x with eventAt := some s.tick }) (logCorrected 0x0B (0x18 + l) 0 injected s)

/-- A whole packet has been received on a channel. -/
def takeWhole (l : Nat) (tc : Fin 4) (vc : Bool) (s : State) : State :=
  let x := linkAt s l
  let ch := channelNo tc vc
  let b := tget [] ch x.rx
  if b.length < 32 ∨ b.length < 32 + natAt b 24 2 then s
  else
    let p := parsePacket b
    let s := setLink s l { x with rx := tdel ch x.rx, rxAt := tdel ch x.rxAt }
    chargeLink l p (packetFlits p.payload.length) { s with fab := { s.fab with arrived := s.fab.arrived ++ [(l, tc.val, vc, p)] } }

/-- What a flit that is good and in order brings: an acknowledgement, a resend request, credits, or packet bytes (R343 to R345). -/
def takeFlit (l : Nat) (f : Flit) (s : State) : State :=
  let x := linkAt s l
  let left := ackFlits f.ackSeq x.retry
  let x := { x with rxSeq := f.seq, retry := left, wire := if f.nak then x.wire ++ left else x.wire }
  if f.ctrl then
    setLink s l { x with credits := (List.range 8).foldl (fun t ch => tset 512 ch (min 512 (tget 512 ch t + f.credits.getD ch 0)) t) x.credits }
  else
    let ch := channelNo f.tc f.vc
    let old := if f.sop then [] else tget [] ch x.rx
    let s := setLink s l { x with rx := tput ch (old ++ padTo flitPayload f.payload) x.rx, rxAt := tput ch s.tick x.rxAt }
    takeWhole l f.tc f.vc s

/-- FLIT_RECEIVE: a codeword has arrived on a link and has been decoded (R342, R344). -/
def execFlitReceive (l : LinkId) (fl : Flit) (s : State) : Host.Outcome State Fault Refusal :=
  .next (if !fabricOn s || !linkLive s l || (linkAt s l).fast then s
    else
      let s := if fl.corrected && fl.good then modLink l (fun x => { x with corr := min 0xFFFFFFFF (x.corr + 1) }) s else s
      let s := injectLink l s
      let x := linkAt s l
      let spoiled := x.injLeft != 0
      let s := if spoiled then setLink s l { x with injLeft := x.injLeft - 1 } else s
      let x := linkAt s l
      if !fl.good || spoiled then
        let only := spoiled && fl.good
        putOnWire l (ctrlFlit true [])
          (if x.rxBad then setLink s l { x with resends := x.resends + 1, spoiled := x.spoiled && only }
           else setLink s l { x with rxBad := true, resends := 0, spoiled := only, retries := min 0xFFFFFFFF (x.retries + 1) })
      else if fl.seq ≠ x.rxSeq + 1 then s
      else
        let s := if x.rxBad then logResend l x.spoiled (setLink s l { x with rxBad := false, resends := 0 }) else s
        takeFlit l fl s)

/-- A link goes down: its retry buffer and every packet queued for it are discarded (R344); STATE as given. -/
def clearLink (st : LinkState) (x : Link) : Link :=
  { x with state := st, fast := false, rxBad := false, resends := 0, retry := [], wire := [], queues := [], rx := [], rxAt := [], toReturn := [], credits := []
           swapLane := 31, sinceCtrl := 63, rxSeq := 4095, txSeq := 0 }

/-- A link goes down and is fenced; packets that have arrived through it and wait are discarded (R344, R469). -/
def downLink (l : Nat) (s : State) : State :=
  let s := noteFence (linkAt s l).fenced l (modLink l (fun x => { clearLink .failed x with fenced := true }) s)
  { s with fab := { s.fab with arrived := s.fab.arrived.filter fun (e : Nat × Nat × Bool × Packet) => e.1 != l } }

/-- A link is lost: a fence action, recorded as an uncorrected-contained event (R344, R468). -/
def loseLink (l lane : Nat) (s : State) : State :=
  downLink l (logClass1 0x0B (0x18 + l) lane false (statusCode .linkDown) s)

/-- The link is in loopback: its retrains are ignored until MODE is 0 (R496, R502). -/
def inLoopback (s : State) (l : Nat) : Bool := (tget ({} : TestLink) l s.testLinks).mode != 0

/-- 16 resends have failed: a fast retrain onto the spare, or the link goes down when the spare is in use (R344). -/
def retryFails (l lane : Nat) (s : State) : State :=
  let x := linkAt s l
  if x.spared = 31 then setLink s l { x with fast := true, swapLane := lane } else loseLink l lane s

/-- RETRY_EXHAUSTED: a flit is still bad after 16 resends (R344). -/
def execRetryExhausted (l : LinkId) (worstLane : Fin 16) (s : State) : Host.Outcome State Fault Refusal :=
  let x := linkAt s l
  .next (if fabricOn s && linkLive s l && !x.fast && x.rxBad && decide (16 ≤ x.resends) then retryFails l worstLane s else s)

/-- LANE_LOSS_OF_LOCK: treated as 16 failed resends (R344). -/
def execLaneLossOfLock (l : LinkId) (lane : Fin 17) (s : State) : Host.Outcome State Fault Refusal :=
  .next (if fabricOn s && linkLive s l && !(linkAt s l).fast then retryFails l lane s else s)

/-- FAST_RETRAIN_DONE: the spare replaces the lane and resending resumes, or the link goes down (R344, R468). -/
def execFastRetrainDone (l : LinkId) (ok : Bool) (s : State) : Host.Outcome State Fault Refusal :=
  let x := linkAt s l
  .next (if !fabricOn s || !x.fast || inLoopback s l then s
    else
      let t := injReset (fun y => y.island.toNat == 0x18 + l.val) s
      if !ok then loseLink l x.swapLane t
      else if x.swapLane = 16 then setLink t l { x with fast := false, resends := 0, wire := x.wire ++ x.retry, swapLane := 31 }
      else
        let t := setLink t l { x with fast := false, resends := 0, state := .upSpare, spared := x.swapLane, swapLane := 31, wire := x.wire ++ x.retry }
        let t := { t with store := { t.store with spareLane := tset 31 l x.swapLane t.store.spareLane, spareEver := setBit t.store.spareEver l true } }
        noteService s (recordEvent 1 (BitVec.ofNat 64 x.swapLane)
          (logDetection (BitVec.ofNat 8 (0x18 + l.val)) 0x0B 0 false 6 (islandCycles t (0x18 + l.val)) (BitVec.ofNat 64 x.swapLane) 0 t)))

/-- LINK_TRAINING_DONE: node IDs have been exchanged; a partner with this module's ID, or none, leaves the link down (R346). A lane of the repair
map is replaced (R344), and the fence of a lost link lifts (R469). -/
def execLinkTrainingDone (l : LinkId) (peer : BitVec 20) (s : State) : Host.Outcome State Fault Refusal :=
  let x := linkAt s l
  .next (if !fabricOn s || x.state != .training || !x.enable then s
    else if peer = s.fab.nodeId ∨ peer = Config.unassignedNode then setLink s l { clearLink .down x with peer }
    else
      let lane := tget 31 l.val s.store.spareLane
      let t := setLink s l { clearLink (if lane = 31 then .up else .upSpare) x with peer, spared := lane, fenced := false }
      noteService s (if x.fenced then noteLift (0x18 + l.val) 0 7 t else t))

/-- A full retrain: flits in flight are discarded (R362), and the injection slots of the link's island return to reset (R456). -/
def startTraining (l : Nat) (s : State) : State :=
  let s := injReset (fun x => x.island.toNat == 0x18 + l) s
  modLink l (clearLink .training) { s with fab := { s.fab with arrived := s.fab.arrived.filter fun (e : Nat × Nat × Bool × Packet) => e.1 != l } }

/-- A write of FAB.LINK_l.ENABLE: 0 takes the link down, 1 lets one that was disabled train (R362). -/
def writeLinkEnable (l : Nat) (v : Bool) (s : State) : State :=
  let x := linkAt s l
  if v then (if x.enable then s else startTraining l (setLink s l { x with enable := true }))
  else setLink s l { clearLink .down x with enable := false }

/-- LINK_ENABLE (R362). -/
def execLinkEnable (l : LinkId) (v : Bool) (s : State) : Host.Outcome State Fault Refusal := .next (if barOpen s then writeLinkEnable l v s else s)

/-- RETRAIN: a full retrain of an enabled link (R362). -/
def execRetrain (l : LinkId) (s : State) : Host.Outcome State Fault Refusal :=
  .next (if barOpen s && (linkAt s l).enable && !inLoopback s l then startTraining l s else s)

/-- NODE_ID: a write before SETUP_DONE sets the ID, and links that are up or train retrain (R362, R363, R506, R514). -/
def execNodeId (w : BitVec 32) (s : State) : Host.Outcome State Fault Refusal :=
  .next (if !barOpen s || s.boot.setupDone then s
    else
      let s := { s with fab := { s.fab with nodeId := w.setWidth 20 } }
      (List.range 6).foldl (fun s l => if ((linkAt s l).state = .up ∨ (linkAt s l).state = .upSpare ∨ (linkAt s l).state = .training) ∧ inLoopback s l = false then startTraining l s else s) s)

/-- PACKET_STALL_TIMEOUT: the next flit of a packet has been missing for 50 µs: its flits are discarded, their credits freed, and its source gets a
DROP with REASON 6 (R353). -/
def execPacketStallTimeout (l : LinkId) (p : Packet) (s : State) : Host.Outcome State Fault Refusal :=
  let x := linkAt s l
  .next (if !fabricOn s then s
    else match x.rx.find? fun (e : Nat × List (BitVec 8)) => decide (32 ≤ e.2.length) && natAt e.2 3 3 == p.src.toNat && natAt e.2 12 4 == p.transfer.toNat
        && natAt e.2 16 8 == p.offset && decide (tget 0 e.1 x.rxAt + 50 ≤ s.tick) with
      | none => s
      | some (ch, b) =>
        sendDrop (parsePacket b) 6 0 (setLink s l { x with rx := tdel ch x.rx, rxAt := tdel ch x.rxAt
                                                           toReturn := tmod 0 ch (· + b.length / flitPayload) x.toReturn }))

end Sys2Proof.Machine
end

