-- ==== Sys2Proof/Machine/Tiers.lean ====
section
/-!
DEFINITION. Meanings of the commands of translation and of the tiers (08): MAP, UNMAP, page moves and scrub.
-/

namespace Sys2Proof.Machine

/-! ### MAP and UNMAP (R187, R188, R262) -/

/-- Bytes of a page code; 0 for the reserved one. -/
def pageSize (p : BitVec 2) : Nat := match p.toNat with
  | 0 => 4096 | 1 => 2097152 | 2 => gib | _ => 0

/-- The place of a PLACE code. -/
def placeOf (p : BitVec 2) : PlaceCode := match p.toNat with
  | 0 => .tier1 | 1 => .fieldPool | 2 => .modulePool | _ => .window

/-- Some translation page of a field shares an address with a range. -/
def mappedAny (fl : Field) (a n : Nat) : Bool := fl.pages.any fun p => isDva p && overlaps a n p.dva p.bytes

/-- Add one page to a field's translation. -/
def addPage (f : Nat) (p : Page) (s : State) : State := modField f (fun fl => { fl with pages := fl.pages ++ [p] }) s

/-- Map pages i, i + 1, … of a block; none where a page finds no frames. -/
def mapPages (b : MapBlock) : Nat → Nat → State → Option State
  | 0, _, s => some s
  | n + 1, i, s =>
    let f := b.field.val
    let size := pageSize b.page
    let page := fun (fr : Nat) => ({ dva := b.dva.toNat + i * size, bytes := size, place := placeOf b.place, frame := fr, write := b.write,
                                     demotable := b.demotable && b.place == 0, demoted := false, touch := s.fld.useStamp, owner := .host } : Page)
    match placeOf b.place with
    | .window => mapPages b n (i + 1) (addPage f (page ((b.windowOff.toNat + i * size) / Config.frame)) s)
    | .tier1 => match allocT1 f 1 0 (size / Config.frame) s with
      | none => none
      | some (fr, s) => mapPages b n (i + 1) (addPage f (page fr) s)
    | pl => match (fieldAt s f).bind fun fl => placeFrames s f fl pl size with
      | none => none
      | some fr => mapPages b n (i + 1) (addPage f (page fr) s)

/-- The status of R188 for a MAP whose block is sound. -/
def mapMisfit (s : State) (fl : Field) (b : MapBlock) : Bool :=
  let size := pageSize b.page
  b.dva.toNat % size != 0 || b.bytes.toNat % size != 0 || (b.place == 3 && b.windowOff.toNat % size != 0)
    || mappedAny fl b.dva.toNat b.bytes.toNat || decide (Config.firmwareDva < b.dva.toNat + b.bytes.toNat)
    || (b.place == 3 && decide (s.mem.effWindow * gib < b.windowOff.toNat + b.bytes.toNat))

/-- MAP (R188, R262, R464). A MAP that fails leaves every page where it was (log 31). -/
def execMap (b : MapBlock) (s : State) : Host.Outcome State Fault Refusal :=
  .next (mailbox 0x0010 (fun s =>
    match fieldAt s b.field with
    | none => mboxEnd 0x0010 .countMismatch [] s
    | some fl =>
      if b.page = 3 then mboxEnd 0x0010 .countMismatch [] s
      else if b.bytes = 0 then mboxEnd 0x0010 .okEmpty [] s
      else if mapMisfit s fl b then mboxEnd 0x0010 .badAlignment [] s
      else
        let s := if b.place = 0 then wakeField b.field s else s
        match mapPages b (b.bytes.toNat / pageSize b.page) 0 s with
        | none => mboxEnd 0x0010 .noPlacement [] s
        | some s => mboxEnd 0x0010 .ok [] s) s)

/-- A page that UNMAP may remove: a mapping of the host, or a tier-1 copy of a shard (R188, R333). -/
def isHost (p : Page) : Bool := match p.owner with
  | .host => true
  | .shard _ _ => true
  | _ => false

/-- The end of a range falls strictly inside a mapped page. -/
def cutsPage (fl : Field) (a : Nat) : Bool := fl.pages.any fun p => isHost p && decide (p.dva < a ∧ a < p.dva + p.bytes)

/-- Cut a range out of the ranges of undefined contents. -/
def defineRange (f a n : Nat) (l : List (Nat × Nat × Nat × Nat)) : List (Nat × Nat × Nat × Nat) :=
  l.flatMap fun (e : Nat × Nat × Nat × Nat) =>
    if e.1 = f ∧ overlaps a n e.2.1 e.2.2.1 = true then
      [(f, e.2.1, a - e.2.1, e.2.2.2), (f, a + n, e.2.1 + e.2.2.1 - (a + n), e.2.2.2 + (a + n - e.2.1))].filter fun (x : Nat × Nat × Nat × Nat) => x.2.2.1 != 0
    else [e]

/-- Copies of a field's models that a range takes a page of leave the index of tier-1 copies (R333). -/
def evictCopies (f a n : Nat) (s : State) : State :=
  let keep := fun (m : Model) => { m with copies := m.copies.filter fun c => !overlaps a n c.dva (roundUp c.bytes 2097152) }
  { s with models := { s.models with tier1 := tmod [] f (fun l => (l.map keep).filter fun m => m.copies != []) s.models.tier1 } }

/-- Remove the host pages inside a range: their moves stop, their frames are free (R188, R193, R204); a shard's copy is evicted (R333). The
firmware's own ranges stay (log 32). -/
def removePages (f a n : Nat) (s : State) : State :=
  match fieldAt s f with
  | none => s
  | some fl =>
    let gone := fl.pages.filter fun p => isHost p && inside p.dva p.bytes a n
    let s := setField s f { fl with
      pages := fl.pages.filter fun p => !(isHost p && inside p.dva p.bytes a n)
      trans := fl.trans.filter fun e => !gone.any fun p => p.dva == e.2 }
    let s := { s with mem := { s.mem with
      moves := s.mem.moves.filter fun m => !(m.field == f && gone.any fun p => p.dva == m.dva)
      undef := gone.foldl (fun l p => defineRange f p.dva p.bytes l) s.mem.undef } }
    framesFreed f (evictCopies f a n s)

/-- UNMAP (R188, R262). -/
def execUnmap (b : UnmapBlock) (s : State) : Host.Outcome State Fault Refusal :=
  .next (mailbox 0x0011 (fun s =>
    match fieldAt s b.field with
    | none => mboxEnd 0x0011 .countMismatch [] s
    | some fl =>
      if b.bytes = 0 then mboxEnd 0x0011 .okEmpty [] s
      else if cutsPage fl b.dva.toNat || cutsPage fl (b.dva.toNat + b.bytes.toNat) then mboxEnd 0x0011 .badAlignment [] s
      else mboxEnd 0x0011 .ok [] (removePages b.field b.dva.toNat b.bytes.toNat s)) s)

/-! ### Page moves (R194) -/

/-- The copy of the first page move has ended: the translation changes, unless a section has come to hold the page since (R194). -/
def execPageMoveDone (s : State) : Host.Outcome State Fault Refusal :=
  .next (match s.mem.moves with
    | [] => s
    | m :: ms =>
      let s1 := { s with mem := { s.mem with moves := ms } }
      match fieldAt s m.field with
      | none => s1
      | some fl => match fl.pages.find? fun p => p.dva == m.dva && p.demoted != !m.promote with
        | some p => if pageHeld s fl p then framesFreed m.field s1 else movePage m.field p (!m.promote) m.frame s1
        | none => s1)

/-! ### CXL.mem reads (R199, R258) -/

/-- A host read of one window line: poisoned where the line is lost, an injection makes it uncorrectable, or before the layout stands (R199, R204,
R258, R479, R506); no work is affected. -/
def execCxlMemRead (line : BitVec 36) (s : State) : Host.Outcome State Fault Refusal :=
  .next (
    if !linkUp s || !s.entry.main then s
    else
      let s := { s with acct := { s.acct with live := { s.acct.live with windowBytes := s.acct.live.windowBytes + 64 } } }
      let s := if (windowCell s (line.toNat * 64)).isSome then chargeTier none true 64 s else s
      let (ok, s) := meetLines 0 (windowCell s (line.toNat * 64)).toList s
      let s := noteLost (windowCell s (line.toNat * 64)).toList s
      let r := if ok then hostWindow s (line.toNat * 64) 64 else none
      setHost s { s.host with cxlReads := s.host.cxlReads ++ [{ line := line.toNat, data := r.getD (zeros 64), poisoned := r.isNone }] })

/-! ### Scrub (R201, R202) -/

/-- The cell of a scrubbed tier line. -/
def scrubCell : ScrubPlace → Option CellAt
  | .hbm k line => some (false, k.val * Config.stackBytes + 64 * line)
  | .ddr c line => some (true, c.val * channelSpan + 64 * line)
  | .sram _ _ => none

/-- The place is scrubbed at the moment: powered, its period not zero, its stack not in self-refresh, and no call queued at the moon that scrubs it
(R201, R224, R462). -/
def scrubRuns (s : State) (p : ScrubPlace) : Bool :=
  s.entry.main && !s.boot.warmBusy && match p with
    | .hbm k line => moonFree s k && !s.host.d3hot && s.mem.hbmHours != 0 && !s.faults.fencedStacks.getLsbD k && decide (64 * line < Config.stackBytes) &&
        (match fieldOfBand s (bandOf k) with | some f => (match fieldAt s f with | some fl => !fl.asleep | none => true) | none => true)
    | .ddr c line => !s.host.d3hot && s.mem.ddrHours != 0 && !s.faults.fencedChannels.getLsbD c && decide (64 * line < channelSpan)
    | .sram t line => !s.host.d3hot && decide (8 * line < Config.sramBytes) && !s.fld.stopped.getLsbD (tileIsland s (40 * t.row.val + t.col.val))

/-- WHERE above the tile of an SRAM word number: bank and word (R468). -/
def wordLoc (line : Nat) : Nat := 65536 * (line / 8 % 32) + 2097152 * (line / 256 * 8 + line % 8)

/-- A scrubber has read one line (R199, R201): a correction is recorded, an uncorrectable line is fenced or its frame retired; with an injection in
the same read a real error stands (R481). -/
def execScrubPass (p : ScrubPlace) (found : ScrubFind) (s : State) : Host.Outcome State Fault Refusal :=
  .next (
    if !scrubRuns s p then s
    else match p, scrubCell p with
      | .sram t line, _ =>
        let k := 40 * t.row.val + t.col.val
        let extra := wordLoc line
        let slot := injSlot s 0x01 (tileIsland s k) (tileLoc k + extra)
        let w := match slot with | some j => weight 64 (injPattern s j) | none => 0
        let s := injMeet 0x01 (tileIsland s k) (tileLoc k + extra) s
        match found with
        | .clean => if w = 0 then s else if w = 1 then logCorrected 0x01 (tileIsland s k) (tileLoc k + extra) true s else unitDetection k 0x01 extra true s
        | .corrected _ => logCorrected 0x01 (tileIsland s k) (tileLoc k + extra) false s
        | .uncorrectable => unitDetection k 0x01 extra false s
      | _, none => s
      | _, some c =>
        let span := if c.1 then channelSpan else Config.stackBytes
        let det := if c.1 then 0x03 else 0x02
        let isl := (if c.1 then 0x40 else 0x30) + c.2 / span
        let line := c.2 % span / 64 * 64
        if cellLost s c then s
        else
          let s := chargeTier none c.1 64 s
          match found with
            | .clean => (injectLine 0 c s).2
            | .corrected seen => logCorrected det isl line false (injMeet det isl line (if seen then s else chargeTier none c.1 64 s))
            | .uncorrectable => retireFrame c.1 (c.2 / span) line (logClass1 det isl line false 0 (injMeet det isl line s)))

end Sys2Proof.Machine
end

