-- ==== Sys2Proof/Machine/Transfers.lean ====
section
/-!
DEFINITION. End-to-end delivery (16): transfers at their source and their receiver, feeds and comets from other modules, and KV_SHIP (13).
-/

namespace Sys2Proof.Machine

/-! ### Acknowledgements (R352) -/

/-- The transfer at this receiver. -/
def rxRunAt (s : State) (src : BitVec 20) (id : Nat) : Option RxRun := s.fab.rx.find? fun x => x.src == src && x.id == id

/-- Put a transfer of the receiver in place of its earlier state. -/
def setRx (x : RxRun) (s : State) : State :=
  { s with fab := { s.fab with rx := s.fab.rx.filter (fun y => !(y.src == x.src && y.id == x.id)) ++ [x] } }

/-- Send the ACK of a transfer: the bytes accepted, and a finished comet's handle in ARG2 and ARG3 as its low and high 10 bits (R347, R357). -/
def sendAck (x : RxRun) (s : State) : State :=
  let h := if x.finished then x.handle else 0
  let p : Packet := { dest := x.src, src := s.fab.nodeId, kind := 0, routeDim := 0, hops := 0, tag := x.tag, last := true, transfer := BitVec.ofNat 32 x.id
                      offset := x.accepted, arg0 := 0, arg1 := 0, arg2 := BitVec.ofNat 16 (h % 1024), arg3 := BitVec.ofNat 16 (h / 1024), payload := [] }
  takeHop p 0 false (setRx { x with unacked := 0 } s)

/-- ACK_SEND_TIMER: 1 µs has passed since packets were accepted without an ACK (R352). -/
def execAckSendTimer (src : BitVec 20) (transfer : BitVec 32) (s : State) : Host.Outcome State Fault Refusal :=
  .next (match rxRunAt s src transfer.toNat with
    | some x => if fabricOn s && x.unacked != 0 then sendAck x s else s
    | none => s)

/-! ### What a packet brings (R356, R357) -/

/-- A refusal of a packet: its REASON and status (R352). -/
abbrev Refused := Nat × BitVec 16

/-- A number for the entries of one FEED packet, apart from every acceptance number. -/
def feedKey (p : Packet) : Nat := 2 ^ 64 + (p.src.toNat * 2 ^ 32 + p.transfer.toNat) * 2 ^ 48 + p.offset / 64

/-- The entries of a FEED packet as they wait at the feed. -/
def feedRun (p : Packet) (sec : Option Nat) : CopyRun :=
  { acc := feedKey p, tag := p.tag.toNat, srcPlace := 4, dstPlace := 3, field := p.arg0.toNat % 4, target := (p.arg2.toNat % 1024, p.arg3.toNat), secId := sec
    port := p.arg1.toNat % 16, src := 0, dst := 0, length := p.payload.length, data := p.payload, moved := 0, batched := false, started := true, fault := none }

/-- Check a FEED packet against its feed (R234, R356): the section, or the REASON. -/
def feedTarget (s : State) (p : Packet) : Except Nat (Nat × Section) :=
  let c := feedRun p none
  match targetDesc s c.target.1 c.target.2 with
  | none => if parkedFeed s c then .error 4 else if s.host.closed.contains c.target then .error 3 else .error 2
  | some (a, t) => match sectionOfAcc s a with
    | none => if t.op == 0x21 || t.op == 0x43 then .error 2 else .error 3
    | some (f, x) => match x.feeds.find? (fun e => e.port == c.port) with
      | none => .error 3
      | some e =>
        if f ≠ c.field then .error 3
        else if x.phase = .draining ∧ x.why = some .inputPark then .error 4
        else if p.payload.length % 64 ≠ 0 ∨ e.expects < e.accepted + p.payload.length / 64 then .error 3
        else .ok (f, x)

/-- Take a FEED packet (R356). -/
def takeFeed (p : Packet) (s : State) : Except Refused State :=
  match feedTarget s p with
  | .error n => .error (n, 0)
  | .ok (f, x) =>
    let more := fun (e : Feed) => { e with accepted := e.accepted + p.payload.length / 64 }
    let s := modSec f x.id (fun x => { x with feeds := mapIf (fun e => e.port == p.arg1.toNat % 16) more x.feeds }) s
    .ok (pumpAll { s with fld := { s.fld with copies := s.fld.copies ++ [feedRun p (some x.id)] } })

/-- Bytes of the shipment header with the full prompt digest (R357). -/
def shipHead : Nat := 128

/-- SHA-384 of the prompt's token IDs (R301). -/
def promptDigest (q : Request) : Digest := sha384 ((q.ids.take q.promptTokens).flatMap fun t => leBytes 4 t.toNat)

/-- Pages whose index has arrived: index and offset of the bytes. -/
def shipPages (size : Nat) (b : List Byte) : List (Nat × Nat) :=
  (List.range ((b.length - shipHead + size + 56) / (64 + size))).map fun k => (natAt b (shipHead + k * (64 + size)) 8, shipHead + k * (64 + size) + 64)

/-- The checks of R301 on what has arrived of a shipment, which brings no page that another has brought (R306): the request with its configuration, or
the refusal. -/
def shipTarget (s : State) (p : Packet) (b : List Byte) : Except Refused (Request × ServConfig) :=
  let no : Refused := (5, statusCode .countMismatch)
  match reqAt s (p.arg2.toNat % 4096) with
  | none => .error (2, 0)
  | some q =>
    if q.awaitKv = false ∨ q.state ≠ .queued ∨ q.field ≠ p.arg0.toNat % 4 ∨ b.length < shipHead then .error no
    else match configAt s q.config with
      | none => .error no
      | some c =>
        if natAt b 0 48 ≠ c.block.manifestDigest.toNat ∨ natAt b 64 48 ≠ (promptDigest q).toNat
            ∨ natAt b 56 8 ≠ (promptDigest q).toNat % 2 ^ 64 then .error (5, statusCode .digestFail)
        else if natAt b 48 4 ≠ c.pageBytes ∨ natAt b 52 4 ≠ q.promptTokens ∨ (shipPages c.pageBytes b).any (fun e => decide (promptPages q ≤ e.1) || q.received.contains e.1) = true then .error no
        else .ok (q, c)

/-- Put the pages of a whole shipment into the request's list, and count them received; with all of them the request enters DECODE (R292, R301). -/
def installShip (r : Nat) (q : Request) (c : ServConfig) (b : List Byte) (s : State) : Option State :=
  ((shipPages c.pageBytes b).foldl (fun (o : Option State) (e : Nat × Nat) => o.bind fun s =>
    (allocKv q.field r e.1 false c.pageBytes s).map fun s =>
      modReq r (fun q => { q with received := q.received.filter (· != e.1) ++ [e.1] })
        (writeKv q.field r e.1 false ((b.drop e.2).take c.pageBytes) s)) (some s)).map fun s => settleHolds (modReq r settleQueued (countPages r s))

/-- COMET_MAX as the header on its way tells it (R314). -/
def headerMax (h : CometHeader) : Nat :=
  let rec_ := fun (bytes : Nat) => 64 + roundUp (bytes / 4096 * 4104) 64
  5696 + roundUp (4 * h.tokens) 64 + h.pages * rec_ h.pageBytes + h.draftPages * rec_ h.draftPageBytes

/-- MAGIC, FORMAT and HEADER_BYTES of a comet are right, and it has the length that BODY_BYTES gives (R307, R308). -/
def cometFormed (b : List Byte) : Bool :=
  natAt b 0 4 == 0x544D4F43 && natAt b 4 2 == 1 && natAt b 6 2 == 256 && b.length == 3648 + (parseCometHeader b).bodyBytes

/-- A whole comet of a peer goes into the module pool, to be checked at its RESUME (R313, R318, R357). -/
def keepComet (b : List Byte) (room : Option CometDest) (s : State) : Nat × State :=
  let h := freeHandle s
  let c := parseComet b
  let (fr, n) := match room with
    | some (.pool fr n) => (fr, n)
    | _ => (0, 0)
  let s := releaseReserve room s
  let p : PoolComet := { comet := c, bytes := b.length, frame := fr, frames := n, identity := c.identity, signed := false, formed := cometFormed b }
  (h, { s with serv := { s.serv with comets := tput h p s.serv.comets, nextComet := 1 + h % (Config.cometHandles - 1) } })

/-- The room that a comet arriving at a peer takes: what it has, or what its header asks for (R357). -/
def takeRoom (x : RxRun) (b : List Byte) (s : State) : Option (Option CometDest × State) :=
  match x.room with
  | some r => some (some r, s)
  | none => match reservePool (headerMax (parseCometHeader b)) s with
    | some (d, s) => some (some d, s)
    | none => none

/-- Accept a packet whose OFFSET is the bytes accepted so far (R352, R356, R357): the transfer after it, or the refusal. -/
def acceptPacket (x : RxRun) (p : Packet) (s : State) : Except Refused (RxRun × State) :=
  let y := { x with accepted := x.accepted + p.payload.length, unacked := x.unacked + 1, finished := p.last }
  let b := x.bytes ++ p.payload
  match p.kind with
  | 2 => (takeFeed p s).map fun s => (y, s)
  | 3 => match shipTarget s p b with
    | .error e => .error e
    | .ok (q, c) =>
      if p.last then match installShip (p.arg2.toNat % 4096) q c b s with
        | some s => .ok ({ y with bytes := [] }, chargeTier (some p.tag.toNat) false b.length s)
        | none => .error (5, statusCode .noPlacement)
      else .ok ({ y with bytes := b }, s)
  | 4 =>
    match takeRoom x b s with
    | none => .error (5, statusCode .bufferTooSmall)
    | some (room, s) =>
      if p.last then
        let (h, s) := keepComet b room s
        .ok ({ y with bytes := [], room := none, handle := h }, chargeTier (some p.tag.toNat) true b.length s)
      else .ok ({ y with bytes := b, room }, s)
  | _ => .ok (y, s)

/-- PACKET_DELIVER: the receiver takes packets in OFFSET order; it discards a later one, and acknowledges an earlier one again (R352). A packet that
cannot be accepted is answered with a DROP, and one of a reserved KIND is let go (R347); in D3hot every packet is, with REASON 2 (R462). -/
def execPacketDeliver (p : Packet) (tc : Fin 4) (s : State) : Host.Outcome State Fault Refusal :=
  .next (if !fabricOn s || decide (p.kind ≤ 1) then s
    else
      let s := { s with fab := { s.fab with delivered := s.fab.delivered.erase (p, tc.val) } }
      if 6 < p.kind then s
      else if s.host.d3hot then sendDrop p 2 0 s
      else
      let x := (rxRunAt s p.src p.transfer.toNat).getD { src := p.src, id := p.transfer.toNat, kind := p.kind, accepted := 0, unacked := 0, bytes := []
                                                         finished := false, tag := p.tag, room := none, handle := 0 }
      if x.accepted < p.offset then s
      else if p.offset < x.accepted ∨ x.finished = true then sendAck x s
      else match acceptPacket x p s with
        | .error (n, st) => sendDrop p n st s
        | .ok (x, s) => if x.finished ∨ 16 ≤ x.unacked then sendAck x s else setRx x s)

/-! ### At the source (R352) -/

/-- A shipment has arrived whole: the KV_SHIP completes, and with RELEASE its request too (R300). -/
def shipDone (acc : Nat) (s : State) : State :=
  match s.serv.ships.find? fun (e : Nat × Nat × Nat × Nat × Nat × Bool) => e.1 == acc with
  | none => finish acc .ok 0 0 s
  | some (_, r, order, bytes, pages, release) =>
    let s := finish acc .ok bytes pages (dropShip acc s)
    match reqAt s r with
    | some q => if release ∧ q.order = order ∧ q.prefillOnly = true ∧ q.state = .prefill then closeReq r (statusCode .ok) 0 s else s
    | none => s

/-- ACK_RECEIVE: acknowledged packets are freed; with the last one the transfer is done (R352, R357). -/
def execAckReceive (transfer : BitVec 32) (accepted : Nat) (arg2 arg3 : BitVec 16) (s : State) : Host.Outcome State Fault Refusal :=
  .next (if !fabricOn s then s
    else
      let s := { s with fab := { s.fab with delivered := s.fab.delivered.filter fun (e : Packet × Nat) =>
        !(e.1.kind == 0 && e.1.transfer == transfer && e.1.offset == accepted) } }
      match txAt s transfer.toNat with
      | none => s
      | some t =>
        let n := max t.acked (min accepted t.sent)
        let sentLast := t.times.any fun (e : Nat × Nat × Nat) => decide (txLength t ≤ e.1 * 4096 + 4096)
        if txLength t ≤ n ∧ sentLast = true then
          let s := dropTx t.id s
          match t.use with
          | .kvShip acc => shipDone acc s
          | .comet r => parkDone r (arg2.toNat % 1024 + 1024 * (arg3.toNat % 1024)) (txLength t) s
          | .feed f x => endFeedTx { t with acked := n } f x .ok s
          | .collective _ => s
        else setTx { t with acked := n, times := t.times.filter fun (e : Nat × Nat × Nat) => decide (n < e.1 * 4096 + 4096) } s)

/-- Packets from the first unacknowledged OFFSET that have been sent go out again (R352). -/
def resendFrom (id : Nat) (s : State) : State :=
  match txAt s id with
  | none => s
  | some t => ((List.range (ceilDiv (t.sent - t.acked / 4096 * 4096) 4096)).map fun i => t.acked / 4096 * 4096 + 4096 * i).foldl (fun s off =>
      match txAt s id with
      | some t => sendPacket (packetOf s t off) (BitVec.ofNat 2 (kindClass t.kind)).toFin s
      | none => s) s

/-- First and last send of a transfer's first unacknowledged packet. -/
def oldestSend (t : TxRun) : Option (Nat × Nat) := tfind (t.acked / 4096) t.times

/-- DROP_RECEIVE: the source resends or fails the transfer by its REASON (R352). -/
def execDropReceive (transfer : BitVec 32) (reason : BitVec 8) (status : Option Status) (s : State) : Host.Outcome State Fault Refusal :=
  .next (if !fabricOn s then s
    else
      let s := { s with fab := { s.fab with delivered := s.fab.delivered.filter fun (e : Packet × Nat) =>
        !(e.1.kind == 1 && e.1.transfer == transfer && e.1.arg0 == reason) } }
      let id := transfer.toNat
      match reason.toNat with
      | 1 => failTx id .linkDown s
      | 7 => failTx id .linkDown s
      | 8 => failTx id .linkDown s
      | 3 => failTx id .countMismatch s
      | 4 => failTx id .parked s
      | 5 => (match status with
        | some st => failTx id st s
        | none => s)
      | 6 => resendFrom id s
      | 2 => (match txAt s id with
        | some t => setTx { t with times := t.times.map fun (e : Nat × Nat × Nat) => (e.1, s.tick, s.tick) } s
        | none => s)
      | _ => s)

/-- RESEND_TIMEOUT: no ACK has covered a packet WINDOW_US / 2 after it was last sent (R352). -/
def execResendTimeout (transfer : BitVec 32) (s : State) : Host.Outcome State Fault Refusal :=
  .next (match txAt s transfer.toNat with
    | none => s
    | some t => match oldestSend t with
      | some (_, last) => if fabricOn s && decide (last + t.window / 2 ≤ s.tick) then resendFrom t.id s else s
      | none => s)

/-- TRANSFER_WINDOW_EXPIRY: no ACK has covered a packet WINDOW_US after its first send, or since the window restarted (R352). -/
def execTransferWindowExpiry (transfer : BitVec 32) (s : State) : Host.Outcome State Fault Refusal :=
  .next (match txAt s transfer.toNat with
    | none => s
    | some t => match oldestSend t with
      | some (first, _) => if fabricOn s && decide (first + t.window ≤ s.tick) then failTx t.id .linkDown s else s
      | none => s)

/-! ### KV_SHIP (R300, R357) -/

/-- Bytes of a KV page as it stands; none where a line is lost (R204). -/
def kvBytes (s : State) (fl : Field) (r page size : Nat) : Option (List Byte) :=
  (kvPage fl r page false).bind fun pg =>
    let cells := (List.range size).filterMap fun o => unitCell s fl pg o
    if cells.length ≠ size ∨ cells.any (cellLost s) = true then none else some (cells.map (cellRead s))

/-- The bytes of a shipment (R357). -/
def shipBytes (s : State) (fl : Field) (r : Nat) (q : Request) (c : ServConfig) (first count : Nat) : Option (List Byte) :=
  let d := promptDigest q
  let head := leBytes 48 c.block.manifestDigest.toNat ++ leBytes 4 c.pageBytes ++ leBytes 4 q.promptTokens ++ leBytes 8 d.toNat ++ padTo 64 (leBytes 48 d.toNat)
  (List.range count).foldl (fun (o : Option (List Byte)) i => o.bind fun l =>
    (kvBytes s fl r (first + i) c.pageBytes).map fun b => l ++ padTo 64 (leBytes 8 (first + i)) ++ b) (some head)

/-- The request that a KV_SHIP may ship: PREFILL_ONLY, its prefill finished, with every page in its list (R300). -/
def shipSource (s : State) (d : ShipDesc) : Option (Nat × Request) :=
  match (targetDesc s d.targetSq d.targetSeq.toNat).bind fun e => reqOfAcc s e.1 with
  | none => none
  | some r => match reqAt s r with
    | none => none
    | some q =>
      if q.prefillOnly && q.state == .prefill && decide (q.promptTokens ≤ q.kvDone + 1)
          && decide (d.firstPage.toNat + d.pageCount.toNat ≤ heldPages s q.field r false) then some (r, q)
      else none

/-- KV_SHIP: the sender's checks, then one KV_PAGE transfer (R300, R357). -/
def execKvShip (q : QId) (h : DescHdr) (d : ShipDesc) (s : State) : Host.Outcome State Fault Refusal :=
  .next (withDesc q .kvShip h false (fun acc s =>
    if d.pageCount = 0 then finish acc .okEmpty 0 0 s
    else if !s.serv.firmware then finish acc .noPlacement 0 0 s
    else match shipSource s d with
      | none => finish acc .countMismatch 0 0 s
      | some (r, x) =>
        if !routeOpen s d.destNode 2 then finish acc .linkDown 0 0 s
        else match fieldAt s x.field, configAt s x.config with
          | some fl, some c =>
            let cells := pageCells s fl r d.firstPage.toNat d.pageCount.toNat c.pageBytes false
            let (met, s) := meetLines (statusCode .fencedUnit) cells s
            match (if met then shipBytes s fl r x c d.firstPage.toNat d.pageCount.toNat else none) with
            | none => finish acc .fencedUnit 0 0 (noteLost cells s)
            | some b =>
              let n := d.pageCount.toNat * c.pageBytes
              let s := chargeTier (some h.tag.toNat) false n s
              let s := { s with serv := { s.serv with ships := s.serv.ships ++ [(acc, r, x.order, n, d.pageCount.toNat, d.release)] } }
              startTx (.kvShip acc) d.destNode 3 h.tag (BitVec.ofNat 8 d.destField.val) (BitVec.ofNat 16 d.destReq.toNat) 0 b (setPhase acc .waiting s)
          | _, _ => finish acc .countMismatch 0 0 s) s)

end Sys2Proof.Machine
end

