-- ==== Sys2Proof/Machine/Collectives.lean ====
section
/-!
DEFINITION. Collectives (16): groups, the collective COPY, and the phases of an instance.
-/

namespace Sys2Proof.Machine

/-! ### Groups (R358) -/

/-- COLL_GROUP (R358). -/
def execCollGroup (group : BitVec 8) (valid : Bool) (p : BitVec 32) (nodes : List (BitVec 20)) (joinWait : BitVec 32) (s : State) :
    Host.Outcome State Fault Refusal :=
  .next (mailbox 0x0040 (fun s =>
    let g := group.toNat
    let isOpen := s.fab.runs.any fun r => r.group == g
    let l := nodes.take p.toNat
    if isOpen then mboxEnd 0x0040 .countMismatch [] s
    else if !valid then mboxEnd 0x0040 .ok [] { s with fab := { s.fab with groups := tdel g s.fab.groups } }
    else if !decide (1 ≤ p.toNat ∧ p.toNat ≤ 4096) || joinWait == 0 || (l.filter (· == s.fab.nodeId)).length != 1 then mboxEnd 0x0040 .countMismatch [] s
    else mboxEnd 0x0040 .ok [] { s with fab := { s.fab with groups := tput g { nodes := l, joinWait := joinWait.toNat, queue := [] } s.fab.groups } }) s)

/-! ### The collective COPY (R359) -/

/-- COPY with COLLECTIVE set: the local checks, then it joins an instance of its group (R359). -/
def execCopyCollective (q : QId) (h : DescHdr) (d : CopyDesc) (s : State) : Host.Outcome State Fault Refusal :=
  .next (withDesc q .copy h false (fun acc s =>
    let s := closeBatches q s
    let g := d.group.toNat
    if d.srcPlace ≠ 1 ∨ d.dstPlace ≠ 1 ∨ d.inFmt = 3 ∨ d.outFmt = 3 then finish acc .countMismatch 0 0 s
    else if d.srcAddr.toNat % 64 ≠ 0 ∨ d.dstAddr.toNat % 64 ≠ 0 ∨ d.length.toNat % 64 ≠ 0 then finish acc .badAlignment 0 0 s
    else match tfind g s.fab.groups with
      | none => finish acc .countMismatch 0 0 s
      | some x =>
        openInstance g { (setPhase acc .waiting (wakeField d.field s)) with
          fab := { s.fab with groups := tput g { x with queue := x.queue ++ [(acc, d)] } s.fab.groups } }) s)

/-! ### Elements and segments (R360, R361) -/

/-- Bytes of an element of a format. -/
def collElem (f : Nat) : Nat := if f = 0 then 4 else if f = 1 then 2 else 32

/-- Elements of a collective COPY. -/
def collCount (d : CopyDesc) : Nat := d.length.toNat / collElem d.inFmt.toNat

/-- The anchor exponent (R144, R359). -/
def collAnchor (d : CopyDesc) : Int := signed 12 d.anchor.toNat

/-- The cell of one element: rounded once, or taken as it is (R145, R360). -/
def collCell (d : CopyDesc) (x : Nat) : GridCell :=
  if d.inFmt = 0 then (gridAdd (collAnchor d) 0 (fdecode fp32 x)).1
  else if d.inFmt = 1 then (gridAdd (collAnchor d) 0 (fdecode bf16 x)).1
  else BitVec.ofNat 256 x

/-- The bytes of a cell in the output format (R146, R360). -/
def collOut (d : CopyDesc) (c : GridCell) : List Byte :=
  if d.outFmt = 0 then leBytes 4 (gridRead fp32 (collAnchor d) c)
  else if d.outFmt = 1 then leBytes 2 (gridRead bf16 (collAnchor d) c)
  else leBytes 32 c.toNat

/-- Elements per segment: S (R360). -/
def segmentSize (n p : Nat) : Nat := ceilDiv n (32 * p) * 32

/-- First element and count of a segment (R360). -/
def segmentOf (n p i : Nat) : Nat × Nat :=
  let z := segmentSize n p
  (min n (i * z), min n ((i + 1) * z) - min n (i * z))

/-- Replace an instance. -/
def setRun (r : CollRun) (s : State) : State := { s with fab := { s.fab with runs := mapIf (fun x => x.group == r.group) (fun _ => r) s.fab.runs } }

/-- The instance of a group that runs here, with the group and this module's rank. -/
def runningColl (s : State) (g : Nat) : Option (CollRun × CollGroup × Nat) :=
  match s.fab.runs.find? (fun r => r.group == g), tfind g s.fab.groups with
  | some r, some x => (groupRank s x).map fun k => (r, x, k)
  | _, _ => none

/-- The tag of an instance's COPY. -/
def collTag (s : State) (r : CollRun) : Nat := ((tfind r.acc s.host.opens).map (·.tag.toNat)).getD 0

/-- A segment goes to the successor; with no way there the instance ends with LINK_DOWN (R349, R360). -/
def sendSegment (g : Nat) (bytes : List Byte) (s : State) : State :=
  match runningColl s g with
  | none => s
  | some (r, x, k) =>
    let next := x.nodes.getD ((k + 1) % x.nodes.length) 0
    if bytes = [] then s
    else if routeOpen s next 1 then startTx (.collective g) next 5 (BitVec.ofNat 8 (collTag s r)) 0 0 0 bytes s
    else endInstance g .linkDown 0 s

/-- Cells of a segment. -/
def segmentCells (r : CollRun) (p i : Nat) : List GridCell :=
  let (a, n) := segmentOf (collCount r.d) p i
  (r.cells.drop a).take n

/-- Write converted elements at DST_ADDR, the last line filled with zeros; the COPY completes (R360). -/
def finishColl (g : Nat) (bytes : List Byte) (s : State) : State :=
  match runningColl s g with
  | none => s
  | some (r, _, _) =>
    let out := padTo (roundUp bytes.length 64) bytes
    let f := r.d.field.val
    match writeDva s f r.d.dstAddr.toNat out with
    | none => endInstance g .fencedUnit 0 (accessFault f r.d.dstAddr.toNat s)
    | some t => endInstance g .ok out.length (touchRange f r.d.dstAddr.toNat out.length (chargePlace t (collTag s r) f 1 r.d.dstAddr.toNat out.length))

/-- Every segment is complete on this module: its bytes in element order. -/
def collBytes (r : CollRun) (p : Nat) : List Byte := (List.range p).flatMap fun i => tget [] i r.out

/-- Reduce-scatter is over: the rank holds the complete sum of segment (r + 1) mod P (R360). -/
def deliverColl (g : Nat) (s : State) : State :=
  match runningColl s g with
  | none => s
  | some (r, x, k) =>
    let p := x.nodes.length
    let own := (k + 1) % p
    let bytes := (segmentCells r p own).flatMap (collOut r.d)
    if r.d.op then finishColl g bytes s
    else
      let r := { r with phase := .delivery 0, out := tset [] own bytes [] }
      if p = 1 then finishColl g (collBytes r p) (setRun r s) else sendSegment g bytes (setRun r s)

/-- The verdict lets the instance run: each member rounds its elements and sends its first segment (R360). -/
def beginColl (g : Nat) (s : State) : State :=
  match runningColl s g with
  | none => s
  | some (r, x, k) =>
    let f := r.d.field.val
    let (met, s) := meetLines (statusCode .fencedUnit) (if s.faults.test then dvaLines s f r.d.srcAddr.toNat r.d.length.toNat else []) s
    if !met then endInstance g .fencedUnit 0 s
    else match readDva s f r.d.srcAddr.toNat r.d.length.toNat with
    | none => endInstance g .fencedUnit 0 (accessFault f r.d.srcAddr.toNat s)
    | some b =>
      let e := collElem r.d.inFmt.toNat
      let r := { r with phase := .reduce 0, cells := (List.range (collCount r.d)).map fun i => collCell r.d (natAt b (e * i) e) }
      let s := touchRange f r.d.srcAddr.toNat b.length (chargePlace (setRun r s) (collTag s r) f 1 r.d.srcAddr.toNat b.length)
      if x.nodes.length = 1 then deliverColl g s
      else sendSegment g ((segmentCells r x.nodes.length k).flatMap fun c => leBytes 32 c.toNat) s

/-- COLL_SETUP_PACKET: the setup packet passes this member, on its first pass with its parameters, on its second with the verdict (R360). -/
def execCollSetupPacket (group : BitVec 8) (agree allZero verdict : Bool) (s : State) : Host.Outcome State Fault Refusal :=
  let g := group.toNat
  .next (if !running s then s
    else match runningColl s g with
      | none => s
      | some (r, _, _) => match r.phase, verdict with
        | .setup 0, false => setRun { r with phase := .setup 1 } s
        | .setup 1, true =>
          if !agree then endInstance g .countMismatch 0 s
          else if allZero || r.d.length == 0 then endInstance g .okEmpty 0 s
          else beginColl g s
        | _, _ => s)

/-- Add a received segment's cells to the running ones (R147, R360). -/
def addSegment (r : CollRun) (p i : Nat) (cells : List GridCell) : CollRun :=
  let (a, n) := segmentOf (collCount r.d) p i
  { r with cells := r.cells.zipIdx.map fun (e : GridCell × Nat) => if a ≤ e.2 ∧ e.2 < a + n then gridCombine e.1 (cells.getD (e.2 - a) 0) else e.1 }

/-- COLL_SEGMENT_RECEIVE: the segment that the predecessor sends in this step is added, or stored as delivered (R360). -/
def execCollSegmentReceive (group : BitVec 8) (segment : Nat) (cells : List (BitVec 256)) (converted : List Byte) (s : State) :
    Host.Outcome State Fault Refusal :=
  let g := group.toNat
  .next (if !running s then s
    else match runningColl s g with
      | none => s
      | some (r, x, k) =>
        let p := x.nodes.length
        match r.phase with
        | .reduce n =>
          if segment ≠ (k + 2 * p - 1 - n % p) % p then s
          else
            let r := { addSegment r p segment cells with phase := .reduce (n + 1) }
            let s := setRun r s
            if n + 2 < p then sendSegment g ((segmentCells r p segment).flatMap fun c => leBytes 32 c.toNat) s
            else deliverColl g s
        | .delivery n =>
          if segment ≠ (k + 2 * p - n % p) % p then s
          else
            let size := (segmentOf (collCount r.d) p segment).2 * collElem r.d.outFmt.toNat
            let bytes := padTo size converted
            let r := { r with phase := .delivery (n + 1), out := tset [] segment bytes r.out }
            let s := setRun r s
            if n + 2 < p then sendSegment g bytes s else finishColl g (collBytes r p) s
        | .setup _ => s)

/-- JOIN_WAIT_EXPIRY: a member has not joined within JOIN_WAIT of this member's acceptance (R360). -/
def execJoinWaitExpiry (group : BitVec 8) (s : State) : Host.Outcome State Fault Refusal :=
  let g := group.toNat
  .next (match runningColl s g with
    | none => s
    | some (r, x, _) =>
      let due := ((tfind r.acc s.host.opens).map (·.since)).getD 0 + x.joinWait
      match r.phase with
      | .setup _ => if running s && decide (due ≤ s.tick) then endInstance g .stallDetected 0 s else s
      | _ => s)

end Sys2Proof.Machine
end

