-- ==== Sys2Proof/Machine/Events.lean ====
section
/-!
DEFINITION. Meanings of the events of the array (03, 04, 10): firings, arrivals, credits, tokens, tier requests, and the stop of an island's clock.
-/

namespace Sys2Proof.Machine

/-- The tile index of a tile of the module's grid. -/
def tileIx (t : Tile) : Nat := 40 * t.row.val + t.col.val

/-! ### After an event -/

/-- The counter that a unit's armed COUNTER_RANGE slot makes fail: one that is about to begin a run (R56, R479). -/
def counterInject (s : State) (t : Nat) : Option (Nat × Nat) :=
  if !s.faults.test then none
  else match unitCfg (unitAt s t) with
    | none => none
    | some c => (List.range 6).findSome? fun l =>
      let r := counterAt (unitAt s t) l
      match counterCfg c l with
      | some cc =>
        if r.running || r.released == 0 || (unitAt s t).emptyRun || (counterArg s t cc.startSrc cc.start).isNone || (counterArg s t cc.boundSrc cc.bound).isNone then none
        else (injSlot s 0x05 (tileIsland s t) (tileLoc t + l * 65536)).map fun k => (k, l)
      | none => none

/-- A unit goes on by itself after an event, and its detections are raised. -/
def settleTile (t : Nat) (s : State) : State :=
  match counterInject s t with
  | some (k, l) => unitDetection t 0x05 (l * 65536) true (injFire k s)
  | none => drainReports (settleUnit t s)

/-- Feeds of a unit's field move on. -/
def pumpAround (t : Nat) (s : State) : State := match fieldOfTile s t with
  | some (f, _, _, _) => pumpFeeds f feedBurst s
  | none => s

/-- In a drain every unit of the field goes on when one of them has moved: FLUSH may leave once the field stands still (R117). -/
def settleDrain (t : Nat) (s : State) : State := match fieldOfTile s t with
  | some (f, fl, _, _) => if fl.seq.any fun x => x.phase == .draining then settleField f s else s
  | none => s

/-- After an event at a unit. -/
def afterEvent (t : Nat) (s : State) : State := pumpAround t (settleDrain t (settleTile t s))

/-- The section active in a unit shows progress (R377). -/
def unitProgress (t : Nat) (s : State) : State := match unitSection s t with
  | some (f, x) => showProgress f x.id s
  | none => s

/-! ### UNIT_FIRE (R65, R93) -/

/-- WHERE of the SRAM word that holds an address: bank and word above the tile (R59, R61, R468). -/
def sramLoc (t a : Nat) : Nat := tileLoc t + 65536 * (a / 64 % 32) + 2097152 * (a / 2048 * 8 + a % 64 / 8)

/-- The slot armed for an SRAM word that a firing reads, with the WHERE bits above the tile (R479). -/
def sramSlot (s : State) (t : Nat) (c : UnitCfg) (k : Firing) : Option (Nat × Nat) :=
  match k with
  | .stream n =>
    if !s.faults.test then none
    else (accessAddrs s t c n).1.findSome? fun a =>
      let z := match streamCfg c n with | some x => if 7 ≤ x.kind then cellBytes x else elemBytes x | none => 1
      (List.range (ceilDiv (a % 8 + z) 8)).findSome? fun i =>
        (injSlot s 0x01 (tileIsland s t) (sramLoc t (a + 8 * i))).map fun j => (j, sramLoc t (a + 8 * i) - tileLoc t)
  | _ => none

/-- The next addition at a unit is treated as out of range (R132, R145, R479): the first accumulator of the row, or the first cell, is marked. -/
def markOverflow (t : Nat) (c : UnitCfg) (k : Firing) (before s : State) : Option State :=
  match k with
  | .matrixRow _ _ =>
    if c.cu.mfmt ≤ 9 then
      let row := (unitAt before t).matrix.row
      let bad := fun (l : List (BitVec 128)) => BitVec.ofNat 128 invalidAcc :: l.drop 1
      some (modUnit t (fun u => { u with matrix := { u.matrix with openBank := tmod (List.replicate 64 0) row bad u.matrix.openBank } }) s)
    else none
  | .stream n => match streamCfg c n with
    | some x =>
      if accumulates x && !x.accFmt && (streamAt (unitAt s t) n).next != (streamAt (unitAt before t) n).next then
        (accessAddrs before t c n).2.head?.map fun a => modUnit t (fun u => { u with sram := mwrite u.sram (a + 24) (mread u.sram (a + 24) ||| 1) }) s
      else none
    | none => none
  | _ => none

/-- The ARITH_OVF slot of a unit fires on an addition (R479). -/
def injectOverflow (t : Nat) (c : UnitCfg) (k : Firing) (before s : State) : State :=
  match injSlot s 0x07 (tileIsland s t) (tileLoc t) with
  | none => s
  | some j => match markOverflow t c k before s with
    | none => s
    | some s1 =>
      let first := !(unitAt s1 t).ovfRaised
      let s1 := injFire j (modUnit t (fun u => { u with ovfRaised := true }) s1)
      if first then unitDetection t 0x07 0 true s1 else s1

/-- A cycle of the matrix engine weighs 64, where the tick has counted it as 8 (R390). -/
def matrixActivity (t : Nat) (k : Firing) (s : State) : State :=
  match k, unitSection s t with
  | .matrixRow _ _, some (f, x) => chargeSection f x.id (fun c => c) 56 s
  | _, _ => s

/-- A firing with what injection makes of it: the SRAM word that it reads, its first addition (R479); none where it is not ready (R65, R93). -/
def unitFire (k : Nat) (c : UnitCfg) (fire : Firing) (s : State) : Option State :=
  if !mayFire s k then none
  else (tryFire k c fire s).map fun s1 =>
    let done := fun (s1 : State) => injectOverflow k c fire s (matrixActivity k fire (unitProgress k s1))
    match sramSlot s k c fire with
    | none => done s1
    | some (j, extra) =>
      let w := weight 64 (injPattern s j)
      if 2 ≤ w then unitDetection k 0x01 extra true (injFire j s)
      else
        let s1 := injFire j s1
        done (if w = 1 then logCorrected 0x01 (tileIsland s k) (tileLoc k + extra) true s1 else s1)

/-- A unit fires on a complete set of inputs with its output credits; a firing that is not ready changes nothing (R65, R93). -/
def execUnitFire (t : Tile) (fire : Firing) (s : State) : Host.Outcome State Fault Refusal :=
  .next (match (unitCfg (unitAt s (tileIx t))).bind fun c => unitFire (tileIx t) c fire s with
    | some s1 => afterEvent (tileIx t) s1
    | none => s)

/-! ### ENTRY_ARRIVAL and CREDIT_RETURN (R80 to R82) -/

/-- A malformed token at a control input of a context (R86, R87). -/
def tokenBad (c : Option UnitCfg) (ci : Nat) (x : Item) : Bool :=
  let k := tokKind x
  let l := tokLevel x
  k == 7 || l == 7 || (k == 2 && l == 6) || ((k == 1 || k == 4 || k == 5 || k == 6) && l != 6)
    || (k == 3 && (match c with | some c => selSi c ci == 0 | none => true))

/-- Take the first entry on its way to a destination. -/
def takeFlying (k d : Nat) (s : State) : Option (Item × State) :=
  let th := threadAt s k
  match th.flying.findIdx? fun y => y.dest == d with
  | none => none
  | some i => (th.flying[i]?).map fun y => (y.item, setThread s k { th with flying := th.flying.eraseIdx i })

/-- A section has progress at an exit of a thread, where END_SECTION may have arrived (R110, R377). -/
def exitReached (f id k : Nat) (isEnd : Bool) (s : State) : State :=
  modSec f id (fun x => { x with progress := true, exits := if isEnd then insertN (k % 65536) x.exits else x.exits }) s

/-- An entry reaches an exit of its section and is popped (R110). -/
def arriveEdge (k d lane : Nat) (it : Item) (s : State) : State :=
  let s := returnCredit k d s
  match (threadAt s k).owner with
  | none => s
  | some id => exitReached (keyField k) id k (lane == 2 && tokKind it == 4) s

/-- An entry reaches a unit's input FIFO (R57, R86, R87, R479). -/
def arriveUnit (k d lane p t : Nat) (it : Item) (s : State) : State :=
  let u := unitAt s t
  let isl := tileIsland s t
  let push := modUnit t fun u => { u with fifos := tmod [] (inPort lane p) (· ++ [it]) u.fifos }
  let drop := returnCredit k d s
  if u.aborted && atWork u && u.active == it.tag then drop
  else if lane = 2 then
    match injSlot s 0x06 isl (tileLoc t + 65536 * p) with
    | some j => unitDetection t 0x06 (65536 * p) true (injFire j drop)
    | none => if tokenBad (tfind it.tag u.slots) p it then unitDetection t 0x06 (65536 * p) false drop else push s
  else
    match injSlot s 0x04 isl (tileLoc t + 65536 * (4 * lane + p)) with
    | none => push s
    | some j =>
      let w := weight 4 (injPattern s j)
      let s := injFire j s
      if w = 0 then push s
      else if w ≤ 2 then push (logCorrected 0x04 isl (tileLoc t + 65536 * (4 * lane + p)) true s)
      else unitDetection t 0x04 (65536 * (4 * lane + p)) true (returnCredit k d s)

/-- An entry of an image that has left its slot arrives at its exit (R110). -/
def leaveArrives (e : Nat × Nat × Nat × Bool) (s : State) : State :=
  exitReached (keyField e.2.1) e.1 e.2.1 e.2.2.2 { s with grid := { s.grid with leaving := s.grid.leaving.erase e } }

/-- An entry arrives at a destination of its thread (R82). -/
def execEntryArrival (th : ThreadId) (dest : Nat) (s : State) : Host.Outcome State Fault Refusal :=
  let k := threadKey th.field th.slot (th.index % 65536)
  .next (match s.grid.leaving.find? fun e => e.2.1 == k && e.2.2.1 == dest with
    | some e => leaveArrives e s
    | none => match threadCfgAt s k, takeFlying k dest s, fieldAt s th.field with
      | some x, some (it, s1), some fl => match x.dests[dest]? with
        | none => s
        | some e =>
          if e.row = 63 ∧ e.col = 63 then arriveEdge k dest x.lane it s1
          else
            let t := tileAt fl e.row e.col
            afterEvent t (arriveUnit k dest x.lane e.port t it s1)
      | _, _, _ => s)

/-- A credit is back at its source and may be used; a fenced token, a thread or a feed may go on (R81, R88). -/
def execCreditReturn (th : ThreadId) (dest : Nat) (s : State) : Host.Outcome State Fault Refusal :=
  let k := threadKey th.field th.slot (th.index % 65536)
  .next (match threadCfgAt s k, fieldAt s th.field with
    | some x, some fl =>
      let v := threadAt s k
      if tget 0 dest v.returning = 0 then s
      else
        let v := { v with returning := tmod 0 dest (· - 1) v.returning, credits := tmod Config.fifoDepth dest (· + 1) v.credits }
        let s := setThread s k v
        if edgeSourced x then pumpFeeds th.field feedBurst s else afterEvent (tileAt fl x.srcRow x.srcCol) s
    | _, _ => s)

/-! ### Tokens (R86, R87, R91) -/

/-- Take the token at the head of a control input where it is of a kind, and go on; nothing where it has to wait (R86, R91). -/
def withToken (t ci kind : Nat) (s : State) : State :=
  match headOf s t 2 ci with
  | some x => if tokKind x ≠ kind then s else match takeToken t ci s with
    | some s1 => afterEvent t s1
    | none => s
  | none => s

/-- START releases one run of the outermost counter (R86). -/
def execTokenStart (t : Tile) (ci : Fin 4) (s : State) : Host.Outcome State Fault Refusal := .next (withToken (tileIx t) ci 1 s)

/-- DONE advances counter LEVEL where it has ADV = 2 and names this input (R53, R86, R93). -/
def execTokenDone (t : Tile) (ci : Fin 4) (s : State) : Host.Outcome State Fault Refusal := .next (withToken (tileIx t) ci 2 s)

/-- SELECT sets the predicate from the next scalar word (R86, R94). -/
def execTokenSelect (t : Tile) (ci : Fin 4) (s : State) : Host.Outcome State Fault Refusal := .next (withToken (tileIx t) ci 3 s)

/-- END_SECTION marks its input as ended (R86, R113). -/
def execTokenEndSection (t : Tile) (ci : Fin 4) (s : State) : Host.Outcome State Fault Refusal := .next (withToken (tileIx t) ci 4 s)

/-- FLUSH marks its input as flushed (R86, R117). -/
def execTokenFlush (t : Tile) (ci : Fin 4) (s : State) : Host.Outcome State Fault Refusal := .next (withToken (tileIx t) ci 5 s)

/-- ABORT stops the tagged context (R86, R116). -/
def execTokenAbort (t : Tile) (ci : Fin 4) (s : State) : Host.Outcome State Fault Refusal := .next (withToken (tileIx t) ci 6 s)

/-! ### Tier requests (R67, R193, R199, R230) -/

/-- The cell of the first place of a request that cannot be served: no mapping, or no right to write. -/
def untranslated (s : State) (q : TierReq) : Option Nat := q.places.find? fun a => match dvaCell s q.field a with
  | none => true
  | some (_, w) => q.write && !w

/-- The first lost cell of a request. -/
def lostPlace (s : State) (q : TierReq) : Option CellAt :=
  (q.places.filterMap fun a => (dvaCell s q.field a).map (·.1)).find? fun c => cellLost s c

/-- Detector, island and line address of a cell (R468). -/
def cellDetector (c : CellAt) : Nat × Nat × Nat :=
  let span := if c.1 then channelSpan else Config.stackBytes
  (if c.1 then 0x03 else 0x02, (if c.1 then 0x40 else 0x30) + c.2 / span, c.2 % span / 64 * 64)

/-- A section ends because a line it read is lost: FENCED_UNIT by the abort procedure (R199). -/
def lineLost (t : Nat) (c : CellAt) (retire injected : Bool) (s : State) : State :=
  let (_, isl, line) := cellDetector c
  let s := if injected then s else lostEntry c s
  let s := if retire then retireFrame c.1 (isl % 16) line s else s
  match unitSection s t with
  | some (f, x) => fenceEnds f x.id s
  | none => s

/-- Take a request off the list. -/
def dropRequest (q : TierReq) (s : State) : State := { s with mem := { s.mem with requests := s.mem.requests.erase q } }

/-- Write a request's data to its places, z bytes each, in order; a call's header line is read as it is written (R70, R212). Each access writes its
whole line (R179): what the line then holds beyond an element of fewer than 64 bytes is free (log 163). -/
def writePlaces (q : TierReq) (z : Nat) (s : State) : Option State :=
  (q.places.zipIdx).foldl (fun (o : Option State) (e : Nat × Nat) => o.bind fun s =>
    (writeDva s q.field e.1 ((q.data.drop (z * e.2)).take z)).map fun s =>
      noteHeaders q.field e.1 z (unitAt s q.tile).sectionId (undefine q.field (e.1 + z) (64 - z) s)) (some s)

/-- Read a request's places into SRAM, where its context's elements lie (R66, R172). -/
def readPlaces (q : TierReq) (c : UnitCfg) (x : StreamCfg) (e0 z : Nat) (s : State) : Option State :=
  (q.places.zipIdx).foldl (fun (o : Option State) (e : Nat × Nat) => o.bind fun s =>
    (readDva s q.field e.1 z).map fun bs => writeSram q.tile (physical c x (elemAddr x e0 (q.first + e.2))) bs s) (some s)

/-- A spill transfer's bytes land in the frame of its tile, or in the spill area (R172). -/
def moveSpill (q : TierReq) (c : UnitCfg) (x : StreamCfg) (w : TileSwap) (s : State) : Option State :=
  if q.write then writePlaces q 64 s
  else (q.places.zipIdx).foldl (fun (o : Option State) (e : Nat × Nat) => o.bind fun s =>
    (readDva s q.field e.1 64).map fun bs =>
      writeSram q.tile (accBase c + w.frame * accTileBytes (accView c x) + q.first + 64 * e.2) bs s) (some s)

/-- A spill transfer ends; with the last one the tile is in its frame (R172). -/
def spillEnds (q : TierReq) (c : UnitCfg) (x : StreamCfg) (s : State) : Option State :=
  (unitAt s q.tile).swap.bind fun w => (moveSpill q c x w s).map fun s =>
    let w := { w with moved := w.moved + spillChunk }
    let tb := accTileBytes (accView c x)
    let all := (if w.old.isSome then tb else 0) + (if w.back then tb else 0)
    modUnit q.tile (fun u => if all ≤ w.moved then endSwap c x w u else { u with swap := some w }) s

/-- A request waits at the moon: a result area whose results have not been returned to it, or a header line whose call has not completed (R212, R213). -/
def moonWaits (s : State) (q : TierReq) : Bool :=
  let a := q.places.headD 0
  if q.write then q.places.any fun p => headerHeld s q.field p 64
  else match resultArea s q.field a with
    | some k => !s.moons.answers.contains (k, q.tile, q.ctx)
    | none => false

/-- The request's data lands, or its write is acknowledged; a spill transfer moves its part of a tile. -/
def tierEnds (q : TierReq) (c : UnitCfg) (x : StreamCfg) (s : State) : State :=
  let z := if q.spill then 64 else elemBytes x
  let e0 := (ext0Of x (streamAt (unitAt s q.tile) q.ctx)).getD 1
  let a := q.places.headD 0
  match (if q.spill then spillEnds q c x s else if q.write then writePlaces q z s else readPlaces q c x e0 z s) with
  | none => s
  | some s1 =>
    let s1 := if q.write then s1 else
      match resultArea s1 q.field a with
      | some k => { s1 with moons := { s1.moons with answers := s1.moons.answers.erase (k, q.tile, q.ctx) } }
      | none => s1
    let s1 := q.places.foldl (fun s p => touchDva q.field p s) (dropRequest q s1)
    let r := streamAt (unitAt s1 q.tile) q.ctx
    let s1 := setStream q.tile q.ctx { r with inFlight := r.inFlight - 1 } s1
    let s1 := if q.spill then s1 else streamFinish q.tile c q.ctx x q.count s1
    let s1 := match unitSection s1 q.tile, dvaCell s1 q.field a with
      | some (f, y), some ((t2, _), _) => showProgress f y.id (chargeSecTier f y.id t2 (64 * q.places.length) s1)
      | _, _ => s1
    afterEvent q.tile s1

/-- The unit still works in the section that issued its requests. -/
def requestLive (s : State) (t : Nat) : Bool :=
  let u := unitAt s t
  !u.pendingSwap && match unitSection s t with
    | some (_, x) => x.phase == .dispatched || x.phase == .draining || x.phase == .settled
    | none => false

/-- The oldest tier request of a stream context completes (R67, R193, R199, R230). What a write that outlives its section wrote stands (R122). -/
def execTierRequestComplete (t : Tile) (ctx : Fin 16) (fin : TierEnd) (s : State) : Host.Outcome State Fault Refusal :=
  let k := tileIx t
  .next (match s.mem.requests.find? fun q => q.tile == k && q.ctx == ctx.val with
    | none => s
    | some q =>
      if moonWaits s q then s
      else match unitCfg (unitAt s k), (unitCfg (unitAt s k)).bind fun c => streamCfg c ctx with
        | some c, some x =>
          if !requestLive s k then (if q.write then (writePlaces q (q.data.length / max 1 q.count) (dropRequest q s)).getD (dropRequest q s) else dropRequest q s)
          else if !q.write && q.places.any (inQuarantine s q.field) then
            afterEvent k (match unitSection s k with
              | some (f, y) => startAbort f y.id (statusCode .quarantinedShard) (dropRequest q s)
              | none => dropRequest q s)
          else
            let inj := (q.places.head?).bind fun a => injSlot s 0x08 (tileIsland s k) (tileLoc k + 65536 * (a / 4096))
            match inj, untranslated s q with
            | some j, none => afterEvent k (unitDetection k 0x08 (65536 * (q.places.headD 0 / 4096)) true (injFire j (dropRequest q s)))
            | some j, some a => afterEvent k (unitDetection k 0x08 (65536 * (a / 4096)) false (injFire j (dropRequest q s)))
            | none, some a => afterEvent k (unitDetection k 0x08 (65536 * (a / 4096)) false (dropRequest q s))
            | none, none =>
              match lostPlace s q with
              | some cell => afterEvent k (lineLost k cell false false (dropRequest q s))
              | none =>
                let first := ((q.places.head?).bind fun a => dvaCell s q.field a).map (·.1)
                match fin, first with
                | .uncorrectable, some cell => if q.write then tierEnds q c x s else afterEvent k (lineLost k cell true false (dropRequest q s))
                | _, _ =>
                  let s := match fin, first with
                    | .corrected, some cell => let (det, isl, line) := cellDetector cell; if q.write then s else logCorrected det isl line false s
                    | _, _ => s
                  let lines := if s.faults.test && !q.write then (q.places.flatMap fun a => dvaLines s q.field a (elemBytes x)).eraseDups else []
                  let (ok, s) := injectLines (statusCode .fencedUnit) lines s
                  if ok then tierEnds q c x s
                  else match first with
                    | some cell => afterEvent k (lineLost k cell false true (dropRequest q s))
                    | none => s
        | _, _ => dropRequest q s)

/-! ### Island clocks (R463) -/

/-- A section is active in a unit of an island, or one is dispatched to its field, or a fill of its field waits (R463). -/
def islandBusy (s : State) (b : Nat) : Bool := match fieldOfBand s b with
  | none => false
  | some f => match fieldAt s f with
    | none => false
    | some fl => !(sectionsOf fl).isEmpty || s.fld.fills.any fun w => w.field == f

/-- An array island with no work for 10 control ticks stops its clock (R463). -/
def execIslandClockStop (band : BandId) (quarter : Fin 4) (s : State) : Host.Outcome State Fault Refusal :=
  .next (if !s.entry.main || islandBusy s band then s
    else { s with fld := { s.fld with stopped := setBit s.fld.stopped (4 * band.val + quarter.val) true } })

end Sys2Proof.Machine
end

