-- ==== Sys2Proof/Machine/Copies.lean ====
section
/-!
DEFINITION. Meanings of COPY and its batches (10, 12).
-/

namespace Sys2Proof.Machine

/-! ### Batches (R240) -/

/-- The place of an address: host memory, tier 1, tier 2, the window, or a feed (R240). -/
def placeClass (s : State) (f pl a : Nat) : Nat :=
  if pl = 0 then 0 else if pl = 3 then 4 else if pl = 2 then 3
  else match dvaCell s f a with
    | some ((true, _), _) => 2
    | _ => 1

/-- The open batch of a queue. -/
def openBatch (s : State) (q : Nat) : List CopyRun :=
  s.fld.copies.filter fun c => c.batched && !c.started && (tfind c.acc s.host.opens).map (·.q) == some q

/-- A COPY joins the open batch of its queue (R240). -/
def joinsBatch (s : State) (l : List CopyRun) (c : CopyRun) : Bool :=
  let src := placeClass s c.field c.srcPlace c.src
  let dst := placeClass s c.field c.dstPlace c.dst
  !l.isEmpty && decide (sumN (l.map (·.length)) + c.length ≤ 4096) && l.all fun e =>
    placeClass s e.field e.srcPlace e.src == src && placeClass s e.field e.dstPlace e.dst == dst
      && !(c.dstPlace != 3 && ((e.srcPlace == c.dstPlace && e.field == c.field && overlaps c.dst c.length e.src e.length)
            || (e.dstPlace == c.dstPlace && e.field == c.field && overlaps c.dst c.length e.dst e.length)))

/-- Take up a COPY that passed its checks: into the open batch, into a batch of its own, or alone. -/
def addCopy (q : Nat) (c : CopyRun) (s : State) : State :=
  let small := decide (c.length ≤ 4095)
  let joins := small && joinsBatch s (openBatch s q) c
  let s := if joins then s else closeBatches q s
  { s with fld := { s.fld with copies := s.fld.copies ++ [{ c with batched := small, started := !small }] } }

/-- A COPY to a feed waits for its turn: an earlier-accepted COPY has not been taken up (R234). -/
def copyWaits (s : State) (q : QId) (h : DescHdr) (d : CopyDesc) : Bool :=
  d.dstPlace == 3 && match acceptedDesc s q (opcodeCode .copy) h.seq with
    | some acc => s.host.opens.any fun e => decide (e.1 < acc) && e.2.op == opcodeCode .copy && e.2.phase == .accepted
    | none => s.host.opens.any fun e => e.2.op == opcodeCode .copy && e.2.phase == .accepted

/-- COPY: its own checks, then it is taken up (R234, R240, R272). -/
def execCopy (q : QId) (h : DescHdr) (d : CopyDesc) (data : List Byte) (s : State) : Host.Outcome State Fault Refusal :=
  .next (if copyWaits s q h d then s else withDesc q .copy h false (fun acc s =>
    let n := d.length.toNat
    let feed := d.dstPlace == 3
    if d.srcPlace = 3 then finish acc .countMismatch 0 0 (closeBatches q s)
    else if n = 0 then finish acc .okEmpty 0 0 (closeBatches q s)
    else if (feed && n % 64 != 0) || ((d.dstPlace == 1 || d.dstPlace == 2) && (d.dstAddr.toNat % 64 != 0 || n % 64 != 0)) then
      finish acc .badAlignment 0 0 (closeBatches q s)
    else
      let s := if (d.srcPlace == 1 && rangeNear s d.field d.srcAddr.toNat n) || (d.dstPlace == 1 && rangeNear s d.field d.dstAddr.toNat n) then wakeField d.field s else s
      let c : CopyRun := { acc, tag := h.tag.toNat, srcPlace := d.srcPlace.toNat, dstPlace := d.dstPlace.toNat, field := d.field
                           target := (d.targetSq.val, d.targetSeq.toNat), secId := none, port := d.edgePort, src := d.srcAddr.toNat, dst := d.dstAddr.toNat
                           length := n, data, moved := 0, batched := false, started := false, fault := none }
      settleCopies ((addCopy q c s))) s)

/-- One control tick has passed since the open batches opened, or their burst has ended: they close (R240). -/
def execCopyBatchClose (s : State) : Host.Outcome State Fault Refusal :=
  .next (settleCopies ({ s with fld := { s.fld with copies := mapIf (fun c => c.batched) (fun c => { c with started := true }) s.fld.copies } }))

/-! ### Moving bytes -/

/-- Write bytes of a COPY at an offset of its destination; none where they cannot be written. -/
def copyDest (s : State) (c : CopyRun) (off : Nat) (bs : List Byte) : Option State :=
  if c.dstPlace = 0 then some (hostWrite s (c.dst + off) bs)
  else if c.dstPlace = 1 then writeDva s c.field (c.dst + off) bs
  else writeWindow s (c.dst + off) bs

/-- The lines that a piece of a COPY reads. -/
def copyLines (s : State) (c : CopyRun) (off n : Nat) : List CellAt :=
  if !s.faults.test then [] else if c.srcPlace = 1 then dvaLines s c.field (c.src + off) n else if c.srcPlace = 2 then windowLines s (c.src + off) n else []

/-- Move a COPY's bytes in pieces of up to 64 in address order, until one cannot be read or written: bytes moved, and whether all were (log 30). -/
def movePieces (c : CopyRun) : Nat → Nat → State → (Nat × Bool) × State
  | 0, off, s => ((off, true), s)
  | k + 1, off, s =>
    let n := min 64 (c.length - off)
    let (ok, s) := injectLines (statusCode .fencedUnit) (copyLines s c off n) s
    if !ok then ((off, false), s)
    else match copySource s c off n with
      | none => ((off, false), placeFault c.srcPlace c.field (c.src + off) s)
      | some bs => match copyDest s c off bs with
        | none => ((off, false), placeFault c.dstPlace c.field (c.dst + off) s)
        | some s => movePieces c k (off + n) s

/-- The COPY that a queue and SEQ name. -/
def copyAt (s : State) (q seq : Nat) : Option CopyRun :=
  s.fld.copies.find? fun c => match tfind c.acc s.host.opens with
    | some d => d.q == q && d.seq.toNat == seq
    | none => false

/-- An earlier member of a COPY's batch has not completed (R240). -/
def batchWaits (s : State) (q : Nat) (c : CopyRun) : Bool :=
  c.batched && s.fld.copies.any fun e => e.batched && e.started && decide (e.acc < c.acc) && (tfind e.acc s.host.opens).map (·.q) == some q

/-- The last byte of a COPY has moved, or its last entry has entered its feed (R234, R240, R274); or its host place cannot be reached (R259). -/
def execCopyTransferDone (q : QId) (seq : BitVec 16) (s : State) : Host.Outcome State Fault Refusal :=
  let s := settleCopies s
  .next (match copyAt s q seq.toNat with
    | none => s
    | some c =>
      if !c.started || batchWaits s q c || s.faults.fatalPhase != .none then s
      else if c.dstPlace = 3 then
        match c.fault with
        | some st => endCopy c st (if st = statusCode .linkDown then s else placeFault c.srcPlace c.field (c.src + c.moved) s)
        | none => if c.moved = c.length then endCopy c (statusCode .ok) s else s
      else if !copyLink s c then endCopy c (statusCode .linkDown) s
      else if c.dstPlace == 1 && headerHeld s c.field c.dst c.length then s
      else
        let s := if c.srcPlace = 1 then touchRange c.field c.src c.length s else s
        let s := if c.dstPlace = 1 then touchRange c.field c.dst c.length s else s
        let s := chargePlace (chargePlace s c.tag c.field c.srcPlace c.src c.length) c.tag c.field c.dstPlace c.dst c.length
        let ((n, all), s) := movePieces c (ceilDiv c.length 64) 0 s
        let s := if c.dstPlace = 1 then noteHeaders c.field c.dst n none s else s
        endCopy { c with moved := n } (if all then statusCode .ok else statusCode .fencedUnit) s)

end Sys2Proof.Machine
end

