-- ==== Sys2Proof/Machine/Models.lean ====
section
/-!
DEFINITION. Meanings of the commands of the model store (15): weight loads, inline and interval checks, quarantine, the owner list.
-/

namespace Sys2Proof.Machine

/-! ### Copies of shards (R328, R331, R333) -/

/-- Bytes of a translation page of a shard (R333). -/
def shardPage : Nat := 2097152

/-- The model of a digest in a list. -/
def modelIn (l : List Model) (d : Digest) : Option Model := l.find? fun m => m.digest == d

/-- The copy of a shard in a list of models. -/
def copyIn (l : List Model) (d : Digest) (i : Nat) : Option ShardCopy := (modelIn l d).bind fun m => m.copies.find? fun c => c.index == i

/-- The models with copies in a field. -/
def fieldModels (s : State) (f : Nat) : List Model := tget [] f s.models.tier1

/-- Put a copy into a list of models in place of an earlier one of its shard. -/
def withCopy (l : List Model) (m : Manifest) (c : ShardCopy) : List Model :=
  match modelIn l m.manifestHash with
  | some _ => mapIf (fun x => x.digest == m.manifestHash) (fun x => { x with copies := x.copies.filter (fun e => e.index != c.index) ++ [c] }) l
  | none => l ++ [{ digest := m.manifestHash, manifest := m, copies := [c] }]

/-- Change the copy of a shard in a list of models. -/
def changeCopy (l : List Model) (d : Digest) (i : Nat) (g : ShardCopy → ShardCopy) : List Model :=
  mapIf (fun x => x.digest == d) (fun x => { x with copies := mapIf (fun c => c.index == i) g x.copies }) l

/-- The cell of byte off of a store copy (R189, R190). -/
def storeCell (s : State) (c : ShardCopy) (off : Nat) : Option CellAt :=
  tier2Cell s.mem.poolList (windowPer s + s.mem.effField) (c.frame * Config.frame + off)

/-- Some 4 KiB of a store copy is lost (R199, R204). -/
def storeLost (s : State) (c : ShardCopy) : Bool :=
  (List.range (ceilDiv c.bytes Config.frame)).any fun i => match storeCell s c (4096 * i) with
    | some x => cellLost s x
    | none => true

/-- The lines of a store copy whose reads may meet an injection: none while test mode is off. -/
def storeLines (s : State) (c : ShardCopy) : List CellAt := if !s.faults.test then [] else (List.range (ceilDiv c.bytes 64)).filterMap fun i => storeCell s c (64 * i)

/-- The reads of a shard's lines, where its place could be made (R479). -/
def meetPlaced (place : Except Status State) (l : List CellAt) (s : State) : Bool × State := match place with
  | .error _ => (true, s)
  | .ok _ => meetLines (statusCode .fencedUnit) l s

/-- Some 4 KiB of a range of a field is unmapped or lost (R193, R199). -/
def rangeLost (s : State) (f a n : Nat) : Bool :=
  !rangeMapped s f a n || (List.range (ceilDiv (a % 4096 + n) 4096)).any fun i => match dvaCell s f (a / 4096 * 4096 + 4096 * i) with
    | some (c, _) => cellLost s c
    | none => true

/-- Bytes of a store copy. -/
def storeBytes (s : State) (c : ShardCopy) : List Byte := (List.range c.bytes).map fun i => ((storeCell s c i).map (cellRead s)).getD 0

/-- Write a shard's bytes, followed by zeros up to the next 4 KiB, into cells (R326). -/
def writeShard (cell : State → Nat → Option CellAt) (bytes : Nat) (data : List Byte) (s : State) : State :=
  (padTo (roundUp bytes Config.frame) data).zipIdx.foldl (fun s (e : Byte × Nat) => match cell s e.2 with
    | some c => cellWrite s c e.1
    | none => s) s

/-- A store copy's places that a load writes lie on a fenced channel (R204); retired frames are not allocated. -/
def storeWriteLost (s : State) (fr bytes : Nat) : Bool :=
  (List.range (ceilDiv bytes Config.frame)).any fun i =>
    match tier2Cell s.mem.poolList (windowPer s + s.mem.effField) ((fr + i) * Config.frame) with
    | some c => cellLost s c
    | none => true

/-- Install a verified shard in the store (R328, R338); none without frames (R330). -/
def installStore (m : Manifest) (i : Nat) (e : ShardEntry) (data : List Byte) (s : State) : Option State :=
  (firstFit (usedModule s) (capModule s) 1 0 (ceilDiv e.bytes Config.frame)).map fun fr =>
    let c : ShardCopy := { index := i, bytes := e.bytes, dva := e.dva, digest := e.digest, frame := fr, quarantined := false, since := s.tick }
    let s := writeShard (fun s off => storeCell s c off) e.bytes data s
    { s with models := { s.models with store := withCopy s.models.store m c } }

/-- Pages of an earlier copy of a shard in a field. -/
def shardPages (fl : Field) (d : Digest) (i : Nat) : List Page := fl.pages.filter fun p => p.owner == .shard d i

/-- A shard's range cannot be mapped: it meets another mapping or the firmware's addresses (R188, R333). -/
def shardMisfit (fl : Field) (d : Digest) (i : Nat) (e : ShardEntry) : Bool :=
  let n := roundUp e.bytes shardPage
  decide (Config.firmwareDva < e.dva + n) || fl.pages.any fun p => isDva p && overlaps e.dva n p.dva p.bytes && p.owner != .shard d i

/-- Map pages k, k + 1, … of a shard into new frames of a field; none where a page finds no frames after demotion (R333). -/
def mapShard (f : Nat) (d : Digest) (i dva : Nat) : Nat → Nat → State → Option State
  | 0, _, s => some s
  | n + 1, k, s => match allocT1 f 1 0 (shardPage / Config.frame) s with
    | none => none
    | some (fr, s) =>
      let p : Page := { dva := dva + k * shardPage, bytes := shardPage, place := .tier1, frame := fr, write := false, demotable := false,
                        demoted := false, touch := s.fld.useStamp, owner := .shard d i }
      mapShard f d i dva n (k + 1) (addPage f p s)

/-- Frames of a shard's tier-1 copy beside any earlier one: the state with the new mapping alone (R333, R338), or the status that stops the load, which
a lost place of the copy does too (R204). -/
def placeShard (f : Nat) (m : Manifest) (i : Nat) (e : ShardEntry) (s : State) : Except Status State :=
  match fieldAt s f with
  | none => .error .countMismatch
  | some fl =>
    if shardMisfit fl m.manifestHash i e then .error .badAlignment
    else
      let old := shardPages fl m.manifestHash i
      match mapShard f m.manifestHash i e.dva (ceilDiv e.bytes shardPage) 0 s with
      | none => .error .noPlacement
      | some s =>
        let s := modField f (fun fl => { fl with pages := fl.pages.filter fun p => !old.contains p }) s
        if rangeLost s f e.dva e.bytes then .error .fencedUnit else .ok s

/-- Install a verified shard in tier 1 on the mapping that placeShard made (R333, R338). -/
def installTier1 (f : Nat) (m : Manifest) (i : Nat) (e : ShardEntry) (data : List Byte) (s : State) : State :=
  let c : ShardCopy := { index := i, bytes := e.bytes, dva := e.dva, digest := e.digest, frame := 0, quarantined := false, since := s.tick }
  let s := writeShard (fun s off => (dvaCell s f (e.dva + off)).map (·.1)) e.bytes data s
  let s := { s with mem := { s.mem with undef := defineRange f e.dva (roundUp e.bytes shardPage) s.mem.undef } }
  framesFreed f { s with models := { s.models with tier1 := tset [] f (withCopy (fieldModels s f) m c) s.models.tier1 } }

/-! ### MODEL_DROP and the end of a load (R329, R331) -/

/-- A model's store copy is freed (R329). -/
def dropModel (d : Digest) (s : State) : State := { s with models := { s.models with store := s.models.store.filter fun m => m.digest != d } }

/-- A WEIGHT_LOAD reads the store copy of a model (R329). -/
def readsModel (s : State) (d : Digest) : Bool := s.models.loads.any fun w => w.dest.isSome && w.manifest.manifestHash == d

/-- A drop that waited for a load is done once no load reads its model (R329). -/
def settleDrop (s : State) : State := match s.host.mboxRun with
  | some (.modelDrop d) => if readsModel s d then s else mboxEnd 0x0032 .ok [] (dropModel d s)
  | _ => s

/-- A load ends: bytes loaded, and the failing shard or all ones (R274, R331). -/
def endLoad (w : WeightRun) (st : Status) (bad : Nat) (s : State) : State :=
  settleDrop (finish w.acc st w.loaded bad { s with models := { s.models with loads := s.models.loads.filter fun x => x.acc != w.acc } })

/-- Replace a load. -/
def setLoad (w : WeightRun) (s : State) : State :=
  { s with models := { s.models with loads := mapIf (fun x => x.acc == w.acc) (fun _ => w) s.models.loads } }

/-- RESULT1 of a load in which no shard failed (R274). -/
def noShard : Nat := 0xFFFFFFFF

/-- The load's next shard is present in its place, verified and not quarantined (R331). -/
def shardPresent (s : State) (w : WeightRun) : Bool :=
  let l := match w.dest with | some f => fieldModels s f | none => s.models.store
  match copyIn l w.manifest.manifestHash w.next with
  | some c => !c.quarantined
  | none => false

/-- A shard has been loaded: its bytes count, and the load goes on (R331). -/
def shardLoaded (w : WeightRun) (e : ShardEntry) (s : State) : State := setLoad { w with next := w.next + 1, loaded := w.loaded + e.bytes } s

/-- Swap a shard in from its store copy (R331, R332, R336). -/
def swapIn (w : WeightRun) (f : Nat) (e : ShardEntry) (c : ShardCopy) (s : State) : State :=
  if c.quarantined then endLoad w .quarantinedShard w.next s
  else
    let (met, s) := meetPlaced (placeShard f w.manifest w.next e s) (storeLines s c) s
    match placeShard f w.manifest w.next e s with
    | .error st => endLoad w st w.next s
    | .ok t =>
      if storeLost s c || !met then
        endLoad w .fencedUnit w.next (noteLost ((List.range (ceilDiv c.bytes Config.frame)).filterMap fun i => storeCell s c (4096 * i)) s)
      else
        let t := installTier1 f w.manifest w.next e (storeBytes s c) t
        shardLoaded w e (chargeTier (some w.tag) false e.bytes (chargeTier (some w.tag) true e.bytes t))

/-- The load at the head of the queue goes on as far as it can without a shard from outside: skipped shards, and shards of the store; n bounds it. -/
def advanceLoads : Nat → State → State
  | 0, s => s
  | n + 1, s => match s.models.loads with
    | [] => s
    | w :: _ =>
      if w.last ≤ w.next then advanceLoads n (endLoad w .ok noShard s)
      else if shardPresent s w then advanceLoads n (setLoad { w with next := w.next + 1 } s)
      else match w.manifest.shards[w.next]?, w.dest with
        | some e, some f => (match copyIn s.models.store w.manifest.manifestHash w.next with
          | some c => advanceLoads n (swapIn w f e c s)
          | none => s)
        | some _, none => s
        | none, _ => advanceLoads n (endLoad w .countMismatch w.next s)

/-- Most moves of the loads that wait. -/
def loadMoves (s : State) : Nat := s.models.loads.length + sumN (s.models.loads.map fun w => w.last - w.next) + 1

/-! ### WEIGHT_LOAD (R330) -/

/-- Check 1 of R330. -/
def manifestForm (d : WeightDesc) (m : Manifest) : Bool :=
  m.magic == 0x54464E4D && m.format == 1 && m.headerBytes == 256 && m.entryBytes == 64 && m.sigOff == 256 + 64 * m.shardCount
    && d.manifestBytes.toNat == m.sigOff + Config.sigBytes

/-- Two entries share device addresses or source bytes (R330). -/
def shardsClash (a b : ShardEntry) : Bool := overlaps a.dva a.bytes b.dva b.bytes || overlaps (4096 * a.srcPage) a.bytes (4096 * b.srcPage) b.bytes

/-- Some two entries of a list clash. -/
def anyClash : List ShardEntry → Bool
  | [] => false
  | x :: l => l.any (shardsClash x) || anyClash l

/-- Check 4 of R330. -/
def manifestBad (s : State) (d : WeightDesc) (m : Manifest) : Bool :=
  !decide (1 ≤ m.shardCount ∧ m.shardCount ≤ 65536) || m.shards.any (fun e => !decide (1 ≤ e.bytes ∧ e.bytes ≤ gib) || e.dva % shardPage != 0)
    || anyClash m.shards || m.modelBytes != sumN (m.shards.map (·.bytes)) || decide (m.shardCount < d.shardFirst.toNat + d.shardCount.toNat)
    || (d.dest && (fieldAt s d.field).isNone)

/-- The store has no room for the shards of a load: 1,024 other models, or no frames (R330 check 6). -/
def storeFull (s : State) (d : WeightDesc) (m : Manifest) : Bool :=
  let others := (s.models.store.filter fun x => x.digest != m.manifestHash).length
  let wanted := ((m.shards.zipIdx.drop d.shardFirst.toNat).take d.shardCount.toNat).filter fun (e : ShardEntry × Nat) =>
    match copyIn s.models.store m.manifestHash e.2 with
    | some c => c.quarantined
    | none => true
  decide (Config.storeModels ≤ others) ||
    (wanted.foldl (fun (o : Option (List Run)) e => o.bind fun used =>
      let n := ceilDiv e.1.bytes Config.frame
      (firstFit used (capModule s) 1 0 n).map fun fr => (fr, 1, n) :: used) (some (usedModule s))).isNone

/-- The checks of R330 in order. -/
def checkWeights (s : State) (d : WeightDesc) (m : Manifest) : Option Status :=
  if !manifestForm d m then some .badAlignment
  else if !(m.sig.ed && m.sig.ml && s.models.owners.contains m.ownerId) then some .signatureFail
  else if m.entriesHash ≠ m.entriesDigest then some .digestFail
  else if manifestBad s d m then some .countMismatch
  else if d.shardCount = 0 then some .okEmpty
  else if !d.dest && storeFull s d m then some .noPlacement
  else none

/-- The manifest or a shard to load lies in the field's tier 1 (R464). -/
def weightsNear (s : State) (d : WeightDesc) (m : Manifest) : Bool :=
  d.srcPlace == 1 && (rangeNear s d.field d.manifestAddr.toNat d.manifestBytes.toNat
    || ((m.shards.drop d.shardFirst.toNat).take d.shardCount.toNat).any fun e => rangeNear s d.field (d.shardAddr.toNat + 4096 * e.srcPage) e.bytes)

/-- WEIGHT_LOAD: the layout first (R506), the place code (R272), the manifest's read and checks (R330); then its shards load in order (R331). -/
def execWeightLoad (q : QId) (h : DescHdr) (d : WeightDesc) (host : ManifestRead) (s : State) : Host.Outcome State Fault Refusal :=
  .next (withDesc q .weightLoad h false (fun acc s =>
    let m := parseManifest (sourceByte s d.srcPlace.toNat d.field d.manifestAddr.toNat host.bytes) host.sig
    if (!d.dest && !s.boot.laidOut) || d.srcPlace == 3 then finish acc .countMismatch 0 noShard s
    else if hostLost s acc (d.srcPlace == 0) then finish acc .linkDown 0 noShard s
    else
      let s := if d.dest || weightsNear s d m then wakeField d.field s else s
      let (met, s) := hubRead d.srcPlace.toNat d.field d.manifestAddr.toNat d.manifestBytes.toNat s
      if !met then finish acc .fencedUnit 0 noShard s
      else match checkWeights s d m with
        | some st => finish acc st 0 noShard s
        | none =>
          let w : WeightRun := { acc, manifest := m, dest := if d.dest then some d.field.val else none, srcPlace := d.srcPlace.toNat, field := d.field
                                 shardAddr := d.shardAddr.toNat, tag := h.tag.toNat, next := d.shardFirst.toNat
                                 last := d.shardFirst.toNat + d.shardCount.toNat, loaded := 0 }
          let before := s.models.loads.filter fun x => decide (x.acc < acc)
          let after := s.models.loads.filter fun x => decide (acc < x.acc)
          let s := { s with models := { s.models with loads := before ++ [w] ++ after } }
          advanceLoads (loadMoves s) s) s)

/-! ### SHARD_HASHED (R331, R332) -/

/-- WHERE of a digest event: shard index and field (R468). -/
def shardLoc (i f : Nat) : Nat := i % 65536 + 65536 * (f % 4)

/-- Bytes of a shard as its source delivers them; none where they cannot be read (R193, R199). -/
def shardSource (s : State) (w : WeightRun) (e : ShardEntry) (r : ShardRead) : Option (List Byte) :=
  let a := w.shardAddr + 4096 * e.srcPage
  if r.uncorrectable then none
  else if w.srcPlace = 0 then some (padTo e.bytes r.data)
  else if w.srcPlace = 1 then readDva s w.field a e.bytes
  else readWindow s a e.bytes

/-- The tier lines that a shard is read from and that may meet an injection: none while test mode is off. -/
def shardLines (s : State) (w : WeightRun) (e : ShardEntry) : List CellAt :=
  let a := w.shardAddr + 4096 * e.srcPage
  if !s.faults.test || w.srcPlace == 0 then [] else if w.srcPlace = 1 then dvaLines s w.field a e.bytes else windowLines s a e.bytes

/-- The place of a shard that comes from outside: the state ready to take its bytes, or the status that stops the load. -/
def shardRoom (s : State) (w : WeightRun) (e : ShardEntry) : Except Status State := match w.dest with
  | some f => placeShard f w.manifest w.next e s
  | none => match firstFit (usedModule s) (capModule s) 1 0 (ceilDiv e.bytes Config.frame) with
    | none => .error .noPlacement
    | some fr => if storeWriteLost s fr e.bytes then .error .fencedUnit else .ok s

/-- Put a verified shard into its place. -/
def installShard (w : WeightRun) (e : ShardEntry) (data : List Byte) (s : State) : State := match w.dest with
  | some f => chargeTier (some w.tag) false e.bytes (installTier1 f w.manifest w.next e data s)
  | none => chargeTier (some w.tag) true e.bytes ((installStore w.manifest w.next e data s).getD s)

/-- SHARD_HASHED: the next shard of the load at the head has been read from host memory, the window or device memory, and the hub hash engine has its
digest (R331, R332). -/
def execShardHashed (r : ShardRead) (s : State) : Host.Outcome State Fault Refusal :=
  .next (match s.models.loads with
    | [] => s
    | w :: _ => match w.manifest.shards[w.next]? with
      | none => s
      | some e =>
        if !running s then s
        else if hostLost s w.acc (w.srcPlace == 0) then (let done := endLoad w .linkDown w.next s; advanceLoads (loadMoves done) done)
        else
          let s := chargePlace s w.tag w.field w.srcPlace (w.shardAddr + 4096 * e.srcPage) e.bytes
          let isl := 0x10
          let loc := shardLoc w.next (w.dest.getD 0)
          let (met, s) := meetPlaced (shardRoom s w e) (shardLines s w e) s
          let done := match shardRoom s w e with
            | .error st => endLoad w st w.next s
            | .ok t => if !met then endLoad w .fencedUnit w.next s else match shardSource s w e r with
              | none => endLoad w .fencedUnit w.next (placeFault w.srcPlace w.field (w.shardAddr + 4096 * e.srcPage) s)
              | some data =>
                let wrong := r.hash != e.digest
                match injSlot s 0x0A isl loc, wrong with
                | none, false => shardLoaded w e (installShard w e data t)
                | j, _ =>
                  let s := match j with | some k => injFire k s | none => s
                  endLoad w .digestFail w.next
                    (logDetection 0x10 0x0A 1 (!wrong) 10 (islandCycles s isl) (BitVec.ofNat 64 loc) (statusCode .digestFail) s)
          advanceLoads (loadMoves done) done)

/-! ### REHASH_PASS (R335 to R340) -/

/-- The interval between passes over a copy, in ticks; none while interval checks are stopped (R335). -/
def rehashTicks (s : State) : Option Nat → Option Nat
  | some _ => if s.moons.rehashMin = 0 then none else some (s.moons.rehashMin.toNat * 60000000)
  | none => if s.mem.t2Hours = 0 then none else some (s.mem.t2Hours.toNat * 3600000000)

/-- The first cell of a copy. -/
def copyStart (s : State) (f : Option Nat) (c : ShardCopy) : Option CellAt := match f with
  | some k => (dvaCell s k c.dva).map (·.1)
  | none => storeCell s c 0

/-- The island of a pass: the moon of the stack that holds the first chunk, or the hub hash engine (R335, R468). -/
def passIsland (s : State) (f : Option Nat) (c : ShardCopy) : Nat := match f, copyStart s f c with
  | some _, some x => 0x20 + x.2 / Config.stackBytes
  | _, _ => 0x10

/-- Change a copy in its place. -/
def setCopy (f : Option Nat) (d : Digest) (i : Nat) (g : ShardCopy → ShardCopy) (s : State) : State := match f with
  | some k => { s with models := { s.models with tier1 := tset [] k (changeCopy (fieldModels s k) d i g) s.models.tier1 } }
  | none => { s with models := { s.models with store := changeCopy s.models.store d i g } }

/-- A tier-1 copy is quarantined: each section that references it and holds a sequencer entry is ended by the abort procedure (R337, R339). -/
def quarantineEnds (f : Nat) (c : ShardCopy) (s : State) : State := match fieldAt s f with
  | none => s
  | some fl => (fl.seq.filter fun x => match secSkein fl x with
      | some i => refsRange s f i c.dva c.bytes
      | none => false).foldl (fun s x => startAbort f x.id (statusCode .quarantinedShard) s) s

/-- An uncorrectable line of a copy: the manual does not say which; its frame is retired (R199, R340). -/
def retireOf (f : Option Nat) (c : ShardCopy) (s : State) : State :=
  let off := (Config.freeWord s.fresh).toNat % max 1 c.bytes / 64 * 64
  let s := { s with fresh := s.fresh + 1 }
  let cell : Option CellAt := match f with
    | some k => (dvaCell s k (c.dva + off)).map (·.1)
    | none => storeCell s c off
  match cell with
  | none => s
  | some x =>
    let span := if x.1 then channelSpan else Config.stackBytes
    let line := x.2 % span / 64 * 64
    retireFrame x.1 (x.2 / span) line
      (logClass1 (if x.1 then 0x03 else 0x02) ((if x.1 then 0x40 else 0x30) + x.2 / span) line false (statusCode .fencedUnit) s)

/-- A place is checked at the moment: powered, its field awake (R462), and its copy's interval has passed (R335). -/
def passDue (s : State) (f : Option Nat) (c : ShardCopy) : Bool :=
  let halted := match f.bind (fieldAt s) with | some fl => fl.asleep | none => false
  s.entry.main && s.boot.stage == .ready && !s.boot.warmBusy && !s.host.d3hot && !halted && match rehashTicks s f with
    | some n => decide (c.since + n ≤ s.tick)
    | none => false

/-- REHASH_PASS: a pass over a copy has ended (R335); a mismatch or an uncorrectable line quarantines it (R336). -/
def execRehashPass (field : Option FieldId) (manifest : Digest) (shard : Nat) (hash : Digest) (uncorrectable : Bool) (s : State) :
    Host.Outcome State Fault Refusal :=
  let f := field.map (·.val)
  .next (match copyIn (match f with | some k => fieldModels s k | none => s.models.store) manifest shard with
    | none => s
    | some c =>
      if !passDue s f c then s
      else
        let s := chargeTier none f.isNone c.bytes s
        let isl := passIsland s f c
        let loc := shardLoc shard (f.getD 0)
        let lost := match f with | some k => rangeLost s k c.dva c.bytes | none => storeLost s c
        let wrong := uncorrectable || lost || hash != c.digest
        let (met, s) := meetLines (statusCode .fencedUnit) (match f with
          | some k => if s.faults.test then dvaLines s k c.dva c.bytes else []
          | none => storeLines s c) s
        match injSlot s 0x0A isl loc, wrong || !met with
        | none, false => setCopy f manifest shard (fun c => { c with since := s.tick }) s
        | j, _ =>
          let s := match j with | some k => injFire k s | none => s
          let s := if uncorrectable then retireOf f c s else s
          let s := logScoped 9 0x0A isl loc (!wrong) (statusCode .quarantinedShard) s
          let s := noteFence c.quarantined loc (setCopy f manifest shard (fun c => { c with quarantined := true, since := s.tick }) s)
          match f with
          | some k => settleCopies (quarantineEnds k c s)
          | none => s)

/-! ### MODEL_OWNERS and MODEL_DROP (R327, R329) -/

/-- MODEL_OWNERS replaces the owner list by the OWNER_IDs of COUNT key blocks (R325, R327); a COUNT of zero leaves it as it is (R8). -/
def execModelOwners (count : BitVec 32) (blocks : ReadBytes) (s : State) : Host.Outcome State Fault Refusal :=
  .next (mailbox 0x0031 (fun s =>
    if 64 < count.toNat then mboxEnd 0x0031 .countMismatch [] s
    else if count = 0 then mboxEnd 0x0031 .okEmpty [] s
    else mboxEnd 0x0031 .ok [] { s with models := { s.models with
      owners := entriesAt 0 2048 count.toNat fun o => keyId (rdBytes (hostBytes blocks) o 2048) } }) s)

/-- MODEL_DROP frees a model's store copy, once no WEIGHT_LOAD reads it (R329). -/
def execModelDrop (digest : Digest) (s : State) : Host.Outcome State Fault Refusal :=
  .next (mailbox 0x0032 (fun s =>
    if (modelIn s.models.store digest).isNone || s.serv.configs.any (fun e => e.2.block.manifestDigest == digest) then mboxEnd 0x0032 .countMismatch [] s
    else settleDrop (setHost s { s.host with mboxRun := some (.modelDrop digest) })) s)

end Sys2Proof.Machine
end

