-- ==== Sys2Proof/Machine/Arbitration.lean ====
section
/-!
DEFINITION. Arbitration (17): one beat of an arbiter, by the rules that all of them share.
-/

namespace Sys2Proof.Machine

/-! ### One arbitration (R366 to R368) -/

/-- A candidate: its requester number, the key of the request at the head of its queue, and that request's beats. -/
structure Candidate where
  req : Nat
  key : Nat
  beats : Nat
  deriving DecidableEq, Repr

/-- What the kinds of arbiters differ in (R364): the class of a requester, the SHARE of each class in class order, and the limit of a requester. -/
structure ArbKind where
  classOf : List Nat
  shares : List Nat
  limits : List Nat
  deriving DecidableEq, Repr

/-- The class of a requester; a one-class arbiter lists none. -/
def ArbKind.cls (k : ArbKind) (r : Nat) : Nat := k.classOf.getD r 0

/-- The limit L of a requester (R379); a list of one serves all. -/
def ArbKind.limit (k : ArbKind) (r : Nat) : Nat := k.limits.getD r (k.limits.headD 0)

/-- The next requester in rotating order after the last one. -/
def nextAfter (last : Option Nat) (l : List Nat) : Option Nat := match last with
  | none => l.head?
  | some n => (l.find? fun r => decide (n < r)).or l.head?

/-- Candidates of a class. -/
def classCandidates (k : ArbKind) (l : List Nat) (c : Nat) : List Nat := l.filter fun r => k.cls r == c

/-- Candidates whose WAIT has reached their limit. -/
def forcedCandidates (k : ArbKind) (a : Arbiter) (l : List Nat) : List Nat := l.filter fun r => decide (k.limit r ≤ tget 0 r a.waits)

/-- Owed classes: a candidate, and a deficit of 0 or more. -/
def owedClasses (k : ArbKind) (a : Arbiter) (l : List Nat) : List Nat :=
  (List.range k.shares.length).filter fun c => !(classCandidates k l c).isEmpty && decide (0 ≤ tget 0 c a.deficits)

/-- The owed class with the largest deficit, ties to the earlier class; an arbiter with one class has none (R366, R367). -/
def owedWinner (k : ArbKind) (a : Arbiter) (l : List Nat) : Option Nat :=
  if k.shares.length ≤ 1 then none
  else (owedClasses k a l).foldl (fun (best : Option Nat) c => match best with
    | none => some c
    | some b => if tget 0 b a.deficits < tget 0 c a.deficits then some c else some b) none

/-- The first class in class order with a candidate. -/
def idleClass (k : ArbKind) (l : List Nat) : Option Nat := (List.range k.shares.length).find? fun c => !(classCandidates k l c).isEmpty

/-- The winner among the candidates, and whether it wins by force (R366). -/
def chooseWinner (k : ArbKind) (a : Arbiter) (l : List Nat) : Option (Nat × Bool) :=
  match nextAfter a.lastForced (forcedCandidates k a l) with
  | some r => some (r, true)
  | none => match (owedWinner k a l).or (idleClass k l) with
    | none => none
    | some c => (nextAfter (tget none c a.lastWinner) (classCandidates k l c)).map fun r => (r, false)

/-- The holder keeps its grant at this beat boundary (R368). -/
def keepsGrant (k : ArbKind) (a : Arbiter) (l : List Nat) (h : Nat × Bool) : Bool :=
  l.contains h.1 && !(forcedCandidates k a (l.filter (· != h.1))).any (fun _ => true)
    && !(!h.2 && decide (tget 0 (k.cls h.1) a.deficits < 0) && (owedClasses k a l).any (· != k.cls h.1))

/-- WAITs after a beat: the winner's is 0, every other candidate's rises by one up to 1,023 (R366). -/
def nextWaits (waits : Tab Nat) (l : List Nat) (w : Nat) : Tab Nat :=
  l.foldl (fun t r => tset 0 r (if r = w then 0 else min 1023 (tget 0 r t + 1)) t) waits

/-- Deficits after a beat (R367). -/
def nextDeficits (k : ArbKind) (d : Tab Int) (l : List Nat) (w : Nat) : Tab Int :=
  if k.shares.length ≤ 1 then d
  else (List.range k.shares.length).foldl (fun t c =>
    let x := tget 0 c t
    let x := if (classCandidates k l c).isEmpty then min x 0 else x + (k.shares.getD c 0 : Nat)
    let x := if k.cls w = c then x - 1024 else x
    tset 0 c (max (-32768) x) t) d

/-- One beat: the winner, and the arbiter after it (R366 to R368). -/
def arbBeat (k : ArbKind) (a : Arbiter) (cands : List Candidate) : Option Nat × Arbiter :=
  let l := cands.map (·.req)
  let kept := match a.holder with
    | some h => if keepsGrant k a l h then some h else none
    | none => none
  match kept.or (chooseWinner k a l) with
  | none => (none, { a with holder := none })
  | some (w, forced) =>
    let a := if kept.isSome then a
      else if forced then { a with lastForced := some w, lastWinner := tset none (k.cls w) (some w) a.lastWinner }
      else { a with lastWinner := tset none (k.cls w) (some w) a.lastWinner }
    let x := cands.find? fun c => c.req == w
    let done := tget 0 w a.progress + 1
    let ended := match x with | some c => decide (min 32 c.beats ≤ done) | none => true
    (some w, { a with
      waits := nextWaits a.waits l w
      deficits := nextDeficits k a.deficits l w
      progress := tset 0 w (if ended then 0 else done) a.progress
      holder := if ended then none else some (w, forced)
      served := if ended then (x.map (·.key)).toList ++ a.served else a.served })

/-- A requester whose island dropped ON: its grant ends, its PROGRESS is not kept, its WAIT is 0 (R370, R380). -/
def maskRequester (r : Nat) (a : Arbiter) : Arbiter :=
  { a with waits := tdel r a.waits, progress := tdel r a.progress, holder := match a.holder with | some h => if h.1 = r then none else some h | none => none }

/-! ### Islands (R371) -/

/-- An island asserts its ON sideband (R371). -/
def islandOn (s : State) (i : Nat) : Bool :=
  s.entry.main && !s.boot.warmBusy &&
    (if i < 0x10 then !s.host.d3hot && !s.faults.fencedBands.getLsbD (i / 4)
     else if i < 0x18 then true
     else if i < 0x20 then linkLive s (i - 0x18)
     else if i < 0x30 then !s.faults.fencedStacks.getLsbD (i - 0x20)
     else if i < 0x40 then !s.faults.fencedStacks.getLsbD (i - 0x30)
     else !s.faults.fencedChannels.getLsbD (i - 0x40))

/-! ### Requests that wait (R364, R369) -/

/-- Keys of pending requests, apart between kinds of requesters. -/
def tierKey (q : TierReq) : Nat := 8 * ((q.tile * 16 + q.ctx) * 2 ^ 40 + q.first)

/-- 64-byte lines that a tier request touches in a stack's channel or a DDR5 channel. -/
def tierBeats (s : State) (tier2 : Bool) (k : Nat) (ch : Option (Fin 32)) (q : TierReq) : Nat :=
  let span := if tier2 then channelSpan else Config.stackBytes
  let lines := (q.places.filterMap fun a => (dvaCell s q.field a).map fun c => (c.1.1, c.1.2 / 64)).eraseDups
  (lines.filter fun (e : Bool × Nat) => e.1 == tier2 && e.2 * 64 / span == k && match ch with
    | some c => Config.hbmChannel (e.2 % (span / 64)) == c
    | none => true).length

/-- The first tier request of the array that still has beats here (R369) and whose island asserts ON (R366, R370). -/
def arrayCandidate (s : State) (tier2 : Bool) (k : Nat) (ch : Option (Fin 32)) (served : List Nat) : List Candidate :=
  ((s.mem.requests.filterMap fun q =>
    let n := tierBeats s tier2 k ch q
    if n = 0 ∨ served.contains (tierKey q) = true ∨ islandOn s (tileIsland s q.tile) = false then none else some ({ req := 0, key := tierKey q, beats := n } : Candidate)).head?).toList

/-- A cell lies in a stack's channel or in a DDR5 channel. -/
def cellHere (tier2 : Bool) (k : Nat) (ch : Option (Fin 32)) (c : CellAt) : Bool :=
  let span := if tier2 then channelSpan else Config.stackBytes
  c.1 == tier2 && c.2 / span == k && match ch with
    | some x => Config.hbmChannel (c.2 % span / 64) == x
    | none => true

/-- Cells that the hub DMA is at: the next line of each COPY, and the first line of each page that moves. -/
def dmaCells (s : State) : List CellAt :=
  (s.fld.copies.filter (fun c => c.started)).flatMap (fun c =>
    (if c.srcPlace = 1 then ((dvaCell s c.field (c.src + c.moved)).map (·.1)).toList else if c.srcPlace = 2 then (windowCell s (c.src + c.moved)).toList else [])
      ++ (if c.dstPlace = 1 then ((dvaCell s c.field (c.dst + c.moved)).map (·.1)).toList else if c.dstPlace = 2 then (windowCell s (c.dst + c.moved)).toList else []))
    ++ s.mem.moves.flatMap fun m => match fieldAt s m.field with
      | some fl => ((fl.pages.find? fun p => p.dva == m.dva).bind fun p => unitCell s fl p 0).toList
      | none => []

/-- The moon of a stack has a call or a service at work. -/
def moonBusy (s : State) (k : Nat) : Bool := !(tget [] k s.moons.queues).isEmpty || !(tget [] k s.moons.services).isEmpty

/-- Candidates of an HBM4 channel (R364). -/
def hbmCandidates (s : State) (k : Nat) (ch : Fin 32) (served : List Nat) : List Candidate :=
  arrayCandidate s false k (some ch) served
    ++ (if moonBusy s k && islandOn s (0x20 + k) then [{ req := 1, key := 1, beats := 1 }] else [])
    ++ (if (dmaCells s).any (cellHere false k (some ch)) then [{ req := 2, key := 2, beats := 1 }] else [])

/-- A GATHER or SCATTER part is at work (R364). -/
def moonTables (s : State) : Bool := s.moons.calls.any fun c => match moonProg s c.lead c.prog with
  | some m => m.cls == 3 || m.cls == 4
  | none => false

/-- Store copies are due for a pass (R335). -/
def storeDue (s : State) : Bool := s.models.store.any fun m => m.copies.any fun c => passDue s none c

/-- Candidates of a DDR5 channel (R364). CXL.mem accesses and patrol scrub are commands of their own, which wait for nothing. -/
def ddrCandidates (s : State) (c : Nat) (served : List Nat) : List Candidate :=
  arrayCandidate s true c none served
    ++ (if moonTables s then [{ req := 1, key := 1, beats := 1 }] else [])
    ++ (if (dmaCells s).any (cellHere true c none) then [{ req := 2, key := 2, beats := 1 }] else [])
    ++ (if storeDue s then [{ req := 4, key := 4, beats := 1 }] else [])

/-- The bank of an SRAM address (R59). -/
def bankOf (a : Nat) : Nat := a / 64 % 32

/-- The stream context that a requester of an MU bank serves next there: an address generator by its number, or the accumulate path, which any generator
feeds (R61, R65). -/
def bankNext (s : State) (t : Nat) (c : UnitCfg) (bank r : Nat) : Option Nat :=
  (if r < 4 then [r] else if r = 4 then List.range 4 else []).findSome? fun g => (genNext s t c g).filter fun n => match streamCfg c n with
    | some x =>
      let a := accessAddrs s t c n
      accumulates x == (r == 4) && (a.1 ++ a.2).any fun p => bankOf p == bank
    | none => false

/-- A fill of the unit's field waits to write the bank. -/
def bankFill (s : State) (t bank : Nat) : Bool := match fieldOfTile s t with
  | some (f, _, r, c) => s.fld.fills.any fun w => w.field == f && w.img.preloads.any fun p => p.row == r && p.col == c &&
      (List.range (ceilDiv (p.base % 64 + p.data.length) 64)).any fun i => bankOf (p.base + 64 * i) == bank
  | none => false

/-- Candidates of an MU bank: the address generators, the accumulate path, fill and preload (R61, R364). -/
def bankCandidates (s : State) (t : Nat) (bank : Nat) : List Candidate :=
  match unitCfg (unitAt s t) with
  | none => []
  | some c =>
    ((List.range 5).filter fun r => mayFire s t && (bankNext s t c bank r).isSome).map (fun r => ({ req := r, key := r, beats := 1 } : Candidate))
      ++ (if bankFill s t bank then [{ req := 5, key := 5, beats := 1 }] else [])

/-- The winner of an MU bank makes its access; the losers keep theirs for a later beat (R61). A fill's writes are SLOT_FILL's. -/
def bankBeat (t bank : Nat) (w : Option Nat) (s : State) : State :=
  match unitCfg (unitAt s t), w with
  | some c, some r => match (bankNext s t c bank r).bind fun n => unitFire t c (.stream (Fin.ofNat 16 n)) s with
    | some s1 => afterEvent t s1
    | none => s
  | _, _ => s

/-- Flits from the head of a queue to the end of its packet. -/
def packetRest : List Flit → Nat
  | [] => 0
  | _ :: l => 1 + (l.takeWhile fun f => !f.sop).length

/-- The 512 flits of the retry buffer all wait for an ACK_SEQ: no further flit goes out (R344). -/
def retryFull (x : Link) : Bool := decide (512 ≤ x.retry.length)

/-- Candidates of a link's egress: channels with a flit and a credit (R345, R364), while the retry buffer has room. -/
def linkCandidates (s : State) (l : Nat) : List Candidate :=
  let x := linkAt s l
  if !linkLive s l || x.fast || retryFull x then []
  else (List.range 8).filterMap fun ch =>
    let q := tget [] ch x.queues
    if q.isEmpty || creditOf x ch == 0 then none else some { req := ch, key := ch, beats := packetRest q + tget 0 ch (tget ({} : Arbiter) (2000 + l) s.arbs.arbs).progress }

/-- Candidates of descriptor fetch: queues with an unfetched tail (R239, R364). -/
def fetchCandidates (s : State) : List Candidate :=
  (s.host.queues.filter fun (e : Nat × Queue) => fetchOpen s e.1 && e.2.sqHead != e.2.sqTail).map fun (e : Nat × Queue) => { req := e.1, key := e.1, beats := 1 }

/-- Candidates of the hub hash engine (R364). -/
def hashCandidates (s : State) : List Candidate :=
  (if s.fld.loads.isEmpty && s.models.loads.isEmpty then [] else [{ req := 0, key := 0, beats := 1 }])
    ++ (if storeDue s then [{ req := 1, key := 1, beats := 1 }] else [])

/-! ### The arbiters (R364, R365, R379) -/

/-- The key of an arbiter in State. -/
def arbKey : ArbId → Nat
  | .hbm k ch => k.val * 32 + ch.val
  | .ddr c => 1000 + c.val
  | .link l => 2000 + l.val
  | .fetch => 3000
  | .hash => 3001
  | .muBank t bank => 10000 + (40 * t.row.val + t.col.val) * 32 + bank.val

/-- The island of an arbiter (R364). -/
def arbIsland (s : State) : ArbId → Nat
  | .hbm k _ => 0x30 + k.val
  | .ddr c => 0x40 + c.val
  | .link l => 0x18 + l.val
  | .fetch => 0x10
  | .hash => 0x10
  | .muBank t _ => tileIsland s (40 * t.row.val + t.col.val)

/-- A section drains to a park record: run-empty or by scan, and not by the abort procedure (R365, R380). -/
def parkDrain (x : Section) : Bool := (x.phase == .draining || x.phase == .settled) && match x.why with
  | some (.abort _) => false
  | _ => true

/-- A drain of the stack's field is under way: from its start until its park record is written (R365). -/
def drainMode (s : State) (k : Nat) : Bool := match (fieldOfBand s (bandOf k)).bind (fieldAt s) with
  | some fl => fl.seq.any parkDrain
  | none => false

/-- Classes, shares and limits of an arbiter (R364, R365, R379). -/
def arbKind (s : State) : ArbId → ArbKind
  | .hbm k _ => { classOf := [0, 1, 2], shares := if drainMode s k then [332, 192, 500] else [768, 192, 64],
                  limits := [bits s.arbs.hbm.toNat 0 10, bits s.arbs.hbm.toNat 10 10, bits s.arbs.hbm.toNat 20 10] }
  | .ddr _ => { classOf := [0, 2, 3, 1, 4], shares := [512, 256, 64, 10, 0],
                limits := [bits s.arbs.ddr0.toNat 0 10, bits s.arbs.ddr0.toNat 10 10, bits s.arbs.ddr0.toNat 20 10, bits s.arbs.ddr1.toNat 0 10,
                           bits s.arbs.ddr1.toNat 10 10] }
  | .muBank _ _ => { classOf := [], shares := [1024],
                     limits := [bits s.arbs.mu.toNat 0 10, bits s.arbs.mu.toNat 0 10, bits s.arbs.mu.toNat 0 10, bits s.arbs.mu.toNat 0 10,
                                bits s.arbs.mu.toNat 10 10, bits s.arbs.mu.toNat 20 10] }
  | .link _ => { classOf := [0, 0, 1, 1, 2, 2, 3, 3], shares := [64, 384, 256, 320], limits := [bits s.arbs.link.toNat 0 10] }
  | .fetch => { classOf := [], shares := [1024], limits := [bits s.arbs.fetch.toNat 0 10] }
  | .hash => { classOf := [0, 1], shares := [1024, 0], limits := [bits s.arbs.hash.toNat 0 10, bits s.arbs.hash.toNat 10 10] }

/-- The candidates of an arbiter (R366). -/
def arbCandidates (s : State) (served : List Nat) : ArbId → List Candidate
  | .hbm k ch => hbmCandidates s k ch served
  | .ddr c => ddrCandidates s c served
  | .muBank t bank => bankCandidates s (40 * t.row.val + t.col.val) bank.val
  | .link l => linkCandidates s l
  | .fetch => fetchCandidates s
  | .hash => hashCandidates s

/-- Keys that only tier requests carry over from beat to beat; one whose request has ended is forgotten. -/
def stillServed (s : State) (served : List Nat) : List Nat := served.filter fun k => s.mem.requests.any fun q => tierKey q == k

/-- The winner of a link beat sends its head flit, for one credit (R345). A control flit with credit returns takes at most one codeword in 64 (R343). -/
def linkBeat (l : Nat) (w : Option Nat) (s : State) : State :=
  let x := linkAt s l
  if !linkLive s l || x.fast then s
  else if x.toReturn ≠ [] ∧ 63 ≤ x.sinceCtrl ∧ retryFull x = false then
    putOnWire l (ctrlFlit false ((List.range 8).map fun ch => tget 0 ch x.toReturn)) (setLink s l { x with toReturn := [], sinceCtrl := 0 })
  else match w with
    | none => s
    | some ch => match tget [] ch x.queues with
      | [] => s
      | f :: rest =>
        let s := if f.sop then chargeLink l (parsePacket f.payload) (packetFlits (natAt f.payload 24 2)) s else s
        putOnWire l f (modLink l (fun x => { x with queues := tset [] ch rest x.queues, credits := tset 512 ch (creditOf x ch - 1) x.credits,
                                                     sinceCtrl := min 63 (x.sinceCtrl + 1) }) s)

/-- A control flit takes this codeword of a link in place of a beat (R343). -/
def ctrlTurn (s : State) : ArbId → Bool
  | .link l => let x := linkAt s l; linkLive s l && !x.fast && x.toReturn != [] && decide (63 ≤ x.sinceCtrl) && !retryFull x
  | _ => false

/-- ARBITER_BEAT: an arbiter decides one beat (R366 to R371). -/
def execArbiterBeat (a : ArbId) (s : State) : Host.Outcome State Fault Refusal :=
  .next (if !s.entry.main || s.boot.warmBusy || !islandOn s (arbIsland s a) then s
    else
      let old := tget ({} : Arbiter) (arbKey a) s.arbs.arbs
      let kept := { old with served := stillServed s old.served }
      let masked := match a with
        | .hbm k _ => if islandOn s (0x20 + k.val) then kept else maskRequester 1 kept
        | _ => kept
      if ctrlTurn s a then match a with
        | .link l => linkBeat l none s
        | _ => s
      else
        let (w, next) := arbBeat (arbKind s a) masked (arbCandidates s masked.served a)
        let next := { next with served := stillServed s next.served }
        let s := { s with arbs := { s.arbs with arbs := tset {} (arbKey a) next s.arbs.arbs } }
        match a with
        | .link l => linkBeat l w s
        | .muBank t bank => bankBeat (40 * t.row.val + t.col.val) bank.val w s
        | _ => s)

end Sys2Proof.Machine
end

