-- ==== Sys2Proof/Machine/Meter.lean ====
section
/-!
DEFINITION. Meanings of the events of the sealed metering chip (20) and of the accounting counters that read it (18).
-/

namespace Sys2Proof.Machine

/-! ### Meter time and records (R416, R424, R425) -/

/-- Samples in one millisecond of meter time at 250 kS/s (R416). -/
def meterMs : Nat := 250

/-- Records that the meter's storage holds (R427). -/
def meterSlots : Nat := 16384

/-- FLAGS of a record: NO_TIME, REALIGNED, SEAL_OPEN, OUT_OF_RANGE, CHECK_FAIL (R425). -/
def recFlags (r : MeterRec) : Nat :=
  b2n r.noTime + 2 * b2n r.realigned + 4 * b2n r.sealOpen + 8 * b2n r.outOfRange + 16 * b2n r.checkFail

/-- Header bytes 0 to 127 of a record (R425). -/
def recBytes (r : MeterRec) : List Byte :=
  leBytes 4 0x5254454D ++ leBytes 2 1 ++ leBytes 1 r.kind ++ leBytes 1 r.event ++ leBytes 4 (recFlags r) ++ leBytes 4 r.powerUps
    ++ leBytes 8 r.seq ++ leBytes 8 r.cumStart ++ leBytes 8 r.cumEnd ++ leBytes 4 r.durationMs ++ leBytes 4 r.peakW
    ++ leBytes 8 r.mark.toNat ++ leBytes 4 r.markAgeMs ++ leBytes 4 0 ++ leBytes 8 r.markKeyId.toNat ++ leBytes 48 r.prevDigest.toNat
    ++ leBytes 8 0

/-- PREV_DIGEST of the next record: SHA-384 of the last record's header, zero before the first (R425). -/
def prevDigest (m : Meter) : Digest := match m.records.getLast? with
  | some r => sha384 (recBytes r)
  | none => 0

/-- The record that the meter writes now, of a kind, with an event code and its two register values (R425). -/
def recordOf (kind event cumStart cumEnd : Nat) (m : Meter) : MeterRec :=
  { kind, event
    noTime := m.mark.isNone
    realigned := m.realigned
    sealOpen := m.sealOpen || m.sealInInterval
    outOfRange := m.oorNow || m.oorInInterval
    checkFail := m.checkInInterval
    powerUps := m.powerUps
    seq := m.seq + 1
    cumStart, cumEnd
    durationMs := (m.time - m.intervalAt) / meterMs
    peakW := m.peakW
    mark := match m.mark with | some (v, _, _) => v | none => 0
    markAgeMs := match m.mark with | some (_, t, _) => min ((m.time - t) / meterMs) 0xFFFFFFFF | none => 0xFFFFFFFF
    markKeyId := match m.mark with | some (_, _, k) => k | none => 0
    prevDigest := prevDigest m }

/-- Write a record into the ring of the newest 16,384 (R427). -/
def addRecord (r : MeterRec) (m : Meter) : Meter :=
  { m with seq := r.seq, records := (m.records ++ [r]).drop (m.records.length + 1 - meterSlots) }

/-- The oldest record held, 0 for none (R431). -/
def oldestRecord (m : Meter) : Nat := match m.records.head? with
  | some r => r.seq
  | none => 0

/-- Replace the meter. -/
def setMeter (s : State) (m : Meter) : State := { s with meter := m }

/-- A new record is written and sent over the outbound link, where it reaches its slot of the recent buffer (R430, R431). -/
def writeRecord (r : MeterRec) (s : State) : State :=
  let s := setMeter s (addRecord r s.meter)
  if s.entry.aux && s.window.linkOk then { s with window := { s.window with recent := tput (r.seq % 64) r s.window.recent } } else s

/-- Log an event (R425, R426). -/
def meterEvent (code : Nat) (s : State) : State := writeRecord (recordOf 2 code s.meter.cum 0 s.meter) s

/-- A new interval begins: its length and its flags start afresh (R424). -/
def newInterval (m : Meter) : Meter :=
  { m with
    intervalAt := m.time, intervalCum := m.cum, intervalMs := 900000, realigned := false, sealInInterval := m.sealOpen
    oorInInterval := m.oorNow, checkInInterval := false, rejectLogged := false, peakW := 0 }

/-! ### METER_SAMPLE (R416 to R418) -/

/-- 1 µWh in units of mV mA over one 4 µs sample: 3.6 mJ (R416). -/
def microWh : Nat := 900000000

/-- Samples in one second. -/
def meterSecond : Nat := 250000

/-- The reading lies outside the range of accuracy that carries no flag (R417). -/
def outOfRange (mv product : Nat) : Bool := decide (2400000000 < product ∨ (20000 < mv ∧ (mv < 44000 ∨ 62000 < mv)))

/-- One sample (R416): its product enters the accumulator, the remainder below 1 µWh stays; the register follows at each 1 mWh (R418). -/
def sampleMeter (mv ma : Nat) (m : Meter) : Meter :=
  let product := mv * ma
  let accum := m.accum + (m.rest + product) / microWh
  let time := m.time + 1
  let sum := m.secondSum + product
  let second := time % meterSecond == 0
  let avg := sum / meterSecond / 1000000
  let oor := outOfRange mv product
  { m with
    accum, rest := (m.rest + product) % microWh, cum := accum / 1000, time
    secondSum := if second then 0 else sum
    p1s := if second then avg else m.p1s
    peakW := if second then max m.peakW avg else m.peakW
    oorNow := oor, oorInInterval := m.oorInInterval || oor }

/-- The meter samples current and voltage (R416). -/
def execMeterSample (milliVolts milliAmps : Nat) (s : State) : Host.Outcome State Fault Refusal :=
  .next (if s.meter.powered then setMeter s (sampleMeter milliVolts milliAmps s.meter) else s)

/-! ### Intervals, checks, power (R419 to R421, R424) -/

/-- Meter time has come to the boundary of the interval; what passed without a sample in this queue passes now (log 50). -/
def atBoundary (m : Meter) : Meter := { m with time := max m.time (m.intervalAt + m.intervalMs * meterMs) }

/-- The interval ends: its record is written and the next one begins (R424, R425, R427). -/
def execMeterIntervalEnd (s : State) : Host.Outcome State Fault Refusal :=
  .next (
    if !s.meter.powered then s
    else
      let s := setMeter s (atBoundary s.meter)
      let s := writeRecord (recordOf 1 0 s.meter.intervalCum s.meter.cum s.meter) s
      setMeter s (newInterval s.meter))

/-- The check of each second: an oscillator difference above 500 ppm, a converter error above 0.1 % (R419). -/
def execMeterSelfCheck (oscPpm converterPpm : Nat) (s : State) : Host.Outcome State Fault Refusal :=
  .next (
    if !s.meter.powered then s
    else
      let osc := decide (500 < oscPpm)
      let adc := decide (1000 < converterPpm)
      let s := setMeter s { s.meter with checkInInterval := s.meter.checkInInterval || osc || adc }
      let s := if osc then meterEvent 5 s else s
      if adc then meterEvent 6 s else s)

/-- The input has been below 20 V for 1 ms: a CLOSE record ends the interval, and the meter is off (R420, R424). -/
def execMeterPowerLoss (s : State) : Host.Outcome State Fault Refusal :=
  .next (
    if !s.meter.powered then s
    else
      let s := writeRecord (recordOf 3 0 s.meter.intervalCum s.meter.cum s.meter) s
      setMeter s { s.meter with powered := false })

/-- The meter powers up (R420): an OPEN record, a new interval, and an opening that the latch held (R429). The remainder below 1 mWh is lost
(R418). -/
def execMeterPowerUp (unpoweredOpening : Bool) (s : State) : Host.Outcome State Fault Refusal :=
  .next (
    if s.meter.powered || !s.entry.p56v then s
    else
      let m := s.meter
      let m := { m with powered := true, powerUps := m.powerUps + 1, accum := m.cum * 1000, rest := 0, time := 0, secondSum := 0, p1s := 0,
                        oorNow := false, mark := none, discarded := 0 }
      let s := setMeter s (newInterval m)
      let s := writeRecord (recordOf 4 0 s.meter.cum 0 s.meter) s
      if s.meter.unpoweredOpening || unpoweredOpening then meterEvent 3 (setMeter s { s.meter with unpoweredOpening := false }) else s)

/-- The meter's own watchdog restarts its program: the interval goes on, flagged CHECK_FAIL (R421). -/
def execMeterRestart (s : State) : Host.Outcome State Fault Refusal :=
  .next (if s.meter.powered then meterEvent 8 (setMeter s { s.meter with checkInInterval := true }) else s)

/-- The seal opens or closes, or the mesh breaks (R426, R429). -/
def execSealEvent (e : SealEvent) (s : State) : Host.Outcome State Fault Refusal :=
  .next (
    let m := s.meter
    match e with
    | .opened =>
      if m.powered then meterEvent 1 (setMeter s { m with sealOpen := true, sealInInterval := true })
      else setMeter s { m with sealOpen := true, unpoweredOpening := true }
    | .closed => if m.powered then meterEvent 2 (setMeter s { m with sealOpen := false }) else setMeter s { m with sealOpen := false }
    | .meshBreak => if m.powered then meterEvent 4 s else s)

/-! ### The read window (R430 to R432) -/

/-- The recent buffer: the newest 64 records in their slots (R431). -/
def recentOf (m : Meter) : Tab MeterRec := (m.records.drop (m.records.length - 64)).foldl (fun t (r : MeterRec) => tput (r.seq % 64) r t) []

/-- The window as a status frame fills it (R430, R431). -/
def statusWindow (m : Meter) (w : MeterWindow) : MeterWindow :=
  { w with
    linkOk := true
    flags := BitVec.ofNat 4 (b2n m.mark.isNone + 2 * b2n m.sealOpen + 4 * b2n m.oorNow + 8 * b2n m.checkInInterval)
    romVersion := Config.meterRomVersion
    discarded := satAdd 0 m.discarded
    cum := m.cum, p1s := satAdd 0 m.p1s, peakW := satAdd 0 m.peakW, seq := m.seq, oldest := oldestRecord m
    identity := true, recent := recentOf m }

/-- A status frame arrives in the hub (R430). -/
def execMeterStatusFrame (s : State) : Host.Outcome State Fault Refusal :=
  .next (if s.meter.powered && s.entry.aux then { s with window := statusWindow s.meter s.window } else s)

/-- No status frame for 300 ms: LINK_OK falls (R431, R434). -/
def execMeterLinkTimeout (s : State) : Host.Outcome State Fault Refusal := .next { s with window := { s.window with linkOk := false } }

/-- The records that a REPLAY of n records from a number gets: those still held (R432). -/
def replayOf (m : Meter) (first n : Nat) : List MeterRec :=
  m.records.filter fun r => decide (max first (oldestRecord m) ≤ r.seq ∧ r.seq < first + n)

/-- A write to METER.REPLAY_GO (R431, R432); a COUNT above 64 counts as 0, and 0 requests nothing (R505). -/
def execReplayGo (w : BitVec 32) (s : State) : Host.Outcome State Fault Refusal :=
  .next (
    let n := bits w.toNat 0 7
    if !barOpen s || !bitAt w.toNat 7 || n == 0 || decide (64 < n) || !s.meter.powered || !s.window.linkOk then s
    else
      let l := replayOf s.meter s.window.replaySeq.toNat n
      { s with window := { s.window with replay := l, got := l.length } })

/-! ### Time marks (R422 to R424) -/

/-- The mark is early enough against the last one: MARK is no earlier than it plus the meter time since, less 2,000 ms (R423). -/
def markInOrder (m : Meter) (v : Nat) : Bool := match m.mark with
  | some (last, t, _) => decide (last.toNat * meterMs + (m.time - t) ≤ (v + 2000) * meterMs)
  | none => true

/-- At least 1,000 ms of meter time since the last accepted mark (R423). -/
def markSpaced (m : Meter) : Bool := match m.mark with
  | some (_, t, _) => decide (1000 * meterMs ≤ m.time - t)
  | none => true

/-- One UTC quarter hour in milliseconds. -/
def quarterMs : Nat := 900000

/-- The length of the interval in progress after a mark (R424). -/
def realign (m : Meter) (v : Nat) : Nat :=
  let elapsed := (m.time - m.intervalAt) / meterMs
  match m.mark with
  | none => elapsed + (roundUp (v + 60000) quarterMs - v)
  | some _ =>
    let off := (v + m.intervalMs - min elapsed m.intervalMs) % quarterMs
    if off ≤ 1000 ∨ quarterMs - off ≤ 1000 then m.intervalMs
    else if off < quarterMs - off then m.intervalMs - 1000
    else m.intervalMs + 1000

/-- The meter takes or rejects a time mark (R423, R424). -/
def acceptMark (t : TimeMark) (s : State) : State :=
  let m := s.meter
  let v := t.mark.toNat
  if !m.powered then s
  else if t.sig.ed && t.sig.ml && markInOrder m v then
    if markSpaced m then
      let l := realign m v
      setMeter s { m with intervalMs := l, realigned := m.realigned || m.mark.isNone || l != m.intervalMs, mark := some (t.mark, m.time, t.keyId) }
    else s
  else if m.rejectLogged then s
  else meterEvent 7 (setMeter s { m with rejectLogged := true })

/-! ### Accounting (R391 to R393) -/

/-- Replace the accounting state. -/
def setAcct (s : State) (a : Acct) : State := { s with acct := a }

/-- Floor of BASE_W × PERIOD_MS ÷ 3.6, in µWh (R391). -/
def baseEnergy (a : Acct) : Nat := a.baseW.toNat * a.periodMs.toNat * 10 / 36

/-- The increase of a tag's ACTIVITY since the last apportionment (R391). -/
def activityGain (a : Acct) (t : Nat) : Nat := ((tget ({} : TagCounters) t a.live.tags).activity - tget 0 t a.lastActivity).toNat

/-- Activity since the last apportionment, tagged and untagged (R391). -/
def activitySum (a : Acct) : Nat := sumN (a.live.tags.map fun (e : Nat × TagCounters) => activityGain a e.1) + (a.live.untagged - a.lastUntagged).toNat

/-- What tag t receives of a rest of energy (R391). -/
def energyShare (a : Acct) (rest t : Nat) : Nat := if activitySum a = 0 then 0 else rest * activityGain a t / activitySum a

/-- Apportion energy to the tags; base, untagged share and remainders go to UNATTRIBUTED (R391). -/
def apportion (reading : Nat) (a : Acct) : Acct :=
  let energy := 1000 * (reading - a.lastMeter)
  let rest := energy - min energy (baseEnergy a)
  let given := sumN (a.live.tags.map fun (e : Nat × TagCounters) => energyShare a rest e.1)
  { a with
    live := { a.live with
      tags := a.live.tags.map fun (e : Nat × TagCounters) => (e.1, { e.2 with energy := e.2.energy + BitVec.ofNat 64 (energyShare a rest e.1) })
      unattributed := a.live.unattributed + BitVec.ofNat 64 (energy - given) }
    lastMeter := reading
    lastActivity := a.live.tags.map fun (e : Nat × TagCounters) => (e.1, e.2.activity)
    lastUntagged := a.live.untagged }

/-- The apportionment of each period; skipped while the meter cannot be read (R391, R434). -/
def execEnergyApportionment (s : State) : Host.Outcome State Fault Refusal :=
  .next (if mgmtOn s && s.entry.main && s.window.linkOk then setAcct s (apportion s.window.cum s.acct) else s)

/-- The counters after a clear: the next apportionment counts from the meter's reading now (R392, R395). -/
def clearedAcct (s : State) (a : Acct) : Acct :=
  { a with live := {}, lastMeter := if s.window.linkOk then s.window.cum else s.meter.cum, lastActivity := [], lastUntagged := 0 }

/-- TAKE copies the counters into the snapshot bank (R393). -/
def execTake (s : State) : Host.Outcome State Fault Refusal :=
  .next (if barOpen s then setAcct s { s.acct with snap := s.acct.live, done := true } else s)

/-- CLEAR with TAKE clears the live counters in the cycle of the copy (R393). -/
def execClear (s : State) : Host.Outcome State Fault Refusal :=
  .next (if barOpen s then setAcct s (clearedAcct s { s.acct with snap := s.acct.live, done := true }) else s)

end Sys2Proof.Machine
end

