-- ==== Sys2Proof/Machine/Resets.lean ====
section
/-!
DEFINITION. What each kind of reset leaves (22, with R456 and R461 for what survives), the end of test mode, and the abort of open work.
-/

namespace Sys2Proof.Machine

/-! ### Test mode (R477, R478, R501) -/

/-- Loopbacks stop and their registers return to reset; a link that was in loopback retrains (R496, R501). -/
def endLoopbacks (s : State) : State :=
  let ls := (s.testLinks.filter fun (e : Nat × TestLink) => e.2.mode != 0).map (·.1)
  ls.foldl (fun s l => if (linkAt s l).enable then startTraining l s else s) { s with testLinks := [], testMem := {} }

/-- Test mode ends: every slot disarms, loopbacks stop, a note is recorded (R478, R501). -/
def endTest (s : State) : State :=
  if s.faults.test then
    let s := endLoopbacks { s with faults := { s.faults with test := false, testScope := 0, remain := 0, inj := mapIf (fun _ => true) (fun (e : Nat × InjSlot) => (e.1, { e.2 with arm := false })) s.faults.inj } }
    logDetection 0x10 0x20 3 false 0 (islandCycles s 0x10) 0 0 s
  else s

/-! ### Registers -/

/-- Queue registers, MSI-X table, mailbox registers and interrupt causes at reset, and no open descriptor (R459, R461, R509). What has been sent
to the host stays sent. -/
def hostReset (h : HostIf) : HostIf :=
  { h with queues := [], opens := [], closed := [], msix := [], causeMbox := false, causeRemoval := false, mboxAddr := 0, mboxRun := none }

/-- The CXL link state is lost (R455). -/
def linkLost (h : HostIf) : HostIf :=
  { h with twoPorts := false, up0 := false, up1 := false, width0 := 0, width1 := 0, slow0 := false, slow1 := false, d3hot := false }

/-- The governor's levers at their reset values (R415, R461). -/
def leversReset (g : Gov) : Gov :=
  { g with targetMhz := 1750, clock := [], promptPause := false, pauseAsked := false, batchMove := .hold, batch := [], parked := 0, thermalParked := 0, parkOrder := [] }

/-- Trace registers, injection slots and test mode at their reset values (R461, R512). -/
def faultsLight (x : Faults) : Faults :=
  { x with test := false, testScope := 0, remain := 0, inj := [], traceBase := 0, traceEn := false, traceEntries := 0, traceLost := 0, traceTail := 0, traceHead := 0 }

/-- Fault state after a cold reset: the history and the fences that no training holds are lost; the event sequence number restarts (R461, R469). -/
def faultsCold (s : State) : Faults :=
  { fencedStacks := s.faults.fencedStacks, fencedChannels := s.faults.fencedChannels, fencedBands := s.store.bandFenced }

/-! ### Power-on and cold reset (R455, R459, R461) -/

/-- Every main-domain island after a cold reset or a loss of the main domain; LAST reads 1 (R465). -/
def coldState (s : State) : State :=
  { s with
    boot := { last := 1, enduranceReset := s.boot.enduranceReset }
    spdm := { out := s.spdm.out }
    host := linkLost (hostReset s.host)
    gov := { leversReset s.gov with thermalCap := none, lag := false }
    faults := faultsCold s
    testLinks := [], testMem := {}
    window := {}
    acct := clearedAcct s {}
    fld := { pairs := s.store.retired }
    grid := {}
    mem := { host := s.mem.host, retired := s.mem.retired }
    moons := {}, serv := {}, models := {}, fab := {}, arbs := {} }

/-- The module after power-on: the auxiliary domain's state is lost as well; what the input stage sees stands (R396, R455, R461). -/
def powerOnState (s : State) : State :=
  let s := coldState s
  { s with boot := { last := 0 }, gov := { out := s.gov.out, ibis := s.gov.ibis, heardAt := s.tick, inputCap := s.gov.inputCap, inputLow := s.gov.inputLow } }

/-! ### Warm reset (R457, R459, R461) -/

/-- A field that a preserving warm reset keeps: its bands, lists and mappings; what the firmware held for requests and configurations goes. -/
def fieldKept (fl : Field) : Field :=
  { fl with slots := [], seq := [], waiting := [], asleep := false, held := false, step := none,
            pages := fl.pages.filter fun p => match p.owner with
              | .host => true
              | .shard _ _ => true
              | _ => false }

/-- Fields and their mappings after a warm reset: kept with PRESERVE_HBM, else none is formed (R461). -/
def fieldsWarm (s : State) : Fields :=
  let f : Fields := { pairs := s.store.retired, nextHandle := s.fld.nextHandle, nextSection := s.fld.nextSection }
  if s.mem.preserveHbm then { f with join := s.fld.join, use := s.fld.use, fields := s.fld.fields.map fun (e : Nat × Field) => (e.1, fieldKept e.2) } else f

/-- Memory after a warm reset: DDR5 is kept, HBM4 with PRESERVE_HBM; RWL and RWS values stand, other setup fields return (R461). -/
def memWarm (s : State) : Mem :=
  let m := s.mem
  { m with
    tier1 := if m.preserveHbm then m.tier1 else []
    undef := if m.preserveHbm then m.undef else []
    hbmHours := 8, ddrHours := 24, t2Hours := 6, moves := [], poolUsed := [], requests := [], stale := [] }

/-- The model store stands; the index of tier-1 copies with PRESERVE_HBM, counted from now (R335, R461). -/
def modelsWarm (s : State) : Models :=
  let since := fun (m : Model) => { m with copies := m.copies.map fun c => { c with since := s.tick } }
  { s.models with loads := [], tier1 := if s.mem.preserveHbm then s.models.tier1.map fun (e : Nat × List Model) => (e.1, e.2.map since) else [] }

/-- The fabric after a warm reset: NODE_ID stands; links are down, and a lost link's fence waits for its training (R461, R469). -/
def fabWarm (f : Fabric) : Fabric :=
  { nodeId := f.nodeId
    links := (f.links.filter fun (e : Nat × Link) => e.2.fenced).map fun (e : Nat × Link) => (e.1, { ({} : Link) with fenced := true }) }

/-- Fault state after a warm reset: the history stands, the fatal state ends (R461, R474). -/
def faultsWarm (x : Faults) : Faults :=
  { faultsLight x with fatal := false, fatalPhase := .none, fatalMayPark := false, fatalRails := false, fatalParkMs := 500, sectionFences := [], unitEvents := [],
                       fatalCopied := false }

/-- Steps 3 and 4 of a warm reset: open work is lost, every island but 0x12 and 0x13 is reset (R457, R459, R461). -/
def warmState (s : State) : State :=
  let s := endTest s
  { s with
    boot := { s.boot with stage := .verify, reason := 0, warmReverified := false, setupDone := false, laidOut := false, download := none,
                          warmBusy := true, nonce := none, last := 2 }
    entry := { s.entry with alive := false }
    spdm := { out := s.spdm.out }
    host := hostReset s.host
    gov := { leversReset s.gov with thermalCap := none, lag := false }
    faults := faultsWarm s.faults
    testLinks := [], testMem := {}
    window := {}
    acct := clearedAcct s {}
    fld := fieldsWarm s
    grid := {}
    mem := memWarm s
    moons := {}
    serv := { comets := s.serv.comets, nextComet := s.serv.nextComet }
    models := modelsWarm s
    fab := fabWarm s.fab
    arbs := { hbm := s.arbs.hbm, ddr0 := s.arbs.ddr0, ddr1 := s.arbs.ddr1, mu := s.arbs.mu, link := s.arbs.link, fetch := s.arbs.fetch, hash := s.arbs.hash } }

/-! ### The abort of a field's work (R122, R459) -/

/-- Sections of a field, by number, in the order of dispatch. -/
def sectionIds (s : State) (f : Nat) : List Nat := match fieldAt s f with
  | some fl => (sectionsOf fl).map (·.id)
  | none => []

/-- End every section of a field by the abort procedure (R122). -/
def abortField (f : Nat) (st : BitVec 16) (s : State) : State :=
  (sectionIds s f).foldl (fun s id => match secAt s f id with
    | none => s
    | some x => if x.phase = .queued then closeSection f id st 0 0 s else deliverAbort f id st (markAbort f id st s)) s

/-- Module-wide numbers of the stacks of a field's bands. -/
def bandStacks (fl : Field) : List Nat := fl.bands.flatMap fun b => [4 * b, 4 * b + 1, 4 * b + 2, 4 * b + 3]

/-- Moon calls that a field's channels hold go: headers, calls, queued parts, held and answered FETCHes (R460). -/
def freeChannels (ks : List Nat) (s : State) : State :=
  let m := s.moons
  { s with moons := { m with
    headers := m.headers.filter fun h => !ks.contains h.lead
    calls := m.calls.filter fun c => !ks.contains c.lead
    queues := (m.queues.map fun (e : Nat × List (Nat × Nat)) => (e.1, e.2.filter fun (x : Nat × Nat) => !ks.contains x.1)).filter fun (e : Nat × List (Nat × Nat)) => e.2 != []
    forwards := m.forwards.filter fun (e : Nat × Nat × Nat) => !ks.contains e.2.1
    partials := m.partials.filter fun p => !ks.contains p.lead
    combine := m.combine.filter fun (e : Nat × Cells) => !ks.contains (e.1 / 64)
    fetches := m.fetches.filter fun (e : Nat × Nat × Nat × Nat) => !ks.contains e.1
    answers := m.answers.filter fun (e : Nat × Nat × Nat) => !ks.contains (e.1 / 64) } }

/-- The units of a field's bands are cleared: context slots, SRAM, accumulators, FIFOs; its threads are at rest (R460, R484). -/
def clearUnits (f : Nat) (fl : Field) (s : State) : State :=
  { s with grid := { s.grid with
    units := s.grid.units.filter fun (e : Nat × TileUnit) => !fl.bands.contains (tileBand e.1)
    threads := s.grid.threads.filter fun (e : Nat × Thread) => keyField e.1 != f }
           mem := { s.mem with requests := s.mem.requests.filter fun q => !fl.bands.contains (tileBand q.tile) } }

/-- The array islands of a field's bands. -/
def fieldIslands (fl : Field) : List Nat := fl.bands.flatMap fun b => [4 * b, 4 * b + 1, 4 * b + 2, 4 * b + 3]

/-- A field reset (R456, R459, R460): its sections end with a status, its slots, records, channels and configurations go; the field stays formed. -/
def resetField (f : Nat) (st : BitVec 16) (s : State) : State :=
  let s := abortField f st (wakeField f s)
  match fieldAt s f with
  | none => s
  | some fl =>
    let s := clearUnits f fl s
    let s := { s with fld := { s.fld with
      parks := s.fld.parks.filter fun p => p.field != f
      fills := s.fld.fills.filter fun w => w.field != f || w.acc.isSome
      floorMhz := tdel f s.fld.floorMhz, parkRank := tdel f s.fld.parkRank } }
    let s := modField f (fun fl => { fl with slots := [], seq := [], waiting := [], step := none }) s
    let s := freeChannels (bandStacks fl) s
    let s := (s.serv.configs.filter fun (e : Nat × ServConfig) => e.2.block.field.val == f).foldl (fun s (e : Nat × ServConfig) => removeConfig e.1 s) s
    let isl := fieldIslands fl
    injReset (fun x => isl.contains x.island.toNat)
      { s with grid := { s.grid with cycles := s.grid.cycles.filter fun (e : Nat × BitVec 64) => !isl.contains e.1 } }

/-! ### Function-level reset (R459, R461) -/

/-- Requests become retained PARKED entries; a CANCELLING one without RETAIN_ON_CANCEL ends (R304, R459). -/
def retainRequests (s : State) : State :=
  s.serv.reqs.foldl (fun s (e : Nat × Request) =>
    let s := releaseReserve (e.2.park.bind (·.2)) s
    let keep := modReq e.1 (fun q => { q with state := .parked, retained := true, acc := none, park := none, parkDesc := none, cancels := [] }) s
    match e.2.state with
    | .cancelling => if e.2.retain then keep else closeReq e.1 (statusCode .cancelled) 0 (modReq e.1 (fun q => { q with acc := none, park := none, cancels := [] }) s)
    | .done => closeReq e.1 (statusCode .ok) 0 (modReq e.1 (fun q => { q with acc := none, park := none, cancels := [] }) s)
    | _ => keep) s

/-- Work of descriptors that have been lost goes: copies, loads, fills not begun, waiting parks and cancels, shipments, weight loads, collectives and
the transfers they started (R459). -/
def dropWork (s : State) : State :=
  { s with
    fld := { s.fld with copies := [], loads := [], fills := s.fld.fills.filter fun w => w.acc.isNone, parkWait := [] }
    serv := { s.serv with waiters := [], samples := [], holds := [], ships := [] }
    models := { s.models with loads := [] }
    fab := { s.fab with tx := [], runs := [], groups := s.fab.groups.map fun (e : Nat × CollGroup) => (e.1, { e.2 with queue := [] }) } }

/-- The state after a function-level reset: sections are aborted, requests are retained, every other open descriptor is lost; queue registers,
interrupts, mailbox, levers, trace, test mode and injection return to reset; LAST reads 3 (R459, R461). -/
def flrState (s : State) : State :=
  let s := { s with host := hostReset s.host }
  let s := retainRequests (dropWork s)
  let s := s.fld.fields.foldl (fun s (e : Nat × Field) => abortField e.1 (statusCode .cancelled) s) s
  let s := endTest s
  { s with
    boot := { s.boot with last := 3, nonce := none }
    gov := leversReset s.gov
    faults := faultsLight s.faults
    testLinks := [], testMem := {}
    window := {}
    fld := { s.fld with floorMhz := [], parkRank := [] } }

end Sys2Proof.Machine
end

