-- ==== Sys2Proof/Machine/Governor.lean ====
section
/-!
DEFINITION. The governor (19): the cap in force, the levers and their release, lag episodes, and the thermal ladder.
-/

namespace Sys2Proof.Machine

/-! ### The cap in force (R396) -/

/-- Replace the governor's state. -/
def setGov (s : State) (g : Gov) : State := { s with gov := g }

/-- The requested manager cap: the last one accepted, or the lower of the two when both managers declare themselves active; 2,000 W at most
(R396, R400). -/
def managerCap (g : Gov) : Nat :=
  let last := if g.activeA && g.activeB then match g.capA, g.capB with
      | some a, some b => min a b
      | _, _ => g.capLast
    else g.capLast
  min last 2000

/-- The active caps with their SOURCE codes (R396, R414). -/
def activeCaps (g : Gov) : List (Nat × Nat) :=
  [(0, managerCap g)] ++ (if g.orphan then [(1, g.orphanCap)] else []) ++ (if g.inputCap then [(2, 700)] else [])
    ++ (if g.flowCap then [(3, 700)] else []) ++ (match g.thermalCap with | some c => [(4, c)] | none => [])

/-- The smallest active cap, before its clamp, with its source; of equal ones the lowest code (log 52). -/
def smallestCap (g : Gov) : Nat × Nat :=
  (activeCaps g).foldl (fun (m : Nat × Nat) (e : Nat × Nat) => if e.2 < m.2 then e else m) (0, managerCap g)

/-- The effective cap C (R396). -/
def effectiveCap (g : Gov) : Nat := max 700 (smallestCap g).2

/-- The manager cap is below 700 W (R407, R414 CLAMPED). -/
def capClamped (g : Gov) : Bool := decide (managerCap g < 700)

/-- Note a lowering of C (R397, R398): it ends a running peak. -/
def noteLowering (before : Nat) (s : State) : State :=
  if effectiveCap s.gov < before then
    setGov s { s.gov with sinceLower := 0, peak := none, sincePeak := if s.gov.peak.isSome then 0 else s.gov.sincePeak }
  else s

/-- Change the governor's conditions and note whether C went down. -/
def changeCaps (g : Gov → Gov) (s : State) : State := noteLowering (effectiveCap s.gov) (setGov s (g s.gov))

/-! ### The levers (R403 to R405) -/

/-- The governor's policy runs: control-core pair 1 runs the firmware (R435, R457). -/
def governs (s : State) : Bool := s.boot.stage == .ready && s.entry.main && !s.boot.warmBusy

/-- The target at which every island is at its floor: lever 1's limit (R403). -/
def targetLimit (s : State) : Nat :=
  if s.gov.inputCap then 600
  else [0, 1, 2, 3].foldl (fun m b => match fieldOfBand s b with
    | some f => min m (max 600 (floorOf s f))
    | none => min m 600) 1750

/-- Set lever 1's target: a recorded actuation (R12, R21, R403). -/
def setTarget (mhz : Nat) (s : State) : State :=
  if s.gov.targetMhz = mhz then s else actuate (BitVec.ofNat 64 (1 + 256 * mhz)) (setGov s { s.gov with targetMhz := mhz })

/-- Ask for or lift lever 2, which acts at each field's next step boundary (R403). -/
def askPause (on : Bool) (s : State) : State :=
  if s.gov.pauseAsked = on then s else actuate (BitVec.ofNat 64 (2 + 256 * b2n on)) (setGov s { s.gov with pauseAsked := on })

/-- What lever 3 does at the step boundaries from now on (R403, R405). -/
def setBatchMove (m : BatchMove) (s : State) : State :=
  if s.gov.batchMove = m then s
  else actuate (BitVec.ofNat 64 (3 + 256 * (match m with | .hold => 0 | .halve => 1 | .double => 2))) (setGov s { s.gov with batchMove := m })

/-- Put a field into the park order: lower RANK first, then higher number first (R403, R413). -/
def insertRank (s : State) (f : Nat) : List Nat → List Nat
  | [] => [f]
  | g :: l =>
    let rank := fun (x : Nat) => (tget (0 : BitVec 2) x s.fld.parkRank).toNat
    if rank f < rank g ∨ (rank f = rank g ∧ g < f) then f :: g :: l else g :: insertRank s f l

/-- Formed fields that the governor has not parked, in park order (R403). -/
def parkCandidates (s : State) : List Nat :=
  (s.fld.fields.filter fun (e : Nat × Field) => !s.gov.parked.getLsbD e.1).foldl (fun l (e : Nat × Field) => insertRank s e.1 l) []

/-- Park a field in place: its active sections drain, and dispatches to it are held (R14, R117, R119, R403). -/
def parkField (power f : Nat) (s : State) : State :=
  if s.gov.parked.getLsbD f then s
  else
    let s := setGov s { s.gov with parked := setBit s.gov.parked f true, parkOrder := s.gov.parkOrder ++ [(f, power)] }
    let s := recordEvent 3 (BitVec.ofNat 64 f) s
    match (fieldAt s f).bind fun fl => fl.seq.find? fun x => x.phase == .dispatched && activeIn s fl x.id with
    | some x => startDrain f x.id .governor false s
    | none => s

/-- The fields, in park order, whose power covers the excess (R404). -/
def coverExcess (watts : List Nat) : List Nat → Nat → List Nat
  | [], _ => []
  | f :: l, excess => if excess = 0 then [] else f :: coverExcess watts l (excess - watts.getD f 0)

/-- Park the fields that cover the excess: in one control cycle, so their events are numbered by rising field; the park order is that of R403
(R21, R403, R404). -/
def parkExcess (watts : List Nat) (l : List Nat) (excess : Nat) (s : State) : State :=
  let chosen := coverExcess watts l excess
  let order := s.gov.parkOrder
  let s := (sortN chosen).foldl (fun s f => parkField (watts.getD f 0) f s) s
  setGov s { s.gov with parkOrder := order ++ chosen.map fun f => (f, watts.getD f 0) }

/-- A field unparks: the sections that its park holds go on (R121, R405). -/
def unparkField (f : Nat) (s : State) : State :=
  let s := setGov s { s.gov with parked := setBit s.gov.parked f false, parkOrder := s.gov.parkOrder.filter fun (e : Nat × Nat) => e.1 != f }
  resumeDrained f (fun x => x.why == some .governor) (recordEvent 4 (BitVec.ofNat 64 f) s)

/-- The check after a lowering of C (R404): with an excess, lever 1 stands at its limit, levers 2 and 3 are applied, and fields park at once. -/
def execGovernorCheck (watts : Nat) (fieldWatts : List Nat) (s : State) : Host.Outcome State Fault Refusal :=
  .next (
    let c := effectiveCap s.gov
    if !governs s || decide (watts ≤ c) then s
    else
      let s := setBatchMove .halve (askPause true (setTarget (targetLimit s) s))
      parkExcess fieldWatts (parkCandidates s) (watts - c) s)

/-- The field that unparks next: the last of the park order that no hot sensor holds (R405, R411, R415; log 53). -/
def nextUnpark (g : Gov) : Option (Nat × Nat) := g.parkOrder.reverse.find? fun (e : Nat × Nat) => !g.thermalParked.getLsbD e.1

/-- The headroom has lasted 10 ms: the next field unparks when it covers 105 % of that field's pre-park power (R405). -/
def execGovernorUnpark (headroom : Nat) (s : State) : Host.Outcome State Fault Refusal :=
  .next (match nextUnpark s.gov with
    | some (f, power) => if governs s && decide (105 * power ≤ 100 * headroom) then unparkField f s else s
    | none => s)

/-! ### P100 (R397, R398, R403, R405) -/

/-- P100 may stand above C in this window: it belongs to a permitted peak (R397). -/
def peakAllowed (g : Gov) (watts : Nat) : Bool :=
  decide (watts ≤ min 2400 (effectiveCap g + 400)) && match g.peak with
    | some n => decide (n < 100)
    | none => decide (1000 ≤ g.sincePeak) && decide (1000 ≤ g.sinceLower)

/-- Count a window into the peak record (R397). -/
def countWindow (watts : Nat) (g : Gov) : Gov :=
  let g := { g with p100 := watts, sinceLower := min 1000 (g.sinceLower + 1) }
  if decide (effectiveCap g < watts) && peakAllowed g watts then { g with peak := some (g.peak.getD 0 + 1) }
  else { g with peak := none, sincePeak := if g.peak.isSome then 0 else min 1000 (g.sincePeak + 1) }

/-- Steps of 25 MHz that the governor takes at once: at least one; the manual gives no number (log 51). -/
def freeSteps (s : State) : Nat × State :=
  (1 + (Config.freeWord s.fresh).toNat % 46, { s with fresh := s.fresh + 1 })

/-- No field with a step at work still has a decode-batch limit above 1: lever 3 is at its limit (R403). -/
def batchAtLimit (s : State) : Bool := s.fld.fields.all fun (e : Nat × Field) => e.2.step.isNone || tget 0 e.1 s.gov.batch == 1

/-- A sustained excess: the next lever, in order 1 to 4 (R404). -/
def tightenLever (s : State) : State :=
  if targetLimit s < s.gov.targetMhz then
    let (n, s) := freeSteps s
    setTarget (max (targetLimit s) (s.gov.targetMhz - 25 * n)) s
  else if !s.gov.pauseAsked then askPause true s
  else if !batchAtLimit s then setBatchMove .halve s
  else match parkCandidates s with
    | f :: _ => parkField (Config.freeWord s.fresh).toNat f { s with fresh := s.fresh + 1 }
    | [] => s

/-- A release, in order 4 to 1; parked fields unpark first, each by its own check (R405). -/
def releaseLever (s : State) : State :=
  if s.gov.parkOrder ≠ [] then setBatchMove .hold s
  else if s.gov.batch ≠ [] then setBatchMove .double s
  else if s.gov.pauseAsked then askPause false (setBatchMove .hold s)
  else if s.gov.targetMhz < 1750 then
    let (n, s) := freeSteps s
    setTarget (min 1750 (s.gov.targetMhz + 25 * n)) (setBatchMove .hold s)
  else setBatchMove .hold s

/-- The governor reads the input: below 50 V its cap is active, and where it was not, lever 1 stands at 600 MHz at once (R396, R398). -/
def inputStep (mv : BitVec 16) (s : State) : State :=
  let s := { s with entry := { s.entry with inputMv := mv } }
  if mv.toNat < 50000 ∧ s.gov.inputCap = false then
    let s := changeCaps (fun g => { g with inputCap := true }) s
    if s.entry.main then setTarget 600 s else s
  else s

/-- The governor takes a new P100 and the input, and moves or releases its levers against C (R396 to R398, R403 to R405). -/
def execP100Window (watts : Nat) (mv : BitVec 16) (s : State) : Host.Outcome State Fault Refusal :=
  .next (
    if !s.entry.aux then s
    else
      let s := inputStep mv s
      let s := setGov s { countWindow watts s.gov with inputLow := decide (44000 ≤ mv.toNat ∧ mv.toNat < 50000) }
      let c := effectiveCap s.gov
      if !governs s || s.gov.peak.isSome then s
      else if c < watts then tightenLever s
      else if watts < c then releaseLever s
      else setBatchMove .hold s)

/-! ### CAP_LAG (R407) -/

/-- Metered energy above the requested cap since the episode's start, mWh, rounded down (R407; log 54). -/
def lagEnergy (s : State) : Nat :=
  let w := if capClamped s.gov then managerCap s.gov else effectiveCap s.gov
  ((s.window.cum - s.gov.lagStart.1) * 3600000 - w * (s.tick - s.gov.lagStart.2)) / 3600000

/-- An informational CAP_LAG entry (R274, R278). -/
def lagEntry (energy cap : Nat) : Completion :=
  { status := statusCode .capLag, seq := 0, mark := 0, result0 := BitVec.ofNat 64 energy, result1 := BitVec.ofNat 32 cap, opcode := 0xFF, tag := 0,
    irqNow := false, info := true }

/-- Report CAP_LAG: a message on both buses and an entry on every queue with INFO_EN (R278, R407). -/
def reportLag (s : State) : State :=
  let e := lagEnergy s
  let c := effectiveCap s.gov
  let m := fun (b : Bus) => ({ bus := b, command := 0x82, value := 0, extra := leBytes 8 e ++ leBytes 2 c ++ zeros 2 } : MctpMsg)
  let s := mctpSend (m .b) (mctpSend (m .a) s)
  ((s.host.queues.filter fun (x : Nat × Queue) => x.2.enable && x.2.infoEn).map (·.1)).foldl (fun s q => post q (lagEntry e c) s) s

/-- A lag episode begins: P100 above C outside a peak from 200 µs after the last lowering, or a clamped manager cap (R407). -/
def execLagEpisodeStart (s : State) : Host.Outcome State Fault Refusal :=
  .next (
    let excess := decide (effectiveCap s.gov < s.gov.p100) && s.gov.peak.isNone && decide (2 ≤ s.gov.sinceLower)
    if s.gov.lag || !mgmtOn s || !(excess || capClamped s.gov) then s
    else reportLag (setGov s { s.gov with lag := true, lagStart := (s.window.cum, s.tick) }))

/-- The report of each second of an episode (R407). -/
def execLagReport (s : State) : Host.Outcome State Fault Refusal := .next (if s.gov.lag && mgmtOn s then reportLag s else s)

/-- P100 has stayed at or below C for 1 ms, and the cap is not clamped: the episode ends with a report (R407). -/
def execLagEpisodeEnd (s : State) : Host.Outcome State Fault Refusal :=
  .next (
    if !s.gov.lag || !mgmtOn s || capClamped s.gov || decide (effectiveCap s.gov < s.gov.p100) then s
    else let s := reportLag s; setGov s { s.gov with lag := false })

/-! ### The thermal ladder (R411) -/

/-- The band whose dies and stacks an island's sensor stands for; none for the hub die (R17, R411). -/
def sensorBand (island : Nat) : Option Nat :=
  if island < 16 then some (island / 4)
  else if 0x20 ≤ island ∧ island < 0x40 then some (island % 16 / 4)
  else none

/-- THERM.STATUS.HOT_ISLAND of a sensor: the hub die reads 0xFF (R414). -/
def hotIslandOf (island : BitVec 8) : BitVec 8 := if (sensorBand island.toNat).isSome then island else 0xFF

/-- A junction at 95 °C or above: the thermal cap becomes P100 less 50 W, 700 W at least (R411). -/
def execThermalHot (island : BitVec 8) (celsius : Nat) (s : State) : Host.Outcome State Fault Refusal :=
  .next (
    if !governs s then s
    else
      let s := setGov s { s.gov with maxC := celsius, hotIsland := hotIslandOf island }
      if celsius < 95 ∨ s.gov.thermalCap.isSome = true then s
      else changeCaps (fun g => { g with thermalCap := some (min 2000 (max 700 (g.p100 - 50))) }) s)

/-- A step of the thermal cap: 50 W down while hot, 10 W up below 92 °C until it is removed at 2,000 W (R411). -/
def execThermalCapStep (celsius : Nat) (s : State) : Host.Outcome State Fault Refusal :=
  .next (
    if !governs s then s
    else
      let s := setGov s { s.gov with maxC := celsius }
      match s.gov.thermalCap with
      | none => s
      | some c =>
        if 95 ≤ celsius then changeCaps (fun g => { g with thermalCap := some (max 700 (c - 50)) }) s
        else if celsius < 92 then changeCaps (fun g => { g with thermalCap := if 2000 ≤ c + 10 then none else some (c + 10) }) s
        else s)

/-- Fields that a sensor parks: its band's field, or every one for the hub die (R411). -/
def sensorFields (s : State) (island : Nat) : List Nat := match sensorBand island with
  | some b => match fieldOfBand s b with
    | some f => [f]
    | none => []
  | none => s.fld.fields.map (·.1)

/-- A junction at 105 °C for 1 ms: its field parks by lever 4, which tells the managers; its pre-park power is not given (R403, R411, R414; log 53). -/
def execThermalPark (island : BitVec 8) (s : State) : Host.Outcome State Fault Refusal :=
  .next (
    if !governs s then s
    else
      let s := (sensorFields s island.toNat).foldl (fun s f =>
        let s := setGov s { s.gov with thermalParked := setBit s.gov.thermalParked f true }
        parkField (Config.freeWord s.fresh).toNat f { s with fresh := s.fresh + 1 }) s
      powerEvent 5 s)

/-- The sensor has been below 100 °C for 1 s: the field may unpark under R405 (R411, R415). -/
def execThermalUnpark (f : FieldId) (s : State) : Host.Outcome State Fault Refusal :=
  .next (if governs s then setGov s { s.gov with thermalParked := setBit s.gov.thermalParked f.val false } else s)

/-! ### Island clocks (R17, R20, R462, R463) -/

/-- The field of an array island is asleep, or parked with its drain ended (R462). -/
def islandHeld (s : State) (b : Nat) : Bool := match fieldOfBand s b with
  | none => false
  | some f => match fieldAt s f with
    | none => false
    | some fl => fl.asleep || (fieldParked s f && !fl.seq.any fun x => x.phase == .draining || x.phase == .settled)

/-- The cycles of an island in one control tick, 1 µs: its clock in MHz while it runs (R17, R20; log 65). -/
def cyclesPerTick (s : State) (i : Nat) : Nat :=
  if i = 0x12 then (if s.entry.aux then 400 else 0)
  else if !s.entry.main || s.entry.perst then 0
  else if i < 0x10 then (if s.host.d3hot || s.fld.stopped.getLsbD i || islandHeld s (i / 4) then 0 else tget 1750 i s.gov.clock)
  else if i = 0x10 then 1500
  else if i = 0x11 then (if s.host.d3hot then 0 else 2000)
  else if i = 0x13 then 1000
  else if 0x18 ≤ i ∧ i < 0x1E then 1600
  else if 0x20 ≤ i ∧ i < 0x30 then (if s.host.d3hot then 0 else 2000)
  else if 0x30 ≤ i ∧ i < 0x40 then 1000
  else if 0x40 ≤ i ∧ i < 0x50 then 1600
  else 0

/-! ### The mirror registers (R414) -/

/-- PWR.CAP. -/
def regCap (g : Gov) : Nat :=
  effectiveCap g + 4096 * managerCap g + 0x1000000 * (smallestCap g).1 + 0x8000000 * b2n g.orphan + 0x10000000 * b2n g.lag + 0x20000000 * b2n (capClamped g)

/-- PWR.MGR. -/
def regMgr (s : State) : Nat :=
  s.gov.orphanCap + 4096 * min 4095 ((s.tick - s.gov.heardAt) / 1000000) + 0x1000000 * b2n s.gov.activeA + 0x2000000 * b2n s.gov.activeB

/-- PWR.INPUT. -/
def regInput (s : State) : Nat := s.entry.inputMv.toNat + 65536 * min 4095 s.gov.p100

/-- PWR.LEVERS. -/
def regLevers (g : Gov) : Nat := g.targetMhz + 2048 * b2n g.promptPause + 4096 * g.parked.toNat

/-- PWR.BATCH_f. -/
def regBatch (g : Gov) (f : Nat) : Nat := tget 0 f g.batch

/-- THERM.STATUS. -/
def regTherm (s : State) : Nat :=
  min 255 s.gov.maxC + 256 * s.gov.hotIsland.toNat + 65536 * min 255 s.gov.inletC
    + 0x1000000 * (if s.gov.thermalParked ≠ 0 then 2 else if s.gov.thermalCap.isSome then 1 else 0) + 0x4000000 * b2n s.entry.flowOk

/-- The nine mirror registers in address order. -/
def mirrorRegs (s : State) : List Nat :=
  [regCap s.gov, regMgr s, regInput s, regLevers s.gov, regBatch s.gov 0, regBatch s.gov 1, regBatch s.gov 2, regBatch s.gov 3, regTherm s]

end Sys2Proof.Machine
end

