-- ==== Sys2Proof/Machine/Managers.lean ====
section
/-!
DEFINITION. Meanings of the rack managers' power messages and of the power conditions that the management controller reports (19, 20).
-/

namespace Sys2Proof.Machine

/-- A report to both managers for which the manual gives no message: its COMMAND and VALUE are free (log 55). -/
def mgmtReport (s : State) : State :=
  let w := (Config.freeWord s.fresh).toNat
  let m := fun (b : Bus) => ({ bus := b, command := BitVec.ofNat 8 w, value := BitVec.ofNat 16 (w / 256), extra := [] } : MctpMsg)
  mctpSend (m .b) (mctpSend (m .a) { s with fresh := s.fresh + 1 })

/-- A manager is heard: the orphan cap becomes inactive (R401). -/
def heard (b : Bus) (g : Gov) (tick : Nat) : Gov :=
  match b with
  | .a => { g with heardA := true, heardAt := tick, orphan := false }
  | .b => { g with heardB := true, heardAt := tick, orphan := false }

/-- The manager on a bus declared itself active (R400). -/
def isActive (g : Gov) (b : Bus) : Bool := match b with
  | .a => g.activeA
  | .b => g.activeB

/-- Take a power message: its manager is heard and its effect on the caps follows (R397, R401). -/
def takeMessage (b : Bus) (g : Gov → Gov) (s : State) : State := changeCaps (fun x => g (heard b x s.tick)) s

/-- HEARTBEAT with its ROLE (R400, R402). -/
def execHeartbeat (bus : Bus) (active : Bool) (s : State) : Host.Outcome State Fault Refusal :=
  .next (
    if !mgmtOn s then s
    else
      let role := fun (g : Gov) => match bus with
        | .a => { g with activeA := active }
        | .b => { g with activeB := active }
      mctpRespond bus .ok [] (takeMessage bus role s))

/-- SET_CAP: a cap in 10 W units, from an active manager only (R396, R400). -/
def execSetCap (bus : Bus) (value : BitVec 16) (s : State) : Host.Outcome State Fault Refusal :=
  .next (
    if !mgmtOn s then s
    else if !isActive s.gov bus then mctpRespond bus .countMismatch [] (takeMessage bus id s)
    else
      let w := 10 * value.toNat
      let cap := fun (g : Gov) => match bus with
        | .a => { g with capA := some w, capLast := w }
        | .b => { g with capB := some w, capLast := w }
      mctpRespond bus .ok [] (takeMessage bus cap s))

/-- SET_ORPHAN_CAP: 700 to 2,000 W in 10 W units, from an active manager only (R400). -/
def execSetOrphanCap (bus : Bus) (value : BitVec 16) (s : State) : Host.Outcome State Fault Refusal :=
  .next (
    if !mgmtOn s then s
    else if !isActive s.gov bus || decide (value.toNat < 70 ∨ 200 < value.toNat) then mctpRespond bus .countMismatch [] (takeMessage bus id s)
    else mctpRespond bus .ok [] (takeMessage bus (fun g => { g with orphanCap := 10 * value.toNat }) s))

/-- GET_STATUS: the nine mirror registers in bytes 16 to 51 of the RESPONSE (R400, R414). -/
def execGetStatus (bus : Bus) (s : State) : Host.Outcome State Fault Refusal :=
  .next (
    if !mgmtOn s then s
    else
      let s := takeMessage bus id s
      mctpRespond bus .ok (zeros 12 ++ (mirrorRegs s).flatMap (leBytes 4)) s)

/-- METER_MARK: passed unchanged to the meter and answered OK on delivery (R422, R423). -/
def execMeterMark (bus : Bus) (m : TimeMark) (s : State) : Host.Outcome State Fault Refusal :=
  .next (if !mgmtOn s then s else mctpRespond bus .ok [] (acceptMark m (takeMessage bus id s)))

/-- Neither manager has been heard for 30,000,000 control ticks: the orphan cap becomes active and is reported (R401). -/
def execManagersSilent (s : State) : Host.Outcome State Fault Refusal :=
  .next (
    if !mgmtOn s || s.gov.orphan || decide (s.tick < s.gov.heardAt + 30000000) then s
    else powerEvent 2 (changeCaps (fun g => { g with orphan := true }) s))

/-- FLOW_OK is low while the main domain is on or PWR_EN asks for it (R35, R411). -/
def flowMissing (s : State) : Bool := !s.entry.flowOk && (s.entry.main || s.entry.pwrEn)

/-- Once per second, each open power condition is repeated to both managers (R31, R401, R408, R411, R493). -/
def execPeriodicPowerReport (s : State) : Host.Outcome State Fault Refusal :=
  .next (
    if !mgmtOn s then s
    else
      let s := if s.gov.inputLow then powerEvent 1 s else s
      let s := if s.gov.orphan then powerEvent 2 s else s
      let s := if flowMissing s then powerEvent 3 s else s
      let s := if 45 < s.gov.inletC then powerEvent 4 s else s
      if 59000 < s.entry.inputMv.toNat ∧ s.entry.inputMv.toNat ≤ 62000 then mgmtReport s else s)

/-- A rack manager assigns the I3C dynamic address of a bus (R29). -/
def execDynamicAddressAssignment (bus : Bus) (addr : BitVec 7) (s : State) : Host.Outcome State Fault Refusal :=
  .next (
    if !mgmtOn s then s
    else match bus with
      | .a => setGov s { s.gov with addrA := some addr }
      | .b => setGov s { s.gov with addrB := some addr })

end Sys2Proof.Machine
end

