-- ==== Sys2Proof/Machine/Entry.lean ====
section
/-!
DEFINITION. Meanings of the events of power entry, removal, coolant and input (02), and of input collapse and the hardware trip (19).
-/

namespace Sys2Proof.Machine

/-- Replace the pins and power state. -/
def setEntry (s : State) (e : Entry) : State := { s with entry := e }

/-! ### The endurance region (R447, R492) -/

/-- The endurance counters in the order of R492. -/
def enduranceList (t : Store) : List Nat :=
  [t.hours, t.thermalCycles, t.powerUps] ++ (List.range 4).map (fun b => tget 0 b t.pairsEver) ++ [t.spareEver.toNat]
    ++ (List.range 16).map (fun k => tget 0 k t.rowsRepaired) ++ (List.range 16).map fun k => tget 0 k t.devsEver

/-- The management controller writes the endurance region (R447). -/
def writeEndurance (s : State) : State := { s with store := { s.store with enduranceWritten := some (enduranceList s.store) } }

/-! ### The main domain (R26, R37, R40) -/

/-- The main rails go off: the main domain's state is lost; the history outlasts it in the management controller (R40, R455, R471). -/
def railsOff (s : State) : State :=
  let t := coldState s
  { t with faults := s.faults, entry := { s.entry with main := false, pwrGood := false, alive := false, aliveSeen := false } }

/-- Insertion step 6: the input switch closes and the main rails come on, which is a cold reset; the first one after power-on leaves LAST at 0
(R37, R455, R465, R492; log 56). -/
def railsOn (s : State) : State :=
  let t := coldState s
  { t with
    boot := { t.boot with last := s.boot.last }
    store := { t.store with powerUps := t.store.powerUps + 1 }
    entry := { s.entry with main := true, pwrGood := true, inputSwitch := true, removeLow := true, aliveSeen := false, pwrEnHeld := false } }

/-- PWR_EN is high and nothing holds the main domain off (R26, R32, R35, R38, R43, R412). -/
def mayPower (e : Entry) : Bool :=
  e.pwrEn && e.aux && e.precharge == .done && e.flowOk && !e.inputFault && !e.tripLatch && !e.removeLow && !e.removeHold && !e.main

/-- Act on PWR_EN, or hold it (R35, R38, R43); a low FLOW_OK is reported (R35). -/
def actOnPwrEn (s : State) : State :=
  if mayPower s.entry then railsOn s
  else if s.entry.main || s.entry.inputFault || s.entry.tripLatch then s
  else
    let s := setEntry s { s.entry with pwrEnHeld := true }
    if s.entry.aux && !s.entry.flowOk then powerEvent 3 s else s

/-! ### Insertion (R32, R36 to R38) -/

/-- P56V reaches the blades, and PRESENT_N with it: the limiter charges the bulk node; a precharge fault stays latched until P56V has been absent
1 s (R28, R32, R36). A new contact also clears the latched input fault, although PWR_EN may have stayed high (DESIGN CHOICE, log 155). -/
def execP56vContact (s : State) : Host.Outcome State Fault Refusal :=
  .next (
    let e := { s.entry with presentLow := true }
    if e.p56v ∧ e.precharge ≠ .absent then setEntry s e
    else if e.precharge = .faulted ∧ s.tick < e.absentAt + 1000000 then setEntry s { e with p56v := true, belowAux := false }
    else setEntry s { e with
      p56v := true, belowAux := false, precharge := .charging, aux := false, inputSwitch := false, inputFault := false, inputLoss := .none })

/-- The bulk node stands at 44 V or above after precharge: the auxiliary domain comes up, a power-on reset; a held PWR_EN is acted on
(R26, R37, R38, R455). -/
def auxUp (s : State) : State :=
  let s := powerOnState s
  let s := setEntry s { s.entry with aux := true, removeLow := false, removeHold := false }
  if s.entry.pwrEn then actOnPwrEn s else s

/-- The input stands at 44 V or above again: a bulk node that has been precharged follows it through the limiter, and the auxiliary domain comes back
(R26, R31; the manual names no event for it: DESIGN CHOICE, log 155). -/
def inputAboveAux (s : State) : State :=
  if s.entry.belowAux then
    let s := setEntry s { s.entry with belowAux := false }
    if s.entry.precharge = .done ∧ s.entry.aux = false then auxUp s else s
  else s

/-- The bulk node is within 2 V of the input: precharge has succeeded, and the auxiliary domain comes up when the node is at 44 V or above
(R26, R32, R37). -/
def execPrechargeComplete (s : State) : Host.Outcome State Fault Refusal :=
  .next (
    if s.entry.precharge ≠ .charging then s
    else
      let s := setEntry s { s.entry with precharge := .done }
      if s.entry.belowAux then s else auxUp s)

/-- The limiter opens and the precharge fault latches; the auxiliary domain reports it if the bulk node reached 44 V (R32, R43). -/
def latchPrecharge (reached44 : Bool) (s : State) : State :=
  let s := setEntry s { s.entry with precharge := .faulted }
  if reached44 then
    let s := powerOnState s
    mgmtReport (setEntry s { s.entry with aux := true })
  else s

/-- Precharge has not succeeded within 100 ms (R32). -/
def execPrechargeTimeout (reached44 : Bool) (s : State) : Host.Outcome State Fault Refusal :=
  .next (if s.entry.precharge ≠ .charging then s else latchPrecharge reached44 s)

/-- PWR_EN rises (R37, R38); a trip stays latched unless PWR_EN has been low for 1 s (R412). -/
def execPwrEnRise (s : State) : Host.Outcome State Fault Refusal :=
  .next (
    if s.entry.pwrEn then s
    else
      let low := decide (s.entry.pwrEnLowAt + 1000000 ≤ s.tick)
      actOnPwrEn (setEntry s { s.entry with pwrEn := true, tripLatch := s.entry.tripLatch && !low }))

/-- A PWR_EN reasserted before REMOVE_OK was released is acted on 10 ms after the release (R43). -/
def execPwrEnHoldExpiry (s : State) : Host.Outcome State Fault Refusal :=
  .next (
    if s.entry.removeHold then
      let s := setEntry s { s.entry with removeHold := false }
      if s.entry.pwrEn then actOnPwrEn s else s
    else s)

/-! ### Removal (R40, R43) -/

/-- PWR_EN falls: removal step 6 (R40, R43, R409, R462). -/
def execPwrEnFall (s : State) : Host.Outcome State Fault Refusal :=
  .next (
    if !s.entry.pwrEn then s
    else
      let s := setEntry s { s.entry with pwrEn := false, pwrEnHeld := false, pwrEnLowAt := s.tick, inputFault := false, inputLoss := .none }
      let s := if s.entry.main then railsOff (writeEndurance s) else s
      setEntry s { s.entry with inputSwitch := false })

/-- The input current is no more than 0.5 A: REMOVE_OK is released (R40); a PWR_EN that is high again waits 10 ms more (R43). -/
def execRemoveOkRelease (s : State) : Host.Outcome State Fault Refusal :=
  .next (
    if s.entry.main || s.entry.inputSwitch || !s.entry.removeLow then s
    else setEntry s { s.entry with removeLow := false, removeHold := s.entry.pwrEnHeld })

/-- ATTN_N has been low for 10 ms: the host, while the main domain is on, and both managers hear of it (R40, R43, R509). -/
def execAttnN (s : State) : Host.Outcome State Fault Refusal :=
  .next (
    let s := if s.entry.main then raiseVector 1026 (setHost s { s.host with causeRemoval := true }) else s
    if mgmtOn s then mgmtReport s else s)

/-! ### Coolant (R35, R396) -/

/-- FLOW_OK falls: the flow cap at once, and a report (R35, R396, R411). -/
def execFlowOkFall (s : State) : Host.Outcome State Fault Refusal :=
  .next (
    let s := setEntry s { s.entry with flowOk := false }
    let s := if mgmtOn s then changeCaps (fun g => { g with flowCap := true }) s else s
    if mgmtOn s && flowMissing s then powerEvent 3 s else s)

/-- FLOW_OK rises: the flow cap stands for 1 s more, and a held power-up proceeds (R35, R396). -/
def execFlowOkRise (s : State) : Host.Outcome State Fault Refusal :=
  .next (
    let s := if mgmtOn s && !s.entry.flowOk then changeCaps (fun g => { g with flowCap := true }) s else s
    let s := setEntry s { s.entry with flowOk := true }
    if s.entry.pwrEn && !s.entry.main then actOnPwrEn s else s)

/-- One second after FLOW_OK rose the flow cap lifts (R396). -/
def execFlowCapLift (s : State) : Host.Outcome State Fault Refusal :=
  .next (if s.entry.flowOk then changeCaps (fun g => { g with flowCap := false }) s else s)

/-! ### The input (R31, R396, R398, R408 to R410) -/

/-- The input cap takes effect: below 50 V it is active, main domain on or off (R31, R396, R398). -/
def inputFloor (mv : BitVec 16) (s : State) : State :=
  changeCaps (fun g => { g with inputCap := true, inputLow := decide (44000 ≤ mv.toNat) }) s

/-- The input falls below 50 V: the input cap, lever 1 at 600 MHz on every island, the end of a peak, and a report (R31, R396, R398, R408, R415). -/
def execInputBelow50v (mv : BitVec 16) (s : State) : Host.Outcome State Fault Refusal :=
  .next (
    if 50000 ≤ mv.toNat then s
    else
      let s := inputFloor mv (setEntry s { s.entry with inputMv := mv })
      let s := setGov s { s.gov with peak := none, sincePeak := if s.gov.peak.isSome then 0 else s.gov.sincePeak }
      let s := if 44000 ≤ mv.toNat then inputAboveAux s else s
      let s := if s.entry.main then setTarget 600 s else s
      if mgmtOn s then powerEvent 1 s else s)

/-- Ten milliseconds after the input returned to 50.5 V the input cap lifts; FLOOR_MHZ applies again (R396, R398). -/
def execInputCapLift (s : State) : Host.Outcome State Fault Refusal :=
  .next (
    if s.entry.inputLoss ≠ .none ∨ s.entry.inputMv.toNat < 50500 then s
    else
      let s := changeCaps (fun g => { g with inputCap := false, inputLow := false }) s
      if clocksOf s = s.gov.clock then s else actuate (BitVec.ofNat 64 (1 + 256 * s.gov.targetMhz)) s)

/-- The module loses power at the blades with the main domain on and no ride-through: every domain but the meter is off (R43). -/
def withdrawn (s : State) : State :=
  let s := railsOff s
  setEntry s { s.entry with presentLow := false, aux := false, inputSwitch := false, precharge := .absent, removeLow := false, removeHold := false,
                            pwrEnHeld := false }

/-- The input falls below 44 V: with the main domain on, the switch opens and the bulk node carries the load (R409); an input that is gone from the
blades at this very crossing, below the 20 V of R420, is a withdrawal, which has no ride-through (R43; DESIGN CHOICE, log 156). With the main domain
off the bulk node follows and the auxiliary domain goes off, REMOVE_OK with it (R26, R28, R31); a precharge under way runs on, so that its 100 ms can
still end (R32). P56V counts as absent below 20 V (DESIGN CHOICE, log 156). -/
def execInputBelow44v (mv : BitVec 16) (s : State) : Host.Outcome State Fault Refusal :=
  .next (
    if 44000 ≤ mv.toNat then s
    else
      let here := decide (20000 ≤ mv.toNat)
      let s := setEntry s { s.entry with
        inputMv := mv, belowAux := true, p56v := s.entry.p56v && here, absentAt := if s.entry.p56v && !here then s.tick else s.entry.absentAt }
      let s := inputFloor mv s
      if s.entry.main then
        if s.entry.inputLoss ≠ .none then s
        else if here then setEntry s { s.entry with inputSwitch := false, inputLoss := .riding }
        else withdrawn s
      else
        let e := s.entry
        setEntry s { e with aux := false, inputSwitch := false, inputLoss := .none, removeLow := false, removeHold := false,
                            precharge := if e.precharge = .faulted ∨ here = true then e.precharge else .absent })

/-- The rails go off under a fatal event that only a cycle of PWR_EN ends (R409, R412, R474). -/
def fatalRailsOff (det island loc : Nat) (s : State) : State :=
  let s := fatalStart det island loc false true s
  if s.entry.main then railsOff s else s

/-- Step 3 of R409 and what follows: every field parks, the rails go off, the input-loss event is recorded and copied (R409). The
auxiliary domain runs on from the bulk node; a further fall below 44 V ends it (R26; log 57). -/
def execInputLossPark (s : State) : Host.Outcome State Fault Refusal :=
  .next (
    if s.entry.inputLoss ≠ .riding then s
    else
      let s := fatalRailsOff 0x12 0x12 1 (parkFields s)
      setEntry s { s.entry with inputLoss := .parked, inputFault := true })

/-- The input returns to 50 V or above: before step 3 of R409 the module recharges the bulk node and closes the switch (R410); with the main domain
off the bulk node follows it (R26, R31). -/
def execInputReturn (mv : BitVec 16) (s : State) : Host.Outcome State Fault Refusal :=
  .next (
    if mv.toNat < 50000 then s
    else
      let s := inputAboveAux (setGov (setEntry s { s.entry with inputMv := mv }) { s.gov with inputLow := false })
      if s.entry.inputLoss = .riding then setEntry s { s.entry with inputSwitch := true, inputLoss := .none } else s)

/-- The input has been above 62 V for 100 µs: the switch opens, the main domain goes off as under a fatal fault; during precharge the limiter
opens and the precharge fault latches as in R32, where the bulk node's level, which the manual does not give, is free (R31, R43, R468; log 155). -/
def execInputAbove62v (s : State) : Host.Outcome State Fault Refusal :=
  .next (
    if s.entry.precharge = .charging then latchPrecharge ((Config.freeWord s.fresh).toNat % 2 == 1) { s with fresh := s.fresh + 1 }
    else if !s.entry.aux then s
    else
      let s := fatalRailsOff 0x12 0x12 2 s
      setEntry s { s.entry with inputSwitch := false, inputFault := true })

/-- A comparator at 115 °C removes the main rails; the trip latches and is reported (R412, R414). -/
def execThermalTrip (island : BitVec 8) (s : State) : Host.Outcome State Fault Refusal :=
  .next (
    if !s.entry.main then s
    else
      let s := fatalRailsOff 0x13 (if (sensorBand island.toNat).isSome then island.toNat else 0x10) 0 s
      powerEvent 6 (setEntry s { s.entry with tripLatch := true }))

end Sys2Proof.Machine
end

