-- ==== Sys2Proof/Machine/Boot.lean ====
section
/-!
DEFINITION. Meanings of boot, download and bring-up (21), of the resets and of D3hot (22).
-/

namespace Sys2Proof.Machine

/-- Replace the boot state. -/
def setBoot (s : State) (b : Boot) : State := { s with boot := b }

/-- The mailbox code of DOWNLOAD (R439). -/
def downloadCode : Nat := 0x0001

/-! ### Checks of a bundle (R437 to R439) -/

/-- Parts of a list overlap. -/
def partsOverlap : List BundlePart → Bool
  | [] => false
  | p :: l => l.any (fun q => overlaps p.offset p.bytes q.offset q.bytes) || partsOverlap l

/-- A part of a type of R438 lies on 4 KiB, after the key list and before the signature block (R438; log 148). -/
def partPlaced (b : Bundle) (p : BundlePart) : Bool :=
  decide (1 ≤ p.type ∧ p.type ≤ 6) && aligned p.offset 4096 && p.bytes != 0 && decide (b.skeinKeysOff + 2048 * b.skeinKeys.length ≤ p.offset ∧ p.offset + p.bytes ≤ b.sigOff)

/-- The table and the key list have their counts and lie in the bundle on their boundaries (R437; log 148). -/
def tablesPlaced (b : Bundle) : Bool :=
  decide (1 ≤ b.parts.length ∧ b.parts.length ≤ 32 ∧ b.skeinKeys.length ≤ 16) &&
  aligned b.partOff 64 && aligned b.skeinKeysOff 64 && aligned b.sigOff 64 &&
    decide (2304 ≤ b.partOff ∧ b.partOff + 64 * b.parts.length ≤ b.skeinKeysOff ∧ b.skeinKeysOff + 2048 * b.skeinKeys.length ≤ b.sigOff
      ∧ b.bundleBytes = b.sigOff + Config.sigBytes)

/-- Exactly one BOOT part, of at most 16 MiB (R438). -/
def bootPartOk (b : Bundle) : Bool := match b.parts.filter fun p => p.type == 1 with
  | [p] => decide (p.bytes ≤ 16777216)
  | _ => false

/-- Check 1 of R439; `host`: the block came by DOWNLOAD and carries an address. -/
def bundleForm (host : Bool) (b : Bundle) : Bool :=
  decide (b.blockBytes ≠ 0 ∧ b.blockBytes ≤ Config.maxBundle) && (!host || aligned b.blockAddr.toNat 4096) && b.magic == 0x4C444E42 && b.format == 1
    && b.headerBytes == 256 && b.blockBytes == b.bundleBytes && tablesPlaced b && decide (b.floor ≤ b.version) && !b.revoke.getLsbD b.keySlot.val
    && bootPartOk b && b.parts.all (partPlaced b) && !partsOverlap b.parts

/-- Check 2 of R439. -/
def bundleSigned (t : Store) (b : Bundle) : Bool := b.keyHash == Config.romKeyHash b.keySlot && !t.revoked.getLsbD b.keySlot.val && b.sig.ed && b.sig.ml

/-- The BOOT part's digest is right: check 6 of R439. -/
def bootDigestOk (b : Bundle) : Bool := b.parts.all fun p => p.type != 1 || p.found == p.digest

/-- The first of checks 1 to 6 that a bundle fails: status and REASON (R439, R448). -/
def checkBundle (s : State) (host : Bool) (b : Bundle) : Option (Status × Nat) :=
  if !bundleForm host b then some (.badAlignment, 1)
  else if !bundleSigned s.store b then some (.signatureFail, 2)
  else if !s.store.floorValid then some (.signatureFail, 11)
  else if b.version < s.store.floor then some (.signatureFail, 3)
  else if b.tableHash ≠ b.tableDigest then some (.digestFail, 4)
  else if b.steppings.getLsbD Config.stepping.val = false then some (.profileMismatch, 5)
  else if !bootDigestOk b then some (.digestFail, 6)
  else none

/-! ### The end of a download (R435, R439, R442) -/

/-- FW_RESULT to a manager (R442, R453). -/
def fwResult (b : Bus) (st : Status) (reason : Nat) (s : State) : State :=
  mctpSend { bus := b, command := 0x82, value := statusCode st, extra := leBytes 1 reason, cls := 2 } s

/-- FW_READ to a manager: the next bytes, 1,024 at most (R442, R453). -/
def fwRead (b : Bus) (off total : Nat) (s : State) : State :=
  mctpSend { bus := b, command := 0x81, value := 0, extra := leBytes 4 off ++ leBytes 2 (min 1024 (total - off)), cls := 2 } s

/-- The outcome of a download goes to its source, with REASON in BOOT.STATUS after a failure (R439, R442). -/
def endDownload (src : FwSource) (st : Status) (reason : Nat) (s : State) : State :=
  let s := setBoot s { s.boot with download := none, received := [], reason := if reason = 0 then s.boot.reason else reason }
  match src with
  | .host => if s.host.mboxRun = some .download then mboxEnd downloadCode st [] s else s
  | .bus b _ _ => fwResult b st reason s

/-- A whole bundle is checked; after check 6 the BOOT part runs and bring-up begins (R435, R439). -/
def takeBundle (src : FwSource) (b : Bundle) (s : State) : State :=
  match checkBundle s (src == .host) b with
  | some (st, r) => endDownload src st r (setBoot s { s.boot with stage := .await })
  | none => setBoot s { s.boot with stage := .bringup, bundle := some b, download := some src, received := [] }

/-- DOWNLOAD (R435, R439, R443, R446). -/
def execDownload (b : BundleRead) (s : State) : Host.Outcome State Fault Refusal :=
  .next (
    if !barOpen s || s.host.mboxRun.isSome then s
    else if s.boot.stage = .noIdentity then mboxEnd downloadCode .signatureFail [] (setBoot s { s.boot with reason := 10 })
    else if s.boot.stage ≠ .await ∨ s.boot.download.isSome = true then mboxEnd downloadCode .countMismatch [] s
    else takeBundle .host (parseBundle (hostBytes b.bytes) b.blockAddr b.blockBytes b.found) (setHost s { s.host with mboxRun := some .download }))

/-- FW_OFFER: the boot ROM pulls the bundle from the manager (R442, R443, R446). -/
def execFwOffer (bus : Bus) (bytes : BitVec 32) (s : State) : Host.Outcome State Fault Refusal :=
  .next (
    if !mgmtOn s then s
    else if s.boot.stage = .noIdentity then fwResult bus .signatureFail 10 (setBoot s { s.boot with reason := 10 })
    else if s.boot.stage ≠ .await ∨ s.boot.download.isSome = true ∨ s.entry.main = false then fwResult bus .countMismatch 0 s
    else if bytes = 0 ∨ Config.maxBundle < bytes.toNat then fwResult bus .badAlignment 1 (setBoot s { s.boot with reason := 1 })
    else fwRead bus 0 bytes.toNat (setBoot s { s.boot with stage := .verify, download := some (.bus bus bytes.toNat 0), received := [] }))

/-- FW_DATA: the bytes last asked for; the last of them completes the bundle, whose checks follow (R442; log 58). -/
def execFwData (bus : Bus) (offset : BitVec 32) (data : List Byte) (found : Option BundleFound) (s : State) : Host.Outcome State Fault Refusal :=
  .next (
    match s.boot.download with
    | some (.bus b n got) =>
      if !mgmtOn s || b != bus || offset.toNat != got || decide (data = [] ∨ min 1024 (n - got) < data.length ∨ n ≤ got) then s
      else
        let got := got + data.length
        let s := setBoot s { s.boot with download := some (.bus b n got), received := s.boot.received ++ data }
        if got < n then fwRead b got n s
        else match found with
          | some x => takeBundle (.bus b n got) (parseBundle (byteAt s.boot.received) 0 n x) s
          | none => s
    | _ => s)

/-- A manager has been silent for 100 ms during FW_READ (R443). -/
def execFwReadTimeout (s : State) : Host.Outcome State Fault Refusal :=
  .next (
    match s.boot.download with
    | some (.bus b n got) => if mgmtOn s && decide (got < n) then endDownload (.bus b n got) .stallDetected 9 (setBoot s { s.boot with stage := .await }) else s
    | _ => s)

/-! ### The memory layout (R190, R506, R507) -/

/-- R2: GiB of the firmware's tier-2 reserve on each channel (R190). -/
def tier2Reserve (m : Mem) : Nat := if m.fwReserve = 0 then 8 else 4

/-- The sizes in force: F, M and the window (R190). -/
def layoutSizes (m : Mem) : Nat × Nat × Nat :=
  let n := m.poolList.length
  let w := if n = 0 then 0 else ceilDiv m.windowGib.toNat n
  let r := tier2Reserve m
  if m.shareGib < w + r then (0, 0, (m.shareGib - r) * n)
  else if m.shareGib < w + m.fieldGib.toNat + r then (m.shareGib - w - r, 0, m.windowGib.toNat)
  else (m.fieldGib.toNat, m.shareGib - w - m.fieldGib.toNat - r, m.windowGib.toNat)

/-- Frames of tier 2 that a changed layout unmaps: every page outside tier 1, or demoted from it (R507). -/
def farPage (p : Page) : Bool := p.demoted || p.place != .tier1

/-- A changed tier-2 layout discards what tier 2 held (R507). -/
def discardTier2 (s : State) : State :=
  let s := s.fld.fields.foldl (fun s (e : Nat × Field) => dropPages e.1 farPage s) s
  { s with
    mem := { s.mem with tier2 := [], stale := [], poolUsed := [] }
    models := { s.models with store := [], owners := [] }
    serv := { s.serv with comets := [], nextComet := 1 } }

/-- A changed reserve discards what tier 1 held: its contents, the fields and their translation, and the index of copies (R507). -/
def discardTier1 (s : State) : State :=
  { s with
    mem := { s.mem with tier1 := [], undef := [], moves := [], requests := [] }
    models := { s.models with tier1 := [] }
    grid := {}
    fld := { s.fld with fields := [], join := 0, use := 0 } }

/-- The firmware lays out the reserve, the window and the pools (R190, R506, R507). -/
def layTiers (s : State) : State :=
  let now := (s.mem.windowGib.toNat, s.mem.fieldGib.toNat, s.mem.fwReserve.toNat)
  let s := match s.boot.lastLayout with
    | none => s
    | some (w, f, r) =>
      let s := if w ≠ now.1 ∨ f ≠ now.2.1 then discardTier2 s else s
      if r ≠ now.2.2 then discardTier1 s else s
  let z := layoutSizes s.mem
  { s with
    boot := { s.boot with laidOut := true, lastLayout := some now }
    mem := { s.mem with effField := z.1, moduleGib := z.2.1, effWindow := z.2.2 } }

/-! ### Bring-up (R180, R182, R183, R435, R488 to R491) -/

/-- Pending repair records of a trained stack or channel are applied where a resource is left, and their frames return (R489, R490). -/
def applyRepairs (tier2 : Bool) (k : Nat) (s : State) : State :=
  let works := fun (r : RepairRec) => Config.repairWorks (if tier2 then 16 + k else k) r.line
  let mine := fun (r : RepairRec) => r.state == 0 && r.kind == (if tier2 then 2 else 0) && r.place == k
  let back := (s.store.repairs.filter fun r => mine r && works r).map fun r => (if tier2 then 2 else 1, k, r.line / Config.frame)
  let s := { s with mem := { s.mem with retired := s.mem.retired.filter fun (e : Nat × Nat × Nat) => !back.contains e } }
  { s with store := { s.store with
    repairs := mapIf mine (fun r => { r with state := if works r then 1 else 2 }) s.store.repairs
    rowsRepaired := if tier2 then s.store.rowsRepaired else tmod 0 k (fun n => min 65535 (n + back.length)) s.store.rowsRepaired } }

/-- A channel whose module has another serial starts afresh (R490). -/
def compareDimm (t : Training) (k : Nat) (s : State) : State :=
  let serial := t.dimmSerial.getD k 0
  if serial = tget 0 k s.store.dimmId then s
  else
    { s with
      mem := { s.mem with retired := s.mem.retired.filter fun (e : Nat × Nat × Nat) => !(e.1 == 2 && e.2.1 == k) }
      store := { s.store with
        dimmId := tset 0 k serial s.store.dimmId
        devMark := tdel (2 * k) (tdel (2 * k + 1) s.store.devMark)
        channelOff := setBit s.store.channelOff k false
        repairs := s.store.repairs.filter fun r => !(r.kind == 2 && r.place == k) } }

/-- A stack or channel fails training: an entry, and its fence (R180, R182, R468). -/
def trainingFails (tier2 : Bool) (k : Nat) (s : State) : State := logClass1 0x0D ((if tier2 then 0x40 else 0x30) + k) 0 false 0 s

/-- A stack passes training: pending rows are repaired, and a fence of it lifts (R469, R489). -/
def stackTrained (t : Training) (k : Nat) (s : State) : State :=
  let s := applyRepairs false k s
  let s := if t.stacksRepaired.getLsbD k && decide (s.store.repairs.length < Config.maxRepairs) then
      { s with
        fresh := s.fresh + 1
        store := { s.store with repairs := s.store.repairs ++ [{ kind := 1, state := 1, place := k, sub := (Config.lineSub false (Config.freeWord s.fresh).toNat).toNat, line := (Config.freeWord s.fresh).toNat }] } }
    else s
  if s.faults.fencedStacks.getLsbD k then noteLift (0x30 + k) 0 4 { s with faults := { s.faults with fencedStacks := setBit s.faults.fencedStacks k false } } else s

/-- A stack is trained (R180, R489). -/
def trainStack (t : Training) (s : State) (k : Nat) : State :=
  if t.stacksOk.getLsbD k then stackTrained t k s
  else fenceStack k (trainingFails false k s)

/-- A channel is trained: one that holds no module, one set off, and one that fails stay fenced (R182, R490); an empty socket is no fence action
(log 146). -/
def trainChannel (t : Training) (s : State) (k : Nat) : State :=
  let s := compareDimm t k s
  let gib := t.dimmGib.getD k 0
  if gib = 0 then { s with faults := { s.faults with fencedChannels := setBit s.faults.fencedChannels k true } }
  else if s.store.channelOff.getLsbD k = true then fenceChannel k s
  else if t.channelsOk.getLsbD k = false ∨ (gib ≠ 64 ∧ gib ≠ 128 ∧ gib ≠ 256) then fenceChannel k (trainingFails true k s)
  else
    let s := applyRepairs true k s
    if s.faults.fencedChannels.getLsbD k then noteLift (0x40 + k) 0 5 { s with faults := { s.faults with fencedChannels := setBit s.faults.fencedChannels k false } } else s

/-- Stacks and channels that are not fenced, by bit. -/
def openBits (x : BitVec 16) : List Nat := (List.range 16).filter fun k => !x.getLsbD k

/-- The interleave set and the capability registers after a training of the channels (R183, R189, R508). -/
def formSets (t : Training) (s : State) : State :=
  let chans := openBits s.faults.fencedChannels
  let share := chans.foldl (fun m k => if m = 0 then t.dimmGib.getD k 0 else min m (t.dimmGib.getD k 0)) 0
  { s with mem := { s.mem with
    chanSet := ~~~s.faults.fencedChannels, poolList := chans, shareGib := share
    unusedGib := sumN (chans.map fun k => t.dimmGib.getD k 0 - share)
    slow := t.channelsSlow &&& ~~~s.faults.fencedChannels } }

/-- The maximal runs of joined USE bands, with the field number of each: its lowest band (R16, R381). -/
def layoutRuns (join use : Nat) : List (Nat × List Nat) :=
  let starts := (List.range 4).filter fun b => bitAt use b && !(decide (0 < b) && bitAt use (b - 1) && bitAt join (b - 1))
  let reach := fun (b c : Nat) => (List.range (c - b)).all fun i => bitAt join (b + i) && bitAt use (b + i + 1)
  starts.map fun b => (b, (List.range 4).filter fun c => decide (b ≤ c) && reach b c)

/-- An empty field of bands, with its interleave lists as of now (R189, R381). -/
def newField (s : State) (bands : List Nat) : Field :=
  let members := bands.flatMap fun b => [4 * b, 4 * b + 1, 4 * b + 2, 4 * b + 3]
  { bands
    stackList := members.filter fun k => s.mem.stackSet.getLsbD k && !s.faults.fencedStacks.getLsbD k
    chanList := members.filter fun k => s.mem.chanSet.getLsbD k && !s.faults.fencedChannels.getLsbD k
    slots := [], seq := [], waiting := [], pages := [], asleep := false
    held := bands.any fun b => tget 0 b s.fld.pendingPairs != 0
    step := none }

/-- A field is no longer formed: its mappings, the index of its copies and its governor state go with it. -/
def removeField (f : Nat) (s : State) : State :=
  let g := s.gov
  { s with
    fld := { s.fld with fields := tdel f s.fld.fields, parks := mapIf (fun p => p.field == f) (fun p => { p with room := none }) s.fld.parks }
    mem := { s.mem with moves := s.mem.moves.filter fun m => m.field != f, undef := s.mem.undef.filter fun (e : Nat × Nat × Nat × Nat) => e.1 != f }
    models := { s.models with tier1 := tdel f s.models.tier1 }
    gov := { g with parked := setBit g.parked f false, thermalParked := setBit g.thermalParked f false,
                    parkOrder := g.parkOrder.filter fun (e : Nat × Nat) => e.1 != f, batch := tdel f g.batch } }

/-- A formed field stands unchanged in a layout. -/
def fieldStands (runs : List (Nat × List Nat)) (e : Nat × Field) : Bool := runs.any fun (r : Nat × List Nat) => r.1 == e.1 && r.2 == e.2.bands

/-- Form the fields of a layout; those whose bands are unchanged are untouched (R381). -/
def formFields (join use : Nat) (s : State) : State :=
  let runs := layoutRuns join use
  let s := (s.fld.fields.filter fun e => !fieldStands runs e).foldl (fun s (e : Nat × Field) => removeField e.1 s) s
  let s := runs.foldl (fun s (r : Nat × List Nat) => if (fieldAt s r.1).isSome then s else setField s r.1 (newField s r.2)) s
  { s with fld := { s.fld with join := BitVec.ofNat 3 join, use := BitVec.ofNat 4 use } }

/-- A band leaves its field: its USE bit and the JOIN bits that touch it are clear, and the other bands form fields of their own (R487, R488). -/
def unuseBand (b : Nat) (s : State) : State :=
  formFields (if b = 0 then setBit s.fld.join 0 false else setBit (setBit s.fld.join b false) (b - 1) false).toNat (setBit s.fld.use b false).toNat s

/-- A band's in-service pairs are tested; one that fails retires, and five retired pairs fence the band and clear its USE bit (R483, R488). -/
def testBand (t : Training) (s : State) (b : Nat) : State :=
  let old := tget 0 b s.store.retired
  let all := old ||| t.pairsFailing.getD b 0
  let s := { s with
    store := { s.store with retired := tset 0 b all s.store.retired,
                            pairsEver := tmod 0 b (fun n => min 255 (n + (retiredCount all - retiredCount old))) s.store.pairsEver }
    fld := { s.fld with pairs := tset 0 b all s.fld.pairs, pendingPairs := tdel b s.fld.pendingPairs } }
  if 5 ≤ retiredCount all then
    unuseBand b (noteFence (s.faults.fencedBands.getLsbD b) b { s with
      store := { s.store with bandFenced := setBit s.store.bandFenced b true }
      faults := { s.faults with fencedBands := setBit s.faults.fencedBands b true } })
  else s

/-- Unit fences end with the bands' self-tests (R469, R488). -/
def liftUnits (s : State) : State :=
  let l := s.faults.fencedUnits
  l.foldl (fun s u => noteLift (tileIsland s u) (tileLoc u) 2 s) { s with faults := { s.faults with fencedUnits := [] } }

/-- The enabled links that can train start (R341, R435). -/
def bringLinks (up : BitVec 6) (s : State) : State :=
  (List.range 6).foldl (fun s l => if up.getLsbD l && (linkAt s l).enable then startTraining l s else s) s

/-- Links, bands and the report of READY (R493). -/
def finishBringup (t : Training) (s : State) : State :=
  let s := [0, 1, 2, 3].foldl (testBand t) (liftUnits s)
  let s := bringLinks t.linksUp s
  let s := setBoot s { s.boot with stage := .ready, trained := true, warmBusy := false, download := none }
  let s := if s.boot.setupDone then layTiers s else s
  if degradedFlag s then powerEvent 9 s else s

/-- Memory training of a download: every memory starts empty (R180, R182, R461). -/
def trainAll (t : Training) (s : State) : State :=
  let s := { s with
    mem := { s.mem with tier1 := [], tier2 := [], stale := [], undef := [], poolUsed := [], moves := [], requests := [] }
    models := {}
    serv := { s.serv with comets := [], nextComet := 1 } }
  let s := (List.range 16).foldl (trainStack t) s
  let s := formSets t ((List.range 16).foldl (trainChannel t) s)
  let s := { s with mem := { s.mem with stackSet := ~~~s.faults.fencedStacks } }
  if s.mem.slow ≠ 0 then mgmtReport s else s

/-- A check of step 7 fails: the islands that firmware started are reset, and the ROM waits again (R439). -/
def failBringup (src : FwSource) (st : Status) (reason : Nat) (s : State) : State :=
  endDownload src st reason { s with
    boot := { s.boot with stage := .await, bundle := none, trained := false }
    entry := { s.entry with alive := false }
    fab := { nodeId := s.fab.nodeId }
    mem := { s.mem with stackSet := 0, chanSet := 0, poolList := [], shareGib := 0, unusedGib := 0, slow := 0 } }

/-- Bring-up of a download ends: memories, bands and links are ready, the version floor and the revoked slots are written, READY (R435, R441,
R488). -/
def execBringupReady (t : Training) (s : State) : Host.Outcome State Fault Refusal :=
  .next (
    match s.boot.download, s.boot.bundle with
    | some src, some b =>
      if s.boot.stage ≠ .bringup ∨ s.entry.main = false ∨ s.boot.warmBusy = true then s
      else
        let s := trainAll t s
        if !t.partsOk then failBringup src .digestFail 7 s
        else if s.mem.poolList = [] then failBringup src .noPlacement 8 s
        else
          let s := { s with store := { s.store with floor := max s.store.floor b.floor, revoked := s.store.revoked ||| b.revoke } }
          let s := finishBringup t s
          let s := setBoot s { s.boot with mgmtPath := match src with | .host => false | .bus _ _ _ => true }
          endDownload src .ok 0 s
    | _, _ => s)

/-! ### Warm reset (R444, R457, R458, R466) -/

/-- The bundle copy passes the checks that the module's own state decides: key slot and version floor (R444). -/
def bundleStands (s : State) : Bool := match s.boot.bundle with
  | some b => !s.store.revoked.getLsbD b.keySlot.val && decide (s.store.floor ≤ b.version)
  | none => false

/-- The boot reads the last-fatal region: empty where neither copy is valid (R448, R480). -/
def readFatalCopy (s : State) : State :=
  { s with faults := { s.faults with lastFatalCopy := if s.store.fatalValid then s.store.lastFatal else none } }

/-- Steps 2 to 5 of a warm reset (R457); the boot reads the last-fatal region again (R480), and a bundle that does not verify leaves AWAIT as after a cold reset (R444). -/
def warmReset (fromManager reverified : Bool) (s : State) : State :=
  let s := warmState (powerEvent 7 s)
  let s := readFatalCopy s
  let s := setBoot s { s.boot with fromManager, atBoot := some (s.store.floor, s.store.revoked) }
  if !s.boot.identity then setBoot s { s.boot with stage := .noIdentity, warmBusy := false, bundle := none }
  else if reverified && bundleStands s then setBoot s { s.boot with stage := .bringup, warmReverified := true }
  else setBoot s { s.boot with stage := .await, warmBusy := false, bundle := none }

/-- BOOT.RESET.WARM written 1 by the host (R457, R465). -/
def execBootResetWarm (reverified : Bool) (s : State) : Host.Outcome State Fault Refusal :=
  .next (if barOpen s then warmReset false reverified s else s)

/-- WARM_RESET from the active manager, answered OK before the reset (R458); PERST# governs (R466). -/
def execWarmReset (bus : Bus) (reverified : Bool) (s : State) : Host.Outcome State Fault Refusal :=
  .next (
    if !mgmtOn s then s
    else if !isActive s.gov bus then mctpRespond bus .countMismatch [] (takeMessage bus id s)
    else
      let s := mctpRespond bus .ok [] (takeMessage bus id s)
      if s.entry.main && !s.entry.perst && !s.boot.warmBusy then warmReset true reverified s else s)

/-- A 4 KiB piece of a range of a field lies on a stack. -/
def rangeOn (s : State) (f k a n : Nat) : Bool :=
  (List.range (ceilDiv (a % 4096 + n) 4096)).any fun i => match dvaCell s f (a / 4096 * 4096 + 4096 * i) with
    | some ((false, c), _) => c / Config.stackBytes == k
    | _ => false

/-- A stack fails retraining in a warm reset: it is fenced, its contents and the tier-1 copies on it are lost (R466). -/
def loseStack (k : Nat) (s : State) : State :=
  let tier1 := s.models.tier1.map fun (e : Nat × List Model) =>
    (e.1, (e.2.map fun m => { m with copies := m.copies.filter fun c => !rangeOn s e.1 k c.dva c.bytes }).filter fun m => m.copies != [])
  let s := { s with
    models := { s.models with tier1 := tier1.filter fun (e : Nat × List Model) => e.2 != [] }
    mem := { s.mem with tier1 := mclear s.mem.tier1 (k * Config.stackBytes) Config.stackBytes } }
  fenceStack k (trainingFails false k s)

/-- A stack in a preserving warm reset keeps its training; one that fails is lost (R457, R466). -/
def keepStack (t : Training) (s : State) (k : Nat) : State :=
  if t.stacksOk.getLsbD k || s.faults.fencedStacks.getLsbD k then s else loseStack k s

/-- Steps 6 and 7 of a warm reset (R457). -/
def execWarmResetReady (t : Training) (s : State) : Host.Outcome State Fault Refusal :=
  .next (
    if !s.boot.warmBusy || s.boot.stage != .bringup || !s.entry.main then s
    else
      let s := (List.range 16).foldl (if s.mem.preserveHbm then keepStack t else trainStack t) s
      finishBringup t { s with mem := { s.mem with stackSet := ~~~s.faults.fencedStacks } })

/-! ### PERST#, FLR and low-power states (R37, R445, R446, R455, R459, R462, R466) -/

/-- PERST# asserted: a cold reset (R455). -/
def execPerstAssert (s : State) : Host.Outcome State Fault Refusal :=
  .next (
    let s := setEntry s { s.entry with perst := true }
    if s.entry.main then
      let s := coldState s
      setEntry s { s.entry with alive := false }
    else s)

/-- The record store as the boot reads it where both copies of a region fail: the repair map is rebuilt from the self-tests of the bring-up that
follows, a fatal history reads as empty, the endurance counters restart at zero (R448). -/
def mendStore (c : Store) : Store :=
  let c := if c.repairValid then c
    else { c with retired := [], bandFenced := 0, spareLane := [], devMark := [], channelOff := 0, dimmId := [], repairs := [], repairValid := true }
  let c := if c.fatalValid then c else { c with lastFatal := none, fatalValid := true }
  if c.enduranceValid then c
  else { c with hours := 0, thermalCycles := 0, powerUps := 0, pairsEver := [], spareEver := 0, rowsRepaired := [], devsEver := [], enduranceWritten := none, enduranceValid := true }

/-- The boot reads the record store: counters that restart say so in ID.STATUS, and the last-fatal copy is what the region holds (R448, R480). -/
def readStore (s : State) : State :=
  { s with
    store := mendStore s.store
    boot := { s.boot with enduranceReset := s.boot.enduranceReset || !s.store.enduranceValid }
    faults := { s.faults with lastFatalCopy := (mendStore s.store).lastFatal } }

/-- PERST# released: the boot ROM tests itself, reads the record store and rebuilds the identity (R435, R445, R446, R448). -/
def execPerstRelease (pufOk : Bool) (s : State) : Host.Outcome State Fault Refusal :=
  .next (
    let s := setEntry s { s.entry with perst := false }
    if !s.entry.main || s.boot.stage != .rom then s
    else
      let s := readStore s
      if pufOk then setBoot s { s.boot with stage := .await, identity := true, atBoot := some (s.store.floor, s.store.revoked) }
      else mgmtReport (setBoot s { s.boot with stage := .noIdentity, identity := false }))

/-- FLR of the device function; ignored during a warm reset (R455, R459, R466). -/
def execFlr (s : State) : Host.Outcome State Fault Refusal :=
  .next (if s.entry.main && !s.entry.perst && linkUp s && !s.boot.warmBusy then flrState s else s)

/-- The array state of every field is lost: slots, sections, threads, SRAM, park records (R462). -/
def loseArray (s : State) : State :=
  { s with
    grid := { cycles := s.grid.cycles }
    mem := { s.mem with requests := [] }
    fld := { s.fld with
      parks := [], fills := []
      fields := s.fld.fields.map fun (e : Nat × Field) => (e.1, { e.2 with slots := [], seq := [], waiting := [], step := none }) } }

/-- The host sets D3hot: open work ends as at an FLR, and the array's state is lost (R459, R462, R466). -/
def execD3hotEntry (s : State) : Host.Outcome State Fault Refusal :=
  .next (
    if !s.entry.main || s.entry.perst || !linkUp s || s.boot.warmBusy || s.host.d3hot then s
    else
      let s := setHost s { s.host with opens := [], d3hot := true }
      let s := retainRequests (dropWork s)
      loseArray (s.fld.fields.foldl (fun s (e : Nat × Field) => abortField e.1 (statusCode .cancelled) s) s))

/-- The host sets D0 (R462). -/
def execD0Entry (s : State) : Host.Outcome State Fault Refusal := .next (if s.entry.main then setHost s { s.host with d3hot := false } else s)

end Sys2Proof.Machine
end

