-- ==== Sys2Proof/Machine/Queues.lean ====
section
/-!
DEFINITION. Meanings of the commands of rings, doorbells, queue registers, interrupts and CXL ports (12).
-/

namespace Sys2Proof.Machine

/-- NOP completes OK (R271). -/
def execNop (q : QId) (h : DescHdr) (s : State) : Host.Outcome State Fault Refusal :=
  .next (withDesc q .nop h false (fun acc s => finish acc .ok 0 0 s) s)

/-- FENCE holds the later descriptors of its queue until the earlier ones have completed or are placed (R278). -/
def execFence (q : QId) (h : DescHdr) (allQueues : Bool) (s : State) : Host.Outcome State Fault Refusal :=
  .next (withDesc q .fence h allQueues (fun acc s =>
    let s := setOpens s (tup acc (fun d => { d with allQueues := allQueues }) s.host.opens)
    settleFences s.host.opens.length s) s)

/-- TIME_MARK records its mark as an event and completes with the event's number in RESULT0 (R21, R23, R274). -/
def execTimeMark (q : QId) (h : DescHdr) (s : State) : Host.Outcome State Fault Refusal :=
  .next (withDesc q .timeMark h false (fun acc s =>
    let n := s.faults.nextSeq
    finish acc .ok n 0 (recordEvent 5 h.mark s)) s)

/-- The open descriptor that 64 fetched bytes spell (R270). -/
def parseDesc (tick q : Nat) (bs : List Byte) : OpenDesc :=
  { q
    op := byteAt bs 0
    seq := BitVec.ofNat 16 (natAt bs 2 2)
    tag := byteAt bs 4
    cls := BitVec.ofNat 6 (byteAt bs 5).toNat
    mark := BitVec.ofNat 64 (natAt bs 8 8)
    irqNow := bitAt (byteAt bs 1).toNat 0
    allQueues := byteAt bs 0 == 0x01 && bitAt (byteAt bs 1).toNat 1
    phase := .accepted, since := tick }

/-- Accept one fetched descriptor; a reserved opcode completes with COUNT_MISMATCH at once (R271). -/
def acceptFetched (q : Nat) (s : State) (bs : List Byte) : State :=
  let acc := s.host.nextAcc
  let s := acceptOne q (parseDesc s.tick q bs) s
  if opcodeKnown (byteAt bs 0) then s else finish acc .countMismatch 0 0 s

/-- Entries that a burst may read: up to the tail, never past the end of the ring, 16 at most (R239); of a disabled queue, those of its burst in flight
(R264). -/
def burstRoom (x : Queue) : Nat :=
  let n := x.sqSize.toNat
  min (if x.enable then 16 else x.inFlight) (min 16 (min (n - x.sqHead.toNat) ((x.sqTail.toNat + n - x.sqHead.toNat) % n)))

/-- A fetch burst arrives and its descriptors are accepted in ring order; COPYs to feeds may find their targets among them (R234, R239, R266). -/
def execDescriptorFetchBurst (q : QId) (descs : List (List Byte)) (s : State) : Host.Outcome State Fault Refusal :=
  .next (
    if fetchOpen s q && decide (1 ≤ descs.length ∧ descs.length ≤ burstRoom (queueAt s q)) then
      settleCopies (writeShadow q (descs.foldl (acceptFetched q) s))
    else s)

/-- A doorbell value out of range sets DB_ERR and raises vector 1,024 (R265, R268). -/
def doorbellError (q : Nat) (s : State) : State := raiseVector 1024 (setQueue s q { queueAt s q with dbErr := true })

/-- SQ_TAIL: a new submission tail; ignored while the queue is disabled (R265). -/
def execSqTail (q : QId) (v : BitVec 32) (s : State) : Host.Outcome State Fault Refusal :=
  .next (
    let x := queueAt s q
    if !barOpen s || !x.enable then s
    else if x.sqSize.toNat ≤ v.toNat % 65536 then doorbellError q s
    else setQueue s q { x with sqTail := BitVec.ofNat 16 v.toNat, covers := x.covers ++ [(BitVec.ofNat 16 v.toNat, s.mem.winWrites)] })

/-- CQ_HEAD: frees completion entries and posts held completions (R265, R267). -/
def execCqHead (q : QId) (v : BitVec 32) (s : State) : Host.Outcome State Fault Refusal :=
  .next (
    let x := queueAt s q
    if !barOpen s || !x.enable then s
    else if x.cqSize.toNat ≤ v.toNat % 65536 then doorbellError q s
    else releaseHeld q x.held.length (setQueue s q { x with cqHead := BitVec.ofNat 16 v.toNat }))

/-- ENTRIES is a power of two from 16 to 65,536 (R263). -/
def entriesValid (n : Nat) : Bool := (List.range 13).any fun k => n == 2 ^ (k + 4)

/-- The fields of QCFG.CTRL other than ENABLE (R263). -/
def ctrlFields (x : Queue) (w : Nat) : Queue :=
  { x with overflowStall := bitAt w 1, infoEn := bitAt w 2, irqEn := bitAt w 3, port := bitAt w 4, failover := bitAt w 5,
           coalCount := BitVec.ofNat 8 (bits w 8 8), coalTicks := BitVec.ofNat 16 (bits w 16 16) }

/-- A write of 1 to ENABLE (R264): the other fields of the same write are taken while ENABLE is 0. -/
def execQueueEnable (q : QId) (w : BitVec 32) (s : State) : Host.Outcome State Fault Refusal :=
  .next (
    let x := queueAt s q
    if !barOpen s || x.enable then s
    else
      let x := ctrlFields x w.toNat
      if x.sqSize = 0 ∨ x.cqSize = 0 then setQueue s q { x with cfgErr := false }
      else if !entriesValid x.sqSize.toNat || !entriesValid x.cqSize.toNat || x.coalCount == 0 then
        raiseVector 1024 (setQueue s q { x with cfgErr := true })
      else setQueue s q { x with enable := true, sqHead := 0, cqTail := 0, sqTail := 0, covers := [], cqHead := 0, inFlight := 0, phase := true, cfgErr := false, infoLost := 0 })

/-- Fetch of a queue stops after any burst in flight: how many entries one has issued is a free value (R264, R279; log 170). -/
def stopFetch (q : Nat) (s : State) : State :=
  let x := queueAt s q
  if !x.enable then s
  else
    let n := if fetchOpen s q then (Config.freeWord s.fresh).toNat % (burstRoom x + 1) else 0
    { setQueue s q { x with enable := false, inFlight := n } with fresh := s.fresh + 1 }

/-- A write of 0 to ENABLE: fetch stops, accepted descriptors run on (R264). -/
def execQueueDisable (q : QId) (s : State) : Host.Outcome State Fault Refusal :=
  .next (if barOpen s then stopFetch q s else s)

/-- A W1C write to QCFG.ERR (R263, R267). -/
def execQcfgErrClear (q : QId) (w : BitVec 32) (s : State) : Host.Outcome State Fault Refusal :=
  .next (
    if barOpen s then
      let x := queueAt s q
      setQueue s q { x with dbErr := x.dbErr && !w.getLsbD 0, cqOvf := x.cqOvf && !w.getLsbD 1 }
    else s)

/-- A write of 0 to IRQ_EN clears the pending count and the timer (R269); it reaches the register only while ENABLE is 0 (R263). -/
def execIrqEnClear (q : QId) (s : State) : Host.Outcome State Fault Refusal :=
  .next (
    let x := queueAt s q
    if barOpen s && !x.enable then setQueue s q { x with irqEn := false, pendCount := 0, coalStart := none } else s)

/-- COAL_TICKS control ticks have passed since the first pending completion (R269). -/
def execCoalTimerExpiry (q : QId) (s : State) : Host.Outcome State Fault Refusal :=
  .next (
    let x := queueAt s q
    match x.coalStart with
    | some t => if x.irqEn = true ∧ t + x.coalTicks.toNat ≤ s.tick then sendQueueIrq q s else s
    | none => s)

/-- Unmasking a vector whose pending bit is set sends the held message (R268, R279). -/
def execMsixUnmask (v : Fin 1028) (s : State) : Host.Outcome State Fault Refusal :=
  .next (
    if !barOpen s then s
    else
      let e := tget ({} : MsixEntry) v s.host.msix
      let s := setHost s { s.host with msix := tset {} v.val { e with masked := false, pending := false } s.host.msix }
      if e.pending then raiseVector v s else s)

/-- A CXL port's link goes down: its queues fail over, or their completions are held (R259), and bursts in flight are discarded (R279). -/
def execCxlPortDown (port : Fin 2) (s : State) : Host.Outcome State Fault Refusal :=
  .next (
    let queues := s.host.queues.map fun e => (e.1, { e.2 with inFlight := if s.host.twoPorts && e.2.port != (port == 1) then e.2.inFlight else 0 })
    if port = 0 then setHost s { s.host with up0 := false, queues } else setHost s { s.host with up1 := false, queues })

/-- Post what the queues hold; the keys are those of the queue table. -/
def releaseAll (s : State) : State := s.host.queues.foldl (fun s e => releaseHeld e.1 e.2.held.length s) s

/-- The widths of R256: x16, x8 or x4 on one port, x8 or x4 on two. -/
def widthOk (lanes : Nat) (twoPorts : Bool) : Bool := lanes == 8 || lanes == 4 || (lanes == 16 && !twoPorts)

/-- A CXL port trains: mode, width and rate are reported, and held completions are posted (R256, R259, R508). -/
def execCxlPortUp (port : Fin 2) (lanes : Nat) (slow twoPorts : Bool) (s : State) : Host.Outcome State Fault Refusal :=
  .next (
    if !s.entry.main || s.entry.perst || !widthOk lanes twoPorts || (port == 1 && !twoPorts) then s
    else
      let h := if twoPorts then { s.host with twoPorts := true } else { s.host with twoPorts := false, up1 := false, width1 := 0, slow1 := false }
      let h := if port = 0 then { h with up0 := true, width0 := BitVec.ofNat 5 lanes, slow0 := slow }
        else { h with up1 := true, width1 := BitVec.ofNat 5 lanes, slow1 := slow }
      releaseAll (setHost s h))

/-- The 64 bytes of a line. -/
def vecBytes (v : Vec) : List Byte := leBytes 64 v.toNat

/-- After a host write of a line: until a FENCE a device read may see what the line held before it (R258, R278). -/
def noteWindow (s : State) (off : Nat) (t : State) : State :=
  let n := s.mem.winWrites + 1
  match windowCell s off, hostWindow s off 64 with
  | some c, some old => { t with mem := { t.mem with stale := s.mem.stale ++ [(c.2, old, n)], winWrites := n } }
  | _, _ => t

/-- A host write of one window line; discarded before the layout stands or where the line is lost (R204, R258, R506). -/
def execCxlMemWrite (line : BitVec 36) (data : Vec) (s : State) : Host.Outcome State Fault Refusal :=
  .next (
    if !linkUp s || !s.entry.main then s
    else
      let s := { s with acct := { s.acct with live := { s.acct.live with windowBytes := s.acct.live.windowBytes + 64 } } }
      let s := if (windowCell s (line.toNat * 64)).isSome then chargeTier none true 64 s else s
      match writeWindow s (line.toNat * 64) (vecBytes data) with
      | none => s
      | some t => noteWindow s (line.toNat * 64) t)

end Sys2Proof.Machine
end

