-- ==== Sys2Proof/Machine/Spdm.lean ====
section
/-!
DEFINITION. Meanings of the requests to the SPDM responder (21): their order, the measurements, signatures and co-signatures. SPDM 1.3's own message
framing is not in the manual: a response here holds the content that the manual gives it (log 59).
-/

namespace Sys2Proof.Machine

/-! ### Measurements (R450) -/

/-- The repair map's content (R491). -/
def repairMapBytes (s : State) : List Byte :=
  let t := s.store
  leBytes 2 1 ++ zeros 2
    ++ (List.range 4).flatMap (fun b => leBytes 4 ((tget 0 b t.retired).toNat + 0x80000000 * b2n (t.bandFenced.getLsbD b)))
    ++ (List.range 6).flatMap (fun l => leBytes 1 (tget 31 l t.spareLane)) ++ zeros 6
    ++ (List.range 32).flatMap (fun i => leBytes 1 (tget 15 i t.devMark + 128 * b2n (i % 2 == 0 && t.channelOff.getLsbD (i / 2))))
    ++ (List.range 16).flatMap (fun k => leBytes 8 (tget 0 k t.dimmId).toNat) ++ leBytes 4 t.repairs.length ++ zeros 60
    ++ t.repairs.flatMap fun r => leBytes 1 r.kind ++ leBytes 1 r.state ++ leBytes 1 r.place ++ leBytes 1 r.sub ++ leBytes 8 r.line ++ zeros 4

/-- A digest as the 48-byte string it is, read as a number that orders as the string does. -/
def digestOrder (d : Digest) : Nat := leNat (leBytes 48 d.toNat).reverse

/-- Insert a digest in ascending order. -/
def insertDigest (d : Digest) : List Digest → List Digest
  | [] => [d]
  | e :: l => if digestOrder d ≤ digestOrder e then d :: e :: l else e :: insertDigest d l

/-- SHA-384 over digests sorted ascending (R450). -/
def sortedDigest (l : List Digest) : Digest := sha384 ((l.foldl (fun m d => insertDigest d m) []).flatMap fun d => leBytes 48 d.toNat)

/-- Measurement i, 1 to 14 (R450). -/
def measurement (s : State) (i : Nat) : Digest :=
  if i = 1 then Config.romMeasurement
  else if i = 2 then (match s.boot.bundle with | some b => b.headerHash | none => 0)
  else if i = 3 then (match s.boot.atBoot with | some (f, r) => Config.floorMeasurement f r | none => 0)
  else if i < 8 then
    sha384 ((List.range 4).flatMap fun k => match (fieldAt s (i - 4)).bind fun fl => slotSkein fl k with
      | some img => leBytes 48 img.headerHash.toNat
      | none => zeros 48)
  else if i = 8 then
    sha384 ((List.range 256).flatMap fun k => match tget none k s.moons.progs with
      | some img => leBytes 48 img.progHash.toNat
      | none => zeros 48)
  else if i = 9 then sortedDigest (s.models.store.map (·.digest))
  else if i < 14 then sortedDigest ((tget [] (i - 10) s.models.tier1).map (·.digest))
  else sha384 (repairMapBytes s)

/-! ### Connections -/

/-- The number of a connection. -/
def connNo : SpdmConn → Nat
  | .doe => 0
  | .bus .a => 1
  | .bus .b => 2

/-- The responder can be reached: control-core pair 1 runs the management runtime, and the transport is up (R435, R449). -/
def spdmOn (s : State) (c : SpdmConn) : Bool :=
  (s.boot.stage == .ready || s.boot.stage == .bringup) && s.entry.main && !s.boot.warmBusy && match c with
    | .doe => linkUp s && !s.entry.perst
    | .bus _ => mgmtOn s

/-- The state of a connection. -/
def connAt (s : State) (c : SpdmConn) : SpdmConnState := tget {} (connNo c) s.spdm.conns

/-- Replace a connection's state. -/
def setConn (c : SpdmConn) (v : SpdmConnState) (s : State) : State := { s with spdm := { s.spdm with conns := tset {} (connNo c) v s.spdm.conns } }

/-- Send a response. -/
def spdmSend (c : SpdmConn) (k : SpdmKind) (content : List Byte) (s : State) : State :=
  let s := setConn c { connAt s c with response := content } s
  { s with spdm := { s.spdm with out := s.spdm.out ++ [{ conn := c, kind := k, content }] } }

/-- Send an error. -/
def spdmError (c : SpdmConn) (k : SpdmKind) (s : State) : State := { s with spdm := { s.spdm with out := s.spdm.out ++ [{ conn := c, kind := k, content := [] }] } }

/-- The connection has agreed on algorithms, with a signature and a hash in common (log 59). -/
def connReady (x : SpdmConnState) : Bool := match x.algs with
  | some a => a.ed25519 && a.sha384
  | none => false

/-- Answer a request that needs an agreed connection. -/
def spdmAgreed (c : SpdmConn) (work : State → State) (s : State) : State :=
  if !spdmOn s c then s else if connReady (connAt s c) then work s else spdmError c .unexpectedRequest s

/-- Sign an exchange and keep its transcript hash for COSIGN (R449, R451). -/
def spdmSigned (c : SpdmConn) (k : SpdmKind) (what : Nat) (content : List Byte) (s : State) : State :=
  let d := Config.spdmTranscript s.fresh
  let x := connAt s c
  let s := setConn c { x with signed := tput what d x.signed } { s with fresh := s.fresh + 1 }
  spdmSend c k (content ++ padTo 64 (Config.ed25519Sign (leBytes 48 d.toNat))) s

/-! ### Requests (R449) -/

/-- GET_VERSION begins a connection anew. -/
def execGetVersion (c : SpdmConn) (s : State) : Host.Outcome State Fault Refusal :=
  .next (if !spdmOn s c then s else spdmSend c .version [] (setConn c { version := true } s))

/-- GET_CAPABILITIES. -/
def execGetCapabilities (c : SpdmConn) (s : State) : Host.Outcome State Fault Refusal :=
  .next (
    if !spdmOn s c then s
    else if (connAt s c).version then spdmSend c .capabilities [] (setConn c { connAt s c with capabilities := true } s)
    else spdmError c .unexpectedRequest s)

/-- NEGOTIATE_ALGORITHMS: of what is offered, the module takes what it supports. -/
def execNegotiateAlgorithms (c : SpdmConn) (ed25519 sha384 secp384r1 aes256gcm : Bool) (s : State) : Host.Outcome State Fault Refusal :=
  .next (
    if !spdmOn s c then s
    else if (connAt s c).capabilities then
      spdmSend c .algorithms [BitVec.ofNat 8 (b2n ed25519 + 2 * b2n sha384 + 4 * b2n secp384r1 + 8 * b2n aes256gcm)]
        (setConn c { connAt s c with algs := some { ed25519, sha384, secp384r1, aes256gcm } } s)
    else spdmError c .unexpectedRequest s)

/-- GET_DIGESTS: the digest of the slot 0 chain. -/
def execGetDigests (c : SpdmConn) (s : State) : Host.Outcome State Fault Refusal :=
  .next (spdmAgreed c (spdmSend c .digests (leBytes 48 (sha384 Config.deviceChain).toNat)) s)

/-- GET_CERTIFICATE: a range of the slot 0 chain; no other slot is supported. -/
def execGetCertificate (c : SpdmConn) (slot : Nat) (offset : Nat) (length : Nat) (s : State) : Host.Outcome State Fault Refusal :=
  .next (spdmAgreed c (fun s =>
    if slot ≠ 0 ∨ Config.deviceChain.length < offset then spdmError c .invalidRequest s
    else spdmSend c .certificate ((Config.deviceChain.drop offset).take length) s) s)

/-- CHALLENGE: a signed CHALLENGE_AUTH with the chain's digest. -/
def execChallenge (c : SpdmConn) (slot : Nat) (nonce : BitVec 256) (s : State) : Host.Outcome State Fault Refusal :=
  .next (spdmAgreed c (fun s =>
    if slot ≠ 0 then spdmError c .invalidRequest s
    else spdmSigned c .challengeAuth 1 (leBytes 48 (sha384 Config.deviceChain).toNat ++ leBytes 32 nonce.toNat) s) s)

/-- The measurement blocks of a request: one index, all of them at 0xFF, or only their number at 0 (R450; log 59). -/
def measurementContent (s : State) (index : Nat) : Option (List Byte) :=
  if index = 0 then some [14]
  else if index = 0xFF then some ((List.range 14).flatMap fun i => leBytes 48 (measurement s (i + 1)).toNat)
  else if index ≤ 14 then some (leBytes 48 (measurement s index).toNat)
  else none

/-- GET_MEASUREMENTS: a snapshot of one moment, signed on demand (R450). -/
def execGetMeasurements (c : SpdmConn) (index : Nat) (sign : Bool) (nonce : BitVec 256) (s : State) : Host.Outcome State Fault Refusal :=
  .next (spdmAgreed c (fun s => match measurementContent s index with
    | none => spdmError c .invalidRequest s
    | some bs => if sign then spdmSigned c .measurements 0 (bs ++ leBytes 32 nonce.toNat) s else spdmSend c .measurements bs s) s)

/-- KEY_EXCHANGE opens a session: 4 at most, with secp384r1 and AES-256-GCM agreed. -/
def execKeyExchange (c : SpdmConn) (session : BitVec 16) (exchange : List Byte) (s : State) : Host.Outcome State Fault Refusal :=
  .next (spdmAgreed c (fun s =>
    let ok := match (connAt s c).algs with
      | some a => a.secp384r1 && a.aes256gcm
      | none => false
    if !ok || decide (4 ≤ s.spdm.sessions.length) || s.spdm.sessions.any (fun x => x.conn == c && x.id == session) then spdmError c .invalidRequest s
    else
      let s := { s with spdm := { s.spdm with sessions := s.spdm.sessions ++ [{ conn := c, id := session, established := false, keyGeneration := 0 }] } }
      spdmSigned c .keyExchange 2 (leBytes 2 session.toNat ++ exchange) s) s)

/-- A session of a connection. -/
def sessionAt (s : State) (c : SpdmConn) (id : BitVec 16) : Option Session := s.spdm.sessions.find? fun x => x.conn == c && x.id == id

/-- Change a session. -/
def modSession (c : SpdmConn) (id : BitVec 16) (g : Session → Session) (s : State) : State :=
  { s with spdm := { s.spdm with sessions := mapIf (fun x => x.conn == c && x.id == id) g s.spdm.sessions } }

/-- End a session. -/
def dropSession (c : SpdmConn) (id : BitVec 16) (s : State) : State :=
  { s with spdm := { s.spdm with sessions := s.spdm.sessions.filter fun x => !(x.conn == c && x.id == id) } }

/-- Answer a request inside an established session. -/
def inSession (c : SpdmConn) (id : BitVec 16) (work : State → State) (s : State) : State :=
  if !spdmOn s c then s
  else if ((sessionAt s c id).map (·.established)) == some true then work s
  else spdmError c .unexpectedRequest s

/-- FINISH completes a handshake; one that does not verify ends the session. -/
def execFinish (c : SpdmConn) (session : BitVec 16) (macOk : Bool) (s : State) : Host.Outcome State Fault Refusal :=
  .next (
    if !spdmOn s c then s
    else if ((sessionAt s c session).map (·.established)) ≠ some false then spdmError c .unexpectedRequest s
    else if macOk then spdmSend c .finish [] (modSession c session (fun x => { x with established := true }) s)
    else spdmError c .invalidRequest (dropSession c session s))

/-- HEARTBEAT of a session. -/
def execSpdmHeartbeat (c : SpdmConn) (session : BitVec 16) (s : State) : Host.Outcome State Fault Refusal :=
  .next (inSession c session (spdmSend c .heartbeatAck []) s)

/-- KEY_UPDATE: operations 1 and 2 take the next keys, 3 verifies them. -/
def execKeyUpdate (c : SpdmConn) (session : BitVec 16) (op : Nat) (s : State) : Host.Outcome State Fault Refusal :=
  .next (inSession c session (fun s =>
    if op = 1 ∨ op = 2 then spdmSend c .keyUpdateAck [] (modSession c session (fun x => { x with keyGeneration := x.keyGeneration + 1 }) s)
    else if op = 3 then spdmSend c .keyUpdateAck [] s
    else spdmError c .invalidRequest s) s)

/-- END_SESSION. -/
def execEndSession (c : SpdmConn) (session : BitVec 16) (s : State) : Host.Outcome State Fault Refusal :=
  .next (inSession c session (fun s => spdmSend c .endSessionAck [] (dropSession c session s)) s)

/-! ### Large messages (R449) -/

/-- CHUNK_SEND: the chunks of a large request come in order under one handle. -/
def execChunkSend (c : SpdmConn) (handle : BitVec 8) (number : Nat) (last : Bool) (data : List Byte) (s : State) : Host.Outcome State Fault Refusal :=
  .next (spdmAgreed c (fun s =>
    let x := connAt s c
    let sofar : Option (List Byte) := match number, x.request with
      | 0, _ => some []
      | n, some (h, next, bs) => if h = handle ∧ next = n then some bs else none
      | _, none => none
    match sofar with
    | none => spdmError c .invalidRequest (setConn c { x with request := none } s)
    | some bs => spdmSend c .chunkSendAck [] (setConn c { x with request := if last then none else some (handle, number + 1, bs ++ data) } s)) s)

/-- CHUNK_GET: one chunk of the last response. -/
def execChunkGet (c : SpdmConn) (handle : BitVec 8) (number : Nat) (s : State) : Host.Outcome State Fault Refusal :=
  .next (spdmAgreed c (fun s =>
    let x := connAt s c
    let n := max 1 Config.spdmChunk
    if x.response.length ≤ number * n then spdmError c .invalidRequest s
    else { s with spdm := { s.spdm with out := s.spdm.out ++ [{ conn := c, kind := .chunkResponse, content := handle :: ((x.response.drop (number * n)).take n) }] } }) s)

/-! ### Vendor-defined requests (R451) -/

/-- The context string "KZ-COSIGN-1" of R451. -/
def cosignContext : List Byte := [0x4B, 0x5A, 0x2D, 0x43, 0x4F, 0x53, 0x49, 0x47, 0x4E, 0x2D, 0x31]

/-- COSIGN: the transcript hash of the last exchange of the kind WHAT on this connection, and its ML-DSA-65 signature (R451). -/
def execCosign (c : SpdmConn) (what : BitVec 8) (s : State) : Host.Outcome State Fault Refusal :=
  .next (spdmAgreed c (fun s => match tfind what.toNat (connAt s c).signed with
    | some d => spdmSend c .cosign (leBytes 48 d.toNat ++ padTo 3309 (Config.mldsaSign (cosignContext ++ leBytes 48 d.toNat))) s
    | none => spdmError c .unexpectedRequest s) s)

/-- GET_CHAIN: a range of the ML-DSA-65 DeviceID chain, 4,096 bytes at most (R451). -/
def execGetChain (c : SpdmConn) (offset : BitVec 32) (length : BitVec 32) (s : State) : Host.Outcome State Fault Refusal :=
  .next (spdmAgreed c (fun s =>
    if 4096 < length.toNat then spdmError c .invalidRequest s
    else spdmSend c .chain ((Config.mldsaChain.drop offset.toNat).take length.toNat) s) s)

end Sys2Proof.Machine
end

