-- ==== Sys2Proof/Machine/Setup.lean ====
section
/-!
DEFINITION. Meanings of the host's writes to setup registers (26), of the fault trace, injection slots and test mode (23), and of the test registers (25).
-/

namespace Sys2Proof.Machine

/-- The state an outcome leads to. -/
def afterOf (s : State) : Host.Outcome State Fault Refusal → State
  | .next t => t
  | _ => s

/-! ### SETUP_DONE (R506) -/

/-- A write of 1 to BOOT.CTRL.SETUP_DONE: RWL fields lock, and the firmware lays out the tiers (R506). -/
def execSetupDone (s : State) : Host.Outcome State Fault Refusal :=
  .next (
    if !barOpen s || s.boot.setupDone then s
    else
      let s := setBoot s { s.boot with setupDone := true }
      if s.boot.stage = .ready then layTiers s else s)

/-! ### The fault trace (R512) -/

/-- A write to FAULT.TRACE_CTRL (R505, R512). -/
def execTraceEnable (w : BitVec 32) (s : State) : Host.Outcome State Fault Refusal :=
  .next (
    if !barOpen s then s
    else
      let f := s.faults
      let n := bits w.toNat 4 17
      let entries := if f.traceEn || !entriesValid n then f.traceEntries else BitVec.ofNat 17 n
      if !w.getLsbD 0 then { s with faults := { f with traceEn := false, traceEntries := entries } }
      else if f.traceEn then s
      else if entriesValid entries.toNat && f.traceBase != 0 then
        { s with faults := { f with traceEn := true, traceEntries := entries, traceTail := 0, traceLost := 0 } }
      else { s with faults := { f with traceEntries := entries } })

/-! ### Injection slots (R479, R480) -/

/-- Classes that a setting can produce (R479). -/
def injClasses (s : State) (det island loc pattern : Nat) : List Nat :=
  let code := fun (n limit : Nat) => if weight n pattern ≤ limit then [0] else [1]
  if det = 0x01 then code 64 1
  else if det = 0x02 then code 16 4
  else if det = 0x03 then
    (let c := (true, (island - 0x40) * channelSpan + loc); if lineErrors s c pattern ≤ lineLimit s c then [0] else [1])
  else if det = 0x04 then code 4 2
  else if det = 0x0B then (if bits pattern 8 8 ≤ 16 then [0] else [0, 1])
  else if fatalDetector det island then [2]
  else if 0x05 ≤ det ∧ det ≤ 0x0E then [1]
  else []

/-- Detectors that match no access and fire at their first evaluation (R479). -/
def indicationOnly (det : Nat) : Bool := decide (0x0E ≤ det ∧ det ≤ 0x13)

/-- Frames from first to first + count of the module pool have a chunk on a channel (R189, R190). -/
def poolTouches (s : State) (k first count : Nat) : Bool :=
  match s.mem.poolList.findIdx? fun c => c == k with
  | none => false
  | some i => (List.range (min count s.mem.poolList.length)).any fun j => (first + j) % s.mem.poolList.length == i

/-- Store models with a chunk on a channel, and every comet of the pool, are lost (R204, R313, R340). -/
def losePool (k : Nat) (s : State) : State :=
  if !s.mem.poolList.contains k then s
  else
    { s with
      models := { s.models with store := s.models.store.filter fun m => !(m.copies.any fun c => poolTouches s k c.frame (ceilDiv c.bytes Config.frame)) }
      serv := { s.serv with comets := [] } }

/-- The islands of the module (R17). -/
def islandKnown (i : Nat) : Bool := decide (i < 0x14 ∨ (0x18 ≤ i ∧ i < 0x1E) ∨ (0x20 ≤ i ∧ i < 0x50))

/-- A clock that has lost lock, or another indication of no access (R468, R469, R479): the fatal sequence, or its fence. -/
def clockFence (island : Nat) (s : State) : State :=
  if !islandKnown island then s
  else if island < 0x10 then fenceBand (island / 4) s
  else if 0x18 ≤ island ∧ island < 0x20 then downLink (island - 0x18) s
  else if 0x20 ≤ island ∧ island < 0x40 then fenceStack (island % 16) s
  else losePool (island % 16) (fenceChannel (island % 16) s)

/-- The status that the fence of a lost clock gives the work it touches (R467, R469, R472). -/
def clockStatus (island : Nat) : BitVec 16 := statusCode (if 0x18 ≤ island ∧ island < 0x20 then .linkDown else .fencedUnit)

/-- An indication slot fires (R479). -/
def fireIndication (k : Nat) (s : State) : State :=
  let x := tget ({} : InjSlot) k s.faults.inj
  let det := x.detector.toNat
  let isl := x.island.toNat
  let s := injFire k { s with faults := { s.faults with inj := tmod {} k (fun y => { y with lastAt := s.tick }) s.faults.inj } }
  if fatalDetector det isl then fatalStart det isl x.loc.toNat true false s
  else clockFence isl (logClass1 det isl x.loc.toNat true (clockStatus isl) s)

/-- The codes of R468. -/
def detectorCode (det : Nat) : Bool := decide (1 ≤ det ∧ det ≤ 0x13) || det == 0x20 || det == 0x21

/-- A write to +0x00 of an injection slot: ignored while test mode is off; ARM takes hold only where SCOPE allows every class (R479, R480). An
indication fires at once when its slot becomes armed; a slot that stays armed fires again at a tick. -/
def execInjectionArm (k : Fin 8) (w : BitVec 32) (s : State) : Host.Outcome State Fault Refusal :=
  .next (
    if !barOpen s || !s.faults.test then s
    else
      let det := bits w.toNat 8 8
      let x := tget ({} : InjSlot) k.val s.faults.inj
      let detector := if detectorCode det then BitVec.ofNat 8 det else x.detector
      let again := x.arm && x.detector == detector && x.island == BitVec.ofNat 8 (bits w.toNat 16 8)
      let x := { x with rep := w.getLsbD 1, detector, island := BitVec.ofNat 8 (bits w.toNat 16 8) }
      let cl := injClasses s detector.toNat x.island.toNat x.loc.toNat x.pattern.toNat
      let x := { x with arm := w.getLsbD 0 && cl != [] && cl.all fun c => s.faults.testScope.getLsbD c }
      let s := { s with faults := { s.faults with inj := tset {} k.val x s.faults.inj } }
      if x.arm && !again && indicationOnly detector.toNat then noteService s (fireIndication k s) else s)

/-! ### Test mode (R477, R478) -/

/-- The mailbox code of TEST_UNLOCK. -/
def unlockCode : Nat := 0x0060

/-- NONCE: a fresh nonce, which the boot of the command carries (R477). -/
def execTestNonce (nonce : BitVec 256) (s : State) : Host.Outcome State Fault Refusal :=
  .next (mailbox unlockCode (fun s => mboxEnd unlockCode .ok (leBytes 32 nonce.toNat) (setBoot s { s.boot with nonce := some nonce })) s)

/-- The first check of UNLOCK that a token fails (R478). -/
def checkToken (s : State) (t : TestToken) : Option Status :=
  if t.tokenBytes ≠ 5696 ∨ aligned t.tokenAddr.toNat 64 = false ∨ t.magic ≠ 0x54534554 ∨ t.format ≠ 1 ∨ t.headerBytes ≠ 256 then some .badAlignment
  else if t.scope = 0 ∨ t.duration = 0 then some .countMismatch
  else if t.keyHash ≠ Config.romKeyHash t.keySlot ∨ s.store.revoked.getLsbD t.keySlot.val = true ∨ t.sig.ed = false ∨ t.sig.ml = false then some .signatureFail
  else if t.identity ≠ sha384 Config.identityBlock ∨ s.boot.nonce ≠ some t.nonce then some .signatureFail
  else none

/-- UNLOCK consumes the nonce; a good token turns test mode on (R477, R478). -/
def execTestUnlock (r : TokenRead) (s : State) : Host.Outcome State Fault Refusal :=
  .next (mailbox unlockCode (fun s =>
    let t := parseToken r
    let bad := checkToken s t
    let s := setBoot s { s.boot with nonce := none }
    match bad with
    | some st => mboxEnd unlockCode st [] s
    | none =>
      let s := { s with faults := { s.faults with test := true, testScope := t.scope, remain := t.duration.toNat } }
      mboxEnd unlockCode .ok [] (logDetection 0x10 0x20 3 false 0 (islandCycles s 0x10) 1 0 s)) s)

/-- LOCK (R477). -/
def execTestLock (s : State) : Host.Outcome State Fault Refusal := .next (mailbox unlockCode (fun s => mboxEnd unlockCode .ok [] (endTest s)) s)

/-- DURATION has passed (R478). -/
def execTestModeExpiry (s : State) : Host.Outcome State Fault Refusal :=
  .next (if s.faults.test && s.faults.remain == 0 then endTest s else s)

/-! ### Loopbacks (R495, R496, R501, R502) -/

/-- Replace TEST.LINK_l. -/
def setTestLink (l : Nat) (x : TestLink) (s : State) : State := { s with testLinks := tset {} l x s.testLinks }

/-- A write to TEST.LINK_l: a link in loopback is out of traffic, and retrains when MODE returns to 0 (R496, R501). -/
def execTestLinkMode (l : LinkId) (w : BitVec 32) (s : State) : Host.Outcome State Fault Refusal :=
  .next (
    if !barOpen s || !s.faults.test then s
    else
      let x := tget ({} : TestLink) l.val s.testLinks
      let y := if w.getLsbD 3 then { x with bits := 0, errors := 0, laneErr := 0 } else x
      let y := { y with mode := w.setWidth 2, prbs31 := w.getLsbD 2 }
      let s := setTestLink l y s
      if x.mode = 0 ∧ y.mode ≠ 0 then modLink l (clearLink .down) s
      else if x.mode ≠ 0 ∧ y.mode = 0 ∧ (linkAt s l).enable = true then startTraining l s
      else s)

/-- A write of 1 to CLEAR (R501). -/
def execTestLinkClear (l : LinkId) (s : State) : Host.Outcome State Fault Refusal :=
  .next (
    if !barOpen s || !s.faults.test then s
    else setTestLink l { tget ({} : TestLink) l.val s.testLinks with bits := 0, errors := 0, laneErr := 0 } s)

/-! ### Memory tests (R495, R497, R501) -/

/-- A target is idle: its band is in no field, or it is fenced (R497). -/
def targetIdle (s : State) (t : Nat) : Bool :=
  !s.fld.use.getLsbD (t % 16 / 4) || (if t < 16 then s.faults.fencedStacks.getLsbD t else s.faults.fencedChannels.getLsbD (t % 16))

/-- A pattern test overwrites every line of its target; what it leaves reads as an unwritten line does (R497; log 60). -/
def patternOver (t : Nat) (s : State) : State :=
  if t < 16 then { s with mem := { s.mem with tier1 := mclear s.mem.tier1 (t * Config.stackBytes) Config.stackBytes } }
  else losePool (t % 16) { s with mem := { s.mem with tier2 := mclear s.mem.tier2 (t % 16 * channelSpan) channelSpan } }

/-- A write to TEST.MEM: START begins a test of an idle target, or is refused (R497, R501). While BUSY the model ignores the whole write, the RW fields
TARGET and MODE included: R501 does not say what a write does then (DESIGN CHOICE, log 165). -/
def execTestMemStart (w : BitVec 32) (s : State) : Host.Outcome State Fault Refusal :=
  .next (
    if !barOpen s || !s.faults.test || s.testMem.busy then s
    else
      let mode := bits w.toNat 5 2
      let x := { s.testMem with target := w.setWidth 5, mode := if mode = 3 then s.testMem.mode else BitVec.ofNat 2 mode }
      if !w.getLsbD 7 || x.mode == 0 then { s with testMem := x }
      else if !targetIdle s x.target.toNat then { s with testMem := { x with refused := true } }
      else
        let s := { s with testMem := { x with refused := false, busy := true, pass := false, fails := 0 } }
        if x.mode = 2 then patternOver x.target.toNat s else s)

/-- A memory test ends (R501). -/
def execTestMemDone (fails : Nat) (s : State) : Host.Outcome State Fault Refusal :=
  .next (
    if s.testMem.busy then { s with testMem := { s.testMem with busy := false, pass := fails == 0, fails := satAdd 0 fails } } else s)

/-! ### Register writes (R503 to R505) -/

/-- A field written whole, when the value lies in its range (R505). -/
def keepIn {w : Nat} (ok : Bool) (v : Nat) (old : BitVec w) : BitVec w := if ok then BitVec.ofNat w v else old

/-- Replace half of a 64-bit value. -/
def halfWrite (old : Nat) (high : Bool) (v : Nat) : Nat := if high then old % 0x100000000 + v * 0x100000000 else old / 0x100000000 * 0x100000000 + v

/-- Queue setup registers; ignored while ENABLE is 1, but for ENABLE and QCFG.ERR (R263). -/
def writeQueue (q : QId) (off v : Nat) (s : State) : State :=
  let x := queueAt s q
  let w : BitVec 32 := BitVec.ofNat 32 v
  if off = 0x18 then
    if bitAt v 0 then afterOf s (execQueueEnable q w s)
    else if x.enable then afterOf s (execQueueDisable q s)
    else
      let y := ctrlFields x v
      setQueue s q (if y.irqEn then y else { y with pendCount := 0, coalStart := none })
  else if off = 0x2C then afterOf s (execQcfgErrClear q w s)
  else if x.enable then s
  else if off = 0 ∨ off = 4 then setQueue s q { x with sqBase := BitVec.ofNat 52 (halfWrite (x.sqBase.toNat * 4096) (off = 4) v / 4096) }
  else if off = 8 ∨ off = 12 then setQueue s q { x with cqBase := BitVec.ofNat 52 (halfWrite (x.cqBase.toNat * 4096) (off = 12) v / 4096) }
  else if off = 0x10 then setQueue s q { x with sqSize := BitVec.ofNat 17 v }
  else if off = 0x14 then setQueue s q { x with cqSize := BitVec.ofNat 17 v }
  else if off = 0x1C then setQueue s q { x with vector := BitVec.ofNat 10 v }
  else if off = 0x20 ∨ off = 0x24 then setQueue s q { x with shadow := BitVec.ofNat 58 (halfWrite (x.shadow.toNat * 64) (off = 0x24) v / 64) }
  else s

/-- The MSI-X table: address, data and mask of a vector, as PCIe lays them out (R268). -/
def writeMsix (i : Fin 1028) (off v : Nat) (s : State) : State :=
  let e := tget ({} : MsixEntry) i.val s.host.msix
  let put := fun (e : MsixEntry) => setHost s { s.host with msix := tset {} i.val e s.host.msix }
  if off = 0 ∨ off = 4 then put { e with addr := BitVec.ofNat 64 (halfWrite e.addr.toNat (off = 4) v) }
  else if off = 8 then put { e with data := BitVec.ofNat 32 v }
  else if bitAt v 0 then put { e with masked := true }
  else afterOf s (execMsixUnmask i s)

/-- Bytes 0 to 7 of a routing entry as a number (R348). -/
def routeBits (r : Route) : Nat :=
  r.lo.toNat + 0x1000000 * r.hi.toNat
    + 0x1000000000000 * (r.egress.toNat + 8 * r.dim.toNat + 32 * b2n r.dateline + 64 * b2n r.valid + 256 * r.tcMask.toNat)

/-- The routing entry of a number (R348). -/
def routeOf (v : Nat) : Route :=
  { lo := BitVec.ofNat 20 v, hi := BitVec.ofNat 20 (v / 0x1000000), egress := BitVec.ofNat 3 (v / 0x1000000000000)
    dim := BitVec.ofNat 2 (bits v 51 2), dateline := bitAt v 53, valid := bitAt v 54, tcMask := BitVec.ofNat 4 (bits v 56 4) }

/-- An accept-list entry as a number, and back (R362). -/
def acceptBits (a : Accept) : Nat := a.lo.toNat + 0x100000 * a.hi.toNat + 0x10000000000 * b2n a.valid

/-- The accept-list entry of a number (R362). -/
def acceptOf (v : Nat) : Accept := { lo := BitVec.ofNat 20 v, hi := BitVec.ofNat 20 (v / 0x100000), valid := bitAt v 40 }

/-- Memory and field setup registers (R190, R203, R226, R335, R394, R413, R506). -/
def writeTiers (a v : Nat) (s : State) : State :=
  let lock := s.boot.setupDone
  let m := s.mem
  if 0x80020 ≤ a ∧ a < 0x80030 then
    if 600 ≤ v % 2048 ∧ v % 2048 ≤ 1750 then { s with fld := { s.fld with floorMhz := tset 600 ((a - 0x80020) / 4) (BitVec.ofNat 11 v) s.fld.floorMhz } } else s
  else if 0x80030 ≤ a ∧ a < 0x80040 then { s with fld := { s.fld with parkRank := tset 0 ((a - 0x80030) / 4) (BitVec.ofNat 2 v) s.fld.parkRank } }
  else if a = 0x100000 then { s with mem := { m with windowGib := keepIn (!lock && decide (bits v 0 13 ≤ 4096)) (bits v 0 13) m.windowGib } }
  else if a = 0x100008 then { s with mem := { m with fieldGib := keepIn (!lock && decide (bits v 0 9 ≤ 256)) (bits v 0 9) m.fieldGib } }
  else if a = 0x200000 then
    { s with mem := { m with preserveHbm := bitAt v 0, fwReserve := keepIn (!lock && decide (bits v 8 5 ≤ 16)) (bits v 8 5) m.fwReserve } }
  else if a = 0x200008 then
    { s with mem := { m with hbmHours := keepIn (decide (bits v 0 8 ≤ 168)) (bits v 0 8) m.hbmHours, ddrHours := keepIn (decide (bits v 8 8 ≤ 168)) (bits v 8 8) m.ddrHours } }
  else if a = 0x200010 then { s with mem := { m with t2Hours := keepIn (decide (bits v 0 8 ≤ 168)) (bits v 0 8) m.t2Hours } }
  else if a = 0x400000 then { s with moons := { s.moons with rehashMin := BitVec.ofNat 16 v } }
  else s

/-- Fabric setup registers (R348, R362). -/
def writeFabric (a v : Nat) (s : State) : State :=
  let f := s.fab
  let w : BitVec 32 := BitVec.ofNat 32 v
  if a = 0x600000 then afterOf s (execNodeId w s)
  else if a = 0x600004 then { s with fab := { f with coord := BitVec.ofNat 18 v } }
  else if a = 0x600008 then { s with fab := { f with dims := BitVec.ofNat 21 v } }
  else if a = 0x60000C then { s with fab := { f with windowUs := keepIn (decide (8 ≤ bits v 0 11 ∧ bits v 0 11 ≤ 1024)) (bits v 0 11) f.windowUs } }
  else if a = 0x600010 then (if bitAt v 0 then afterOf s (execCommit s) else s)
  else if 0x610000 ≤ a ∧ a < 0x612000 then
    let i := (a - 0x610000) / 8
    let r := routeOf (halfWrite (routeBits (tget {} i f.staging)) (a % 8 = 4) v)
    { s with fab := { f with staging := tset {} i r f.staging } }
  else if 0x614000 ≤ a ∧ a < 0x614200 then
    let i := (a - 0x614000) / 8
    let x := acceptOf (halfWrite (acceptBits (tget {} i f.accept)) (a % 8 = 4) v)
    { s with fab := { f with accept := tset {} i x f.accept } }
  else match [0, 1, 2, 3, 4, 5].find? fun l => a == 0x600100 + 16 * l with
    | some l =>
      let s := writeLinkEnable l (bitAt v 0) s
      if bitAt v 1 && (linkAt s l).enable && !inLoopback s l then startTraining l s else s
    | none => s

/-- Arbiter setup registers: limit fields lock with SETUP_DONE (R379, R506). -/
def writeArb (a v : Nat) (s : State) : State :=
  let x := s.arbs
  let lim := fun (n : Nat) (old : BitVec 32) => if s.boot.setupDone then old else BitVec.ofNat 32 (v % 2 ^ n)
  { s with arbs :=
    if a = 0x800000 then { x with hbm := lim 30 x.hbm }
    else if a = 0x800004 then { x with ddr0 := lim 30 x.ddr0 }
    else if a = 0x800008 then { x with ddr1 := lim 20 x.ddr1 }
    else if a = 0x80000C then { x with mu := lim 30 x.mu }
    else if a = 0x800010 then { x with link := lim 10 x.link }
    else if a = 0x800014 then { x with fetch := lim 10 x.fetch }
    else if a = 0x800018 then { x with hash := lim 20 x.hash }
    else if a = 0x800020 ∧ v % 65536 ≠ 0 then { x with stepTicks := BitVec.ofNat 16 v }
    else x }

/-- A write to injection slot k, ignored while test mode is off (R480). -/
def writeInj (k off v : Nat) (s : State) : State :=
  let x := tget ({} : InjSlot) k s.faults.inj
  let put := fun (x : InjSlot) => { s with faults := { s.faults with inj := tset {} k x s.faults.inj } }
  if !s.faults.test then s
  else if off = 0 then afterOf s (execInjectionArm (Fin.ofNat 8 k) (BitVec.ofNat 32 v) s)
  else if off = 8 ∨ off = 12 then put { x with loc := BitVec.ofNat 64 (halfWrite x.loc.toNat (off = 12) v) }
  else if off = 16 ∨ off = 20 then put { x with pattern := BitVec.ofNat 64 (halfWrite x.pattern.toNat (off = 20) v) }
  else s

/-- Fault, trace, injection and test registers (R480, R501, R512). -/
def writeFault (a v : Nat) (s : State) : State :=
  let f := s.faults
  let w : BitVec 32 := BitVec.ofNat 32 v
  if a = 0xC00008 then { s with faults := { f with fatalParkMs := keepIn (decide (bits v 0 16 ≤ 60000)) (bits v 0 16) f.fatalParkMs } }
  else if a = 0xC05000 ∨ a = 0xC05004 then
    if f.traceEn then s else { s with faults := { f with traceBase := BitVec.ofNat 52 (halfWrite (f.traceBase.toNat * 4096) (a = 0xC05004) v / 4096) } }
  else if a = 0xC05008 then afterOf s (execTraceEnable w s)
  else if a = 0xC0500C then { s with faults := { f with traceHead := BitVec.ofNat 16 (v / 65536) } }
  else if a = 0xE01000 then afterOf s (execTestMemStart w s)
  else if 0xC00100 ≤ a ∧ a < 0xC00200 then writeInj ((a - 0xC00100) / 32 % 8) (a % 32) v s
  else match [0, 1, 2, 3, 4, 5].find? fun l => a == 0xE00000 + 32 * l with
    | some l => afterOf s (execTestLinkMode (Fin.ofNat 6 l) w s)
    | none => s

/-- A 4-byte write to BAR0 (R503 to R505, R513). MBOX.GO acts by the mailbox commands; whether the bundle verifies at a warm reset begun here is free
(log 61). -/
def write4 (a v : Nat) (s : State) : State :=
  if a = 0x10004 then (if bitAt v 0 then afterOf s (execSetupDone s) else s)
  else if a = 0x10018 then
    if bitAt v 0 then afterOf s (execBootResetWarm ((Config.freeWord s.fresh).getLsbD 0) { s with fresh := s.fresh + 1 }) else s
  else if a = 0x10008 ∨ a = 0x1000C then
    setHost s { s.host with mboxAddr := BitVec.ofNat 58 (halfWrite (s.host.mboxAddr.toNat * 64) (a = 0x1000C) v / 64) }
  else if 0x20000 ≤ a ∧ a < 0x30000 then writeQueue (Fin.ofNat 1024 ((a - 0x20000) / 64)) (a % 64) v s
  else if 0x40000 ≤ a ∧ a < 0x40000 + 16 * 1028 then writeMsix (Fin.ofNat 1028 ((a - 0x40000) / 16)) (a % 16) v s
  else if a = 0x4F000 then
    setHost s { s.host with causeMbox := s.host.causeMbox && !bitAt v 1, causeRemoval := s.host.causeRemoval && !bitAt v 2 }
  else if 0x80000 ≤ a ∧ a < 0x600000 then writeTiers a v s
  else if 0x600000 ≤ a ∧ a < 0x800000 then writeFabric a v s
  else if 0x800000 ≤ a ∧ a < 0xA00000 then writeArb a v s
  else if a = 0xB00028 ∨ a = 0xB0002C then { s with window := { s.window with replaySeq := BitVec.ofNat 64 (halfWrite s.window.replaySeq.toNat (a = 0xB0002C) v) } }
  else if a = 0xB00030 then afterOf s (execReplayGo (BitVec.ofNat 32 v) s)
  else if 0xC00000 ≤ a ∧ a < 0xF00000 then writeFault a v s
  else if a = 0xF10000 then
    let p := bits v 0 16
    let b := bits v 16 12
    setAcct s { s.acct with periodMs := keepIn (decide (100 ≤ p ∧ p ≤ 60000)) p s.acct.periodMs, baseW := keepIn (decide (b ≤ 2400)) b s.acct.baseW }
  else if a = 0xF10008 then
    if bitAt v 0 then (if bitAt v 1 then afterOf s (execClear s) else afterOf s (execTake s)) else s
  else s

/-- REGISTER_WRITE: 4 or 8 bytes, naturally aligned; an 8-byte write is its two halves, the lower first (R503 to R505). -/
def execRegisterWrite (addr : BitVec 24) (size : Nat) (value : BitVec 64) (s : State) : Host.Outcome State Fault Refusal :=
  .next (
    let a := addr.toNat
    let v := value.toNat
    if !barOpen s then s
    else if size = 4 ∧ a % 4 = 0 then write4 a (v % 0x100000000) s
    else if size = 8 ∧ a % 8 = 0 then write4 (a + 4) (v / 0x100000000) (write4 a (v % 0x100000000) s)
    else s)

end Sys2Proof.Machine
end

