-- ==== Sys2Proof/Machine/Sparing.lean ====
section
/-!
DEFINITION. Fields and their layout (18, R460), the self-test of a field (25), and sparing: tests of units, retirement and the new column map (24).
-/

namespace Sys2Proof.Machine

/-! ### FIELD_LAYOUT (R16, R381) -/

/-- A field holds what keeps its bands in place (R381 check 3). -/
def fieldHolds (s : State) (e : Nat × Field) : Bool :=
  (e.2.slots.any fun (x : Nat × Slot) => x.2.skein.isSome) || e.2.pages.any isHost
    || (s.serv.configs.any fun (c : Nat × ServConfig) => c.2.block.field.val == e.1)
    || (s.serv.reqs.any fun (r : Nat × Request) => r.2.field == e.1) || sectionsOf e.2 != []

/-- A memory test works on a band that comes into use (R502). -/
def bandInTest (s : State) (use : Nat) : Bool :=
  s.testMem.busy && (let b := s.testMem.target.toNat % 16 / 4; bitAt use b && !s.fld.use.getLsbD b)

/-- The first check of FIELD_LAYOUT that fails (R381). -/
def checkLayout (s : State) (join use : Nat) : Option Status :=
  if 8 ≤ join ∨ 16 ≤ use ∨ ((List.range 3).any fun b => bitAt join b && !(bitAt use b && bitAt use (b + 1))) = true then some .countMismatch
  else if (List.range 4).any fun b => bitAt use b && s.faults.fencedBands.getLsbD b then some .noPlacement
  else if (s.fld.fields.any fun e => !fieldStands (layoutRuns join use) e && fieldHolds s e) || bandInTest s use then some .countMismatch
  else none

/-- FIELD_LAYOUT (R381). -/
def execFieldLayout (join : BitVec 8) (use : BitVec 8) (s : State) : Host.Outcome State Fault Refusal :=
  .next (mailbox 0x0050 (fun s =>
    if !s.boot.laidOut then mboxEnd 0x0050 .countMismatch [] s
    else match checkLayout s join.toNat use.toNat with
      | some st => mboxEnd 0x0050 st [] s
      | none => mboxEnd 0x0050 .ok [] (formFields join.toNat use.toNat s)) s)

/-! ### FIELD_STATE (R460) -/

/-- A request of the field is in QUEUED, PREFILL or DECODE. -/
def fieldServes (s : State) (f : Nat) : Bool := s.serv.reqs.any fun (r : Nat × Request) => r.2.field == f && openState r.2.state

/-- A moon call is pending on the field's stacks. -/
def fieldCalls (s : State) (fl : Field) : Bool := s.moons.calls.any fun c => (bandStacks fl).contains c.lead

/-- FIELD_STATE ACTION 0: WAKE (R460). -/
def execFieldWake (f : FieldId) (s : State) : Host.Outcome State Fault Refusal :=
  .next (mailbox 0x0052 (fun s =>
    match fieldAt s f with
    | none => mboxEnd 0x0052 .countMismatch [] s
    | some _ => mboxEnd 0x0052 .ok [] (wakeField f s)) s)

/-- FIELD_STATE ACTION 1: SLEEP (R460, R462). -/
def execFieldSleep (f : FieldId) (s : State) : Host.Outcome State Fault Refusal :=
  .next (mailbox 0x0052 (fun s =>
    match fieldAt s f with
    | none => mboxEnd 0x0052 .countMismatch [] s
    | some fl =>
      if fieldServes s f || sectionsOf fl != [] || fieldCalls s fl then mboxEnd 0x0052 .countMismatch [] s
      else mboxEnd 0x0052 .ok [] (setField s f { fl with asleep := true })) s)

/-- FIELD_STATE ACTION 2: RESET (R459, R460). -/
def execFieldReset (f : FieldId) (s : State) : Host.Outcome State Fault Refusal :=
  .next (mailbox 0x0052 (fun s =>
    match fieldAt s f with
    | none => mboxEnd 0x0052 .countMismatch [] s
    | some _ =>
      if fieldServes s f then mboxEnd 0x0052 .countMismatch [] s
      else mboxEnd 0x0052 .ok [] (resetField f (statusCode .cancelled) s)) s)

/-! ### Retirement (R470, R483, R484, R487) -/

/-- The pair serves logical columns of the map in force (R482). -/
def pairMapped (s : State) (b j : Nat) : Bool := (bandColumns (bandPairs s b)).contains (2 * j)

/-- Module tiles of a mapped pair. -/
def pairTiles (s : State) (b j : Nat) : List Nat :=
  let n := (bandColumns (bandPairs s b)).length
  (List.range 10).flatMap fun r => ((List.range n).map fun c => 40 * (10 * b + r) + c).filter fun t => tilePair s t == j

/-- Fills that wait for a slot of a field that goes complete with the status that their profile check would now give (R106; log 63). -/
def dropFills (f : Nat) (s : State) : State :=
  let gone := s.fld.fills.filter fun w => w.field == f
  gone.foldl (fun s w => match w.acc with
    | some a => finish a .profileMismatch 4 0 s
    | none => s) { s with fld := { s.fld with fills := s.fld.fills.filter fun w => w.field != f } }

/-- The actions of R487 on the field that holds a band; the field goes, and its other bands keep their USE and JOIN bits. -/
def endField (f : Nat) (s : State) : State :=
  let s := resetField f (statusCode .fencedUnit) s
  let ends := (s.serv.reqs.filter fun (r : Nat × Request) => r.2.field == f && openState r.2.state).map (·.1)
  let s := ends.foldl (fun s r => closeReq r (statusCode .fencedUnit) 0 s) s
  removeField f (dropFills f s)

/-- A band with five retired pairs is fenced for good (R487). -/
def fenceForGood (b : Nat) (s : State) : State :=
  let s := fenceBand b { s with store := { s.store with bandFenced := setBit s.store.bandFenced b true } }
  let s := match fieldOfBand s b with
    | some f => endField f s
    | none => s
  unuseBand b { s with fld := { s.fld with
    pairs := tset 0 b (tget 0 b s.store.retired) s.fld.pairs, pendingPairs := tdel b s.fld.pendingPairs } }

/-- A pair retires (R483, R484 steps 1 to 3, R491, R492): a spare at once; a mapped pair is fenced, and its field holds new dispatches; at the fifth
the band is fenced (R487). -/
def retirePair (b j : Nat) (s : State) : State :=
  let old := tget 0 b s.store.retired
  if old.getLsbD j then s
  else
    let all := setBit old j true
    let mapped := pairMapped s b j
    let s := { s with store := { s.store with retired := tset 0 b all s.store.retired, pairsEver := tmod 0 b (fun n => min 255 (n + 1)) s.store.pairsEver } }
    if 5 ≤ retiredCount all then fenceForGood b s
    else if !mapped then { s with fld := { s.fld with pairs := tmod 0 b (fun x => setBit x j true) s.fld.pairs } }
    else
      let s := (pairTiles s b j).foldl (fun s t => fenceUnit t s) s
      let s := { s with fld := { s.fld with pendingPairs := tmod 0 b (fun x => setBit x j true) s.fld.pendingPairs } }
      match fieldOfBand s b with
      | some f => modField f (fun fl => { fl with held := true }) s
      | none => s

/-- The unit has had two class-1 events that were not injected within 86,400,000,000 ticks (R470). -/
def twoEvents (s : State) (t : Nat) : Bool :=
  let l := (s.faults.unitEvents.filter fun (e : Nat × Nat) => e.1 == t).map (·.2)
  (l.zip l.tail).any fun (e : Nat × Nat) => decide (e.2 ≤ e.1 + 86400000000)

/-- The unit test: no section uses the fenced unit any more; it passes and the fence lifts, or its pair retires (R470, R498). -/
def execUnitTest (u : Tile) (pass : Bool) (s : State) : Host.Outcome State Fault Refusal :=
  let t := 40 * u.row.val + u.col.val
  let b := tileBand t
  .next (
    if !s.entry.main || s.faults.fatal || !s.faults.fencedUnits.contains t || (tget 0 b s.fld.pendingPairs).getLsbD (tilePair s t) then s
    else if (match fieldOfTile s t with | some (_, fl, r, c) => sectionsUsing fl r c != [] | none => false) then s
    else
      let before := s
      let s := setUnit s t {}
      if pass && !twoEvents s t then
        noteLift (tileIsland s t) (tileLoc t) 2 { s with faults := { s.faults with fencedUnits := s.faults.fencedUnits.filter fun x => x != t } }
      else noteService before (retirePair b (tilePair s t) s))

/-! ### The new column map (R482, R484 steps 4 to 6, R485, R494) -/

/-- A module tile of a band on its new map: the logical tile of the same physical place; none where its pair has retired. -/
def remapTile (old new : List Nat) (b t : Nat) : Option Nat :=
  if tileBand t ≠ b then some t
  else match old[t % 40]? with
    | none => none
    | some p => (new.findIdx? fun q => q == p).map fun c => t / 40 * 40 + c

/-- Fences and events of units follow their physical units. -/
def remapUnits (b : Nat) (new : BitVec 22) (s : State) : State :=
  let g := remapTile (bandColumns (bandPairs s b)) (bandColumns new) b
  { s with faults := { s.faults with
    fencedUnits := (s.faults.fencedUnits.filterMap g).foldl (fun l t => insertOnce t l) []
    unitEvents := s.faults.unitEvents.filterMap fun (e : Nat × Nat) => (g e.1).map fun t => (t, e.2) } }

/-- Refill one slot of a field (R485). -/
def refillSlot (f : Nat) (s : State) (e : Nat × Slot) : State := match e.2.skein with
  | none => s
  | some i =>
    if profileBad s f i then s
    else match checkLoad s f e.1 i with
      | none => fillSlot f e.1 i s
      | some (st, _) => modField f (fun fl => { fl with slots := tset {} e.1 { skein := none, refillFail := some (statusCode st), bound := 0 } fl.slots }) s

/-- The status of a section that waits and whose slot the refill has left unfilled (R166, R485). -/
def unfilled (s : State) (f : Nat) (fl : Field) (x : Section) : Option (BitVec 16) :=
  let sl := tget ({} : Slot) x.slot fl.slots
  match sl.skein with
  | none => some (sl.refillFail.getD (statusCode .noPlacement))
  | some i => if profileBad s f i then some (statusCode .profileMismatch) else none

/-- Held dispatches go on (R484 step 6); those whose slot is unfilled complete with its status. -/
def releaseField (f : Nat) (s : State) : State :=
  let s := modField f (fun fl => { fl with held := false }) s
  match fieldAt s f with
  | none => s
  | some fl =>
    let s := fl.waiting.foldl (fun s x => match unfilled s f fl x with
      | some st => closeSection f x.id st 0 0 s
      | none => s) s
    pullWaiting f Config.seqDepth s

/-- Step 4 may apply a field's new map: no section, no in-place record, no park (R484). -/
def mapReady (s : State) (f : Nat) (fl : Field) : Bool := fl.seq.isEmpty && !heldInPlace s f && !fieldParked s f

/-- A band takes its new column map: units and places follow (R484, R485). -/
def applyMap (b : Nat) (s : State) : State :=
  let new := tget 0 b s.store.retired
  let s := remapUnits b new s
  { s with fld := { s.fld with pairs := tset 0 b new s.fld.pairs, pendingPairs := tdel b s.fld.pendingPairs } }

/-- The new map of a band is applied, its field's slots are refilled and its dispatches released (R484, R485, R494). -/
def execColumnMapApply (b : BandId) (s : State) : Host.Outcome State Fault Refusal :=
  .next (
    if tget 0 b.val s.fld.pendingPairs = 0 ∨ s.entry.main = false ∨ s.faults.fatal = true then s
    else
      match fieldOfBand s b with
      | none =>
        let s := applyMap b s
        { s with grid := { s.grid with units := s.grid.units.filter fun (e : Nat × TileUnit) => tileBand e.1 != b.val } }
      | some f => match fieldAt s f with
        | none => s
        | some fl =>
          if !mapReady s f fl then s
          else
            let s := clearUnits f fl (applyMap b (wakeField f s))
            let s := fl.slots.foldl (refillSlot f) s
            if fl.bands.any fun k => tget 0 k s.fld.pendingPairs != 0 then s else releaseField f s)

/-! ### SELF_TEST (R499) -/

/-- Failing pairs of a band in the order in which their units are named. -/
def failingPairs (s : State) (b : Nat) (failing : List Tile) : List Nat :=
  (failing.filterMap fun u =>
    let t := 40 * u.row.val + u.col.val
    if tileBand t = b ∧ u.col.val < (bandColumns (bandPairs s b)).length then some (tilePair s t) else none).foldl (fun l j => insertOnce j l) []

/-- SELF_TEST: a field reset, the test of every unit, the retirement of failing pairs, the result (R499). -/
def execSelfTest (f : FieldId) (resultAddr : BitVec 64) (failing : List Tile) (s : State) : Host.Outcome State Fault Refusal :=
  .next (mailbox 0x0061 (fun s =>
    match fieldAt s f with
    | none => mboxEnd 0x0061 .countMismatch [] s
    | some fl =>
      if fieldServes s f then mboxEnd 0x0061 .countMismatch [] s
      else if !aligned resultAddr.toNat 64 then mboxEnd 0x0061 .badAlignment [] s
      else
        let before := s
        let bad := fl.bands.map fun b => (b, failingPairs s b failing)
        let s := resetField f (statusCode .cancelled) s
        let s := bad.foldl (fun s (e : Nat × List Nat) => e.2.foldl (fun s j => retirePair e.1 j s) s) s
        let word := fun (e : Nat × List Nat) => sumN (e.2.map fun j => 2 ^ j) + 0x80000000 * b2n (s.faults.fencedBands.getLsbD e.1)
        let s := if resultAddr = 0 then s else hostWrite s resultAddr.toNat (padTo 64 (bad.flatMap fun e => leBytes 4 (word e)))
        mboxEnd 0x0061 .ok [] (noteService before s)) s)

end Sys2Proof.Machine
end

