-- ==== Sys2Proof/Machine/Fencing.lean ====
section
/-!
DEFINITION. Meanings of the fault manager's and the management controller's own events (23): fence actions, fatal events, ALIVE, the endurance region.
-/

namespace Sys2Proof.Machine

/-- A detector reads its island's cycle counter with the event: a running counter has only advanced (R20, R472; log 70). -/
def takeCycles (island : Nat) (cycles : BitVec 64) (s : State) : State :=
  if cyclesPerTick s island = 0 ∨ cycles < islandCycles s island then s
  else { s with grid := { s.grid with cycles := tset 0 island cycles s.grid.cycles } }

/-- The unit that a WHERE names exists on the map of its band. -/
def unitExists (s : State) (t : Nat) : Bool := decide (t / 40 < 40 ∧ t % 40 < (bandColumns (bandPairs s (tileBand t))).length)

/-- A unit's detection as its WHERE gives it (R468); WHERE of a column of 40 or more names no unit. -/
def tileDetection (det loc : Nat) (s : State) : State :=
  let t := locTile loc
  if bits loc 8 6 < 40 ∧ unitExists s t = true then unitDetection t det (loc - tileLoc t) false s else s

/-- The fault manager marks a device of a subchannel as failed; a second one switches the channel off (R198, R490, R492). -/
def markDevice (k line d : Nat) (s : State) : State :=
  let i := subchannel k line
  let cur := tget 15 i s.store.devMark
  let t := s.store
  if cur = d then s
  else if cur = 15 then { s with store := { t with devMark := tset 15 i d t.devMark, devsEver := tmod 0 k (fun n => min 255 (n + 1)) t.devsEver } }
  else { s with store := { t with channelOff := setBit t.channelOff k true, devsEver := tmod 0 k (fun n => min 255 (n + 1)) t.devsEver } }

/-- Whether an uncorrectable DDR5 line shows a failed device, and which, is a free value (R198; log 167). -/
def findDevice (k line : Nat) (s : State) : State :=
  let t := { s with fresh := s.fresh + 1 }
  match Config.failedDevice s.fresh with
  | some d => markDevice k line d t
  | none => t

/-- A line that the code could not correct: its entry, its frame retires, and a failed DDR5 device is marked (R198, R199, R468). -/
def lineDetection (tier2 : Bool) (k loc : Nat) (s : State) : State :=
  let t := retireFrame tier2 k loc (logClass1 (if tier2 then 0x03 else 0x02) ((if tier2 then 0x40 else 0x30) + k) loc false (statusCode .fencedUnit) s)
  if tier2 then findDevice k (loc / 64 * 64) t else t

/-- A translation fault of a moon's request: the sections of the call at work (R193, R468). -/
def moonTranslation (k loc : Nat) (s : State) : State := match headCall s k with
  | some c => moonFault k c (loc / 65536 * 4096) s
  | none => logClass1 0x08 (0x20 + k) loc false (statusCode .fencedUnit) s

/-- A malformed call of a channel (R215, R468). -/
def callDetection (k loc : Nat) (s : State) : State :=
  match s.moons.calls.find? fun c => c.lead == k && c.channel == loc % 64 with
  | some c => (match fieldAt s c.field with
    | some fl => callFormat c fl false s
    | none => s)
  | none => s

/-- A mismatch that the interval check of a moon found: the copy that WHERE names is quarantined; where two models of the field have a copy of
that index the entry does not tell which (R336, R468; log 64). -/
def digestDetection (island loc : Nat) (s : State) : State :=
  if island = 0x10 then logClass1 0x0A island loc false (statusCode .digestFail) s
  else
    let f := bits loc 16 2
    let hit := (fieldModels s f).flatMap fun m => (m.copies.filter fun c => c.index % 65536 == bits loc 0 16).map fun c => (m.digest, c)
    let s := logClass1 0x0A island loc false (statusCode .quarantinedShard) s
    match hit with
    | [(d, c)] => settleCopies (quarantineEnds f c
        (noteFence c.quarantined loc (setCopy (some f) d c.index (fun c => { c with quarantined := true, since := s.tick }) s)))
    | _ => s

/-- A class-1 detection: its entry and the fence of its scope (R467 to R472). -/
def fenceAction (det island loc : Nat) (s : State) : State :=
  if det = 0x01 ∨ det = 0x05 ∨ det = 0x06 ∨ det = 0x07 then tileDetection det loc s
  else if det = 0x02 then (if 0x30 ≤ island ∧ island < 0x40 then lineDetection false (island - 0x30) loc s else s)
  else if det = 0x03 then (if 0x40 ≤ island ∧ island < 0x50 then lineDetection true (island - 0x40) loc s else s)
  else if det = 0x04 then (if island < 0x10 then tileDetection det loc s else logClass1 det island loc false (statusCode .fencedUnit) s)
  else if det = 0x08 then
    if island < 0x10 then tileDetection det loc s
    else if 0x20 ≤ island ∧ island < 0x30 then moonTranslation (island - 0x20) loc s
    else logClass1 det island loc false (statusCode .fencedUnit) s
  else if det = 0x09 then (if 0x20 ≤ island ∧ island < 0x30 then callDetection (island - 0x20) loc s else s)
  else if det = 0x0A then digestDetection island loc s
  else if det = 0x0B then (if 0x18 ≤ island ∧ island < 0x1E then loseLink (island - 0x18) (bits loc 0 5) s else s)
  else if det = 0x0C then logClass1 det 0x10 loc false (statusCode .stallDetected) s
  else if det = 0x0E ∨ (det = 0x0D ∧ 0x30 ≤ island) then clockFence island (logClass1 det island loc false (if det = 0x0E then clockStatus island else 0) s)
  else s

/-- FENCE_ACTION (R467 to R472). -/
def execFenceAction (d : Detection) (s : State) : Host.Outcome State Fault Refusal :=
  .next (
    let det := d.detector.toNat
    let isl := d.island.toNat
    if !s.entry.main || fatalDetector det isl || !islandKnown isl then s
    else
      let t := takeCycles isl d.cycles s
      noteService s (liftFences (fenceAction det isl d.loc.toNat (if det = 0x0B ∨ det = 0x0E then t else injMeet det isl d.loc.toNat t))))

/-- FATAL_EVENT: a fatal detection (R468, R474). A trip and an input out of range remove the main rails (R31, R409, R412); a main rail out of
regulation drops PWR_GOOD (R28). -/
def execFatalEvent (d : Detection) (s : State) : Host.Outcome State Fault Refusal :=
  .next (
    let det := d.detector.toNat
    let isl := d.island.toNat
    if !s.entry.main || !fatalDetector det isl then s
    else
      let s := takeCycles isl d.cycles s
      if det = 0x13 then afterOf s (execThermalTrip d.island s)
      else if det = 0x12 then
        let s := fatalRailsOff det isl d.loc.toNat s
        setEntry s { s.entry with inputFault := true }
      else
        let s := if det = 0x11 then setEntry s { s.entry with pwrGood := false } else s
        fatalStart det isl d.loc.toNat false false s)

/-- HEARTBEAT_LOSS: the counter of a control-core pair has not advanced for 1 ms (R468). -/
def execHeartbeatLoss (pair : Bool) (cycles : BitVec 64) (s : State) : Host.Outcome State Fault Refusal :=
  .next (if s.entry.main then fatalStart 0x10 0x12 (b2n pair) false false (takeCycles 0x12 cycles s) else s)

/-- A request whose comet is not complete ends DEVICE_FATAL; what a PARK waits for ends with the other descriptors (R475). -/
def fatalRequest (s : State) (e : Nat × Request) : State :=
  let s := releaseReserve (e.2.park.bind (·.2)) s
  if e.2.acc.isSome then closeReq e.1 (statusCode .deviceFatal) 0 (modReq e.1 (fun q => { q with park := none, parkDesc := none, cancels := [] }) s)
  else modReq e.1 (fun q => { q with park := none, parkDesc := none, cancels := [] }) s

/-- FATAL_PARK_EXPIRY: the end of step 4, and step 5: every other open descriptor completes DEVICE_FATAL (R474, R475). -/
def execFatalParkExpiry (s : State) : Host.Outcome State Fault Refusal :=
  .next (
    if s.faults.fatalPhase ≠ .stopped then s
    else
      let s := s.serv.reqs.foldl fatalRequest s
      let s := s.host.opens.foldl (fun s (e : Nat × OpenDesc) => if (tfind e.1 s.host.opens).isSome then finish e.1 .deviceFatal 0 0 s else s) s
      { s with faults := { s.faults with fatalPhase := .completed } })

/-- ALIVE toggles: the control cores have started, and nothing holds it low (R476). -/
def aliveRuns (s : State) : Bool :=
  s.entry.main && !s.faults.fatal && !s.boot.warmBusy && (s.boot.stage == .bringup || s.boot.stage == .ready)

/-- ALIVE_TOGGLE (R39, R476). -/
def execAliveToggle (s : State) : Host.Outcome State Fault Refusal :=
  .next (if aliveRuns s then setEntry s { s.entry with alive := !s.entry.alive, aliveSeen := true } else s)

/-- ENDURANCE_WRITE: the management controller writes the endurance region; its counters only increase (R447, R492). -/
def execEnduranceWrite (hours thermalCycles : Nat) (s : State) : Host.Outcome State Fault Refusal :=
  .next (
    if !mgmtOn s then s
    else writeEndurance { s with store := { s.store with hours := max s.store.hours hours, thermalCycles := max s.store.thermalCycles thermalCycles } })

end Sys2Proof.Machine
end

