-- ==== Sys2Proof/Machine/Dispatch.lean ====
section
/-!
DEFINITION. One arm for each command, in the order of the table: a direct call of its meaning, or a refusal by name.
-/

namespace Sys2Proof.Machine

/-- The effect of a command on the state; the queue of waiting commands is the step's. -/
def exec (i : Instr) (s : State) : Host.Outcome State Fault Refusal :=
  match i with
  | .nop q h => Sys2Proof.Machine.execNop q h s
  | .fence q h allQueues => Sys2Proof.Machine.execFence q h allQueues s
  | .timeMark q h => Sys2Proof.Machine.execTimeMark q h s
  | .copy q h d data => Sys2Proof.Machine.execCopy q h d data s
  | .copyCollective q h d => Sys2Proof.Machine.execCopyCollective q h d s
  | .loadSkein q h d img => Sys2Proof.Machine.execLoadSkein q h d img s
  | .runSection q h d block => Sys2Proof.Machine.execRunSection q h d block s
  | .moonLoad q h d img => Sys2Proof.Machine.execMoonLoad q h d img s
  | .weightLoad q h d m => Sys2Proof.Machine.execWeightLoad q h d m s
  | .requestSubmit q h d prompt => Sys2Proof.Machine.execRequestSubmit q h d prompt s
  | .requestCancel q h targetSq targetSeq => Sys2Proof.Machine.execRequestCancel q h targetSq targetSeq s
  | .parkSection q h d => Sys2Proof.Machine.execParkSection q h d s
  | .parkRequest q h d => Sys2Proof.Machine.execParkRequest q h d s
  | .resumeParkRecord q h d => Sys2Proof.Machine.execResumeParkRecord q h d s
  | .resumeDiscard q h d => Sys2Proof.Machine.execResumeDiscard q h d s
  | .resumeComet q h d c => Sys2Proof.Machine.execResumeComet q h d c s
  | .kvShip q h d => Sys2Proof.Machine.execKvShip q h d s
  | .descriptorFetchBurst q descs => Sys2Proof.Machine.execDescriptorFetchBurst q descs s
  | .sqTail q v => Sys2Proof.Machine.execSqTail q v s
  | .cqHead q v => Sys2Proof.Machine.execCqHead q v s
  | .queueEnable q w => Sys2Proof.Machine.execQueueEnable q w s
  | .queueDisable q => Sys2Proof.Machine.execQueueDisable q s
  | .qcfgErrClear q w => Sys2Proof.Machine.execQcfgErrClear q w s
  | .irqEnClear q => Sys2Proof.Machine.execIrqEnClear q s
  | .coalTimerExpiry q => Sys2Proof.Machine.execCoalTimerExpiry q s
  | .msixUnmask v => Sys2Proof.Machine.execMsixUnmask v s
  | .cxlPortDown port => Sys2Proof.Machine.execCxlPortDown port s
  | .cxlPortUp port lanes slow twoPorts => Sys2Proof.Machine.execCxlPortUp port lanes slow twoPorts s
  | .cxlMemRead line => Sys2Proof.Machine.execCxlMemRead line s
  | .cxlMemWrite line data => Sys2Proof.Machine.execCxlMemWrite line data s
  | .download b => Sys2Proof.Machine.execDownload b s
  | .bringupReady t => Sys2Proof.Machine.execBringupReady t s
  | .map b => Sys2Proof.Machine.execMap b s
  | .unmap b => Sys2Proof.Machine.execUnmap b s
  | .serveMode b => Sys2Proof.Machine.execServeMode b s
  | .serveConfig b => Sys2Proof.Machine.execServeConfig b s
  | .expertMap config count entries => Sys2Proof.Machine.execExpertMap config count entries s
  | .retainedFree req => Sys2Proof.Machine.execRetainedFree req s
  | .retainedPack req => Sys2Proof.Machine.execRetainedPack req s
  | .cometTrust count digests => Sys2Proof.Machine.execCometTrust count digests s
  | .modelOwners count blocks => Sys2Proof.Machine.execModelOwners count blocks s
  | .modelDrop digest => Sys2Proof.Machine.execModelDrop digest s
  | .collGroup group valid p nodes joinWait => Sys2Proof.Machine.execCollGroup group valid p nodes joinWait s
  | .fieldLayout join use => Sys2Proof.Machine.execFieldLayout join use s
  | .placeGroup group count members => Sys2Proof.Machine.execPlaceGroup group count members s
  | .fieldWake f => Sys2Proof.Machine.execFieldWake f s
  | .fieldSleep f => Sys2Proof.Machine.execFieldSleep f s
  | .fieldReset f => Sys2Proof.Machine.execFieldReset f s
  | .testNonce nonce => Sys2Proof.Machine.execTestNonce nonce s
  | .testUnlock t => Sys2Proof.Machine.execTestUnlock t s
  | .testLock => Sys2Proof.Machine.execTestLock s
  | .selfTest f resultAddr failing => Sys2Proof.Machine.execSelfTest f resultAddr failing s
  | .setupDone => Sys2Proof.Machine.execSetupDone s
  | .bootResetWarm reverified => Sys2Proof.Machine.execBootResetWarm reverified s
  | .commit => Sys2Proof.Machine.execCommit s
  | .routingBankSwap => Sys2Proof.Machine.execRoutingBankSwap s
  | .linkEnable l v => Sys2Proof.Machine.execLinkEnable l v s
  | .retrain l => Sys2Proof.Machine.execRetrain l s
  | .nodeId w => Sys2Proof.Machine.execNodeId w s
  | .replayGo w => Sys2Proof.Machine.execReplayGo w s
  | .take => Sys2Proof.Machine.execTake s
  | .clear => Sys2Proof.Machine.execClear s
  | .testLinkMode l w => Sys2Proof.Machine.execTestLinkMode l w s
  | .testLinkClear l => Sys2Proof.Machine.execTestLinkClear l s
  | .testMemStart w => Sys2Proof.Machine.execTestMemStart w s
  | .testMemDone fails => Sys2Proof.Machine.execTestMemDone fails s
  | .traceEnable w => Sys2Proof.Machine.execTraceEnable w s
  | .injectionArm k w => Sys2Proof.Machine.execInjectionArm k w s
  | .registerWrite addr size value => Sys2Proof.Machine.execRegisterWrite addr size value s
  | .heartbeat bus active => Sys2Proof.Machine.execHeartbeat bus active s
  | .setCap bus value => Sys2Proof.Machine.execSetCap bus value s
  | .setOrphanCap bus value => Sys2Proof.Machine.execSetOrphanCap bus value s
  | .getStatus bus => Sys2Proof.Machine.execGetStatus bus s
  | .meterMark bus m => Sys2Proof.Machine.execMeterMark bus m s
  | .warmReset bus reverified => Sys2Proof.Machine.execWarmReset bus reverified s
  | .fwOffer bus bytes => Sys2Proof.Machine.execFwOffer bus bytes s
  | .fwData bus offset data found => Sys2Proof.Machine.execFwData bus offset data found s
  | .fwReadTimeout => Sys2Proof.Machine.execFwReadTimeout s
  | .getVersion c => Sys2Proof.Machine.execGetVersion c s
  | .getCapabilities c => Sys2Proof.Machine.execGetCapabilities c s
  | .negotiateAlgorithms c ed25519 sha384 secp384r1 aes256gcm => Sys2Proof.Machine.execNegotiateAlgorithms c ed25519 sha384 secp384r1 aes256gcm s
  | .getDigests c => Sys2Proof.Machine.execGetDigests c s
  | .getCertificate c slot offset length => Sys2Proof.Machine.execGetCertificate c slot offset length s
  | .challenge c slot nonce => Sys2Proof.Machine.execChallenge c slot nonce s
  | .getMeasurements c index sign nonce => Sys2Proof.Machine.execGetMeasurements c index sign nonce s
  | .keyExchange c session exchange => Sys2Proof.Machine.execKeyExchange c session exchange s
  | .finish c session macOk => Sys2Proof.Machine.execFinish c session macOk s
  | .spdmHeartbeat c session => Sys2Proof.Machine.execSpdmHeartbeat c session s
  | .keyUpdate c session op => Sys2Proof.Machine.execKeyUpdate c session op s
  | .endSession c session => Sys2Proof.Machine.execEndSession c session s
  | .chunkSend c handle number last data => Sys2Proof.Machine.execChunkSend c handle number last data s
  | .chunkGet c handle number => Sys2Proof.Machine.execChunkGet c handle number s
  | .cosign c what => Sys2Proof.Machine.execCosign c what s
  | .getChain c offset length => Sys2Proof.Machine.execGetChain c offset length s
  | .p56vContact => Sys2Proof.Machine.execP56vContact s
  | .prechargeComplete => Sys2Proof.Machine.execPrechargeComplete s
  | .prechargeTimeout reached44 => Sys2Proof.Machine.execPrechargeTimeout reached44 s
  | .pwrEnRise => Sys2Proof.Machine.execPwrEnRise s
  | .pwrEnFall => Sys2Proof.Machine.execPwrEnFall s
  | .removeOkRelease => Sys2Proof.Machine.execRemoveOkRelease s
  | .attnN => Sys2Proof.Machine.execAttnN s
  | .flowOkFall => Sys2Proof.Machine.execFlowOkFall s
  | .flowOkRise => Sys2Proof.Machine.execFlowOkRise s
  | .flowCapLift => Sys2Proof.Machine.execFlowCapLift s
  | .inputBelow50v mv => Sys2Proof.Machine.execInputBelow50v mv s
  | .inputCapLift => Sys2Proof.Machine.execInputCapLift s
  | .inputBelow44v mv => Sys2Proof.Machine.execInputBelow44v mv s
  | .inputLossPark => Sys2Proof.Machine.execInputLossPark s
  | .inputAbove62v => Sys2Proof.Machine.execInputAbove62v s
  | .periodicPowerReport => Sys2Proof.Machine.execPeriodicPowerReport s
  | .managersSilent => Sys2Proof.Machine.execManagersSilent s
  | .governorCheck watts fieldWatts => Sys2Proof.Machine.execGovernorCheck watts fieldWatts s
  | .governorUnpark headroom => Sys2Proof.Machine.execGovernorUnpark headroom s
  | .lagEpisodeStart => Sys2Proof.Machine.execLagEpisodeStart s
  | .lagReport => Sys2Proof.Machine.execLagReport s
  | .lagEpisodeEnd => Sys2Proof.Machine.execLagEpisodeEnd s
  | .thermalHot island celsius => Sys2Proof.Machine.execThermalHot island celsius s
  | .thermalCapStep celsius => Sys2Proof.Machine.execThermalCapStep celsius s
  | .thermalPark island => Sys2Proof.Machine.execThermalPark island s
  | .thermalUnpark f => Sys2Proof.Machine.execThermalUnpark f s
  | .thermalTrip island => Sys2Proof.Machine.execThermalTrip island s
  | .perstAssert => Sys2Proof.Machine.execPerstAssert s
  | .perstRelease pufOk => Sys2Proof.Machine.execPerstRelease pufOk s
  | .flr => Sys2Proof.Machine.execFlr s
  | .d3hotEntry => Sys2Proof.Machine.execD3hotEntry s
  | .d0Entry => Sys2Proof.Machine.execD0Entry s
  | .islandClockStop band quarter => Sys2Proof.Machine.execIslandClockStop band quarter s
  | .sectionDispatch f => Sys2Proof.Machine.execSectionDispatch f s
  | .slotFill f slot => Sys2Proof.Machine.execSlotFill f slot s
  | .unitFire t fire => Sys2Proof.Machine.execUnitFire t fire s
  | .entryArrival th dest => Sys2Proof.Machine.execEntryArrival th dest s
  | .creditReturn th dest => Sys2Proof.Machine.execCreditReturn th dest s
  | .tokenStart t ci => Sys2Proof.Machine.execTokenStart t ci s
  | .tokenDone t ci => Sys2Proof.Machine.execTokenDone t ci s
  | .tokenSelect t ci => Sys2Proof.Machine.execTokenSelect t ci s
  | .tokenEndSection t ci => Sys2Proof.Machine.execTokenEndSection t ci s
  | .tokenFlush t ci => Sys2Proof.Machine.execTokenFlush t ci s
  | .tokenAbort t ci => Sys2Proof.Machine.execTokenAbort t ci s
  | .unitSwap t => Sys2Proof.Machine.execUnitSwap t s
  | .sectionComplete f => Sys2Proof.Machine.execSectionComplete f s
  | .runEmptyDrainDone f => Sys2Proof.Machine.execRunEmptyDrainDone f s
  | .abortDrainTimeout f => Sys2Proof.Machine.execAbortDrainTimeout f s
  | .scanSettleExpiry f => Sys2Proof.Machine.execScanSettleExpiry f s
  | .tierRequestComplete t ctx fin => Sys2Proof.Machine.execTierRequestComplete t ctx fin s
  | .arbiterBeat a => Sys2Proof.Machine.execArbiterBeat a s
  | .watchdogExpiry f => Sys2Proof.Machine.execWatchdogExpiry f s
  | .inputPark f => Sys2Proof.Machine.execInputPark f s
  | .copyBatchClose => Sys2Proof.Machine.execCopyBatchClose s
  | .copyTransferDone q seq => Sys2Proof.Machine.execCopyTransferDone q seq s
  | .shardHashed r => Sys2Proof.Machine.execShardHashed r s
  | .pageMoveDone => Sys2Proof.Machine.execPageMoveDone s
  | .scrubPass p found => Sys2Proof.Machine.execScrubPass p found s
  | .moonCall k channel => Sys2Proof.Machine.execMoonCall k channel s
  | .moonCallPartDone k => Sys2Proof.Machine.execMoonCallPartDone k s
  | .moonPartialCombine k => Sys2Proof.Machine.execMoonPartialCombine k s
  | .moonCallComplete k channel cycles => Sys2Proof.Machine.execMoonCallComplete k channel cycles s
  | .moonResultFetch k channel t ctx => Sys2Proof.Machine.execMoonResultFetch k channel t ctx s
  | .moonServiceStep k => Sys2Proof.Machine.execMoonServiceStep k s
  | .rehashPass field manifest shard hash uncorrectable => Sys2Proof.Machine.execRehashPass field manifest shard hash uncorrectable s
  | .stepBoundary f => Sys2Proof.Machine.execStepBoundary f s
  | .tokenSample f => Sys2Proof.Machine.execTokenSample f s
  | .stepCommit f c => Sys2Proof.Machine.execStepCommit f c s
  | .deadlineExpiry r => Sys2Proof.Machine.execDeadlineExpiry r s
  | .requestIdlePark r => Sys2Proof.Machine.execRequestIdlePark r s
  | .entryAllocate => Sys2Proof.Machine.execEntryAllocate s
  | .cometWritten r fail => Sys2Proof.Machine.execCometWritten r fail s
  | .flitReceive l fl => Sys2Proof.Machine.execFlitReceive l fl s
  | .retryExhausted l worstLane => Sys2Proof.Machine.execRetryExhausted l worstLane s
  | .laneLossOfLock l lane => Sys2Proof.Machine.execLaneLossOfLock l lane s
  | .fastRetrainDone l ok => Sys2Proof.Machine.execFastRetrainDone l ok s
  | .linkTrainingDone l peer => Sys2Proof.Machine.execLinkTrainingDone l peer s
  | .packetHop p tc vc arrival => Sys2Proof.Machine.execPacketHop p tc vc arrival s
  | .packetDeliver p tc => Sys2Proof.Machine.execPacketDeliver p tc s
  | .ackReceive transfer accepted arg2 arg3 => Sys2Proof.Machine.execAckReceive transfer accepted arg2 arg3 s
  | .dropReceive transfer reason status => Sys2Proof.Machine.execDropReceive transfer reason status s
  | .ackSendTimer src transfer => Sys2Proof.Machine.execAckSendTimer src transfer s
  | .resendTimeout transfer => Sys2Proof.Machine.execResendTimeout transfer s
  | .transferWindowExpiry transfer => Sys2Proof.Machine.execTransferWindowExpiry transfer s
  | .packetStallTimeout l p => Sys2Proof.Machine.execPacketStallTimeout l p s
  | .collSetupPacket group agree allZero verdict => Sys2Proof.Machine.execCollSetupPacket group agree allZero verdict s
  | .collSegmentReceive group segment cells converted => Sys2Proof.Machine.execCollSegmentReceive group segment cells converted s
  | .joinWaitExpiry group => Sys2Proof.Machine.execJoinWaitExpiry group s
  | .fenceAction d => Sys2Proof.Machine.execFenceAction d s
  | .unitTest t pass => Sys2Proof.Machine.execUnitTest t pass s
  | .columnMapApply b => Sys2Proof.Machine.execColumnMapApply b s
  | .fatalEvent d => Sys2Proof.Machine.execFatalEvent d s
  | .fatalParkExpiry => Sys2Proof.Machine.execFatalParkExpiry s
  | .heartbeatLoss pair cycles => Sys2Proof.Machine.execHeartbeatLoss pair cycles s
  | .testModeExpiry => Sys2Proof.Machine.execTestModeExpiry s
  | .aliveToggle => Sys2Proof.Machine.execAliveToggle s
  | .energyApportionment => Sys2Proof.Machine.execEnergyApportionment s
  | .enduranceWrite hours thermalCycles => Sys2Proof.Machine.execEnduranceWrite hours thermalCycles s
  | .meterIntervalEnd => Sys2Proof.Machine.execMeterIntervalEnd s
  | .meterSelfCheck oscPpm converterPpm => Sys2Proof.Machine.execMeterSelfCheck oscPpm converterPpm s
  | .meterPowerLoss => Sys2Proof.Machine.execMeterPowerLoss s
  | .meterPowerUp unpoweredOpening => Sys2Proof.Machine.execMeterPowerUp unpoweredOpening s
  | .meterRestart => Sys2Proof.Machine.execMeterRestart s
  | .sealEvent e => Sys2Proof.Machine.execSealEvent e s
  | .meterStatusFrame => Sys2Proof.Machine.execMeterStatusFrame s
  | .p100Window watts mv => Sys2Proof.Machine.execP100Window watts mv s
  | .inputReturn mv => Sys2Proof.Machine.execInputReturn mv s
  | .pwrEnHoldExpiry => Sys2Proof.Machine.execPwrEnHoldExpiry s
  | .moonCallForward k => Sys2Proof.Machine.execMoonCallForward k s
  | .imageChecked acc bodyHash sig => Sys2Proof.Machine.execImageChecked acc bodyHash sig s
  | .scanShiftDone f => Sys2Proof.Machine.execScanShiftDone f s
  | .warmResetReady t => Sys2Proof.Machine.execWarmResetReady t s
  | .dynamicAddressAssignment bus addr => Sys2Proof.Machine.execDynamicAddressAssignment bus addr s
  | .meterLinkTimeout => Sys2Proof.Machine.execMeterLinkTimeout s
  | .meterSample milliVolts milliAmps => Sys2Proof.Machine.execMeterSample milliVolts milliAmps s

end Sys2Proof.Machine
end

