-- ==== Sys2Proof/Machine/Ticks.lean ====
section
/-!
DEFINITION. One control tick (R22): what counts control ticks, and the island cycles that pass in it (R20). What a counter brings about when it
reaches its limit has a command of its own.
-/

namespace Sys2Proof.Machine

/-! ### Counters of sections (R235, R236, R238, R377) -/

/-- A feed of the section is starved (R235). -/
def feedStarved (s : State) (fl : Field) (x : Section) : Bool :=
  activeIn s fl x.id && x.feeds.any fun e => decide (e.delivered < e.expects) &&
    !s.fld.copies.any fun c => c.secId == some x.id && c.port == e.port && decide (c.moved < c.length)

/-- The section waits at a hand-off gate: an earlier unfinished section declares a DIR 0 range that overlaps its own DIR 1 range (R111). -/
def gateWaits (fl : Field) (x : Section) : Bool :=
  match secSkein fl x with
  | none => false
  | some i =>
    let mine := (handoffsOf i).filter fun h => h.dir == 1
    (fl.seq.filter fun y => decide (y.id < x.id)).any fun y => match secSkein fl y with
      | none => false
      | some j => (handoffsOf j).any fun h => h.dir == 0 && mine.any fun g => overlaps h.base h.bytes g.base g.bytes

/-- The section waits for the release of an earlier section: a thread of it that has not sent may not send yet (R114). -/
def releaseWaits (s : State) (f : Nat) (fl : Field) (x : Section) : Bool :=
  (fl.seq.any fun y => decide (y.id < x.id)) &&
    match secSkein fl x with
    | none => false
    | some i => (List.range i.threads.length).any fun k => match i.threads[k]? with
      | some t => (threadAt s (threadKey f x.slot k)).lastSection != some x.id && !mayFollow s f x.id (threadKey f x.slot k) t
      | none => false

/-- The watchdog does not count this tick for the section (R238). -/
def tickExcluded (s : State) (f : Nat) (fl : Field) (x : Section) : Bool :=
  fieldParked s f || feedStarved s fl x || gateWaits fl x || releaseWaits s f fl x

/-- The watchdog and the idle counter of a section in one tick (R236, R238, R377); a parked field holds both, and an idle counter
that waits for its park stays at IDLE_LIMIT (R191). -/
def tickSection (s : State) (f : Nat) (fl : Field) (x : Section) : Section :=
  let counts := match x.phase with
    | .dispatched => true
    | .draining => (match x.why with
      | some (.abort _) => false
      | _ => true)
    | _ => false
  let wd := if x.progress then 0 else if counts && !tickExcluded s f fl x then x.wdCount + 1 else x.wdCount
  let idle := if x.fed then 0
    else if x.phase ≠ .dispatched ∨ fieldParked s f = true then x.idle
    else if feedStarved s fl x then (if x.idleEn && decide (x.idleLimit ≤ x.idle) then x.idle else x.idle + 1) else 0
  { x with wdCount := wd, idle, progress := false, fed := false }

/-- Every section of a field in one tick. -/
def tickField (s : State) (e : Nat × Field) : Nat × Field := (e.1, { e.2 with seq := e.2.seq.map (tickSection s e.1 e.2) })

/-! ### Counters of requests (R280, R291) and of test mode (R478) -/

/-- IDLE: consecutive ticks in QUEUED or DECODE without a step (R280). -/
def tickRequest (s : State) (e : Nat × Request) : Nat × Request :=
  (e.1, if e.2.state = .queued ∨ e.2.state = .decode then { e.2 with idle := if inFlight s e.1 e.2 then 0 else e.2.idle + 1 } else e.2)

/-! ### Cycle counters (R20) -/

/-- Every island's cycle counter advances (R20). -/
def tickCycles (s : State) : State :=
  { s with grid := { s.grid with
    cycles := (List.range 0x50).foldl (fun t i => tmod 0 i (fun c => c + BitVec.ofNat 64 (cyclesPerTick s i)) t) s.grid.cycles } }

/-- Counted cycles of one unit go to the tag of its section (R387 to R390). -/
def tickUnit (s : State) (e : Nat × TileUnit) : State :=
  match unitSection s e.1, unitCfg e.2 with
  | some (f, x), some c =>
    let n := cyclesPerTick s (tileIsland s e.1)
    if c.kind = 1 then chargeSection f x.id (fun t => { t with cuCycles := t.cuCycles + BitVec.ofNat 64 n }) (8 * n) s
    else if c.kind = 2 then chargeSection f x.id (fun t => { t with muCycles := t.muCycles + BitVec.ofNat 64 n }) (4 * n) s
    else s
  | _, _ => s

/-! ### Interval checks (R335) and repeated indications (R479) -/

/-- The residency time of a field's tier-1 copies holds while the field is parked or asleep (R335, R462). -/
def holdResidency (s : State) (e : Nat × List Model) : Nat × List Model :=
  let held := fieldParked s e.1 || (match fieldAt s e.1 with | some fl => fl.asleep | none => false)
  (e.1, if held then e.2.map fun m => { m with copies := m.copies.map fun c => { c with since := c.since + 1 } } else e.2)

/-- A repeating slot of an indication fires again after 1 ms (R479). -/
def tickInjection (s : State) : State :=
  let due := s.faults.inj.find? fun (e : Nat × InjSlot) => e.2.arm && e.2.rep && indicationOnly e.2.detector.toNat && decide (e.2.lastAt + 1000 ≤ s.tick)
  match due with
  | some (k, _) => if s.faults.test then noteService s (fireIndication k s) else s
  | none => s

/-- One control tick passes (R22). -/
def controlTick (s : State) : State :=
  let s := tickCycles { s with tick := s.tick + 1 }
  let s := s.grid.units.foldl tickUnit s
  let s := { s with
    fld := { s.fld with fields := s.fld.fields.map (tickField s) }
    serv := { s.serv with reqs := s.serv.reqs.map (tickRequest s) }
    models := { s.models with tier1 := s.models.tier1.map (holdResidency s) }
    faults := { s.faults with remain := s.faults.remain - 1 } }
  tickInjection (settleHolds s)

end Sys2Proof.Machine
end

