-- ==== Sys2Proof/Machine/Reads.lean ====
section
/-!
DEFINITION. What a read of BAR0 returns (R503, R504, R513). A read changes nothing, so it is no command: it is a function of the state.
Each register is given as fields at their bits; everything unlisted reads as zero.
-/

namespace Sys2Proof.Machine

/-- A register from the values at its low bits; the fields do not overlap. -/
def fieldsAt : List (Nat × Nat) → Nat
  | [] => 0
  | (lo, v) :: l => v * 2 ^ lo + fieldsAt l

/-- The low or high 4 bytes of a 64-bit value (R504). -/
def halfOf (v : Nat) (high : Bool) : Nat := if high then v / 0x100000000 % 0x100000000 else v % 0x100000000

/-- 4 bytes of a byte image, zero past its end. -/
def wordOf (bs : List Byte) (off : Nat) : Nat := natAt bs off 4

/-! ### Identity and boot (R454, R465, R508) -/

/-- The code of BOOT.STATUS.STAGE (R454). -/
def stageCode : Stage → Nat
  | .rom => 0 | .await => 1 | .verify => 2 | .bringup => 3 | .ready => 4 | .noIdentity => 6

/-- BOOT.STATUS (R454). -/
def regBootStatus (b : Boot) : Nat := fieldsAt [(0, stageCode b.stage), (8, b.reason), (16, b2n b.warmReverified), (17, b2n b.mgmtPath)]

/-- BOOT.RESET (R465). -/
def regBootReset (b : Boot) : Nat := fieldsAt [(8, b.last), (11, b2n b.fromManager)]

/-- ID.DDR, 64 bits (R508). -/
def regIdDdr (m : Mem) : Nat := fieldsAt [(0, m.slow.toNat), (16, m.shareGib), (32, m.unusedGib)]

/-- ID.CXL (R508). -/
def regIdCxl (h : HostIf) : Nat :=
  fieldsAt [(0, b2n h.twoPorts), (1, b2n h.up0), (2, b2n h.up1), (8, h.width0.toNat), (16, h.width1.toNat), (24, b2n h.slow0), (25, b2n h.slow1)]

/-- The version that ID.FW_VERSION reports (R454). -/
def fwVersion (b : Boot) : Nat := match b.stage, b.bundle with
  | .ready, some x => x.version
  | _, _ => 0

/-- The identity and capability region (R454, R508). -/
def readIdent (s : State) (a : Nat) : Nat :=
  if a = 0x00 then fieldsAt [(0, 0x0800), (16, Config.stepping.val), (24, Config.romVersion.toNat)]
  else if a = 0x04 then Config.vendorIana.toNat
  else if a = 0x08 then fwVersion s.boot
  else if a = 0x0C then s.store.floor
  else if a = 0x10 then fieldsAt [(0, s.store.revoked.toNat), (4, b2n s.boot.enduranceReset)]
  else if a = 0x20 then fieldsAt [(0, s.mem.stackSet.toNat), (16, s.mem.chanSet.toNat)]
  else if a = 0x28 ∨ a = 0x2C then halfOf (regIdDdr s.mem) (a = 0x2C)
  else if a = 0x30 then regIdCxl s.host
  else if 0x100 ≤ a ∧ a < 0x130 then wordOf (leBytes 48 (sha384 Config.identityBlock).toNat) (a - 0x100)
  else 0

/-- The boot and mailbox region (R454, R465). -/
def readBoot (s : State) (a : Nat) : Nat :=
  if a = 0x10000 then regBootStatus s.boot
  else if a = 0x10004 then b2n s.boot.setupDone
  else if a = 0x10008 ∨ a = 0x1000C then halfOf (s.host.mboxAddr.toNat * 64) (a = 0x1000C)
  else if a = 0x10010 then b2n s.host.mboxRun.isSome
  else if a = 0x10018 then regBootReset s.boot
  else 0

/-! ### Queues and interrupts (R263, R268, R509) -/

/-- QCFG.ERR.RUNNING: accepted descriptors of the queue have not all posted their completions (R263, R264). -/
def queueRunning (s : State) (q : Nat) : Bool := (s.host.opens.any fun (e : Nat × OpenDesc) => e.2.q == q) || (queueAt s q).held != []

/-- QCFG.CTRL (R263). -/
def regQueueCtrl (x : Queue) : Nat :=
  fieldsAt [(0, b2n x.enable), (1, b2n x.overflowStall), (2, b2n x.infoEn), (3, b2n x.irqEn), (4, b2n x.port), (5, b2n x.failover), (8, x.coalCount.toNat),
    (16, x.coalTicks.toNat)]

/-- A QCFG block (R263). -/
def readQueue (s : State) (q off : Nat) : Nat :=
  let x := queueAt s q
  if off = 0x00 ∨ off = 0x04 then halfOf (x.sqBase.toNat * 4096) (off = 0x04)
  else if off = 0x08 ∨ off = 0x0C then halfOf (x.cqBase.toNat * 4096) (off = 0x0C)
  else if off = 0x10 then x.sqSize.toNat
  else if off = 0x14 then x.cqSize.toNat
  else if off = 0x18 then regQueueCtrl x
  else if off = 0x1C then x.vector.toNat
  else if off = 0x20 ∨ off = 0x24 then halfOf (x.shadow.toNat * 64) (off = 0x24)
  else if off = 0x28 then fieldsAt [(0, x.sqHead.toNat), (16, x.cqTail.toNat)]
  else if off = 0x2C then fieldsAt [(0, b2n x.dbErr), (1, b2n x.cqOvf), (2, b2n x.cfgErr), (3, b2n (queueRunning s q)), (8, x.infoLost.toNat)]
  else 0

/-- Bit q of INT.QERR (R509). -/
def queueError (s : State) (q : Nat) : Bool := (queueAt s q).dbErr || (queueAt s q).cqOvf || (queueAt s q).cfgErr

/-- INT.CAUSE (R509). -/
def regIntCause (s : State) : Nat :=
  fieldsAt [(0, b2n (s.host.queues.any fun (e : Nat × Queue) => e.2.dbErr || e.2.cqOvf || e.2.cfgErr)), (1, b2n s.host.causeMbox),
    (2, b2n s.host.causeRemoval), (3, b2n s.faults.fatal)]

/-- 32 bits of a bit list, from bit n upward. -/
def bits32 (p : Nat → Bool) (n : Nat) : Nat := fieldsAt ((List.range 32).map fun i => (i, b2n (p (n + i))))

/-- The interrupts region (R268, R509). -/
def readInts (s : State) (a : Nat) : Nat :=
  if a < 0x40000 + 16 * Config.vectors then
    let e := tget ({} : MsixEntry) ((a - 0x40000) / 16) s.host.msix
    if a % 16 = 0 ∨ a % 16 = 4 then halfOf e.addr.toNat (a % 16 = 4) else if a % 16 = 8 then e.data.toNat else b2n e.masked
  else if 0x48000 ≤ a ∧ a < 0x48084 then
    bits32 (fun v => decide (v < Config.vectors) && (tget ({} : MsixEntry) v s.host.msix).pending) (8 * (a - 0x48000))
  else if a = 0x4F000 then regIntCause s
  else if 0x4F100 ≤ a ∧ a < 0x4F180 then bits32 (queueError s) (8 * (a - 0x4F100))
  else 0

/-! ### Fields, tiers and moons (R190, R203, R226, R335, R394, R413, R493, R510, R511) -/

/-- Whether a band is fenced (R487). -/
def bandIsFenced (s : State) (b : Nat) : Bool := s.faults.fencedBands.getLsbD b

/-- FLD.BAND_b (R394): its reset value until the first memory training; a stack or channel fenced later is in service no more (R204). -/
def regBand (s : State) (b : Nat) : Nat :=
  let inHbm := s.mem.stackSet &&& ~~~s.faults.fencedStacks
  let chans := s.mem.chanSet &&& ~~~s.faults.fencedChannels
  let trained := s.mem.stackSet != 0 || s.mem.chanSet != 0
  fieldsAt [(0, if bandIsFenced s b || !trained then 0 else bandProfile (bandPairs s b)), (8, bits inHbm.toNat (4 * b) 4), (12, bits chans.toNat (4 * b) 4)]

/-- FLD.SPARE_b (R493): two spare pairs, less those retired. -/
def regSpare (s : State) (b : Nat) : Nat :=
  fieldsAt [(0, (bandPairs s b).toNat), (22, 2 - retiredCount (bandPairs s b)), (24, b2n (tfind b s.fld.pendingPairs).isSome), (25, b2n (bandIsFenced s b))]

/-- FLD.SERVICE (R493). -/
def regService (s : State) : Nat := fieldsAt [(0, b2n (degradedFlag s)), (1, b2n (replaceFlag s))]

/-- FLD.STATE_f (R510). -/
def regFieldState (s : State) (f : Nat) : Nat := match fieldAt s f with
  | none => 0
  | some fl => fieldsAt [(0, 1), (1, b2n fl.asleep), (2, b2n (s.gov.parked.getLsbD f || s.gov.thermalParked.getLsbD f)), (3, b2n fl.held),
      (4, fl.seq.length), (8, fieldsAt ((List.range 4).map fun i => (i, b2n (tget ({} : Slot) i fl.slots).skein.isSome)))]

/-- Free frames of field f's tier-1 share (R511). -/
def regFreeT1 (s : State) (f : Nat) : Nat := match fieldAt s f with
  | none => 0
  | some fl => capT1 s fl - runsFrames (usedT1 s f fl)

/-- Free frames of field f's pool (R511). -/
def regFreeT2 (s : State) (f : Nat) : Nat := match fieldAt s f with
  | none => 0
  | some fl => capPool s fl - runsFrames (usedPool s fl)

/-- TRANS.POOLS, 64 bits (R190). -/
def regPools (m : Mem) : Nat := fieldsAt [(0, m.fieldGib.toNat), (16, m.effField), (32, m.moduleGib), (48, m.effWindow)]

/-- The fields and bands region (R394, R413, R493, R510). -/
def readFields (s : State) (a : Nat) : Nat :=
  let i := a % 16 / 4
  if a = 0x80000 then fieldsAt [(0, s.fld.join.toNat), (4, s.fld.use.toNat)]
  else if 0x80010 ≤ a ∧ a < 0x80020 then regBand s i
  else if 0x80020 ≤ a ∧ a < 0x80030 then (tget (600 : BitVec 11) i s.fld.floorMhz).toNat
  else if 0x80030 ≤ a ∧ a < 0x80040 then (tget (0 : BitVec 2) i s.fld.parkRank).toNat
  else if 0x80040 ≤ a ∧ a < 0x80050 then regSpare s i
  else if a = 0x80050 then regService s
  else if 0x80060 ≤ a ∧ a < 0x80070 then regFieldState s i
  else 0

/-- MOON.SLOTS_s (R226). -/
def regMoonSlots (s : State) (k : Nat) : Nat :=
  fieldsAt [(0, fieldsAt ((List.range 16).map fun p => (p, b2n (moonProg s k p).isSome))),
    (16, fieldsAt ((List.range 16).map fun p => (p, b2n (slotReferenced s k p || slotServes s k p))))]

/-- The translation, memory-controller and moon regions (R190, R203, R226, R335, R511). -/
def readTiers (s : State) (a : Nat) : Nat :=
  if a = 0x100000 then s.mem.windowGib.toNat
  else if a = 0x100008 ∨ a = 0x10000C then halfOf (regPools s.mem) (a = 0x10000C)
  else if 0x100010 ≤ a ∧ a < 0x100030 ∧ a % 8 = 0 then regFreeT1 s ((a - 0x100010) / 8)
  else if a = 0x100030 then capModule s - runsFrames (usedModule s)
  else if 0x100040 ≤ a ∧ a < 0x100060 ∧ a % 8 = 0 then regFreeT2 s ((a - 0x100040) / 8)
  else if a = 0x200000 then fieldsAt [(0, b2n s.mem.preserveHbm), (8, s.mem.fwReserve.toNat)]
  else if a = 0x200008 then fieldsAt [(0, s.mem.hbmHours.toNat), (8, s.mem.ddrHours.toNat)]
  else if a = 0x200010 then s.mem.t2Hours.toNat
  else if a = 0x400000 then s.moons.rehashMin.toNat
  else if 0x400100 ≤ a ∧ a < 0x400140 then regMoonSlots s ((a - 0x400100) / 4)
  else 0

/-! ### Fabric, arbiters, power (R348, R362, R379, R414) -/

/-- The code of FAB.LINK_l STATE (R362). -/
def linkCode : LinkState → Nat
  | .down => 0 | .training => 1 | .up => 2 | .upSpare => 3 | .failed => 4

/-- FAB.LINK_l (R362). -/
def readLink (x : Link) (off : Nat) : Nat :=
  if off = 0 then b2n x.enable
  else if off = 4 then fieldsAt [(0, linkCode x.state), (3, x.spared), (12, x.peer.toNat)]
  else if off = 8 then min x.corr 0xFFFFFFFF
  else min x.retries 0xFFFFFFFF

/-- The links region (R348, R362). -/
def readFabric (s : State) (a : Nat) : Nat :=
  let f := s.fab
  if a = 0x600000 then f.nodeId.toNat
  else if a = 0x600004 then f.coord.toNat
  else if a = 0x600008 then f.dims.toNat
  else if a = 0x60000C then fieldsAt [(0, f.windowUs.toNat), (16, f.windowUs.toNat - 2)]
  else if a = 0x600010 then fieldsAt [(1, b2n f.busy), (8, f.result), (16, f.firstBad)]
  else if 0x600100 ≤ a ∧ a < 0x600160 then readLink (linkAt s ((a - 0x600100) / 16)) (a % 16)
  else if 0x610000 ≤ a ∧ a < 0x612000 then halfOf (routeBits (tget {} ((a - 0x610000) / 8) f.staging)) (a % 8 = 4)
  else if 0x612000 ≤ a ∧ a < 0x614000 then halfOf (routeBits (tget {} ((a - 0x612000) / 8) f.active)) (a % 8 = 4)
  else if 0x614000 ≤ a ∧ a < 0x614200 then halfOf (acceptBits (tget {} ((a - 0x614000) / 8) f.accept)) (a % 8 = 4)
  else 0

/-- The arbiters region (R379). -/
def readArb (x : Arbiters) (a : Nat) : Nat :=
  if a = 0x800000 then x.hbm.toNat
  else if a = 0x800004 then x.ddr0.toNat
  else if a = 0x800008 then x.ddr1.toNat
  else if a = 0x80000C then x.mu.toNat
  else if a = 0x800010 then x.link.toNat
  else if a = 0x800014 then x.fetch.toNat
  else if a = 0x800018 then x.hash.toNat
  else if a = 0x800020 then x.stepTicks.toNat
  else 0

/-- The power and thermal mirror (R414): nine registers, PWR.BATCH_0 to 3 before THERM.STATUS. -/
def readPower (s : State) (a : Nat) : Nat := if a < 0xA00024 then (mirrorRegs s).getD ((a - 0xA00000) / 4) 0 else 0

/-! ### The meter read window (R425, R431) -/

/-- A record in its 4 KiB slot: header, then the signature block (R97, R425). -/
def recordSlot (r : MeterRec) : List Byte :=
  let h := recBytes r
  h ++ padTo Config.sigBytes (padTo 64 (Config.meterEdSign h) ++ Config.meterMlSign h)

/-- 4 bytes of a record slot, zero where no record lies. -/
def slotWord (r : Option MeterRec) (off : Nat) : Nat := match r with
  | some r => wordOf (recordSlot r) off
  | none => 0

/-- The meter read window (R431). -/
def readMeter (w : MeterWindow) (a : Nat) : Nat :=
  let o := a - 0xB00000
  if o = 0x00 then fieldsAt [(0, b2n w.linkOk), (1, w.flags.toNat), (8, w.romVersion.toNat), (16, w.discarded.toNat)]
  else if o = 0x08 ∨ o = 0x0C then halfOf w.cum (o = 0x0C)
  else if o = 0x10 then fieldsAt [(0, w.p1s.toNat), (12, w.peakW.toNat)]
  else if o = 0x18 ∨ o = 0x1C then halfOf w.seq (o = 0x1C)
  else if o = 0x20 ∨ o = 0x24 then halfOf w.oldest (o = 0x24)
  else if o = 0x28 ∨ o = 0x2C then halfOf w.replaySeq.toNat (o = 0x2C)
  else if o = 0x30 then fieldsAt [(8, w.got)]
  else if 0x1000 ≤ o ∧ o < 0x1800 then (if w.identity then wordOf Config.meterIdentityBlock (o - 0x1000) else 0)
  else if 0x10000 ≤ o ∧ o < 0x50000 then slotWord (tfind ((o - 0x10000) / 4096) w.recent) (o % 4096)
  else if 0x50000 ≤ o ∧ o < 0x90000 then slotWord w.replay[(o - 0x50000) / 4096]? (o % 4096)
  else 0

/-! ### Faults, test and accounting (R394, R472, R474, R480, R501, R512) -/

/-- The last-fatal copy as the boot read it: FATAL_SEQ, 8 zero bytes, and the entries from byte 16 (R474, R480). -/
def lastFatalBytes (x : Faults) : List Byte := match x.lastFatalCopy with
  | some (n, l) => leBytes 8 n ++ zeros 8 ++ l.flatMap histBytes
  | none => []

/-- FAULT.INJ_k (R480). -/
def readInj (x : InjSlot) (off : Nat) : Nat :=
  if off = 0 then fieldsAt [(0, b2n x.arm), (1, b2n x.rep), (8, x.detector.toNat), (16, x.island.toNat), (24, x.fired.toNat)]
  else if off = 8 ∨ off = 12 then halfOf x.loc.toNat (off = 12)
  else if off = 16 ∨ off = 20 then halfOf x.pattern.toNat (off = 20)
  else 0

/-- TEST.LINK_l (R501). -/
def readTestLink (x : TestLink) (off : Nat) : Nat :=
  if off = 0 then fieldsAt [(0, x.mode.toNat), (2, b2n x.prbs31)]
  else if off = 8 ∨ off = 12 then halfOf x.bits.toNat (off = 12)
  else if off = 16 ∨ off = 20 then halfOf x.errors.toNat (off = 20)
  else if off = 24 then x.laneErr.toNat
  else 0

/-- The faults, history and injection region, and the test region (R472, R480, R501, R512). -/
def readFault (s : State) (a : Nat) : Nat :=
  let f := s.faults
  if a = 0xC00000 then
    fieldsAt [(0, b2n f.fatal), (1, b2n f.test), (2, b2n f.lastFatalCopy.isSome), (8, f.next), (14, b2n f.wrapped)]
  else if a = 0xC00008 then f.fatalParkMs.toNat
  else if a = 0xC00010 then f.testScope.toNat
  else if a = 0xC00014 then f.remain
  else if 0xC00100 ≤ a ∧ a < 0xC00200 then readInj (tget ({} : InjSlot) ((a - 0xC00100) / 32) f.inj) (a % 32)
  else if 0xC01000 ≤ a ∧ a < 0xC01800 then
    (match tfind ((a - 0xC01000) / 32) f.ring with | some e => wordOf (histBytes e) (a % 32) | none => 0)
  else if 0xC02000 ≤ a ∧ a < 0xC02810 then wordOf (lastFatalBytes f) (a - 0xC02000)
  else if 0xC03008 ≤ a ∧ a < 0xC030A0 then halfOf (tget 0 ((a - 0xC03000) / 8) f.corr) (a % 8 = 4)
  else if 0xC04000 ≤ a ∧ a < 0xC040C8 then bits32 f.fencedUnits.contains (8 * (a - 0xC04000))
  else if a = 0xC05000 ∨ a = 0xC05004 then halfOf (f.traceBase.toNat * 4096) (a = 0xC05004)
  else if a = 0xC05008 then fieldsAt [(0, b2n f.traceEn), (4, f.traceEntries.toNat), (24, f.traceLost.toNat)]
  else if a = 0xC0500C then fieldsAt [(0, f.traceTail.toNat), (16, f.traceHead.toNat)]
  else if 0xE00000 ≤ a ∧ a < 0xE000C0 then readTestLink (tget ({} : TestLink) ((a - 0xE00000) / 32) s.testLinks) (a % 32)
  else if a = 0xE01000 then
    fieldsAt [(0, s.testMem.target.toNat), (5, s.testMem.mode.toNat), (8, b2n s.testMem.busy), (9, b2n s.testMem.refused), (10, b2n s.testMem.pass)]
  else if a = 0xE01004 then s.testMem.fails.toNat
  else 0

/-- A 64-bit counter of a tag by its offset (R394). -/
def tagCounter (c : TagCounters) (off : Nat) : BitVec 64 :=
  if off = 0x00 then c.cuCycles
  else if off = 0x08 then c.muCycles
  else if off = 0x10 then c.t1Bytes
  else if off = 0x18 then c.t2Bytes
  else if off = 0x20 then c.hostBytes
  else if 0x28 ≤ off ∧ off < 0x58 then tget 0 ((off - 0x28) / 8) c.links
  else if off = 0x58 then c.activity
  else if off = 0x60 then c.energy
  else 0

/-- The counters at an offset of the live region or of the snapshot bank (R394). -/
def acctCounter (c : Counters) (o : Nat) : BitVec 64 :=
  if o < 0x10000 then tagCounter (tget {} (o / 256) c.tags) (o % 256 / 8 * 8)
  else if o / 8 * 8 = 0x10010 then c.untagged
  else if o / 8 * 8 = 0x10018 then c.unattributed
  else if 0x10020 ≤ o ∧ o < 0x10050 then tget 0 ((o - 0x10020) / 8) c.transit
  else if o / 8 * 8 = 0x10050 then c.windowBytes
  else 0

/-- The accounting region (R393, R394). -/
def readAcct (x : Acct) (a : Nat) : Nat :=
  if a = 0xF10000 then fieldsAt [(0, x.periodMs.toNat), (16, x.baseW.toNat)]
  else if a = 0xF10008 then fieldsAt [(2, b2n x.done)]
  else if a < 0xF10058 then halfOf (acctCounter x.live (a - 0xF00000)).toNat (a % 8 = 4)
  else if 0xF80000 ≤ a ∧ a < 0xF90058 then halfOf (acctCounter x.snap (a - 0xF80000)).toNat (a % 8 = 4)
  else 0

/-! ### A read of BAR0 -/

/-- The 4 bytes that lie at a multiple of 4 in BAR0 (R503, R513). -/
def read4 (s : State) (a : Nat) : Nat :=
  if a < 0x10000 then readIdent s a
  else if a < 0x20000 then readBoot s a
  else if a < 0x40000 then (if a < 0x30000 then readQueue s ((a - 0x20000) / 64) (a % 64) else 0)
  else if a < 0x80000 then readInts s a
  else if a < 0x100000 then readFields s a
  else if a < 0x600000 then readTiers s a
  else if a < 0x800000 then readFabric s a
  else if a < 0xA00000 then readArb s.arbs a
  else if a < 0xB00000 then readPower s a
  else if a < 0xC00000 then readMeter s.window a
  else if a < 0xF00000 then readFault s a
  else readAcct s.acct a

/-- BOOT.STATUS and BOOT.RESET answer even between steps 3 and 7 of a warm reset (R457, R514). -/
def readable (s : State) (a : Nat) : Bool :=
  barOpen s || (s.boot.warmBusy && s.entry.main && !s.entry.perst && linkUp s && (a == 0x10000 || a == 0x10018))

/-- 4 bytes as the host reads them: zero where BAR0 cannot be reached (R457, R504). -/
def readWord (s : State) (a : Nat) : Nat := if readable s a then read4 s a else 0

/-- What a host read of 4 or 8 bytes of BAR0 returns; any other size or alignment reads as zero (R504). -/
def readBar (s : State) (addr : BitVec 24) (size : Nat) : BitVec 64 :=
  let a := addr.toNat
  if size = 4 ∧ a % 4 = 0 then BitVec.ofNat 64 (readWord s a)
  else if size = 8 ∧ a % 8 = 0 then BitVec.ofNat 64 (readWord s a + 0x100000000 * readWord s (a + 4))
  else 0

/-- What a rack manager reads over I3C while the auxiliary domain is on, main domain on or off: the identity region, and the content of the meter read
window, which the management controller serves (R37 step 4, R431). -/
def readManager (s : State) (addr : BitVec 24) : Nat :=
  let a := addr.toNat
  if mgmtOn s && a % 4 == 0 then (if a < 0x10000 then readIdent s a else if 0xB00000 ≤ a ∧ a < 0xC00000 then readMeter s.window a else 0) else 0

end Sys2Proof.Machine
end

