-- ==== Sys2Proof/Safety.lean ====
section
/-!
DEFINITION. What a sound state is, in the terms that claims use: the byte memories are in canonical form, and every recorded event carries a
number of its own that was issued.
-/

namespace Sys2Proof.Machine

/-- Every byte memory of the tiers and of the host is in canonical form. -/
def MemOk (m : Mem) : Prop := memWf m.host = true ∧ memWf m.tier1 = true ∧ memWf m.tier2 = true

/-- 0 has not been and will not be issued, and the entries of the history and the recorded events carry numbers below the next one (R21, R471). -/
def SeqOk (f : Faults) : Prop :=
  1 ≤ f.nextSeq ∧ (∀ e ∈ f.ring, 1 ≤ e.2.seq ∧ e.2.seq < f.nextSeq) ∧ ∀ e ∈ f.events, 1 ≤ e.1 ∧ e.1 < f.nextSeq

/-- The meter's register holds its accumulator in whole mWh (R418). -/
def MeterOk (m : Meter) : Prop := m.cum = m.accum / 1000

/-- A sound state. -/
def Sound (s : State) : Prop := MemOk s.mem ∧ SeqOk s.faults ∧ MeterOk s.meter

/-- The commands that the metering chip acts on: its samples, boundaries, checks, its own power, restart and seal, and time marks (R416 to R429). -/
def meterCommand : Instr → Bool
  | .meterSample .. | .meterIntervalEnd | .meterSelfCheck .. | .meterPowerLoss | .meterPowerUp .. | .meterRestart | .sealEvent .. | .meterMark .. => true
  | _ => false

/-- BRINGUP_READY, the one command that writes the version floor and the revoked-slot mask (R435 step 8, R441). -/
def floorCommand : Instr → Bool
  | .bringupReady _ => true
  | _ => false

/-- The command that stands for a queue's next work finds its descriptor: firmware runs, acc is accepted for the queue with this opcode and SEQ,
and no earlier FENCE of the queue is open (R277, R278). -/
def Taken (s : State) (q : QId) (op : Opcode) (h : DescHdr) (acc : Nat) : Prop :=
  running s = true ∧ acceptedDesc s q (opcodeCode op) h.seq = some acc ∧ fenceBefore s q acc = false

/-- The state in which a descriptor other than a COPY starts its work: the queue's open COPY batch has closed (R240), the descriptor is at work. -/
def started (s : State) (q : QId) (acc : Nat) : State := setPhase acc .running (closeBatches q s)

/-- A mailbox command can run: BAR0 answers, no other one runs, the firmware is READY (R261). -/
def MailboxFree (s : State) : Prop := barOpen s = true ∧ s.host.mboxRun = none ∧ s.boot.stage = .ready

/-- A control token of a kind is at the head of a control input of a unit that may take it, and waits for no other token (R86, R91). -/
def TokenAt (s : State) (t : Tile) (ci : Fin 4) (kind : Nat) (x : Item) (c : UnitCfg) : Prop :=
  headOf s (tileIx t) 2 ci = some x ∧ unitCfg (unitAt s (tileIx t)) = some c ∧ tokKind x = kind ∧ unitFenced s (tileIx t) = false ∧
  (unitAt s (tileIx t)).stopped = false ∧ tokenBehind s (tileIx t) c ci x = false ∧ s.fld.stopped.getLsbD (tileIsland s (tileIx t)) = false

end Sys2Proof.Machine
end

