-- ==== Sys2Proof/Certificates/Slice0/Obligations.lean ====
section
/-!
DEFINITION. The statements for the provers: what the machine and each of its commands does, by the rules of the spec. Every command has a
clause whose conclusion is that exec answers the next state of its own effect.
-/

open Sys2Proof Sys2Proof.Machine

/-- A step runs the command at the front. For every state: with a command c in front of the queue, one step is exec of c on the state with the rest of
the queue. On an empty queue one step is one control tick (R22), which is the model's choice (log 1): from a sound state it counts one tick and
leaves the queue empty and the meter as it was. -/
def Obligations.StepRunsTheFront : Prop :=
  ∀ s : State,
    (∀ c rest, s.pending = c :: rest → step s = exec c { s with pending := rest }) ∧
    (s.pending = [] → step s = .next (controlTick s)) ∧
    (s.pending = [] → Sound s → (controlTick s).tick = s.tick + 1 ∧ (controlTick s).pending = [] ∧ (controlTick s).meter = s.meter)

/-- Every command completes and keeps queue and tick. For every sound state and every one of the 209 commands with any operands, exec answers a next
state, and that state has the same waiting commands and the same tick count. No command ends in a fault or a refusal. What each command does is
stated in the other statements. -/
def Obligations.CommandsCompleteAndKeepTheQueue : Prop :=
  ∀ (s : State) (c : Instr), Sound s → ∃ t, exec c s = .next t ∧ t.pending = s.pending ∧ t.tick = s.tick

/-- Every step keeps a sound state sound. From every sound state, reached or not, a step that answers a next state leads to a sound state: the byte
memories of host, tier 1 and tier 2 keep their canonical form, event number 0 is never issued and every history entry and recorded event carries a
number below the next one (R21, R471), and the meter's register is the accumulator in whole mWh (R418). -/
def Obligations.StepKeepsSound : Prop :=
 ∀ s t : State, Sound s → step s = .next t → Sound t

/-- The reset state is sound. The state right after reset is sound, no command waits, no tick has passed, the next event number is 1 (R21), the boot
ROM has not run (R454), the effective cap is 1,200 W and the lever-1 target 1,750 MHz (R414), and every read of BAR0 returns 0. That reset is the
moment before P56V is present is the model's choice (log 2). -/
def Obligations.ResetIsSound : Prop :=
  Sound State.reset ∧ State.reset.pending = [] ∧ State.reset.tick = 0 ∧ State.reset.faults.nextSeq = 1 ∧ State.reset.boot.stage = .rom ∧
  effectiveCap State.reset.gov = 1200 ∧ State.reset.gov.targetMhz = 1750 ∧ ∀ a n, readBar State.reset a n = 0

/-- The energy register only increases. From every sound state: a step never lowers the cumulative register, and the register stays the accumulator
divided by 1,000, rounded down. A loss of power and a restart keep register and accumulator; a power-up keeps the register and loses less than
1,000 microwatt hours of the accumulator (R418). The register is an unbounded number in the model; a read returns its low 64 bits (log 5). -/
def Obligations.MeterNeverGoesBack : Prop :=
  ∀ s : State, Sound s →
    (∀ t, step s = .next t → s.meter.cum ≤ t.meter.cum ∧ t.meter.cum = t.meter.accum / 1000) ∧
    (∀ t, exec .meterPowerLoss s = .next t → t.meter.cum = s.meter.cum ∧ t.meter.accum = s.meter.accum) ∧
    (∀ t, exec .meterRestart s = .next t → t.meter.cum = s.meter.cum ∧ t.meter.accum = s.meter.accum) ∧
    (∀ b t, exec (.meterPowerUp b) s = .next t → t.meter.cum = s.meter.cum ∧ t.meter.accum ≤ s.meter.accum ∧ s.meter.accum < t.meter.accum + 1000)

/-- The version floor and the revoked slots never decrease. From every sound state: no step lowers the version floor or clears a bit of the
revoked-slot mask; every command but BRINGUP_READY leaves both as they are. BRINGUP_READY of a download whose parts hash right and that leaves
memory to use sets the floor to the larger of floor and FLOOR, ORs REVOKE into the mask and reports READY; when bring-up fails both stay and the
ROM waits again (R441). -/
def Obligations.FloorsNeverDecrease : Prop :=
  ∀ s t : State, Sound s →
    (step s = .next t → s.store.floor ≤ t.store.floor ∧ ∀ i : Nat, s.store.revoked.getLsbD i = true → t.store.revoked.getLsbD i = true) ∧
    (∀ c, floorCommand c = false → exec c s = .next t → t.store.floor = s.store.floor ∧ t.store.revoked = s.store.revoked) ∧
    (∀ tr src b, s.boot.download = some src → s.boot.bundle = some b → s.boot.stage = .bringup → s.entry.main = true → s.boot.warmBusy = false →
      exec (.bringupReady tr) s = .next t →
        (tr.partsOk = true → (trainAll tr s).mem.poolList ≠ [] → t.boot.stage = .ready ∧
          t.store.floor = max s.store.floor b.floor ∧ t.store.revoked = s.store.revoked ||| b.revoke) ∧
        (tr.partsOk = false ∨ (trainAll tr s).mem.poolList = [] → t.boot.stage = .await ∧ t.store.floor = s.store.floor ∧ t.store.revoked = s.store.revoked))

/-- No reset, power state or fault reaches the meter. From every sound state, every command other than METER_SAMPLE, METER_INTERVAL_END,
METER_SELF_CHECK, METER_POWER_LOSS, METER_POWER_UP, METER_RESTART, SEAL_EVENT and METER_MARK leaves the whole meter unchanged (R421): resets,
power states, fatal events and trips among them. METER_RESTART of a powered meter flags the interval CHECK_FAIL, leaves its start, length and
register start alone, and appends a METER_RESTART record (kind 2, event 8) with the next SEQ. -/
def Obligations.NothingElseReachesTheMeter : Prop :=
  ∀ s : State, Sound s →
    (∀ c t, meterCommand c = false → exec c s = .next t → t.meter = s.meter) ∧
    (s.meter.powered = true → ∃ t, exec .meterRestart s = .next t ∧ t.meter.checkInInterval = true ∧ t.meter.intervalAt = s.meter.intervalAt ∧
      t.meter.intervalMs = s.meter.intervalMs ∧ t.meter.intervalCum = s.meter.intervalCum ∧ t.meter.time = s.meter.time ∧
      ∃ l r, t.meter.records = l ++ [r] ∧ r.kind = 2 ∧ r.event = 8 ∧ r.seq = s.meter.seq + 1 ∧ r.checkFail = true)

/-- A module without identity refuses firmware. A release of PERST# with cells that cannot be corrected sets STAGE to NO_IDENTITY and sends one report
to each of the two managers (its COMMAND and VALUE are free, log 55). In NO_IDENTITY every DOWNLOAD on an open BAR0 with a free mailbox and every
FW_OFFER end with SIGNATURE_FAIL, REASON 10 (R446). -/
def Obligations.NoIdentityRefusesFirmware : Prop :=
  (∀ s, s.entry.main = true → s.boot.stage = .rom → ∃ t, exec (.perstRelease false) s = .next t ∧ t.boot.stage = .noIdentity ∧ t.boot.identity = false ∧
    ∃ a b, t.gov.out = s.gov.out ++ [a, b] ∧ a.bus = .a ∧ b.bus = .b) ∧
  (∀ s b, s.boot.stage = .noIdentity → barOpen s = true → s.host.mboxRun = none →
    exec (.download b) s = .next (mboxEnd 0x0001 .signatureFail [] (setBoot s { s.boot with reason := 10 }))) ∧
  (∀ s bus n, s.boot.stage = .noIdentity → s.entry.aux = true →
    exec (.fwOffer bus n) s = .next (fwResult bus .signatureFail 10 (setBoot s { s.boot with reason := 10 })))

/-- Reads of BAR0. A read of any size other than 4 and 8, or of an address that is not a multiple of its size, returns 0; an 8-byte read is its two
4-byte halves; with BAR0 closed and no warm reset in progress everything reads as 0; BOOT.STATUS reads STAGE, REASON and its two flags at their
places; during a warm reset only BOOT.STATUS and BOOT.RESET answer (R454, R457, R504). -/
def Obligations.ReadsFollowSizeAndAlignment : Prop :=
  (∀ s (a : BitVec 24) n, n ≠ 4 → n ≠ 8 → readBar s a n = 0) ∧
  (∀ s (a : BitVec 24) n, a.toNat % n ≠ 0 → readBar s a n = 0) ∧
  (∀ s (a : BitVec 24), a.toNat % 8 = 0 → readBar s a 8 = readBar s a 4 + 0x100000000 * readBar s (a + 4) 4) ∧
  (∀ s (a : BitVec 24) n, barOpen s = false → s.boot.warmBusy = false → readBar s a n = 0) ∧
  (∀ s, barOpen s = true → readBar s 0x10000 4 =
    BitVec.ofNat 64 (stageCode s.boot.stage + 256 * s.boot.reason + 65536 * b2n s.boot.warmReverified + 131072 * b2n s.boot.mgmtPath)) ∧
  (∀ s, s.boot.warmBusy = true → s.entry.main = true → s.entry.perst = false → linkUp s = true →
    readBar s 0x10000 4 = BitVec.ofNat 64 (regBootStatus s.boot) ∧ readBar s 0x10018 4 = BitVec.ofNat 64 (regBootReset s.boot) ∧ readBar s 0x00 4 = 0)

/-- Doorbells, enabling and disabling a queue. Doorbells (R265): while BAR0 answers and the queue is enabled, a value below ENTRIES becomes the
queue's tail and notes which window writes the new entries cover; a CQ_HEAD frees entries and lets held completions go (R267); a value at or above
ENTRIES sets DB_ERR and raises vector 1,024 (R268); bits [31:16] are not looked at; a write to a disabled queue changes nothing. Enabling (R264):
with an ENTRIES of zero nothing but the fields of the write and a clear CFG_ERR; with a bad ENTRIES or COAL_COUNT CFG_ERR and vector 1,024; else
both rings start empty with phase 1. Disabling clears ENABLE; how many entries a burst in flight still brings is free, at most its room (log 170).
Each next state is given whole. -/
def Obligations.DoorbellsAndQueueEnable : Prop :=
  (∀ (s : State) (q : QId) (v : BitVec 32),
    (barOpen s = true → (queueAt s q).enable = true → v.toNat % 65536 < (queueAt s q).sqSize.toNat →
      exec (.sqTail q v) s = .next (setQueue s q { queueAt s q with
        sqTail := BitVec.ofNat 16 v.toNat, covers := (queueAt s q).covers ++ [(BitVec.ofNat 16 v.toNat, s.mem.winWrites)] })) ∧
    (barOpen s = true → (queueAt s q).enable = true → (queueAt s q).sqSize.toNat ≤ v.toNat % 65536 →
      exec (.sqTail q v) s = .next (raiseVector 1024 (setQueue s q { queueAt s q with dbErr := true }))) ∧
    (barOpen s = true → (queueAt s q).enable = true → v.toNat % 65536 < (queueAt s q).cqSize.toNat → (queueAt s q).held = [] →
      exec (.cqHead q v) s = .next (setQueue s q { queueAt s q with cqHead := BitVec.ofNat 16 v.toNat })) ∧
    (barOpen s = true → (queueAt s q).enable = true → v.toNat % 65536 < (queueAt s q).cqSize.toNat →
      exec (.cqHead q v) s = .next (releaseHeld q (queueAt s q).held.length (setQueue s q { queueAt s q with cqHead := BitVec.ofNat 16 v.toNat }))) ∧
    (barOpen s = true → (queueAt s q).enable = true → (queueAt s q).cqSize.toNat ≤ v.toNat % 65536 →
      exec (.cqHead q v) s = .next (raiseVector 1024 (setQueue s q { queueAt s q with dbErr := true }))) ∧
    ((queueAt s q).enable = false → exec (.sqTail q v) s = .next s ∧ exec (.cqHead q v) s = .next s)) ∧
  (∀ (s : State) (q : QId) (w : BitVec 32),
    (barOpen s = true → (queueAt s q).enable = false →
      let x := ctrlFields (queueAt s q) w.toNat
      ((x.sqSize = 0 ∨ x.cqSize = 0) → exec (.queueEnable q w) s = .next (setQueue s q { x with cfgErr := false })) ∧
      (x.sqSize ≠ 0 → x.cqSize ≠ 0 → (∀ n : BitVec 17, n = x.sqSize ∨ n = x.cqSize → ∃ k, 4 ≤ k ∧ k ≤ 16 ∧ n.toNat = 2 ^ k) → x.coalCount ≠ 0 →
        exec (.queueEnable q w) s = .next (setQueue s q { x with
          enable := true, sqHead := 0, cqTail := 0, sqTail := 0, covers := [], cqHead := 0, inFlight := 0, phase := true, cfgErr := false, infoLost := 0 })) ∧
      (x.sqSize ≠ 0 → x.cqSize ≠ 0 →
        (x.coalCount = 0 ∨ (¬∃ k, 4 ≤ k ∧ k ≤ 16 ∧ x.sqSize.toNat = 2 ^ k) ∨ ¬∃ k, 4 ≤ k ∧ k ≤ 16 ∧ x.cqSize.toNat = 2 ^ k) →
        exec (.queueEnable q w) s = .next (raiseVector 1024 (setQueue s q { x with cfgErr := true })))) ∧
    (barOpen s = true → (queueAt s q).enable = true → ∃ n, n ≤ burstRoom (queueAt s q) ∧ (fetchOpen s q = false → n = 0) ∧
      exec (.queueDisable q) s = .next { setQueue s q { queueAt s q with enable := false, inFlight := n } with fresh := s.fresh + 1 }) ∧
    ((queueAt s q).enable = false → exec (.queueDisable q) s = .next s))

/-- Error bits, coalescing and masking. QCFG_ERR_CLEAR clears the bits written as 1; clearing IRQ_EN forgets count and timer; a coalescing timer that
has run out sends the queue's vector and restarts; an unmasked vector that is pending is sent, and one that is not is only unmasked (R263, R268,
R269). Each next state is given whole. -/
def Obligations.QueueErrorsAndInterrupts : Prop :=
  ∀ (s : State) (q : QId) (w : BitVec 32) (v : Fin 1028),
    (barOpen s = true → exec (.qcfgErrClear q w) s = .next (setQueue s q { queueAt s q with
      dbErr := (queueAt s q).dbErr && !w.getLsbD 0, cqOvf := (queueAt s q).cqOvf && !w.getLsbD 1 })) ∧
    (barOpen s = true → (queueAt s q).enable = false →
      exec (.irqEnClear q) s = .next (setQueue s q { queueAt s q with irqEn := false, pendCount := 0, coalStart := none })) ∧
    (∀ t, (queueAt s q).coalStart = some t → (queueAt s q).irqEn = true → t + (queueAt s q).coalTicks.toNat ≤ s.tick →
      exec (.coalTimerExpiry q) s =
        .next (raiseVector (queueAt s q).vector.toNat (setQueue s q { queueAt s q with pendCount := 0, coalStart := none }))) ∧
    (barOpen s = true → (tget ({} : MsixEntry) v s.host.msix).pending = true →
      exec (.msixUnmask v) s = .next (setHost s { s.host with
        msix := tset {} v { tget ({} : MsixEntry) v s.host.msix with masked := false, pending := false } s.host.msix,
        irqs := s.host.irqs ++ [v.val] })) ∧
    (barOpen s = true → (tget ({} : MsixEntry) v s.host.msix).pending = false →
      exec (.msixUnmask v) s = .next (setHost s { s.host with
        msix := tset {} v { tget ({} : MsixEntry) v s.host.msix with masked := false } s.host.msix }))

/-- CXL ports and the CXL.mem window. A port going down clears its up bit and drops the bursts in flight of the queues it serves; a port coming up
sets width and speed and lets held completions go; with test mode off a window read returns the 64 bytes of its cells, or zeros poisoned where
they are lost (which then raises the lost line's entry), counts 64 window bytes and changes nothing else but accounting; a window write stores its
line, notes it for later fences (log 171) and changes memory and accounting only; before the window is laid out reads return zeros and writes
change no memory. -/
def Obligations.CxlPortsAndWindow : Prop :=
  (∀ s port, ∃ l, l = s.host.queues.map (fun e => (e.1, { e.2 with inFlight := if s.host.twoPorts && e.2.port != (port == (1 : Fin 2)) then e.2.inFlight else 0 })) ∧
    (port = 0 → exec (.cxlPortDown port) s = .next (setHost s { s.host with up0 := false, queues := l })) ∧
    (port = 1 → exec (.cxlPortDown port) s = .next (setHost s { s.host with up1 := false, queues := l }))) ∧
  (∀ s lanes slow, s.entry.main = true → s.entry.perst = false → (lanes = 16 ∨ lanes = 8 ∨ lanes = 4) → (∀ e ∈ s.host.queues, e.2.held = []) →
    exec (.cxlPortUp 0 lanes slow false) s = .next (setHost s { s.host with
      twoPorts := false, up0 := true, width0 := BitVec.ofNat 5 lanes, slow0 := slow, up1 := false, width1 := 0, slow1 := false })) ∧
  (∀ s port lanes slow, s.entry.main = true → s.entry.perst = false → (lanes = 8 ∨ lanes = 4) →
    exec (.cxlPortUp port lanes slow true) s = .next (releaseAll (setHost s (if port = 0
      then { s.host with twoPorts := true, up0 := true, width0 := BitVec.ofNat 5 lanes, slow0 := slow }
      else { s.host with twoPorts := true, up1 := true, width1 := BitVec.ofNat 5 lanes, slow1 := slow })))) ∧
  (∀ s line, linkUp s = true → s.entry.main = true → s.faults.test = false →
    (let c := (windowCell s (line.toNat * 64)).toList
     let u := { s with acct := { s.acct with live := { s.acct.live with windowBytes := s.acct.live.windowBytes + 64 } } }
     let u := if c.isEmpty then u else chargeTier none true 64 u
     let u := noteLost c u
     exec (.cxlMemRead line) s = .next (setHost u { u.host with cxlReads := u.host.cxlReads ++
      [⟨line.toNat, (hostWindow u (line.toNat * 64) 64).getD (zeros 64), (hostWindow u (line.toNat * 64) 64).isNone⟩] })) ∧
    (s.boot.laidOut = false → hostWindow s (line.toNat * 64) 64 = some (zeros 64))) ∧
  (∀ s line data, linkUp s = true → s.entry.main = true →
    ∃ t, exec (.cxlMemWrite line data) s = .next t ∧ t = { s with mem := t.mem, acct := t.acct } ∧
      t.acct.live.windowBytes = s.acct.live.windowBytes + 64 ∧
      (∀ u, writeWindow s (line.toNat * 64) (vecBytes data) = some u → t.mem = (noteWindow s (line.toNat * 64) u).mem) ∧
      (writeWindow s (line.toNat * 64) (vecBytes data) = none → t.mem = s.mem) ∧ (s.boot.laidOut = false → t.mem = s.mem))

/-- Completions are written, held or dropped. Posting: with an empty hold list, an up link and room in the ring the 32-byte entry goes to CQ_TAIL with
the current phase and CQ_TAIL advances, the phase turning over at the end of the ring; on a full ring it is held with OVERFLOW_STALL, else dropped
with CQ_OVF and vector 1,024; behind held completions or without a link it is held; an informational entry that finds the ring full is counted in
INFO_LOST (R266, R267). Frame: posting changes only the queue's own registers, the interrupt state and host memory, and of host memory only the
ring entry and the shadow line. -/
def Obligations.CompletionsArePosted : Prop :=
  (∀ (s : State) (q : QId) (c : Completion), c.info = false →
    ((queueAt s q).held = [] → queueLink s (queueAt s q) = true → ringFull (queueAt s q) = false →
      (queueAt s q).irqEn = false → (queueAt s q).shadow = 0 →
      post q c s = hostWrite (setQueue s q { queueAt s q with
          cqTail := BitVec.ofNat 16 (((queueAt s q).cqTail.toNat + 1) % (queueAt s q).cqSize.toNat)
          phase := if ((queueAt s q).cqTail.toNat + 1) % (queueAt s q).cqSize.toNat = 0 then !(queueAt s q).phase else (queueAt s q).phase })
        ((queueAt s q).cqBase.toNat * 4096 + 32 * (queueAt s q).cqTail.toNat) (completionBytes q (queueAt s q) c)) ∧
    ((queueAt s q).held = [] → queueLink s (queueAt s q) = true → ringFull (queueAt s q) = true → (queueAt s q).overflowStall = true →
      post q c s = setQueue s q { queueAt s q with held := [c] }) ∧
    ((queueAt s q).held = [] → queueLink s (queueAt s q) = true → ringFull (queueAt s q) = true → (queueAt s q).overflowStall = false →
      post q c s = raiseVector 1024 (setQueue s q { queueAt s q with cqOvf := true })) ∧
    (((queueAt s q).held ≠ [] ∨ queueLink s (queueAt s q) = false) →
      post q c s = setQueue s q { queueAt s q with held := (queueAt s q).held ++ [c] }) ∧
    (ringFull (queueAt s q) = true → post q { c with info := true } s = setQueue s q { queueAt s q with infoLost := satAdd (queueAt s q).infoLost 1 })) ∧
  (∀ (s : State) (q : QId) (c : Completion), ∃ t, post q c s = t ∧
    t = { s with host := { s.host with queues := t.host.queues, msix := t.host.msix, irqs := t.host.irqs }, mem := { s.mem with host := t.mem.host } } ∧
    (∀ r : QId, r ≠ q → queueAt t r = queueAt s r) ∧
    ∀ a, (a < (queueAt s q).cqBase.toNat * 4096 + 32 * (queueAt s q).cqTail.toNat ∨
          (queueAt s q).cqBase.toNat * 4096 + 32 * (queueAt s q).cqTail.toNat + 32 ≤ a) →
      (a < (queueAt s q).shadow.toNat * 64 ∨ (queueAt s q).shadow.toNat * 64 + 64 ≤ a) → mread t.mem.host a = mread s.mem.host a)

/-- NOP, TIME_MARK, FENCE and the fetch of descriptors. NOP completes OK; TIME_MARK takes the next event number, which it returns; a FENCE whose turn
has not come changes nothing else and otherwise the fences that are ready complete (R271, R278). A fetch burst accepts the fetched descriptors in
ring order, writes the shadow line and lets copies that waited for their target go on; one known descriptor opens under the next acceptance number
and SQ_HEAD advances by one modulo ENTRIES (R239, R266, R270). -/
def Obligations.NopFenceAndFetch : Prop :=
  (∀ (s : State) (q : QId) (h : DescHdr) (acc : Nat),
    (Taken s q .nop h acc → exec (.nop q h) s = .next (finish acc .ok 0 0 (started s q acc))) ∧
    (Taken s q .timeMark h acc → exec (.timeMark q h) s =
      .next (finish acc .ok s.faults.nextSeq 0 (recordEvent 5 h.mark (started s q acc)))) ∧
    (∀ allQueues, Taken s q .fence h acc →
      let u := setOpens (started s q acc) (tup acc (fun d => { d with allQueues := allQueues }) (started s q acc).host.opens)
      exec (.fence q h allQueues) s = .next (settleFences u.host.opens.length u) ∧
      (readyFence u.host.opens = none → exec (.fence q h allQueues) s = .next u))) ∧
  (∀ (s : State) (q : QId) (descs : List (List Byte)), fetchOpen s q = true → 1 ≤ descs.length → descs.length ≤ burstRoom (queueAt s q) →
    exec (.descriptorFetchBurst q descs) s = .next (settleCopies (writeShadow q (descs.foldl (acceptFetched q) s))) ∧
    ∀ bs, descs = [bs] → opcodeKnown (byteAt bs 0) = true → (queueAt s q).shadow = 0 →
      ∃ t, exec (.descriptorFetchBurst q descs) s = .next (settleCopies t) ∧ (s.fld.copies = [] → s.fld.fields = [] → settleCopies t = t) ∧
        tfind s.host.nextAcc t.host.opens = some { parseDesc s.tick q bs with winMark := ((queueAt s q).covers.head?.map (·.2)).getD 0 } ∧
        t.host.nextAcc = s.host.nextAcc + 1 ∧
        queueAt t q = { queueAt s q with
          sqHead := BitVec.ofNat 16 (((queueAt s q).sqHead.toNat + 1) % (queueAt s q).sqSize.toNat)
          covers := (queueAt t q).covers, inFlight := (queueAt s q).inFlight - 1 } ∧
        t = { s with host := t.host })

/-- A descriptor ends by one completion. Finishing an open descriptor removes it from the open ones, notes it as closed, and posts one completion
entry with its status, SEQ, MARK, opcode, tag and results to the queue it was fetched from; where no fence becomes ready that is all that happens
(R270, R273, R275, R277). -/
def Obligations.DescriptorEndsByOneCompletion : Prop :=
  ∀ (s : State) (acc : Nat) (d : OpenDesc) (st : Status) (r0 r1 : Nat), tfind acc s.host.opens = some d →
    let c : Completion := { status := statusCode st, seq := d.seq, mark := d.mark, result0 := BitVec.ofNat 64 r0, result1 := BitVec.ofNat 32 r1
                            opcode := d.op, tag := d.tag, irqNow := d.irqNow, info := false }
    let u := post d.q c (setHost s { s.host with opens := tdel acc s.host.opens
                                                 closed := (d.q, d.seq.toNat) :: s.host.closed.filter (· != (d.q, d.seq.toNat)) })
    u.host.opens = tdel acc s.host.opens ∧ (readyFence (tdel acc s.host.opens) = none → finish acc st r0 r1 s = u)

/-- COPY is checked and taken up. A COPY to a section's feed waits while an earlier accepted COPY has not been taken up (log 173). Otherwise COPY with
SRC_PLACE 3 ends COUNT_MISMATCH, with LENGTH 0 OK_EMPTY, with a length or window address off the 64-byte grid BAD_ALIGNMENT, each after closing
the queue's batch; else the copy joins the queue's open batch and the field it touches wakes (R234, R240, R272). Each next state is given whole. -/
def Obligations.CopiesAreTakenUp : Prop :=
  ∀ (s : State) (q : QId) (h : DescHdr) (d : CopyDesc) (data : List Byte) (acc : Nat), (copyWaits s q h d = true → exec (.copy q h d data) s = .next s) ∧
    (Taken s q .copy h acc → copyWaits s q h d = false →
    let u := setPhase acc .running s
    (d.srcPlace = 3 → exec (.copy q h d data) s = .next (finish acc .countMismatch 0 0 (closeBatches q u))) ∧
    (d.srcPlace ≠ 3 → d.length = 0 → exec (.copy q h d data) s = .next (finish acc .okEmpty 0 0 (closeBatches q u))) ∧
    (d.srcPlace ≠ 3 → d.length ≠ 0 → d.dstPlace = 3 → d.length.toNat % 64 ≠ 0 →
      exec (.copy q h d data) s = .next (finish acc .badAlignment 0 0 (closeBatches q u))) ∧
    (d.srcPlace ≠ 3 → d.length ≠ 0 → (d.dstPlace = 1 ∨ d.dstPlace = 2) → (d.dstAddr.toNat % 64 ≠ 0 ∨ d.length.toNat % 64 ≠ 0) →
      exec (.copy q h d data) s = .next (finish acc .badAlignment 0 0 (closeBatches q u))) ∧
    (d.srcPlace ≠ 3 → d.length ≠ 0 → d.length.toNat % 64 = 0 → d.dstAddr.toNat % 64 = 0 →
      exec (.copy q h d data) s = .next (settleCopies (addCopy q
        { acc, tag := h.tag.toNat, srcPlace := d.srcPlace.toNat, dstPlace := d.dstPlace.toNat, field := d.field
          target := (d.targetSq.val, d.targetSeq.toNat), secId := none, port := d.edgePort, src := d.srcAddr.toNat, dst := d.dstAddr.toNat
          length := d.length.toNat, data, moved := 0, batched := false, started := false, fault := none }
        (if (d.srcPlace == 1 && rangeNear u d.field d.srcAddr.toNat d.length.toNat) || (d.dstPlace == 1 && rangeNear u d.field d.dstAddr.toNat d.length.toNat) then wakeField d.field u else u)))))

/-- LOAD_SKEIN and MOON_LOAD take up an image. LOAD_SKEIN and MOON_LOAD: a reserved SRC_PLACE ends COUNT_MISMATCH, a bad descriptor field
BAD_ALIGNMENT, host memory that cannot be reached LINK_DOWN (R259), an image that cannot be read FENCED_UNIT, a bad header BAD_ALIGNMENT, no room
in the cache NO_PLACEMENT, an empty STACK_MASK OK_EMPTY; otherwise the load joins the loads whose image is copied and hashed, the image being
decoded from the bytes of its source; a header that the cache holds goes on from the cached copy. The named fields wake first. Each next state is
given whole. The last clauses say what the read does: the first place that cannot be read (an unmapped page, a lost line) raises its entry, and
without test mode a readable image leaves the state as it was. That the read comes before the header's check is the model's own order (log 149). -/
def Obligations.ImageLoads : Prop :=
  (∀ (s : State) (q : QId) (h : DescHdr) (d : LoadDesc) (host : ReadBytes) (acc : Nat),
    (Taken s q .loadSkein h acc → let u := wakeField d.field (started s q acc)
      (d.srcPlace = 3 → exec (.loadSkein q h d host) s = .next (finish acc .countMismatch 0 0 u)) ∧
      (d.srcPlace ≠ 3 → loadFormBad d = true → exec (.loadSkein q h d host) s = .next (finish acc .badAlignment 0 1 u)) ∧
      (d.srcPlace ≠ 3 → loadFormBad d = false → hostLost u acc (d.srcPlace == 0) = true → exec (.loadSkein q h d host) s = .next (finish acc .linkDown 0 0 u)) ∧
      (d.srcPlace ≠ 3 → loadFormBad d = false → hostLost u acc (d.srcPlace == 0) = false →
        ∀ met v, hubRead d.srcPlace.toNat d.field d.imageAddr.toNat d.imageBytes.toNat u = (met, v) →
        let rd := sourceByte v d.srcPlace.toNat d.field d.imageAddr.toNat host
        let img := parseSkein rd
        (met = false → exec (.loadSkein q h d host) s = .next (finish acc .fencedUnit 0 0 v)) ∧
        (met = true → cachedHead v img = none → headerBad d img = true → exec (.loadSkein q h d host) s = .next (finish acc .badAlignment 0 1 v)) ∧
        (met = true → cachedHead v img = none → headerBad d img = false → v.fld.cache.length + reserved v < 1024 →
          exec (.loadSkein q h d host) s = .next { v with fld := { v.fld with loads := v.fld.loads ++
            [⟨acc, d.field, d.slot, d.reportAddr, d.abort, some img, none, skeinSigned rd img, 0, 0, false⟩] } }) ∧
        (met = true → cachedHead v img = none → headerBad d img = false → 1024 ≤ v.fld.cache.length + reserved v → evictable v = none →
          exec (.loadSkein q h d host) s = .next (finish acc .noPlacement 0 2 v)) ∧
        (∀ i, met = true → cachedHead v img = some i → exec (.loadSkein q h d host) s = .next (loadStart acc d i (skeinSigned rd img) v)))) ∧
    (Taken s q .moonLoad h acc →
      let u := (maskStacks d.stackMask).foldl (fun s k => match fieldOfBand s (bandOf k) with | some f => wakeField f s | none => s) (started s q acc)
      (d.srcPlace = 3 → exec (.moonLoad q h d host) s = .next (finish acc .countMismatch 0 0 u)) ∧
      (d.srcPlace ≠ 3 → d.stackMask = 0 → exec (.moonLoad q h d host) s = .next (finish acc .okEmpty 0 0 u)) ∧
      (d.srcPlace ≠ 3 → d.stackMask ≠ 0 → moonFormBad d = true → exec (.moonLoad q h d host) s = .next (finish acc .badAlignment 0 0 u)) ∧
      (d.srcPlace ≠ 3 → d.stackMask ≠ 0 → moonFormBad d = false → hostLost u acc (d.srcPlace == 0) = true →
        exec (.moonLoad q h d host) s = .next (finish acc .linkDown 0 0 u)) ∧
      (d.srcPlace ≠ 3 → d.stackMask ≠ 0 → moonFormBad d = false → hostLost u acc (d.srcPlace == 0) = false →
        ∀ met v, hubRead d.srcPlace.toNat d.field d.imageAddr.toNat d.imageBytes.toNat u = (met, v) →
        let rd := sourceByte v d.srcPlace.toNat d.field d.imageAddr.toNat host
        let moon := parseMoon rd d.imageBytes.toNat
        (met = false → exec (.moonLoad q h d host) s = .next (finish acc .fencedUnit 0 0 v)) ∧
        (met = true → moonHeaderBad d moon = true → exec (.moonLoad q h d host) s = .next (finish acc .badAlignment 0 0 v)) ∧
        (met = true → moonHeaderBad d moon = false → v.fld.cache.length + reserved v < 1024 →
          exec (.moonLoad q h d host) s = .next { v with fld := { v.fld with loads := v.fld.loads ++
            [⟨acc, d.field, 0, 0, false, none, some moon, moonSigned rd moon, d.stackMask, d.progIndex, false⟩] } }) ∧
        (met = true → moonHeaderBad d moon = false → 1024 ≤ v.fld.cache.length + reserved v → evictable v = none →
          exec (.moonLoad q h d host) s = .next (finish acc .noPlacement 0 0 v))))) ∧
  (∀ (u : State) (place f a n x : Nat), hubLost u place f a n = some x → hubRead place f a n u = (false, placeFault place f x u)) ∧
  (∀ (u : State) (place f a n : Nat), hubLost u place f a n = none → u.faults.test = false → hubRead place f a n u = (true, u)) ∧
  (∀ (u : State) (f a n : Nat), 0 < n → dvaCell u f a = none → hubRead 1 f a n u = (false, dmaFault a u))

/-- Images are checked and slots are filled. IMAGE_CHECKED: an answer whose digest is not that of the copy, or that is not its field and slot's first,
changes nothing; a failed signature ends SIGNATURE_FAIL at step 2, a wrong body digest DIGEST_FAIL at step 3, any later check its own status and
step; a good skein enters the cache and waits to fill its slot; a good moon image is marked checked and installed where it may. SLOT_FILL fills a
slot that no unit uses and completes the load with the largest bound of its report, or LINK_DOWN where the report cannot be written (R104 to R107,
R176, R209, R259). -/
def Obligations.ImagesAreDecided : Prop :=
  (∀ (s : State) (acc : Nat) (bodyHash : Digest) (sig : SigCheck) (l : LoadRun) (m : MoonImage),
    s.fld.loads.find? (fun l => l.acc == acc && !l.checked) = some l → l.skein = none → l.moon = some m →
    ((sig.ed = false ∨ sig.ml = false) → exec (.imageChecked acc bodyHash sig) s = .next (finish l.acc .signatureFail 0 0 (dropLoad l.acc s))) ∧
    (sig.ed = true → sig.ml = true → signerKnown s m.signerId = true → moonParamsBad m = true →
      exec (.imageChecked acc bodyHash sig) s = .next (finish l.acc .countMismatch 0 0 (dropLoad l.acc s))) ∧
    (sig.ed = true → sig.ml = true → signerKnown s m.signerId = true → moonParamsBad m = false →
      (∀ k ∈ maskStacks l.mask, moonSlotLocked s m l.index k = false) →
      exec (.imageChecked acc bodyHash sig) s = .next (settleMoonLoads { s with fld := { s.fld with
        loads := mapIf (fun e => e.acc == l.acc) (fun e => { e with checked := true }) s.fld.loads } }))) ∧
  (∀ (s : State) (acc : Nat) (bodyHash : Digest) (sig : SigCheck) (l : LoadRun) (i : SkeinImage),
    s.fld.loads.find? (fun l => l.acc == acc && !l.checked) = some l → l.skein = some i →
    ((bodyHash ≠ i.bodyHash ∨ firstLoad s l = false) → exec (.imageChecked acc bodyHash sig) s = .next s) ∧
    (firstLoad s l = true → cachedHead s i = none →
    ((sig.ed = false ∨ sig.ml = false) → exec (.imageChecked acc i.bodyHash sig) s = .next (settleCopies (finish l.acc .signatureFail 0 2 (dropLoad l.acc s)))) ∧
    (sig.ed = true → sig.ml = true → signerKnown s i.hdr.signerId = true → i.bodyHash ≠ i.hdr.bodyDigest →
      exec (.imageChecked acc i.bodyHash sig) s = .next (settleCopies (finish l.acc .digestFail 0 3 (dropLoad l.acc s)))) ∧
    (∀ st n, sig.ed = true → sig.ml = true → signerKnown s i.hdr.signerId = true → i.bodyHash = i.hdr.bodyDigest → checkLoad s l.field l.slot i = some (st, n) →
      exec (.imageChecked acc i.bodyHash sig) s = .next (settleCopies (finish l.acc st 0 n (dropLoad l.acc s)))) ∧
    (sig.ed = true → sig.ml = true → signerKnown s i.hdr.signerId = true → i.bodyHash = i.hdr.bodyDigest → checkLoad s l.field l.slot i = none →
      l.abort = false → let u := cacheImage i (dropLoad l.acc s)
      exec (.imageChecked acc i.bodyHash sig) s = .next (settleCopies { u with fld := { u.fld with fills := u.fld.fills ++
        [{ field := l.field, slot := l.slot, acc := some l.acc, img := i, report := l.report }] } })))) ∧
  (∀ (s : State) (f : FieldId) (slot : SlotId) (fl : Field) (w : FillWait), fieldAt s f = some fl → firstFill s f slot = some w → slotBusy s fl slot = false →
    w.acc = none →
    exec (.slotFill f slot) s = .next (fillSlot f slot w.img { s with fld := { s.fld with fills := s.fld.fills.erase w } })) ∧
  (∀ (s : State) (f : FieldId) (slot : SlotId) (fl fl' : Field) (w : FillWait) (a : Nat), fieldAt s f = some fl → firstFill s f slot = some w → slotBusy s fl slot = false →
    w.acc = some a → let u := fillSlot f slot w.img { s with fld := { s.fld with fills := s.fld.fills.erase w } }
    fieldAt u f = some fl' →
    (w.report = 0 → exec (.slotFill f slot) s = .next (finish a .ok (maxN (skeinBounds u fl' w.img)) 0 u)) ∧
    (w.report ≠ 0 → hostLost u a true = true → exec (.slotFill f slot) s = .next (finish a .linkDown 0 0 u)) ∧
    (w.report ≠ 0 → hostLost u a true = false → let v := hostWrite u w.report.toNat (loadReport u f slot fl' w.img)
      exec (.slotFill f slot) s = .next (finish a .ok (maxN (skeinBounds v fl' w.img)) 0 v)))

/-- WEIGHT_LOAD and its shards. WEIGHT_LOAD with a reserved place, or to the store before layout, ends COUNT_MISMATCH, with host memory out of reach
LINK_DOWN; an unreadable manifest ends FENCED_UNIT; when its manifest has been read, its checks decide, or it joins the loads in acceptance order
and those that can move on do. SHARD_HASHED, with test mode off: host memory out of reach ends the load LINK_DOWN; without room the load ends with
that status; a matching digest installs the shard; a wrong one is logged as a digest failure and ends the load DIGEST_FAIL; an unreadable shard
ends it FENCED_UNIT (R259, R330 to R332). -/
def Obligations.WeightLoads : Prop :=
  (∀ (s : State) (q : QId) (h : DescHdr) (d : WeightDesc) (host : ManifestRead) (acc : Nat), Taken s q .weightLoad h acc → let u := started s q acc
    let m := parseManifest (sourceByte u d.srcPlace.toNat d.field d.manifestAddr.toNat host.bytes) host.sig
    ((d.srcPlace = 3 ∨ (d.dest = false ∧ u.boot.laidOut = false)) → exec (.weightLoad q h d host) s = .next (finish acc .countMismatch 0 noShard u)) ∧
    (d.srcPlace ≠ 3 → (d.dest = false → u.boot.laidOut = true) → hostLost u acc (d.srcPlace == 0) = true →
      exec (.weightLoad q h d host) s = .next (finish acc .linkDown 0 noShard u)) ∧
    (d.srcPlace ≠ 3 → (d.dest = false → u.boot.laidOut = true) → hostLost u acc (d.srcPlace == 0) = false → ∀ met v,
      hubRead d.srcPlace.toNat d.field d.manifestAddr.toNat d.manifestBytes.toNat (if d.dest || weightsNear u d m then wakeField d.field u else u) = (met, v) →
      (met = false → exec (.weightLoad q h d host) s = .next (finish acc .fencedUnit 0 noShard v)) ∧
      (∀ st, met = true → checkWeights v d m = some st → exec (.weightLoad q h d host) s = .next (finish acc st 0 noShard v)) ∧
      (met = true → checkWeights v d m = none →
        let w : WeightRun := ⟨acc, m, if d.dest then some d.field.val else none, d.srcPlace.toNat, d.field, d.shardAddr.toNat, h.tag.toNat, d.shardFirst.toNat,
          d.shardFirst.toNat + d.shardCount.toNat, 0⟩
        let before := v.models.loads.filter fun x => decide (x.acc < acc)
        let after := v.models.loads.filter fun x => decide (acc < x.acc)
        let t := { v with models := { v.models with loads := before ++ [w] ++ after } }
        exec (.weightLoad q h d host) s = .next (advanceLoads (loadMoves t) t)))) ∧
  (∀ (s : State) (r : ShardRead) (w : WeightRun) (l : List WeightRun) (e : ShardEntry), s.models.loads = w :: l → w.manifest.shards[w.next]? = some e →
    running s = true →
    (hostLost s w.acc (w.srcPlace == 0) = true → let t := endLoad w .linkDown w.next s; exec (.shardHashed r) s = .next (advanceLoads (loadMoves t) t)) ∧
    (hostLost s w.acc (w.srcPlace == 0) = false → s.faults.test = false →
    let u := chargePlace s w.tag w.field w.srcPlace (w.shardAddr + 4096 * e.srcPage) e.bytes
    (∀ st, shardRoom u w e = .error st → let t := endLoad w st w.next u
      exec (.shardHashed r) s = .next (advanceLoads (loadMoves t) t)) ∧
    (∀ v, shardRoom u w e = .ok v → ∀ data, shardSource u w e r = some data → 
      (r.hash = e.digest → let t := shardLoaded w e (installShard w e data v)
        exec (.shardHashed r) s = .next (advanceLoads (loadMoves t) t)) ∧
      (r.hash ≠ e.digest → let t := endLoad w .digestFail w.next (logDetection 0x10 0x0A 1 false 10 (islandCycles u 0x10)
          (BitVec.ofNat 64 (shardLoc w.next (w.dest.getD 0))) (statusCode .digestFail) u)
        exec (.shardHashed r) s = .next (advanceLoads (loadMoves t) t))) ∧
    (∀ v, shardRoom u w e = .ok v → shardSource u w e r = none →
      let t := endLoad w .fencedUnit w.next (placeFault w.srcPlace w.field (w.shardAddr + 4096 * e.srcPage) u)
      exec (.shardHashed r) s = .next (advanceLoads (loadMoves t) t))))

/-- RUN_SECTION is checked and enters its field. RUN_SECTION: no field or an empty slot ends NO_PLACEMENT, bad codes COUNT_MISMATCH, an input block
that host memory cannot give LINK_DOWN (R259), a failed run check its own status; otherwise the section enters its field with its scalars,
watchdog, idle limit, feeds and bound (R108, R166, R272). The field wakes first, and copies that waited for the section are looked at again. -/
def Obligations.SectionsAreSubmitted : Prop :=
  ∀ (s : State) (q : QId) (h : DescHdr) (d : RunDesc) (block : List (BitVec 32)) (acc : Nat), Taken s q .runSection h acc →
    let u := wakeField d.field (started s q acc)
    let fail := fun (st : BitVec 16) => settleCopies (dropParkWait acc .alreadyDone (finishCode acc st 0 0 u))
    (fieldAt u d.field = none → exec (.runSection q h d block) s = .next (fail (statusCode .noPlacement))) ∧
    ∀ fl, fieldAt u d.field = some fl → let sl := tget ({} : Slot) d.slot fl.slots
      (sl.skein = none → exec (.runSection q h d block) s = .next (fail (sl.refillFail.getD (statusCode .noPlacement)))) ∧
      ∀ i, sl.skein = some i → let scalars := runScalars d block
        (runCodesBad d i = true → exec (.runSection q h d block) s = .next (fail (statusCode .countMismatch))) ∧
        (runCodesBad d i = false → hostLost u acc (8 < d.nscalars.toNat) = true → exec (.runSection q h d block) s = .next (fail (statusCode .linkDown))) ∧
        (∀ st, runCodesBad d i = false → hostLost u acc (8 < d.nscalars.toNat) = false → checkRun u d.field fl i scalars = some st → exec (.runSection q h d block) s = .next (fail (statusCode st))) ∧
        (runCodesBad d i = false → hostLost u acc (8 < d.nscalars.toNat) = false → checkRun u d.field fl i scalars = none →
          let empty := (suppliedAxes i).any fun a => scalars.getD a.scalar 0 == 0
          exec (.runSection q h d block) s = .next (settleCopies (enterSection d.field { newSection u d.field (some acc) d.slot scalars with
            empty, watchdog := d.watchdog.toNat, idleEn := d.idleEn, idleLimit := d.idleLimit.toNat, feeds := feedsFor i scalars empty
            blockAddr := d.blockAddr, bound := runBound u d.field fl i, tag := some h.tag.toNat } (countSection (setPhase acc .waiting u)))))

/-- REQUEST_SUBMIT, REQUEST_CANCEL and PARK. REQUEST_SUBMIT: its checks in order end it with their status (MAX_NEW 0 with OK_EMPTY once the other
counts are not zero), LINK_DOWN where host memory cannot be reached (R259); a quarantined shard ends it QUARANTINED_SHARD; else it waits for an
entry or takes one. REQUEST_CANCEL and PARK: a target that is not open ends ALREADY_DONE, a target of another kind COUNT_MISMATCH, reserved place
or SCAN with RELEASE COUNT_MISMATCH; otherwise the cancel or park of a request waits for its boundary; the park of a section that no unit runs yet
waits for it, that of a running one starts its drain, that of one which the governor parks or has parked takes over, or ends NO_PLACEMENT where a
release finds no room for its records. -/
def Obligations.RequestsAndCancels : Prop :=
  (∀ (s : State) (q : QId) (h : DescHdr) (d : SubmitDesc) (prompt : List (BitVec 32)) (acc : Nat), Taken s q .requestSubmit h acc →
    prompt.length = d.promptTokens.toNat → let u := started s q acc
    (submitZero d = none → hostDma u acc = false → exec (.requestSubmit q h d prompt) s = .next (settleHolds (finish acc .linkDown 0 0 u))) ∧
    (∀ st, submitCheck u d prompt = some st → (submitZero d = none → hostDma u acc = true) → exec (.requestSubmit q h d prompt) s = .next (settleHolds (finish acc st 0 0 u))) ∧
    (d.maxNew = 0 → d.promptTokens ≠ 0 → (d.noDeadline = true ∨ d.deadline ≠ 0) → (d.parkEn = false ∨ d.parkLimit ≠ 0) →
      submitCheck u d prompt = some .okEmpty) ∧
    (submitCheck u d prompt = none → hostDma u acc = true → placeMember u d.config.toNat = none →
      exec (.requestSubmit q h d prompt) s = .next (settleHolds (finish acc .quarantinedShard 0 0 u))) ∧
    (∀ m c, submitCheck u d prompt = none → hostDma u acc = true → placeMember u d.config.toNat = some m → configAt u m = some c →
      (manifestHeld u c.block.field c.block.manifestDigest = true →
        exec (.requestSubmit q h d prompt) s = .next (settleHolds (finish acc .quarantinedShard 0 0 u))) ∧
      (manifestHeld u c.block.field c.block.manifestDigest = false → exec (.requestSubmit q h d prompt) s =
        .next (awaitEntry { acc, req := submitEntry u acc (acceptedAt u acc) h d prompt m c.block.field, comet := none } (wakeField c.block.field u))))) ∧
  (∀ (s : State) (q : QId) (h : DescHdr) (tq : QId) (ts : BitVec 16) (d : ParkDesc) (acc : Nat),
    (Taken s q .requestCancel h acc → let u := started s q acc
      (targetDesc u tq ts.toNat = none → exec (.requestCancel q h tq ts) s = .next (finish acc .alreadyDone 0 0 u)) ∧
      (∀ a t, targetDesc u tq ts.toNat = some (a, t) → t.op ≠ 0x40 → t.op ≠ 0x43 → exec (.requestCancel q h tq ts) s = .next (finish acc .countMismatch 0 0 u)) ∧
      (∀ a t, targetDesc u tq ts.toNat = some (a, t) → (t.op = 0x40 ∨ t.op = 0x43) → exec (.requestCancel q h tq ts) s =
        .next (settleHolds (setPhase acc .waiting { u with serv := { u.serv with holds := u.serv.holds ++ [(acc, a, none)] } })))) ∧
    (Taken s q .park h acc → let u := started s q acc
      ((d.destPlace = 3 ∨ (d.scan = true ∧ d.release = true)) → exec (.parkSection q h d) s = .next (finish acc .countMismatch 0 0 u) ∧
        exec (.parkRequest q h d) s = .next (finish acc .countMismatch 0 0 u)) ∧
      (d.destPlace ≠ 3 → (d.scan = false ∨ d.release = false) →
        (targetDesc u d.targetSq d.targetSeq.toNat = none → exec (.parkSection q h d) s = .next (finish acc .alreadyDone 0 0 u) ∧
          exec (.parkRequest q h d) s = .next (finish acc .alreadyDone 0 0 u)) ∧
        (∀ a t, targetDesc u d.targetSq d.targetSeq.toNat = some (a, t) →
          ((t.op = 0x40 ∨ t.op = 0x43) → exec (.parkRequest q h d) s =
            .next (settleHolds (setPhase acc .waiting { u with serv := { u.serv with holds := u.serv.holds ++ [(acc, a, some d)] } }))) ∧
          ((u.fld.fields.findSome? fun (e : Nat × Field) => ((sectionsOf e.2).find? fun x => x.acc == some a).map fun x => (e.1, e.2, x)) = none →
            ((t.op = 0x21 ∨ (t.op = 0x43 ∧ t.phase ≠ .placed ∧ t.phase ≠ .waiting)) → exec (.parkSection q h d) s =
              .next { setPhase acc .waiting u with fld := { u.fld with parkWait := u.fld.parkWait ++ [(acc, a, d.release, d.scan)] } }) ∧
            (t.op ≠ 0x21 → (t.op ≠ 0x43 ∨ t.phase = .placed ∨ t.phase = .waiting) → exec (.parkSection q h d) s = .next (finish acc .countMismatch 0 0 u))) ∧
          (∀ f fl x, u.fld.fields.findSome? (fun e => ((sectionsOf e.2).find? fun x => x.acc == some a).map fun x => (e.1, e.2, x)) = some (f, fl, x) →
            (x.phase = .dispatched → x.why = none → activeIn u fl x.id = false → exec (.parkSection q h d) s =
              .next { setPhase acc .waiting u with fld := { u.fld with parkWait := u.fld.parkWait ++ [(acc, a, d.release, d.scan)] } }) ∧
            ((x.phase = .draining ∨ x.phase = .settled) → x.why ≠ some .governor → exec (.parkSection q h d) s = .next (finish acc .alreadyDone 0 0 u)) ∧
            (x.phase ≠ .parkedInPlace → x.why = some .governor → exec (.parkSection q h d) s = .next (match parkRoom d.release f [x.id] u with
              | some v => modSec f x.id (fun x => { x with why := some (.park acc d.release d.scan) }) (setPhase acc .waiting v)
              | none => finish acc .noPlacement 0 0 (noRoom [x.id] u))) ∧
            (x.phase = .parkedInPlace → exec (.parkSection q h d) s = .next (match parkRoom d.release f [x.id] u with
              | some v => parkSectionNow f x.id (b2n d.release) 0 (modSec f x.id (fun x => { x with why := some (.park acc d.release d.scan) }) (setPhase acc .waiting v))
              | none => finish acc .noPlacement 0 0 (noRoom [x.id] u)))) ∧
          (∀ f fl x, u.fld.fields.findSome? (fun e => ((sectionsOf e.2).find? fun x => x.acc == some a).map fun x => (e.1, e.2, x)) = some (f, fl, x) →
            x.phase = .dispatched → x.why = none → activeIn u fl x.id = true →
            exec (.parkSection q h d) s = .next (match parkRoom d.release f (drainIds u fl) u with
              | some v => startDrain f x.id (.park acc d.release d.scan) d.scan (setPhase acc .waiting v)
              | none => finish acc .noPlacement 0 0 (noRoom (drainIds u fl) u)))))))

/-- RESUME of park records and comets. RESUME of a park record: an unknown handle ends COUNT_MISMATCH, a failed check its status; otherwise the
record's skein is in its slot or fills it, and the section enters with the record's scalars, counts, feeds and units, a record of form 1 at the
end of the queue and another one back where it stood. DISCARD drops the record. RESUME of a comet: zero sizes and unreadable sources end with
their status, host memory out of reach LINK_DOWN (R259), a bad or untrusted signature SIGNATURE_FAIL, a wrong body digest DIGEST_FAIL, and a comet
that passes every check waits for an entry of the request table (R121, R237, R318, R320). -/
def Obligations.ResumesReturnWork : Prop :=
  ∀ (s : State) (q : QId) (h : DescHdr) (d : ResumeDesc) (c : CometRead) (acc : Nat), Taken s q .resume h acc →
    (let u := wakeField d.field (started s q acc);
      (parkAt u d.source.toNat = none →
        exec (.resumeParkRecord q h d) s = .next (settleCopies (dropParkWait acc .alreadyDone (finishCode acc (statusCode .countMismatch) 0 0 u)))) ∧
      (∀ p st, parkAt u d.source.toNat = some p → resumeCheck u d.field p = .inl st →
        exec (.resumeParkRecord q h d) s = .next (settleCopies (dropParkWait acc .alreadyDone (finishCode acc st 0 0 u)))) ∧
      (∀ (p : ParkRec) i fl, parkAt u d.source.toNat = some p → resumeCheck u d.field p = .inr i → fieldAt u d.field = some fl →
        let w := cacheImage i u
        let v := if (slotSkein fl p.slot).map (·.headerHash) = some p.headerHash then w
          else if slotBusy w fl p.slot = true then { w with fld := { w.fld with fills := w.fld.fills ++ [{ field := d.field, slot := p.slot, acc := none, img := i, report := 0 }] } }
          else fillSlot d.field p.slot i w
        let x := { newSection v d.field (some acc) p.slot p.scalars with
          image := some i, empty := p.empty, watchdog := p.watchdog, idleEn := p.idleEn, idleLimit := p.idleLimit
          feeds := p.feeds.map fun (e : Feed) => { e with expects := e.expects - e.delivered, accepted := 0, delivered := 0, before := e.before + e.delivered }
          blockAddr := d.outAddr, bound := runBound v d.field fl i, tag := some h.tag.toNat, outOfRange := p.outOfRange, exits := p.exits
          restored := true, restore := p.units }
        let t := dropRecord p.handle (setPhase acc .waiting v)
        (p.form = 1 → exec (.resumeParkRecord q h d) s = .next (settleCopies (enterSection d.field { x with id := v.fld.nextSection, phase := .queued } (countSection t)))) ∧
        (p.form ≠ 1 → exec (.resumeParkRecord q h d) s = .next (settleCopies (returnSection d.field { x with id := p.sectionId, phase := .dispatched } t))))) ∧
    (let u := started s q acc;
      (parkAt u d.source.toNat = none → exec (.resumeDiscard q h d) s = .next (finish acc .countMismatch 0 0 u)) ∧
      (∀ p, parkAt u d.source.toNat = some p → exec (.resumeDiscard q h d) s = .next (finish acc .ok 0 0 (dropRecord p.handle u))) ∧
      (∀ st, resumeZero d = some st → exec (.resumeComet q h d c) s = .next (settleHolds (finish acc st 0 0 u))) ∧
      (resumeZero d = none → hostLost u acc d.srcPlace = true → exec (.resumeComet q h d c) s = .next (settleHolds (finish acc .linkDown 0 0 u))) ∧
      (resumeZero d = none → hostLost u acc d.srcPlace = false →
        (∀ st, resumeSource u d c = .error st → exec (.resumeComet q h d c) s = .next (settleHolds (finish acc st 0 0 u))) ∧
        (∀ x handle signed body pages, resumeSource u d c = .ok (x, handle, signed, body, pages) →
          ((signed = false ∨ (x.identity ≠ ownIdentity ∧ (u.serv.trust.contains x.identity) = false)) →
            exec (.resumeComet q h d c) s = .next (settleHolds (finish acc .signatureFail 0 0 u))) ∧
          (signed = true → (x.identity = ownIdentity ∨ u.serv.trust.contains x.identity = true) → body = false →
            exec (.resumeComet q h d c) s = .next (settleHolds (finish acc .digestFail 0 0 u))) ∧
          (∀ m k, signed = true → (x.identity = ownIdentity ∨ u.serv.trust.contains x.identity = true) → body = true → configAt u d.config.toNat ≠ none →
            (u.serv.firmware = true ∨ (x.hdr.awaitKv = false ∧ x.hdr.prefillOnly = false)) →
            placeMember u d.config.toNat = some m → configAt u m = some k → x.hdr.skeinDigest = k.record → x.hdr.manifestDigest = k.block.manifestDigest →
            x.hdr.promptTokens + x.hdr.maxNew ≤ k.block.maxContext.toNat → manifestHeld u k.block.field k.block.manifestDigest = false →
            exec (.resumeComet q h d c) s = .next (awaitEntry { acc, req := resumeEntry u acc (acceptedAt u acc) h d x m k.block.field, comet := some (x, handle, pages) }
              (wakeField k.block.field u))))))

/-- KV_SHIP and collective copies start. KV_SHIP: zero pages OK_EMPTY, no serving firmware NO_PLACEMENT, no such request COUNT_MISMATCH, no route
LINK_DOWN, pages that cannot be read FENCED_UNIT with the entry of the lost line, else, with test mode off, the transfer of the pages starts. COPY
with COLLECTIVE: places other than 1 or a reserved format COUNT_MISMATCH, misaligned BAD_ALIGNMENT, an undefined group COUNT_MISMATCH, else the
instance joins the group's queue (R300, R359). A reserved format code ends COUNT_MISMATCH by the model's choice (log 68). -/
def Obligations.ShipmentsAndCollectivesStart : Prop :=
  (∀ (s : State) (q : QId) (h : DescHdr) (d : ShipDesc) (acc : Nat), Taken s q .kvShip h acc → let u := started s q acc
    (d.pageCount = 0 → exec (.kvShip q h d) s = .next (finish acc .okEmpty 0 0 u)) ∧
    (d.pageCount ≠ 0 → u.serv.firmware = false → exec (.kvShip q h d) s = .next (finish acc .noPlacement 0 0 u)) ∧
    (d.pageCount ≠ 0 → u.serv.firmware = true → shipSource u d = none → exec (.kvShip q h d) s = .next (finish acc .countMismatch 0 0 u)) ∧
    (∀ r x fl c, u.faults.test = false → d.pageCount ≠ 0 → u.serv.firmware = true → shipSource u d = some (r, x) → fieldAt u x.field = some fl → configAt u x.config = some c →
      (routeOpen u d.destNode 2 = false → exec (.kvShip q h d) s = .next (finish acc .linkDown 0 0 u)) ∧
      (routeOpen u d.destNode 2 = true → shipBytes u fl r x c d.firstPage.toNat d.pageCount.toNat = none →
        exec (.kvShip q h d) s = .next (finish acc .fencedUnit 0 0 (noteLost (pageCells u fl r d.firstPage.toNat d.pageCount.toNat c.pageBytes false) u))) ∧
      (∀ b, routeOpen u d.destNode 2 = true → shipBytes u fl r x c d.firstPage.toNat d.pageCount.toNat = some b →
        let n := d.pageCount.toNat * c.pageBytes
        let v := chargeTier (some h.tag.toNat) false n u
        exec (.kvShip q h d) s = .next (startTx (.kvShip acc) d.destNode 3 h.tag (BitVec.ofNat 8 d.destField.val) (BitVec.ofNat 16 d.destReq.toNat) 0 b
          (setPhase acc .waiting { v with serv := { v.serv with ships := v.serv.ships ++ [(acc, r, x.order, n, d.pageCount.toNat, d.release)] } }))))) ∧
  (∀ (s : State) (q : QId) (h : DescHdr) (d : CopyDesc) (acc : Nat), Taken s q .copy h acc → let u := closeBatches q (setPhase acc .running s)
    ((d.srcPlace ≠ 1 ∨ d.dstPlace ≠ 1 ∨ d.inFmt = 3 ∨ d.outFmt = 3) → exec (.copyCollective q h d) s = .next (finish acc .countMismatch 0 0 u)) ∧
    (d.srcPlace = 1 → d.dstPlace = 1 → d.inFmt ≠ 3 → d.outFmt ≠ 3 →
      ((d.srcAddr.toNat % 64 ≠ 0 ∨ d.dstAddr.toNat % 64 ≠ 0 ∨ d.length.toNat % 64 ≠ 0) →
        exec (.copyCollective q h d) s = .next (finish acc .badAlignment 0 0 u)) ∧
      (d.srcAddr.toNat % 64 = 0 → d.dstAddr.toNat % 64 = 0 → d.length.toNat % 64 = 0 →
        (tfind d.group.toNat u.fab.groups = none → exec (.copyCollective q h d) s = .next (finish acc .countMismatch 0 0 u)) ∧
        (∀ x, tfind d.group.toNat u.fab.groups = some x → let v := setPhase acc .waiting (wakeField d.field u)
          exec (.copyCollective q h d) s = .next (openInstance d.group.toNat { v with
            fab := { u.fab with groups := tput d.group.toNat { x with queue := x.queue ++ [(acc, d)] } u.fab.groups } })))))

/-- Copies move their bytes and end. COPY_BATCH_CLOSE starts every batched copy. COPY_TRANSFER_DONE of a started copy: a feed copy that has moved all
its bytes ends OK, one that met a place it could not read ends with that status and raises the place's entry, one that lost its link ends
LINK_DOWN; another copy whose link is down ends LINK_DOWN (R259), else it moves its pieces, charges and touches what it reads and writes, and ends
OK, or FENCED_UNIT with the bytes delivered at the first piece that fails; a write of a call header begins the call; a copy from host to host
memory writes exactly its bytes to its destination, leaves every other byte of host memory and all other state but accounting as it was, and ends
OK. -/
def Obligations.CopiesEnd : Prop :=
  (∀ s, exec .copyBatchClose s = .next (settleCopies { s with fld := { s.fld with
    copies := mapIf (fun c => c.batched) (fun c => { c with started := true }) s.fld.copies } })) ∧
  (∀ (s : State) (q : QId) (seq : BitVec 16) (c : CopyRun), let u := settleCopies s
    copyAt u q seq.toNat = some c → c.started = true → batchWaits u q c = false → u.faults.fatalPhase = .none →
    (c.dstPlace = 3 → c.fault = none → c.moved = c.length → exec (.copyTransferDone q seq) s = .next (endCopy c (statusCode .ok) u)) ∧
    (c.dstPlace = 3 → c.fault = some (statusCode .linkDown) → exec (.copyTransferDone q seq) s = .next (endCopy c (statusCode .linkDown) u)) ∧
    (∀ st, c.dstPlace = 3 → c.fault = some st → st ≠ statusCode .linkDown →
      exec (.copyTransferDone q seq) s = .next (endCopy c st (placeFault c.srcPlace c.field (c.src + c.moved) u))) ∧
    (c.dstPlace ≠ 3 → copyLink u c = false → exec (.copyTransferDone q seq) s = .next (endCopy c (statusCode .linkDown) u)) ∧
    (c.dstPlace ≠ 3 → copyLink u c = true → (c.dstPlace = 1 → headerHeld u c.field c.dst c.length = false) →
      let v := if c.srcPlace = 1 then touchRange c.field c.src c.length u else u
      let v := if c.dstPlace = 1 then touchRange c.field c.dst c.length v else v
      let v := chargePlace (chargePlace v c.tag c.field c.srcPlace c.src c.length) c.tag c.field c.dstPlace c.dst c.length
      ∀ n all w, movePieces c (ceilDiv c.length 64) 0 v = ((n, all), w) →
        exec (.copyTransferDone q seq) s = .next (endCopy { c with moved := n } (if all then statusCode .ok else statusCode .fencedUnit)
          (if c.dstPlace = 1 then noteHeaders c.field c.dst n none w else w))) ∧
    (c.dstPlace = 0 → c.srcPlace = 0 → copyLink u c = true → c.data.length = c.length →
      ∃ t, exec (.copyTransferDone q seq) s = .next (endCopy { c with moved := c.length } (statusCode .ok) t) ∧
        (∀ i, i < c.length → mread t.mem.host (c.dst + i) = c.data.getD i 0) ∧
        (∀ a, (a < c.dst ∨ c.dst + c.length ≤ a) → mread t.mem.host a = mread u.mem.host a) ∧
        t = { u with mem := { u.mem with host := t.mem.host }, acct := t.acct }))

/-- The mailbox takes one command at a time. Every mailbox command of the serving and management firmware that arrives while another one runs, or
while BAR0 does not answer, changes nothing (R261). -/
def Obligations.MailboxTakesOneCommand : Prop :=
  ∀ (s : State) (c : Instr), (barOpen s = false ∨ s.host.mboxRun.isSome = true) →
    (match c with
      | .map _ | .unmap _ | .serveMode _ | .serveConfig _ | .expertMap _ _ _ | .retainedFree _ | .retainedPack _ | .cometTrust _ _ | .modelOwners _ _
      | .modelDrop _ | .collGroup _ _ _ _ _ | .fieldLayout _ _ | .placeGroup _ _ _ | .fieldWake _ | .fieldSleep _ | .fieldReset _ | .testNonce _
      | .testUnlock _ | .testLock | .selfTest _ _ _ => True
      | _ => False) → exec c s = .next s

/-- MAP and UNMAP. With the mailbox free: MAP of an undefined field or a reserved page size ends COUNT_MISMATCH, of 0 bytes OK_EMPTY, misaligned or
overlapping BAD_ALIGNMENT; otherwise it maps every page or, where one finds no frame, none (that the pages mapped before the failure are given
back is the model's choice, log 31). UNMAP of 0 bytes ends OK_EMPTY, one that cuts a page BAD_ALIGNMENT, else it removes the host's pages of the
range (firmware ranges stay, log 32). -/
def Obligations.MapAndUnmap : Prop :=
  ∀ (s : State), MailboxFree s →
    (∀ b : MapBlock, (fieldAt s b.field = none → exec (.map b) s = .next (mboxEnd 0x0010 .countMismatch [] s)) ∧
      ∀ fl, fieldAt s b.field = some fl →
        (b.page = 3 → exec (.map b) s = .next (mboxEnd 0x0010 .countMismatch [] s)) ∧
        (b.page ≠ 3 → b.bytes = 0 → exec (.map b) s = .next (mboxEnd 0x0010 .okEmpty [] s)) ∧
        (b.page ≠ 3 → b.bytes ≠ 0 → mapMisfit s fl b = true → exec (.map b) s = .next (mboxEnd 0x0010 .badAlignment [] s)) ∧
        (b.page ≠ 3 → b.bytes ≠ 0 → mapMisfit s fl b = false → let u := if b.place = 0 then wakeField b.field s else s
          (∀ t, mapPages b (b.bytes.toNat / pageSize b.page) 0 u = some t → exec (.map b) s = .next (mboxEnd 0x0010 .ok [] t)) ∧
          (mapPages b (b.bytes.toNat / pageSize b.page) 0 u = none → exec (.map b) s = .next (mboxEnd 0x0010 .noPlacement [] u)))) ∧
    (∀ b : UnmapBlock, (fieldAt s b.field = none → exec (.unmap b) s = .next (mboxEnd 0x0011 .countMismatch [] s)) ∧
      ∀ fl, fieldAt s b.field = some fl →
        (b.bytes = 0 → exec (.unmap b) s = .next (mboxEnd 0x0011 .okEmpty [] s)) ∧
        (b.bytes ≠ 0 → (cutsPage fl b.dva.toNat = true ∨ cutsPage fl (b.dva.toNat + b.bytes.toNat) = true) →
          exec (.unmap b) s = .next (mboxEnd 0x0011 .badAlignment [] s)) ∧
        (b.bytes ≠ 0 → cutsPage fl b.dva.toNat = false → cutsPage fl (b.dva.toNat + b.bytes.toNat) = false →
          exec (.unmap b) s = .next (mboxEnd 0x0011 .ok [] (removePages b.field b.dva.toNat b.bytes.toNat s))))

/-- SERVE_MODE, SERVE_CONFIG, EXPERT_MAP, PLACE_GROUP. With the mailbox free: SERVE_MODE takes its values or, out of range or with requests open, ends
COUNT_MISMATCH; SERVE_CONFIG of a used index ends COUNT_MISMATCH, removes or defines a configuration otherwise; EXPERT_MAP is kept for a defined
configuration of the serving firmware; PLACE_GROUP keeps a list of up to four members that agree, and ends COUNT_MISMATCH otherwise. -/
def Obligations.ServingIsConfigured : Prop :=
  ∀ (s : State), MailboxFree s →
    (∀ b : ServeModeBlock, let n := b.sliceModules.toNat
      let bad := 4 < weight 64 b.rideMask.toNat ∨ b.rideChunk.toNat < 1 ∨ 512 < b.rideChunk.toNat ∨ b.rideRows.toNat < 1 ∨ 4096 < b.rideRows.toNat ∨ n < 1 ∨
        (b.firmware = true ∧ 262144 < n) ∨ (b.firmware = false ∧ 512 < n) ∨ s.serv.reqs ≠ []
      (bad → exec (.serveMode b) s = .next (mboxEnd 0x0020 .countMismatch [] s)) ∧
      (¬bad → exec (.serveMode b) s = .next (mboxEnd 0x0020 .ok [] { s with serv := { s.serv with
        firmware := b.firmware, rideMask := b.rideMask, rideChunk := b.rideChunk.toNat, rideRows := b.rideRows.toNat, sliceModules := n } }))) ∧
    (∀ b : ServeConfigBlock,
      (configUsed s b.index = true → exec (.serveConfig b) s = .next (mboxEnd 0x0021 .countMismatch [] s)) ∧
      (configUsed s b.index = false → b.valid = false → exec (.serveConfig b) s = .next (mboxEnd 0x0021 .ok [] (removeConfig b.index s))) ∧
      (configUsed s b.index = false → b.valid = true → exec (.serveConfig b) s = .next (mboxEnd 0x0021 (defineConfig b s).1 [] (defineConfig b s).2))) ∧
    (∀ config count entries,
      (s.serv.firmware = false → exec (.expertMap config count entries) s = .next (mboxEnd 0x0022 .noPlacement [] s)) ∧
      (s.serv.firmware = true → (∃ c, configAt s config.toNat = some c) → count ≠ 0 → exec (.expertMap config count entries) s =
        .next (mboxEnd 0x0022 .ok [] { s with serv := { s.serv with experts := tput config.toNat (entries.take count.toNat) s.serv.experts } }))) ∧
    (∀ group count members, let l := ((members.take count.toNat).map (·.val) : List Nat)
      ((63 < group.toNat ∨ 4 < count.toNat) → exec (.placeGroup group count members) s = .next (mboxEnd 0x0051 .countMismatch [] s)) ∧
      (group.toNat ≤ 63 → count = 0 → exec (.placeGroup group count members) s =
        .next (mboxEnd 0x0051 .ok [] { s with serv := { s.serv with groups := tdel group.toNat s.serv.groups } })) ∧
      (group.toNat ≤ 63 → count.toNat ≤ 4 → count ≠ 0 →
        (groupOk s group.toNat l = true → exec (.placeGroup group count members) s =
          .next (mboxEnd 0x0051 .ok [] { s with serv := { s.serv with groups := tput group.toNat l s.serv.groups } })) ∧
        (groupOk s group.toNat l = false → exec (.placeGroup group count members) s = .next (mboxEnd 0x0051 .countMismatch [] s))))

/-- Trust list, owners, models, retained requests, groups. With the mailbox free: COMET_TRUST and MODEL_OWNERS replace their lists, end COUNT_MISMATCH
above their limits, and with COUNT 0 leave the lists as they are and end OK_EMPTY (R8, R274); MODEL_DROP of an unknown or configured model ends
COUNT_MISMATCH, waits for readers, or drops it; RETAINED frees or packs a retained request; COLL_GROUP defines or removes a group that no instance
uses. -/
def Obligations.MailboxLists : Prop :=
  ∀ (s : State), MailboxFree s →
    (∀ count digests, (1024 < count.toNat → exec (.cometTrust count digests) s = .next (mboxEnd 0x0030 .countMismatch [] s)) ∧
      (count.toNat ≤ 1024 → count ≠ 0 → exec (.cometTrust count digests) s =
        .next (mboxEnd 0x0030 .ok [] { s with serv := { s.serv with trust := digests.take count.toNat } })) ∧
      (count = 0 → exec (.cometTrust count digests) s = .next (mboxEnd 0x0030 .okEmpty [] s))) ∧
    (∀ count (owners : ReadBytes), (64 < count.toNat → exec (.modelOwners count owners) s = .next (mboxEnd 0x0031 .countMismatch [] s)) ∧
      (count.toNat ≤ 64 → count ≠ 0 → exec (.modelOwners count owners) s =
        .next (mboxEnd 0x0031 .ok [] { s with models := { s.models with
          owners := entriesAt 0 2048 count.toNat fun o => keyId (rdBytes (hostBytes owners) o 2048) } })) ∧
      (count = 0 → exec (.modelOwners count owners) s = .next (mboxEnd 0x0031 .okEmpty [] s))) ∧
    (∀ digest,
      ((modelIn s.models.store digest = none ∨ s.serv.configs.any (fun e => e.2.block.manifestDigest == digest) = true) →
        exec (.modelDrop digest) s = .next (mboxEnd 0x0032 .countMismatch [] s)) ∧
      (∀ m, modelIn s.models.store digest = some m → s.serv.configs.any (fun e => e.2.block.manifestDigest == digest) = false →
        let u := setHost s { s.host with mboxRun := some (.modelDrop digest) }
        (readsModel u digest = true → exec (.modelDrop digest) s = .next u) ∧
        (readsModel u digest = false → exec (.modelDrop digest) s = .next (mboxEnd 0x0032 .ok [] (dropModel digest u))))) ∧
    (∀ req, (retainedAt s req.toNat = none → exec (.retainedFree req) s = .next (mboxEnd 0x0023 .countMismatch [] s) ∧
        exec (.retainedPack req) s = .next (mboxEnd 0x0023 .countMismatch [] s)) ∧
      (∀ q, retainedAt s req.toNat = some q →
        exec (.retainedFree req) s = .next (mboxEnd 0x0023 .ok [] (closeReq req.toNat 0 0 s)) ∧
        (∀ c d u, configAt s q.config = some c → reservePool (cometMax s q) s = some (d, u) → exec (.retainedPack req) s =
          .next (setHost (modReq req.toNat (fun q => { q with park := some (.retained, some d) }) u) { u.host with mboxRun := some (.retainedPack req.toNat) })) ∧
        (∀ c, configAt s q.config = some c → reservePool (cometMax s q) s = none →
          exec (.retainedPack req) s = .next (mboxEnd 0x0023 .bufferTooSmall [] s)))) ∧
    (∀ group valid p nodes joinWait,
      ((s.fab.runs.any fun r => r.group == group.toNat) = true → exec (.collGroup group valid p nodes joinWait) s = .next (mboxEnd 0x0040 .countMismatch [] s)) ∧
      ((s.fab.runs.any fun r => r.group == group.toNat) = false → valid = false → exec (.collGroup group valid p nodes joinWait) s =
        .next (mboxEnd 0x0040 .ok [] { s with fab := { s.fab with groups := tdel group.toNat s.fab.groups } })) ∧
      ((s.fab.runs.any fun r => r.group == group.toNat) = false → valid = true →
        (1 ≤ p.toNat → p.toNat ≤ 4096 → joinWait ≠ 0 → ((nodes.take p.toNat).filter (· == s.fab.nodeId)).length = 1 →
          exec (.collGroup group valid p nodes joinWait) s = .next (mboxEnd 0x0040 .ok [] { s with fab := { s.fab with
            groups := tput group.toNat { nodes := nodes.take p.toNat, joinWait := joinWait.toNat, queue := [] } s.fab.groups } })) ∧
        ((p = 0 ∨ 4096 < p.toNat ∨ joinWait = 0 ∨ ((nodes.take p.toNat).filter (· == s.fab.nodeId)).length ≠ 1) →
          exec (.collGroup group valid p nodes joinWait) s = .next (mboxEnd 0x0040 .countMismatch [] s))))

/-- FIELD_LAYOUT and FIELD_STATE. With the mailbox free: FIELD_LAYOUT before the tiers are laid out ends COUNT_MISMATCH, with a failed check its
status, else the fields are formed; FIELD_STATE wakes, puts to sleep or resets a defined field, and ends COUNT_MISMATCH where requests, sections
or moon calls forbid it. -/
def Obligations.FieldsAreFormedAndSlept : Prop :=
  ∀ (s : State), MailboxFree s →
    (∀ join use,
      (s.boot.laidOut = false → exec (.fieldLayout join use) s = .next (mboxEnd 0x0050 .countMismatch [] s)) ∧
      (∀ st, s.boot.laidOut = true → checkLayout s join.toNat use.toNat = some st → exec (.fieldLayout join use) s = .next (mboxEnd 0x0050 st [] s)) ∧
      (s.boot.laidOut = true → checkLayout s join.toNat use.toNat = none →
        exec (.fieldLayout join use) s = .next (mboxEnd 0x0050 .ok [] (formFields join.toNat use.toNat s)))) ∧
    (∀ f : FieldId, (fieldAt s f = none → exec (.fieldWake f) s = .next (mboxEnd 0x0052 .countMismatch [] s) ∧
        exec (.fieldSleep f) s = .next (mboxEnd 0x0052 .countMismatch [] s) ∧ exec (.fieldReset f) s = .next (mboxEnd 0x0052 .countMismatch [] s)) ∧
      ∀ fl, fieldAt s f = some fl →
        exec (.fieldWake f) s = .next (mboxEnd 0x0052 .ok [] (wakeField f s)) ∧
        ((fieldServes s f = true ∨ sectionsOf fl ≠ [] ∨ fieldCalls s fl = true) → exec (.fieldSleep f) s = .next (mboxEnd 0x0052 .countMismatch [] s)) ∧
        (fieldServes s f = false → sectionsOf fl = [] → fieldCalls s fl = false →
          exec (.fieldSleep f) s = .next (mboxEnd 0x0052 .ok [] (setField s f { fl with asleep := true }))) ∧
        (fieldServes s f = true → exec (.fieldReset f) s = .next (mboxEnd 0x0052 .countMismatch [] s)) ∧
        (fieldServes s f = false → exec (.fieldReset f) s = .next (mboxEnd 0x0052 .ok [] (resetField f (statusCode .cancelled) s))))

/-- Test access, self-test, loopbacks and memory tests. NONCE answers with the nonce; UNLOCK decodes the token, uses the nonce up, and opens test mode
with the token's scope and duration only when every check passes; LOCK and the expiry end test mode; SELF_TEST of an undefined or serving field
ends COUNT_MISMATCH, of a report address off the 64-byte grid BAD_ALIGNMENT, else resets the field, tests it and writes its report. TEST.LINK MODE
takes a link into loopback and retrains it on leaving; TEST.MEM starts a test only on an idle target, else sets REFUSED; its end sets PASS and the
count of fails. -/
def Obligations.TestAccessAndRegisters : Prop :=
  ((∀ (s : State), MailboxFree s →
    (∀ n, exec (.testNonce n) s = .next (mboxEnd 0x0060 .ok (leBytes 32 n.toNat) (setBoot s { s.boot with nonce := some n }))) ∧
    (∀ r st, checkToken s (parseToken r) = some st → exec (.testUnlock r) s = .next (mboxEnd 0x0060 st [] (setBoot s { s.boot with nonce := none }))) ∧
    (∀ r, let t := parseToken r; checkToken s t = none → let u := setBoot s { s.boot with nonce := none }
      exec (.testUnlock r) s = .next (mboxEnd 0x0060 .ok [] (logDetection 0x10 0x20 3 false 0 (islandCycles s 0x10) 1 0
        { u with faults := { u.faults with test := true, testScope := t.scope, remain := t.duration.toNat } }))) ∧
    exec .testLock s = .next (mboxEnd 0x0060 .ok [] (endTest s)) ∧
    (∀ (f : FieldId) addr l, fieldAt s f = none → exec (.selfTest f addr l) s = .next (mboxEnd 0x0061 .countMismatch [] s)) ∧
    (∀ (f : FieldId) fl addr l, fieldAt s f = some fl → fieldServes s f = true → exec (.selfTest f addr l) s = .next (mboxEnd 0x0061 .countMismatch [] s)) ∧
    (∀ (f : FieldId) fl addr l, fieldAt s f = some fl → fieldServes s f = false →
      let bad := fl.bands.map fun b => (b, failingPairs s b l)
      let u := bad.foldl (fun s (e : Nat × List Nat) => e.2.foldl (fun s j => retirePair e.1 j s) s) (resetField f (statusCode .cancelled) s)
      let word := fun e : Nat × List Nat => sumN (e.2.map fun j => 2 ^ j) + 0x80000000 * b2n (u.faults.fencedBands.getLsbD e.1)
      (addr.toNat % 64 ≠ 0 → exec (.selfTest f addr l) s = .next (mboxEnd 0x0061 .badAlignment [] s)) ∧
      (addr = 0 → exec (.selfTest f addr l) s = .next (mboxEnd 0x0061 .ok [] (noteService s u))) ∧
      (addr ≠ 0 → addr.toNat % 64 = 0 →
        exec (.selfTest f addr l) s = .next (mboxEnd 0x0061 .ok [] (noteService s (hostWrite u addr.toNat (padTo 64 (bad.flatMap fun e => leBytes 4 (word e))))))))) ∧
  (∀ s : State, s.faults.test = true → s.faults.remain = 0 → exec .testModeExpiry s = .next (endTest s))) ∧
  ((∀ (s : State) (l : LinkId) (w : BitVec 32), barOpen s = true → s.faults.test = true →
    let x := tget ({} : TestLink) l s.testLinks
    let y := { (if w.getLsbD 3 then { x with bits := 0, errors := 0, laneErr := 0 } else x) with mode := w.setWidth 2, prbs31 := w.getLsbD 2 }
    let u := { s with testLinks := tset {} l.val y s.testLinks }
    (x.mode = 0 → y.mode ≠ 0 → exec (.testLinkMode l w) s = .next (modLink l (clearLink .down) u)) ∧
    (x.mode ≠ 0 → y.mode = 0 → (linkAt s l).enable = true → exec (.testLinkMode l w) s = .next (startTraining l u)) ∧
    (x.mode = y.mode → exec (.testLinkMode l w) s = .next u) ∧
    exec (.testLinkClear l) s = .next { s with testLinks := tset {} l.val { x with bits := 0, errors := 0, laneErr := 0 } s.testLinks }) ∧
  (∀ (s : State) (w : BitVec 32), barOpen s = true → s.faults.test = true → s.testMem.busy = false →
    let m := bits w.toNat 5 2
    let x := { s.testMem with target := w.setWidth 5, mode := if m = 3 then s.testMem.mode else BitVec.ofNat 2 m }
    ((w.getLsbD 7 = false ∨ x.mode = 0) → exec (.testMemStart w) s = .next { s with testMem := x }) ∧
    (w.getLsbD 7 = true → x.mode ≠ 0 → targetIdle s x.target.toNat = false → exec (.testMemStart w) s = .next { s with testMem := { x with refused := true } }) ∧
    (w.getLsbD 7 = true → x.mode ≠ 0 → targetIdle s x.target.toNat = true →
      let u := { s with testMem := { x with refused := false, busy := true, pass := false, fails := 0 } }
      (x.mode = 2 → exec (.testMemStart w) s = .next (patternOver x.target.toNat u)) ∧ (x.mode ≠ 2 → exec (.testMemStart w) s = .next u))) ∧
  (∀ (s : State) (n : Nat), s.testMem.busy = true →
    exec (.testMemDone n) s = .next { s with testMem := { s.testMem with busy := false, pass := n == 0, fails := satAdd 0 n } }))

/-- Firmware download and bring-up. DOWNLOAD in another stage ends COUNT_MISMATCH; a failed check ends it with its status and REASON; a good bundle
starts bring-up. FW_OFFER of a bad size ends BAD_ALIGNMENT, REASON 1; else the module asks for the bytes, each FW_DATA in order asks for the next
1,024 or completes the bundle (checked when all bytes are in, log 58), and a timeout ends the download with REASON 9. BRINGUP_READY fails with
REASON 7 or 8, or ends the download OK after the floors are written. -/
def Obligations.FirmwareIsDownloaded : Prop :=
  (∀ (s : State) (r : BundleRead), let b := parseBundle (hostBytes r.bytes) r.blockAddr r.blockBytes r.found
    barOpen s = true → s.host.mboxRun = none →
    (s.boot.stage ≠ .await → s.boot.stage ≠ .noIdentity → exec (.download r) s = .next (mboxEnd 0x0001 .countMismatch [] s)) ∧
    (s.boot.stage = .await → s.boot.download = none → let u := setHost s { s.host with mboxRun := some .download }
      (∀ st n, checkBundle u true b = some (st, n) → exec (.download r) s = .next (endDownload .host st n (setBoot u { u.boot with stage := .await }))) ∧
      (checkBundle u true b = none →
        exec (.download r) s = .next (setBoot u { u.boot with stage := .bringup, bundle := some b, download := some .host, received := [] })))) ∧
  (∀ (s : State) (bus : Bus) (n : BitVec 32), s.entry.aux = true → s.boot.stage = .await → s.boot.download = none → s.entry.main = true →
    ((n = 0 ∨ 100663296 < n.toNat) → exec (.fwOffer bus n) s = .next (fwResult bus .badAlignment 1 (setBoot s { s.boot with reason := 1 }))) ∧
    (n ≠ 0 → n.toNat ≤ 100663296 → exec (.fwOffer bus n) s =
      .next (fwRead bus 0 n.toNat (setBoot s { s.boot with stage := .verify, download := some (.bus bus n.toNat 0), received := [] })))) ∧
  (∀ (s : State) (bus : Bus) (n got : Nat) (off : BitVec 32) (data : List Byte) (found : Option BundleFound), s.entry.aux = true →
    s.boot.download = some (.bus bus n got) → off.toNat = got → data ≠ [] → data.length ≤ min 1024 (n - got) →
    let u := setBoot s { s.boot with download := some (.bus bus n (got + data.length)), received := s.boot.received ++ data }
    (got + data.length < n → exec (.fwData bus off data found) s = .next (fwRead bus (got + data.length) n u)) ∧
    (∀ x, got + data.length = n → found = some x → exec (.fwData bus off data found) s =
      .next (takeBundle (.bus bus n n) (parseBundle (byteAt (s.boot.received ++ data)) 0 n x) u))) ∧
  (∀ (s : State) (bus : Bus) (n got : Nat), s.entry.aux = true → s.boot.download = some (.bus bus n got) → got < n →
    exec .fwReadTimeout s = .next (fwResult bus .stallDetected 9 (setBoot s { s.boot with stage := .await, download := none, received := [], reason := 9 }))) ∧
  (∀ (s : State) (t : Training) (src : FwSource) (b : Bundle), s.boot.download = some src → s.boot.bundle = some b → s.boot.stage = .bringup →
    s.entry.main = true → s.boot.warmBusy = false → let u := trainAll t s
    (t.partsOk = false → exec (.bringupReady t) s = .next (failBringup src .digestFail 7 u)) ∧
    (t.partsOk = true → u.mem.poolList = [] → exec (.bringupReady t) s = .next (failBringup src .noPlacement 8 u)) ∧
    (t.partsOk = true → u.mem.poolList ≠ [] →
      let v := finishBringup t { u with store := { u.store with floor := max u.store.floor b.floor, revoked := u.store.revoked ||| b.revoke } }
      exec (.bringupReady t) s = .next (endDownload src .ok 0 (setBoot v { v.boot with mgmtPath := match src with | .host => false | .bus _ _ _ => true }))))

/-- SETUP_DONE and the warm reset. SETUP_DONE is set once and lays the tiers out at READY. BOOT.RESET.WARM and an active manager's WARM_RESET start a
warm reset, which loses open work, requests, queues and array state, keeps the record store and the meter, notes its cause and either starts
bring-up with the re-verified bundle or waits for a new one. WARM_RESET_READY ends it with the memories kept or trained. -/
def Obligations.SetupAndWarmReset : Prop :=
  (∀ s : State, barOpen s = true →
    (s.boot.setupDone = true → exec .setupDone s = .next s) ∧
    (s.boot.setupDone = false → let u := setBoot s { s.boot with setupDone := true }
      (s.boot.stage ≠ .ready → exec .setupDone s = .next u) ∧ (s.boot.stage = .ready → exec .setupDone s = .next (layTiers u)))) ∧
  (∀ (s : State) (v : Bool), barOpen s = true → exec (.bootResetWarm v) s = .next (warmReset false v s)) ∧
  (∀ (s : State) (bus : Bus) (v : Bool), s.entry.aux = true →
    (isActive s.gov bus = false → exec (.warmReset bus v) s = .next (mctpRespond bus .countMismatch [] (takeMessage bus id s))) ∧
    (isActive s.gov bus = true → let u := mctpRespond bus .ok [] (takeMessage bus id s)
      u.entry.main = true → u.entry.perst = false → u.boot.warmBusy = false → exec (.warmReset bus v) s = .next (warmReset true v u))) ∧
  (∀ (s : State) (m v : Bool), s.boot.identity = true → let t := warmReset m v s
    t.boot.last = 2 ∧ t.boot.setupDone = false ∧ t.host.opens = [] ∧ t.host.queues = [] ∧ t.grid = {} ∧ t.moons = {} ∧ t.serv.reqs = [] ∧
    t.store = (endTest (powerEvent 7 s)).store ∧ t.meter = (endTest (powerEvent 7 s)).meter ∧
    (v = true → bundleStands s = true → t.boot.stage = .bringup ∧ t.boot.warmReverified = true) ∧
    (v = false → t.boot.stage = .await ∧ t.boot.bundle = none)) ∧
  (∀ (s : State) (t : Training), s.boot.warmBusy = true → s.boot.stage = .bringup → s.entry.main = true →
    let u := (List.range 16).foldl (if s.mem.preserveHbm then keepStack t else trainStack t) s
    exec (.warmResetReady t) s = .next (finishBringup t { u with mem := { u.mem with stackSet := ~~~u.faults.fencedStacks } }))

/-- Link and routing registers, the snapshot, the meter window. COMMIT sets BUSY; the swap copies the staging bank when it passes, else reports the
first bad entry; enabling a link trains it, disabling takes it down; NODE_ID changes only before SETUP_DONE. TAKE copies all counters into the
snapshot bank and CLEAR also clears the live ones. A status frame fills the meter's window, a link timeout clears LINK_OK only, a REPLAY fills the
replay buffer with the records still held. -/
def Obligations.LinksRoutingSnapshotAndWindow : Prop :=
  ((∀ s : State, barOpen s = true → (s.fab.busy = false → exec .commit s = .next { s with fab := { s.fab with busy := true } }) ∧
    (s.fab.busy = true → exec .commit s = .next s)) ∧
  (∀ s : State, s.fab.busy = true → running s = true →
    (firstBad s s.fab.staging = none →
      exec .routingBankSwap s = .next { s with fab := { s.fab with busy := false, result := 0, firstBad := 0, active := s.fab.staging } }) ∧
    (∀ i r, firstBad s s.fab.staging = some (i, r) →
      exec .routingBankSwap s = .next { s with fab := { s.fab with busy := false, result := r, firstBad := i } })) ∧
  (∀ (s : State) (l : LinkId), barOpen s = true →
    exec (.linkEnable l false) s = .next (setLink s l { clearLink .down (linkAt s l) with enable := false }) ∧
    ((linkAt s l).enable = true → exec (.linkEnable l true) s = .next s) ∧
    ((linkAt s l).enable = false → exec (.linkEnable l true) s = .next (startTraining l (setLink s l { linkAt s l with enable := true }))) ∧
    ((linkAt s l).enable = true → inLoopback s l = false → exec (.retrain l) s = .next (startTraining l s)) ∧
    ((linkAt s l).enable = false → exec (.retrain l) s = .next s)) ∧
  (∀ (s : State) (w : BitVec 32), barOpen s = true →
    (s.boot.setupDone = true → exec (.nodeId w) s = .next s) ∧
    (s.boot.setupDone = false → (∀ l < 6, (linkAt s l).state = .down) →
      exec (.nodeId w) s = .next { s with fab := { s.fab with nodeId := w.setWidth 20 } }))) ∧
  ((∀ s : State, barOpen s = true →
    exec .take s = .next { s with acct := { s.acct with snap := s.acct.live, done := true } } ∧
    exec .clear s = .next { s with acct := { s.acct with snap := s.acct.live, done := true, live := {}, lastActivity := [], lastUntagged := 0
                                                         lastMeter := if s.window.linkOk then s.window.cum else s.meter.cum } }) ∧
  (∀ s : State, s.meter.powered = true → s.entry.aux = true → exec .meterStatusFrame s = .next { s with window := statusWindow s.meter s.window }) ∧
  (∀ s : State, exec .meterLinkTimeout s = .next { s with window := { s.window with linkOk := false } }) ∧
  (∀ (s : State) (w : BitVec 32), barOpen s = true → s.meter.powered = true → s.window.linkOk = true → w.getLsbD 7 = true →
    1 ≤ bits w.toNat 0 7 → bits w.toNat 0 7 ≤ 64 → let l := replayOf s.meter s.window.replaySeq.toNat (bits w.toNat 0 7)
    exec (.replayGo w) s = .next { s with window := { s.window with replay := l, got := l.length } }))

/-- Trace, injection slots and register writes. Enabling the trace takes a valid size and a base and starts an empty trace. An injection slot is
written only in test mode, and armed only where the scope allows every class it can produce. A register write of another size or alignment changes
nothing; an 8-byte write is its two halves, the lower first; WINDOW_GIB is locked after SETUP_DONE and ignores a value above 4,096. -/
def Obligations.RegisterWritesTakeEffect : Prop :=
  (∀ (s : State) (w : BitVec 32), barOpen s = true → s.faults.traceEn = false → let n := bits w.toNat 4 17
    let entries := if entriesValid n then BitVec.ofNat 17 n else s.faults.traceEntries
    (w.getLsbD 0 = false → exec (.traceEnable w) s = .next { s with faults := { s.faults with traceEntries := entries } }) ∧
    (w.getLsbD 0 = true → entriesValid entries.toNat = true → s.faults.traceBase ≠ 0 →
      exec (.traceEnable w) s = .next { s with faults := { s.faults with traceEn := true, traceEntries := entries, traceTail := 0, traceLost := 0 } })) ∧
  (∀ (s : State) (k : Fin 8) (w : BitVec 32), barOpen s = true → s.faults.test = false → exec (.injectionArm k w) s = .next s) ∧
  (∀ (s : State) (k : Fin 8) (w : BitVec 32), barOpen s = true → s.faults.test = true → let det := bits w.toNat 8 8
    1 ≤ det → det ≤ 0x13 → indicationOnly det = false →
    let x := { tget ({} : InjSlot) k s.faults.inj with rep := w.getLsbD 1, detector := BitVec.ofNat 8 det, island := BitVec.ofNat 8 (bits w.toNat 16 8) }
    let cl := injClasses s det x.island.toNat x.loc.toNat x.pattern.toNat
    exec (.injectionArm k w) s = .next { s with faults := { s.faults with
      inj := tset {} k.val { x with arm := w.getLsbD 0 && cl != [] && cl.all fun c => s.faults.testScope.getLsbD c } s.faults.inj } }) ∧
  (∀ (s : State) (a : BitVec 24) (n : Nat) (v : BitVec 64), barOpen s = true →
    ((n ≠ 4 → n ≠ 8 → exec (.registerWrite a n v) s = .next s) ∧ (a.toNat % n ≠ 0 → exec (.registerWrite a n v) s = .next s)) ∧
    (a.toNat % 8 = 0 → exec (.registerWrite a 8 v) s =
      .next (write4 (a.toNat + 4) (v.toNat / 0x100000000) (write4 a.toNat (v.toNat % 0x100000000) s)))) ∧
  (∀ (s : State) (v : BitVec 64), barOpen s = true →
    (s.boot.setupDone = true → exec (.registerWrite 0x100000 4 v) s = .next s) ∧
    (s.boot.setupDone = false → 4096 < v.toNat % 8192 → exec (.registerWrite 0x100000 4 v) s = .next s) ∧
    (s.boot.setupDone = false → v.toNat % 8192 ≤ 4096 → exec (.registerWrite 0x100000 4 v) s = .next { s with mem := { s.mem with
      windowGib := BitVec.ofNat 13 (v.toNat % 8192) } }))

/-- The rack managers' power messages. While the management controller runs: HEARTBEAT notes its role and keeps every cap; SET_CAP of an active
manager sets the manager cap in steps of 10 W, of another one COUNT_MISMATCH; SET_ORPHAN_CAP takes 700 to 2,000 W from an active manager;
GET_STATUS answers with the mirror registers; METER_MARK is passed to the meter; a dynamic address is kept. Each ends the silence, answers on its
own bus, and changes governor state only. -/
def Obligations.PowerMessages : Prop :=
  ∀ (s : State) (bus : Bus), mgmtOn s = true →
    (∀ active, ∃ t, exec (.heartbeat bus active) s = .next t ∧ t = { s with gov := t.gov } ∧ t.gov.orphan = false ∧ t.gov.heardAt = s.tick ∧
      t.gov.activeA = (if bus = .a then active else s.gov.activeA) ∧ t.gov.activeB = (if bus = .b then active else s.gov.activeB) ∧
      t.gov.capLast = s.gov.capLast ∧ t.gov.orphanCap = s.gov.orphanCap ∧ t.gov.out = s.gov.out ++ [⟨bus, 0x81, statusCode .ok, [], 1⟩]) ∧
    (∀ value, isActive s.gov bus = true → ∃ t, exec (.setCap bus value) s = .next t ∧ t = { s with gov := t.gov } ∧ t.gov.orphan = false ∧
      t.gov.heardAt = s.tick ∧ t.gov.capLast = 10 * value.toNat ∧ t.gov.capA = (if bus = .a then some (10 * value.toNat) else s.gov.capA) ∧
      t.gov.capB = (if bus = .b then some (10 * value.toNat) else s.gov.capB) ∧ t.gov.out = s.gov.out ++ [⟨bus, 0x81, statusCode .ok, [], 1⟩]) ∧
    (∀ value, isActive s.gov bus = false → ∃ t, exec (.setCap bus value) s = .next t ∧ t = { s with gov := t.gov } ∧ t.gov.capLast = s.gov.capLast ∧
      t.gov.capA = s.gov.capA ∧ t.gov.capB = s.gov.capB ∧ t.gov.out = s.gov.out ++ [⟨bus, 0x81, statusCode .countMismatch, [], 1⟩]) ∧
    (∀ value, ∃ t, exec (.setOrphanCap bus value) s = .next t ∧ t = { s with gov := t.gov } ∧ t.gov.orphan = false ∧
      (isActive s.gov bus = true → 70 ≤ value.toNat → value.toNat ≤ 200 → t.gov.orphanCap = 10 * value.toNat ∧
        t.gov.out = s.gov.out ++ [⟨bus, 0x81, statusCode .ok, [], 1⟩]) ∧
      ((isActive s.gov bus = false ∨ value.toNat < 70 ∨ 200 < value.toNat) → t.gov.orphanCap = s.gov.orphanCap ∧
        t.gov.out = s.gov.out ++ [⟨bus, 0x81, statusCode .countMismatch, [], 1⟩])) ∧
    (∃ t, exec (.getStatus bus) s = .next t ∧ t = { s with gov := t.gov } ∧ t.gov.orphan = false ∧
      t.gov.out = s.gov.out ++ [⟨bus, 0x81, statusCode .ok, zeros 12 ++ (mirrorRegs t).flatMap (leBytes 4), 1⟩]) ∧
    (∀ m, exec (.meterMark bus m) s = .next (mctpRespond bus .ok [] (acceptMark m (takeMessage bus id s)))) ∧
    (∀ addr, exec (.dynamicAddressAssignment bus addr) s = .next (setGov s { s.gov with
      addrA := if bus = .a then some addr else s.gov.addrA, addrB := if bus = .b then some addr else s.gov.addrB }))

/-- Silent managers, periodic reports, the governor's checks. 30 s of silence make the orphan cap active and report it; the periodic report repeats
INPUT_LOW, ORPHAN and FLOW while they last; a check above the cap takes all levers at once and parks fields until the excess is gone; an unpark
needs 105 % of the field's power as headroom; a P100 window takes the input voltage (below 50 V the input cap starts and, with the main domain up,
the clock floor), updates the peak allowance and, outside it, tightens or releases one lever. Which lever moves in a window is the model's policy
where R404 leaves it open (log 69). -/
def Obligations.GovernorActs : Prop :=
  (∀ s, mgmtOn s = true → s.gov.orphan = false → s.gov.heardAt + 30000000 ≤ s.tick → ∃ t, exec .managersSilent s = .next t ∧
    t = { s with gov := t.gov } ∧ t.gov.orphan = true ∧ t.gov.out = s.gov.out ++ [⟨.a, 0x83, 2, [], 1⟩, ⟨.b, 0x83, 2, [], 1⟩] ∧
    (smallestCap t.gov).2 ≤ s.gov.orphanCap) ∧
  (∀ s, (mgmtOn s = false ∨ s.gov.orphan = true ∨ s.tick < s.gov.heardAt + 30000000) → exec .managersSilent s = .next s) ∧
  (∀ s, mgmtOn s = true → s.entry.inputMv.toNat ≤ 59000 → s.gov.inletC ≤ 45 → s.gov.inputLow = false → s.gov.orphan = false →
    flowMissing s = false → exec .periodicPowerReport s = .next s) ∧
  (∀ s, mgmtOn s = true → s.entry.inputMv.toNat ≤ 59000 → s.gov.inletC ≤ 45 → s.gov.inputLow = true → s.gov.orphan = true →
    flowMissing s = true → ∃ i, exec .periodicPowerReport s = .next { s with gov := { s.gov with ibis := i, out := s.gov.out ++
      [⟨.a, 0x83, 1, [], 1⟩, ⟨.b, 0x83, 1, [], 1⟩, ⟨.a, 0x83, 2, [], 1⟩, ⟨.b, 0x83, 2, [], 1⟩, ⟨.a, 0x83, 3, [], 1⟩, ⟨.b, 0x83, 3, [], 1⟩] } }) ∧
  (∀ s watts fieldWatts, governs s = true → effectiveCap s.gov < watts → exec (.governorCheck watts fieldWatts) s = .next
    (let u := setBatchMove .halve (askPause true (setTarget (targetLimit s) s)); parkExcess fieldWatts (parkCandidates u) (watts - effectiveCap s.gov) u)) ∧
  (∀ s watts fieldWatts, watts ≤ effectiveCap s.gov → exec (.governorCheck watts fieldWatts) s = .next s) ∧
  (∀ s headroom f power, governs s = true → nextUnpark s.gov = some (f, power) →
    (105 * power ≤ 100 * headroom → exec (.governorUnpark headroom) s = .next (unparkField f s)) ∧
    (100 * headroom < 105 * power → exec (.governorUnpark headroom) s = .next s)) ∧
  (∀ (s : State) (mv : BitVec 16), inputStep mv s =
    (if mv.toNat < 50000 ∧ s.gov.inputCap = false then
      (if s.entry.main = true then setTarget 600 (changeCaps (fun g => { g with inputCap := true }) { s with entry := { s.entry with inputMv := mv } })
       else changeCaps (fun g => { g with inputCap := true }) { s with entry := { s.entry with inputMv := mv } })
     else { s with entry := { s.entry with inputMv := mv } })) ∧
  (∀ (s v u : State) watts (mv : BitVec 16), s.entry.aux = true → v = inputStep mv s →
      u = setGov v { countWindow watts v.gov with inputLow := decide (44000 ≤ mv.toNat ∧ mv.toNat < 50000) } →
    u.gov.p100 = watts ∧ u.gov.targetMhz = v.gov.targetMhz ∧ u.gov.parkOrder = v.gov.parkOrder ∧
    (effectiveCap v.gov < watts → peakAllowed { v.gov with p100 := watts, sinceLower := min 1000 (v.gov.sinceLower + 1) } watts = false → u.gov.peak = none) ∧
    (governs v = false → exec (.p100Window watts mv) s = .next u) ∧ (u.gov.peak.isSome = true → exec (.p100Window watts mv) s = .next u) ∧
    (governs v = true → u.gov.peak = none → effectiveCap v.gov < watts → exec (.p100Window watts mv) s = .next (tightenLever u)) ∧
    (governs v = true → u.gov.peak = none → watts < effectiveCap v.gov → exec (.p100Window watts mv) s = .next (releaseLever u)) ∧
    (governs v = true → u.gov.peak = none → watts = effectiveCap v.gov → exec (.p100Window watts mv) s = .next (setBatchMove .hold u)))

/-- One lever a window, in order. Tightening lowers the clock target by 1 or more 25 MHz steps, never below its limit, and only then asks for a prompt
pause, only then halves batches, only then parks the first candidate. Releasing goes the other way: a parked field is released only by its own
check; then batches double, then the pause ends, then the target rises, never above 1,750 MHz. The number of steps per move is free (log 51), so
it is stated only as at least one. -/
def Obligations.LeversInOrder : Prop :=
  (∀ s, targetLimit s < s.gov.targetMhz → ∃ n, 1 ≤ n ∧ (tightenLever s).gov.targetMhz = max (targetLimit s) (s.gov.targetMhz - 25 * n) ∧
    (tightenLever s).gov.targetMhz < s.gov.targetMhz ∧ (tightenLever s).gov.parkOrder = s.gov.parkOrder ∧ (tightenLever s).gov.pauseAsked = s.gov.pauseAsked) ∧
  (∀ s, s.gov.targetMhz ≤ targetLimit s → s.gov.pauseAsked = false → tightenLever s = askPause true s) ∧
  (∀ s, s.gov.targetMhz ≤ targetLimit s → s.gov.pauseAsked = true → batchAtLimit s = false → tightenLever s = setBatchMove .halve s) ∧
  (∀ s f l, s.gov.targetMhz ≤ targetLimit s → s.gov.pauseAsked = true → batchAtLimit s = true → parkCandidates s = f :: l →
    tightenLever s = parkField (Config.freeWord s.fresh).toNat f { s with fresh := s.fresh + 1 }) ∧
  (∀ s, s.gov.parkOrder = [] → s.gov.batch = [] → s.gov.pauseAsked = false → s.gov.targetMhz < 1750 → ∃ n, 1 ≤ n ∧
    (releaseLever s).gov.targetMhz = min 1750 (s.gov.targetMhz + 25 * n) ∧ s.gov.targetMhz < (releaseLever s).gov.targetMhz) ∧
  (∀ s, s.gov.parkOrder = [] → s.gov.batch = [] → s.gov.pauseAsked = true → (releaseLever s).gov.pauseAsked = false ∧ (releaseLever s).gov.targetMhz = s.gov.targetMhz) ∧
  (∀ s, s.gov.parkOrder = [] → s.gov.batch ≠ [] → releaseLever s = setBatchMove .double s) ∧
  (∀ s, s.gov.parkOrder ≠ [] → releaseLever s = setBatchMove .hold s)

/-- Lag episodes and the thermal ladder. A lag episode starts when the cap is clamped or power has stayed above it, is reported, and ends when neither
holds. At 95 degrees the thermal cap starts at P100 less 50 W within 700 to 2,000 W; each step lowers it by 50 W at 95 degrees, holds it from 92,
raises it by 10 W below and removes it at 2,000 W; the hot field parks, is released, and a trip removes the main rails, latches, and reports TRIP. -/
def Obligations.LagAndThermalLadder : Prop :=
  (∀ s : State, mgmtOn s = true →
    (s.gov.lag = false → (capClamped s.gov = true ∨ (effectiveCap s.gov < s.gov.p100 ∧ s.gov.peak = none ∧ 2 ≤ s.gov.sinceLower)) →
      exec .lagEpisodeStart s = .next (reportLag (setGov s { s.gov with lag := true, lagStart := (s.window.cum, s.tick) }))) ∧
    ((s.gov.lag = true ∨ (capClamped s.gov = false ∧ s.gov.p100 ≤ effectiveCap s.gov)) → exec .lagEpisodeStart s = .next s) ∧
    (exec .lagReport s = .next (if s.gov.lag then reportLag s else s)) ∧
    (s.gov.lag = true → capClamped s.gov = false → s.gov.p100 ≤ effectiveCap s.gov →
      exec .lagEpisodeEnd s = .next (setGov (reportLag s) { (reportLag s).gov with lag := false })) ∧
    ((s.gov.lag = false ∨ capClamped s.gov = true ∨ effectiveCap s.gov < s.gov.p100) → exec .lagEpisodeEnd s = .next s) ∧
    ((∀ e ∈ s.host.queues, e.2.infoEn = false) →
      let body := leBytes 8 (lagEnergy s) ++ leBytes 2 (effectiveCap s.gov) ++ zeros 2
      reportLag s = setGov s (govSend ⟨.b, 0x82, 0, body, 1⟩ (govSend ⟨.a, 0x82, 0, body, 1⟩ s.gov)))) ∧
  ((∀ s island celsius, governs s = true → 95 ≤ celsius → s.gov.thermalCap = none → ∃ t, exec (.thermalHot island celsius) s = .next t ∧
    t = { s with gov := t.gov } ∧ t.gov.thermalCap = some (min 2000 (max 700 (s.gov.p100 - 50))) ∧ t.gov.maxC = celsius ∧
    t.gov.hotIsland = hotIslandOf island ∧ t.gov.parked = s.gov.parked) ∧
  (∀ s island celsius, governs s = true → (celsius < 95 ∨ s.gov.thermalCap.isSome = true) →
    exec (.thermalHot island celsius) s = .next (setGov s { s.gov with maxC := celsius, hotIsland := hotIslandOf island })) ∧
  (∀ s celsius c, governs s = true → s.gov.thermalCap = some c → ∃ t, exec (.thermalCapStep celsius) s = .next t ∧
    t = { s with gov := t.gov } ∧ t.gov.maxC = celsius ∧ t.gov.parked = s.gov.parked ∧
    t.gov.thermalCap = (if 95 ≤ celsius then some (max 700 (c - 50)) else if 92 ≤ celsius then some c else if 1990 ≤ c then none else some (c + 10))) ∧
  (∀ s (island : BitVec 8), governs s = true → sensorFields s island.toNat = [] → exec (.thermalPark island) s = .next (powerEvent 5 s)) ∧
  (∀ s (island : BitVec 8) f, governs s = true → sensorFields s island.toNat = [f] → exec (.thermalPark island) s = .next (powerEvent 5
    (parkField (Config.freeWord s.fresh).toNat f { s with gov := { s.gov with thermalParked := setBit s.gov.thermalParked f true }, fresh := s.fresh + 1 }))) ∧
  (∀ s (f : FieldId), governs s = true → exec (.thermalUnpark f) s = .next (setGov s { s.gov with thermalParked := setBit s.gov.thermalParked f.val false })) ∧
  (∀ s island, s.entry.main = true → ∃ t, exec (.thermalTrip island) s = .next t ∧ t.entry.main = false ∧ t.entry.tripLatch = true ∧
    ∃ m, t.gov.out = m ++ [⟨.a, 0x83, 6, [], 1⟩, ⟨.b, 0x83, 6, [], 1⟩]) ∧
  (∀ s island, s.entry.main = false → exec (.thermalTrip island) s = .next s))

/-- SPDM: version, algorithms, certificates, measurements. GET_VERSION starts a connection; capabilities, algorithms and everything after them need
the step before, else UnexpectedRequest; digests and certificates give the device chain, challenges and signed measurements are signed over a
transcript that is kept for COSIGN; slots other than 0 and offsets past the chain are errors. Message framing and error kinds follow SPDM 1.3,
which is presumed (log 59). -/
def Obligations.SpdmIdentifies : Prop :=
  ∀ (s : State) (c : SpdmConn), spdmOn s c = true →
    (exec (.getVersion c) s = .next (spdmSend c .version [] (setConn c { version := true } s))) ∧
    ((connAt s c).version = true → exec (.getCapabilities c) s = .next (spdmSend c .capabilities [] (setConn c { connAt s c with capabilities := true } s))) ∧
    ((connAt s c).version = false → exec (.getCapabilities c) s = .next (spdmError c .unexpectedRequest s)) ∧
    ((connAt s c).capabilities = true → ∀ a b d e, ∃ t, exec (.negotiateAlgorithms c a b d e) s = .next t ∧ (connAt t c).algs = some ⟨a, b, d, e⟩ ∧
      (connAt t c).signed = (connAt s c).signed ∧ t = { s with spdm := t.spdm }) ∧
    ((connAt s c).capabilities = false → ∀ a b d e, exec (.negotiateAlgorithms c a b d e) s = .next (spdmError c .unexpectedRequest s)) ∧
    (connReady (connAt s c) = true →
      exec (.getDigests c) s = .next (spdmSend c .digests (leBytes 48 (sha384 Config.deviceChain).toNat) s) ∧
      (∀ offset length, offset ≤ Config.deviceChain.length →
        exec (.getCertificate c 0 offset length) s = .next (spdmSend c .certificate ((Config.deviceChain.drop offset).take length) s)) ∧
      (∀ slot offset length, (slot ≠ 0 ∨ Config.deviceChain.length < offset) → exec (.getCertificate c slot offset length) s = .next (spdmError c .invalidRequest s)) ∧
      (∀ nonce, exec (.challenge c 0 nonce) s = .next (spdmSigned c .challengeAuth 1 (leBytes 48 (sha384 Config.deviceChain).toNat ++ leBytes 32 nonce.toNat) s)) ∧
      (∀ slot nonce, slot ≠ 0 → exec (.challenge c slot nonce) s = .next (spdmError c .invalidRequest s)) ∧
      (∀ i nonce, 1 ≤ i → i ≤ 14 →
        exec (.getMeasurements c i false nonce) s = .next (spdmSend c .measurements (leBytes 48 (measurement s i).toNat) s) ∧
        exec (.getMeasurements c i true nonce) s = .next (spdmSigned c .measurements 0 (leBytes 48 (measurement s i).toNat ++ leBytes 32 nonce.toNat) s)) ∧
      (∀ nonce, exec (.getMeasurements c 0xFF false nonce) s =
        .next (spdmSend c .measurements ((List.range 14).flatMap fun i => leBytes 48 (measurement s (i + 1)).toNat) s)) ∧
      (∀ k what bs, ∃ t, spdmSigned c k what bs s = t ∧ tfind what (connAt t c).signed = some (Config.spdmTranscript s.fresh) ∧
        t = { s with spdm := t.spdm, fresh := s.fresh + 1 })) ∧
    (connReady (connAt s c) = false → exec (.getDigests c) s = .next (spdmError c .unexpectedRequest s))

/-- SPDM: sessions. KEY_EXCHANGE with the module's algorithms opens one of at most four sessions; FINISH that verifies establishes it and one that
does not ends it; an established session answers heartbeats, updates its keys and ends on END_SESSION (R449; error kinds presumed, log 59). -/
def Obligations.SpdmSessions : Prop :=
  ∀ (s : State) (c : SpdmConn) (id : BitVec 16), spdmOn s c = true →
    (connReady (connAt s c) = true → ∀ a exchange, (connAt s c).algs = some a → a.secp384r1 = true → a.aes256gcm = true →
      s.spdm.sessions.any (fun x => x.conn == c && x.id == id) = false →
      (s.spdm.sessions.length < 4 → exec (.keyExchange c id exchange) s = .next (spdmSigned c .keyExchange 2 (leBytes 2 id.toNat ++ exchange)
        { s with spdm := { s.spdm with sessions := s.spdm.sessions ++ [⟨c, id, false, 0⟩] } })) ∧
      (4 ≤ s.spdm.sessions.length → exec (.keyExchange c id exchange) s = .next (spdmError c .invalidRequest s))) ∧
    (∀ x, sessionAt s c id = some x → x.established = false →
      exec (.finish c id true) s = .next (spdmSend c .finish [] (modSession c id (fun x => { x with established := true }) s)) ∧
      exec (.finish c id false) s = .next (spdmError c .invalidRequest (dropSession c id s)) ∧
      exec (.spdmHeartbeat c id) s = .next (spdmError c .unexpectedRequest s) ∧ exec (.endSession c id) s = .next (spdmError c .unexpectedRequest s)) ∧
    (∀ x, sessionAt s c id = some x → x.established = true →
      exec (.finish c id true) s = .next (spdmError c .unexpectedRequest s) ∧
      exec (.spdmHeartbeat c id) s = .next (spdmSend c .heartbeatAck [] s) ∧
      (∀ op, (op = 1 ∨ op = 2) → exec (.keyUpdate c id op) s =
        .next (spdmSend c .keyUpdateAck [] (modSession c id (fun x => { x with keyGeneration := x.keyGeneration + 1 }) s))) ∧
      exec (.keyUpdate c id 3) s = .next (spdmSend c .keyUpdateAck [] s) ∧
      exec (.endSession c id) s = .next (spdmSend c .endSessionAck [] (dropSession c id s))) ∧
    (sessionAt (dropSession c id s) c id = none)

/-- SPDM: chunks and vendor-defined requests. CHUNK_SEND collects a request in order and an out-of-order chunk drops it; CHUNK_GET returns a chunk of
the response; COSIGN answers with the digest of the kept transcript and an ML-DSA signature over it; CHAIN returns up to 4,096 bytes of the ML-DSA
chain (R451; framing presumed, log 59). -/
def Obligations.SpdmChunksAndCosigning : Prop :=
  ∀ (s : State) (c : SpdmConn), spdmOn s c = true → connReady (connAt s c) = true →
    (∀ handle last data, exec (.chunkSend c handle 0 last data) s =
      .next (spdmSend c .chunkSendAck [] (setConn c { connAt s c with request := if last then none else some (handle, 1, data) } s))) ∧
    (∀ handle n bs last data, (connAt s c).request = some (handle, n + 1, bs) → exec (.chunkSend c handle (n + 1) last data) s =
      .next (spdmSend c .chunkSendAck [] (setConn c { connAt s c with request := if last then none else some (handle, n + 2, bs ++ data) } s))) ∧
    (∀ handle n last data, (connAt s c).request = none → exec (.chunkSend c handle (n + 1) last data) s =
      .next (spdmError c .invalidRequest (setConn c { connAt s c with request := none } s))) ∧
    (∀ handle number, number * max 1 Config.spdmChunk < (connAt s c).response.length → exec (.chunkGet c handle number) s =
      .next { s with spdm := { s.spdm with out := s.spdm.out ++
        [⟨c, .chunkResponse, handle :: (((connAt s c).response.drop (number * max 1 Config.spdmChunk)).take (max 1 Config.spdmChunk))⟩] } }) ∧
    (∀ handle number, (connAt s c).response.length ≤ number * max 1 Config.spdmChunk → exec (.chunkGet c handle number) s = .next (spdmError c .invalidRequest s)) ∧
    (∀ what d, tfind what.toNat (connAt s c).signed = some d → exec (.cosign c what) s =
      .next (spdmSend c .cosign (leBytes 48 d.toNat ++ padTo 3309 (Config.mldsaSign (cosignContext ++ leBytes 48 d.toNat))) s)) ∧
    (∀ what, tfind what.toNat (connAt s c).signed = none → exec (.cosign c what) s = .next (spdmError c .unexpectedRequest s)) ∧
    (∀ offset length, length.toNat ≤ 4096 → exec (.getChain c offset length) s =
      .next (spdmSend c .chain ((Config.mldsaChain.drop offset.toNat).take length.toNat) s)) ∧
    (∀ offset length, 4096 < length.toNat → exec (.getChain c offset length) s = .next (spdmError c .invalidRequest s))

/-- Insertion and removal. Contact starts precharge, which a recent fault forbids for 1 s; its end powers the auxiliary domain and acts on a held
PWR_EN, but leaves the domain off while the bulk node is below 44 V; a precharge that does not end in time is latched and, where the bulk node is
above 44 V, reported; PWR_EN with flow, without a fault and without a trip turns the main rails on, and otherwise is held (R38) with a FLOW event
when flow is missing; its fall turns the rails off, writes the endurance region and keeps the record store; REMOVE_OK is released with the switch
open; ATTN_N only requests: with the main domain up the removal cause and its vector, with the auxiliary domain up a report, with neither nothing. -/
def Obligations.InsertionAndRemoval : Prop :=
  (∀ s, s.entry.p56v = false → s.entry.precharge = .absent → ∃ t, exec .p56vContact s = .next t ∧ t = { s with entry := t.entry } ∧
    t.entry.p56v = true ∧ t.entry.presentLow = true ∧ t.entry.precharge = .charging ∧ t.entry.aux = false ∧ t.entry.inputSwitch = false ∧
    t.entry.pwrEn = s.entry.pwrEn) ∧
  (∀ s, s.entry.p56v = false → s.entry.precharge = .faulted →
    (s.tick < s.entry.absentAt + 1000000 → exec .p56vContact s = .next (setEntry s { s.entry with presentLow := true, p56v := true, belowAux := false })) ∧
    (s.entry.absentAt + 1000000 ≤ s.tick → ∃ t, exec .p56vContact s = .next t ∧ t = { s with entry := t.entry } ∧ t.entry.precharge = .charging ∧
      t.entry.p56v = true ∧ t.entry.aux = false)) ∧
  (∀ s, s.entry.p56v = true → s.entry.precharge ≠ .absent → exec .p56vContact s = .next (setEntry s { s.entry with presentLow := true })) ∧
  (∀ s, s.entry.precharge = .charging → s.entry.belowAux = true → exec .prechargeComplete s = .next (setEntry s { s.entry with precharge := .done })) ∧
  (∀ s, s.entry.precharge = .charging → s.entry.belowAux = false → s.entry.pwrEn = false → ∃ t, exec .prechargeComplete s = .next t ∧ t.entry.precharge = .done ∧ t.entry.aux = true ∧
    t.entry.main = s.entry.main ∧ t.boot.last = 0 ∧ t.gov.capLast = 1200 ∧ t.gov.orphanCap = 1200 ∧ t.store = s.store ∧ t.meter = s.meter) ∧
  (∀ s, s.entry.precharge = .charging → s.entry.belowAux = false → s.entry.pwrEn = true → s.entry.flowOk = true → s.entry.inputFault = false → s.entry.tripLatch = false →
    s.entry.main = false → ∃ t, exec .prechargeComplete s = .next t ∧ t.entry.main = true ∧ t.entry.pwrGood = true ∧ t.entry.inputSwitch = true ∧
      t.entry.removeLow = true ∧ t.boot.stage = .rom ∧ t.store = { s.store with powerUps := s.store.powerUps + 1 }) ∧
  (∀ s, s.entry.precharge = .charging → ∃ t, exec (.prechargeTimeout true) s = .next t ∧ t.entry.precharge = .faulted ∧ t.entry.aux = true ∧
    t.entry.main = s.entry.main ∧ t.gov.out.length = s.gov.out.length + 2 ∧ t.store = s.store) ∧
  (∀ s, s.entry.precharge = .charging → exec (.prechargeTimeout false) s = .next (setEntry s { s.entry with precharge := .faulted })) ∧
  (∀ s, s.entry.precharge ≠ .charging → exec .prechargeComplete s = .next s ∧ (∀ b, exec (.prechargeTimeout b) s = .next s)) ∧
  (∀ s, s.entry.pwrEn = false → mayPower { s.entry with pwrEn := true } = true →
    exec .pwrEnRise s = .next (railsOn { s with entry := { s.entry with pwrEn := true } })) ∧
  (∀ s, s.entry.pwrEn = false → s.entry.precharge = .charging → s.entry.main = false → s.entry.inputFault = false → s.entry.tripLatch = false → s.entry.flowOk = true →
    exec .pwrEnRise s = .next (setEntry s { s.entry with pwrEn := true, pwrEnHeld := true })) ∧
  (∀ s, s.entry.pwrEn = false → s.entry.aux = true → s.entry.precharge = .done → s.entry.main = false → s.entry.inputFault = false → s.entry.tripLatch = false →
    s.entry.flowOk = false → exec .pwrEnRise s = .next (powerEvent 3 (setEntry s { s.entry with pwrEn := true, pwrEnHeld := true }))) ∧
  (∀ s, s.entry.pwrEn = true → s.entry.main = true → ∃ t, exec .pwrEnFall s = .next t ∧ t.entry.pwrEn = false ∧ t.entry.pwrEnLowAt = s.tick ∧
    t.entry.main = false ∧ t.entry.pwrGood = false ∧ t.entry.alive = false ∧ t.entry.inputSwitch = false ∧ t.entry.aux = s.entry.aux ∧
    t.store = { s.store with enduranceWritten := some (enduranceList s.store) } ∧ t.fld.fields = [] ∧ t.host.queues = [] ∧ t.mem.host = s.mem.host ∧
    t.faults = s.faults) ∧
  (∀ s, s.entry.removeHold = true → s.entry.pwrEn = true → exec .pwrEnHoldExpiry s = .next (actOnPwrEn (setEntry s { s.entry with removeHold := false }))) ∧
  (∀ s, s.entry.removeHold = true → s.entry.pwrEn = false → exec .pwrEnHoldExpiry s = .next (setEntry s { s.entry with removeHold := false })) ∧
  (∀ s, s.entry.main = false → s.entry.inputSwitch = false → s.entry.removeLow = true →
    exec .removeOkRelease s = .next (setEntry s { s.entry with removeLow := false, removeHold := s.entry.pwrEnHeld })) ∧
  (∀ s, s.entry.main = true → s.entry.aux = true → exec .attnN s = .next (mgmtReport (raiseVector 1026 (setHost s { s.host with causeRemoval := true })))) ∧
  (∀ s, s.entry.main = true → s.entry.aux = false → exec .attnN s = .next (raiseVector 1026 (setHost s { s.host with causeRemoval := true }))) ∧
  (∀ s, s.entry.main = false → s.entry.aux = true → exec .attnN s = .next (mgmtReport s)) ∧
  (∀ s, s.entry.main = false → s.entry.aux = false → exec .attnN s = .next s)

/-- Coolant and input power. A fall of FLOW_OK with the rails on sets the 700 W flow cap and reports it; the cap lifts with flow; below 50 V the input
cap, the clock floor and the report, and a lift of the cap from 50.5 V; below 44 V the switch opens and the main domain rides through and then
ends with an input fault, and with the main domain off the auxiliary domain goes; a first fall below 20 V is a withdrawal, which takes all rails
at once (the voltage is the model's choice, log 156); a return above 50 V closes the switch again, and powers the auxiliary domain that a dip had
taken (log 155); above 62 V during precharge is a precharge fault, later it removes the rails with an input fault. -/
def Obligations.CoolantAndInput : Prop :=
  (∀ s, s.entry.main = true → s.entry.aux = true → ∃ t, exec .flowOkFall s = .next t ∧ t = { s with entry := t.entry, gov := t.gov } ∧
    t.entry = { s.entry with flowOk := false } ∧ t.gov.flowCap = true ∧ (smallestCap t.gov).2 ≤ 700 ∧
    t.gov.out = s.gov.out ++ [⟨.a, 0x83, 3, [], 1⟩, ⟨.b, 0x83, 3, [], 1⟩]) ∧
  (∀ s, s.entry.aux = false → exec .flowOkFall s = .next (setEntry s { s.entry with flowOk := false })) ∧
  (∀ s, ∃ u, u = (if s.entry.aux && !s.entry.flowOk then changeCaps (fun g => { g with flowCap := true }) s else s) ∧
    (s.entry.pwrEn = true → s.entry.main = false → exec .flowOkRise s = .next (actOnPwrEn (setEntry u { s.entry with flowOk := true }))) ∧
    (s.entry.pwrEn = false ∨ s.entry.main = true → exec .flowOkRise s = .next (setEntry u { s.entry with flowOk := true }))) ∧
  (∀ s, s.entry.flowOk = true → ∃ t, exec .flowCapLift s = .next t ∧ t = { s with gov := t.gov } ∧ t.gov.flowCap = false ∧ t.gov.inputCap = s.gov.inputCap) ∧
  (∀ s, s.entry.flowOk = false → exec .flowCapLift s = .next s) ∧
  (∀ s (mv : BitVec 16), s.entry.aux = true → mv.toNat < 50000 → ∃ t, exec (.inputBelow50v mv) s = .next t ∧ t.gov.inputCap = true ∧ t.gov.inputLow = decide (44000 ≤ mv.toNat) ∧
    t.gov.peak = none ∧ (smallestCap t.gov).2 ≤ 700 ∧ (s.entry.main = true → t.gov.targetMhz = 600) ∧ t.entry = { s.entry with inputMv := mv, belowAux := s.entry.belowAux && !decide (44000 ≤ mv.toNat) } ∧
    t.gov.out = s.gov.out ++ [⟨.a, 0x83, 1, [], 1⟩, ⟨.b, 0x83, 1, [], 1⟩]) ∧
  (∀ s (mv : BitVec 16), s.entry.aux = false → s.entry.main = false → mv.toNat < 50000 → (mv.toNat < 44000 ∨ s.entry.precharge ≠ .done ∨ s.entry.belowAux = false) →
    ∃ t, exec (.inputBelow50v mv) s = .next t ∧ t = { s with entry := t.entry, gov := t.gov } ∧ t.gov.inputCap = true ∧ t.entry.aux = false ∧
      t.entry.inputMv = mv) ∧
  (∀ s (mv : BitVec 16), 50000 ≤ mv.toNat → exec (.inputBelow50v mv) s = .next s) ∧
  (∀ s, s.entry.inputLoss = .none → ∃ t, exec .inputCapLift s = .next t ∧ t = { s with gov := t.gov, faults := t.faults } ∧ t.gov.inputCap = false ∧
    t.gov.inputLow = false ∧ t.gov.flowCap = s.gov.flowCap ∧ 
    t.gov.clock = clocksOf { s with gov := { s.gov with inputCap := false, inputLow := false } }) ∧
  (∀ s, s.entry.inputLoss ≠ .none → exec .inputCapLift s = .next s) ∧
  (∀ s (mv : BitVec 16), 20000 ≤ mv.toNat → mv.toNat < 44000 → s.entry.main = true → s.entry.inputLoss = .none → ∃ t, exec (.inputBelow44v mv) s = .next t ∧ t.entry.inputSwitch = false ∧
    t.entry.inputLoss = .riding ∧ t.entry.main = true ∧ t.gov.inputCap = true ∧ t = { s with entry := t.entry, gov := t.gov }) ∧
  (∀ s (mv : BitVec 16), mv.toNat < 20000 → s.entry.main = true → s.entry.inputLoss = .none → ∃ t, exec (.inputBelow44v mv) s = .next t ∧
    t.entry.main = false ∧ t.entry.aux = false ∧ t.entry.pwrGood = false ∧ t.entry.presentLow = false ∧ t.entry.p56v = false ∧ t.fld.fields = [] ∧
    t.faults = s.faults) ∧
  (∀ s (mv : BitVec 16), mv.toNat < 44000 → s.entry.main = true → s.entry.inputLoss ≠ .none → ∃ t, exec (.inputBelow44v mv) s = .next t ∧
    t = { s with entry := t.entry, gov := t.gov } ∧ t.entry.inputLoss = s.entry.inputLoss ∧ t.entry.main = true ∧ t.gov.inputCap = true) ∧
  (∀ s (mv : BitVec 16), mv.toNat < 44000 → s.entry.main = false → ∃ t, exec (.inputBelow44v mv) s = .next t ∧ t.entry.aux = false ∧
    t.entry.removeLow = false ∧ t.gov.inputCap = true ∧ t = { s with entry := t.entry, gov := t.gov }) ∧
  (∀ s (mv : BitVec 16), 44000 ≤ mv.toNat → exec (.inputBelow44v mv) s = .next s) ∧
  (∀ s, s.entry.inputLoss = .riding → ∃ t, exec .inputLossPark s = .next t ∧ t.entry.main = false ∧ t.entry.inputLoss = .parked ∧ t.entry.inputFault = true) ∧
  (∀ s, s.entry.inputLoss ≠ .riding → exec .inputLossPark s = .next s) ∧
  (∀ s (mv : BitVec 16), mv.toNat < 50000 → exec (.inputReturn mv) s = .next s) ∧
  (∀ s (mv : BitVec 16), 50000 ≤ mv.toNat → s.entry.belowAux = true → s.entry.precharge = .done → s.entry.aux = false → ∃ t,
    exec (.inputReturn mv) s = .next t ∧ t.entry.aux = true ∧ t.entry.belowAux = false) ∧
  (∀ s (mv : BitVec 16), 50000 ≤ mv.toNat → (s.entry.belowAux = false ∨ s.entry.precharge ≠ .done ∨ s.entry.aux = true) → ∃ t,
    exec (.inputReturn mv) s = .next t ∧ t = { s with entry := t.entry, gov := t.gov } ∧ t.gov = { s.gov with inputLow := false } ∧
    t.entry.inputMv = mv ∧ (s.entry.inputLoss = .riding → t.entry.inputSwitch = true ∧ t.entry.inputLoss = .none) ∧
    (s.entry.inputLoss ≠ .riding → t.entry.inputSwitch = s.entry.inputSwitch ∧ t.entry.inputLoss = s.entry.inputLoss)) ∧
  (∀ s, s.entry.precharge = .charging → ∃ b, exec .inputAbove62v s = .next (latchPrecharge b { s with fresh := s.fresh + 1 })) ∧
  (∀ s, s.entry.precharge ≠ .charging → s.entry.aux = false → exec .inputAbove62v s = .next s) ∧
  (∀ s, s.entry.precharge ≠ .charging → s.entry.aux = true → ∃ t, exec .inputAbove62v s = .next t ∧ t.entry.main = false ∧ t.entry.inputSwitch = false ∧ t.entry.inputFault = true)

/-- PERST#, FLR and power states. PERST# with the rails on is a cold reset: queues, open work, fields, array state and history are lost, the event
number restarts at 1, the record store, the meter and host memory stay; its release lets the boot ROM wait for a bundle, after it has read the
record store: unreadable endurance counters restart at zero with a flag, an unreadable fatal history is empty, an unreadable repair map is
dropped, and floor and mask stay. FLR ends test, trace and injection and releases the governor's parks, and D3hot loses array state; both are
ignored during a warm reset. D0 and the clock stop of an idle island take effect at once. -/
def Obligations.ResetsAndPowerStates : Prop :=
  (∀ s, s.entry.main = true → ∃ t, exec .perstAssert s = .next t ∧ t.entry = { s.entry with perst := true, alive := false } ∧ t.boot.last = 1 ∧ t.boot.stage = .rom ∧
    t.host.queues = [] ∧ t.host.opens = [] ∧ t.fld.fields = [] ∧ t.grid = {} ∧ t.serv = {} ∧ t.faults.ring = [] ∧ t.faults.nextSeq = 1 ∧ t.store = s.store ∧
    t.meter = s.meter ∧ t.mem.host = s.mem.host ∧ t.gov.targetMhz = 1750 ∧ t.gov.capLast = s.gov.capLast) ∧
  (∀ s, s.entry.main = false → exec .perstAssert s = .next (setEntry s { s.entry with perst := true })) ∧
  (∀ s, s.entry.main = true → s.boot.stage = .rom → ∃ t, exec (.perstRelease true) s = .next t ∧ t.entry = { s.entry with perst := false } ∧ t.boot.stage = .await ∧
    t.boot.identity = true ∧ t.boot.atBoot = some (s.store.floor, s.store.revoked) ∧ t.store = (readStore s).store ∧
    t.boot.enduranceReset = (s.boot.enduranceReset || !s.store.enduranceValid)) ∧
  (∀ s : State, (readStore s).store.floor = s.store.floor ∧ (readStore s).store.revoked = s.store.revoked ∧
    (s.store.repairValid = true → s.store.fatalValid = true → s.store.enduranceValid = true → (readStore s).store = s.store) ∧
    (s.store.repairValid = false → (readStore s).store.retired = [] ∧ (readStore s).store.repairs = []) ∧
    (s.store.fatalValid = false → (readStore s).store.lastFatal = none) ∧
    (s.store.enduranceValid = false → (readStore s).store.hours = 0 ∧ (readStore s).store.powerUps = 0 ∧ (readStore s).store.thermalCycles = 0)) ∧
  (∀ s, s.entry.main = true → s.boot.stage = .rom → ∃ t, exec (.perstRelease false) s = .next t ∧ t.boot.stage = .noIdentity ∧ t.boot.identity = false ∧ t.entry.perst = false) ∧
  (∀ s b, s.entry.main = true → s.boot.stage ≠ .rom → exec (.perstRelease b) s = .next (setEntry s { s.entry with perst := false })) ∧
  (∀ s, s.entry.main = true → s.entry.perst = false → linkUp s = true → s.boot.warmBusy = false → ∃ t, exec .flr s = .next t ∧ t.boot.last = 3 ∧
    t.testLinks = [] ∧ t.testMem = {} ∧ t.fld.floorMhz = [] ∧ t.fld.parkRank = [] ∧ t.gov.targetMhz = 1750 ∧ t.gov.parked = 0 ∧ t.faults.inj = [] ∧
    t.faults.test = false ∧ t.faults.traceEn = false ∧ t.faults.remain = 0) ∧
  (∀ s, s.boot.warmBusy = true → exec .flr s = .next s ∧ exec .d3hotEntry s = .next s) ∧
  (∀ s, s.entry.main = true → s.entry.perst = false → linkUp s = true → s.boot.warmBusy = false → s.host.d3hot = false → ∃ t, exec .d3hotEntry s = .next t ∧
    t.grid.units = [] ∧ t.grid.threads = [] ∧ t.fld.parks = [] ∧ t.fld.fills = [] ∧ t.mem.requests = [] ∧
    ∀ e ∈ t.fld.fields, e.2.slots = [] ∧ e.2.seq = [] ∧ e.2.waiting = [] ∧ e.2.step = none) ∧
  (∀ s, s.entry.main = true → exec .d0Entry s = .next (setHost s { s.host with d3hot := false })) ∧
  (∀ s (b : BandId) (q : Fin 4), s.entry.main = true → islandBusy s b = false → exec (.islandClockStop b q) s =
    .next { s with fld := { s.fld with stopped := setBit s.fld.stopped (4 * b.val + q.val) true } }) ∧
  (∀ s (b : BandId) (q : Fin 4), islandBusy s b = true → exec (.islandClockStop b q) s = .next s)

/-- Sections are dispatched, units swap, sections complete. The first queued section is dispatched when the field's gates are open and its sends have
room, a resumed one when its slot is filled, else nothing happens; then its feeds deliver; a unit takes the next section when it is free, or first
asks for the swap once it is ready; a section that is over completes OK with its largest count and its bound, an empty one OK_EMPTY (R109, R110,
R113, R167). -/
def Obligations.SectionsRunAndComplete : Prop :=
  (∀ s (f : FieldId) fl x i, fieldAt s f = some fl → (fl.seq.find? fun x => x.phase == .queued) = some x → secSkein fl x = some i →
    dispatchOpen s f fl = true → heldInPlace s f = false →
    (x.restored = false → sendReady s f x i = true → exec (.sectionDispatch f) s =
      .next (pumpFeeds f feedBurst (sendDispatch f x i (modSec f x.id (fun x => { x with phase := .dispatched, progress := true }) s)))) ∧
    (x.restored = true → (firstFill s f x.slot).isSome = false → exec (.sectionDispatch f) s =
      .next (pumpFeeds f feedBurst (modSec f x.id (fun x => { x with phase := .dispatched }) s))) ∧
    (x.restored = true → (firstFill s f x.slot).isSome = true → exec (.sectionDispatch f) s = .next s) ∧
    (x.restored = false → sendReady s f x i = false → exec (.sectionDispatch f) s = .next s)) ∧
  (∀ s (f : FieldId) fl, fieldAt s f = some fl → (dispatchOpen s f fl = false ∨ heldInPlace s f = true ∨ fl.seq = []) → exec (.sectionDispatch f) s = .next s) ∧
  (∀ s (t : Tile) f fl r c x, fieldOfTile s (tileIx t) = some (f, fl, r, c) → unitFenced s (tileIx t) = false → (moduleTiles s fl).contains (tileIx t) = true →
    fl.asleep = false → s.fld.stopped.getLsbD (tileIsland s (tileIx t)) = false → drainingField fl = false → (unitAt s (tileIx t)).sectionId = none →
    nextFor fl (unitAt s (tileIx t)) = some x → (x.restored || !heldInPlace s f) = true →
    exec (.unitSwap t) s = .next (liftFences (takeParkWait f x.id (pumpFeeds f feedBurst (activate f fl (tileIx t) x s))))) ∧
  (∀ s (t : Tile) f fl r c id x, fieldOfTile s (tileIx t) = some (f, fl, r, c) → unitFenced s (tileIx t) = false → (moduleTiles s fl).contains (tileIx t) = true →
    fl.asleep = false → s.fld.stopped.getLsbD (tileIsland s (tileIx t)) = false → drainingField fl = false → (unitAt s (tileIx t)).pendingSwap = false →
    (unitAt s (tileIx t)).sectionId = some id → x ∈ fl.seq → x.id = id →
    (swapReady s (tileIx t) = false → exec (.unitSwap t) s = .next s) ∧
    (swapReady s (tileIx t) = true → ((nextFor fl (unitAt s (tileIx t))).filter fun x => x.restored || !heldInPlace s f) = none →
      exec (.unitSwap t) s = .next (modUnit (tileIx t) (fun u => { u with pendingSwap := true }) (collectCounts f (tileIx t) s))) ∧
    (∀ y, swapReady s (tileIx t) = true → nextFor fl (unitAt s (tileIx t)) = some y → (y.restored || !heldInPlace s f) = true →
      exec (.unitSwap t) s = .next (liftFences (takeParkWait f y.id (pumpFeeds f feedBurst (activate f fl (tileIx t) y (collectCounts f (tileIx t) s))))))) ∧
  (∀ s (f : FieldId) fl x, fieldAt s f = some fl → (fl.seq.find? fun x => sectionOver s fl x) = some x →
    (x.empty = true → exec (.sectionComplete f) s = .next (liftFences (settleCopies (closeSection f x.id (statusCode .okEmpty) 0 0 s)))) ∧
    (x.empty = false → exec (.sectionComplete f) s = .next (liftFences (settleCopies (closeSection f x.id (statusCode .ok) x.outOfRange x.bound s))))) ∧
  (∀ s (f : FieldId) fl, fieldAt s f = some fl → (∀ x ∈ fl.seq, sectionOver s fl x = false) → exec (.sectionComplete f) s = .next s)

/-- Firings, arrivals and credits. A unit that may fire has the effect of its context, and what waited on it is examined again; one that may not fire
changes nothing. An entry in flight arrives at its unit, at the end of the input FIFO it names, or at the field's edge, and an entry that left a
slot before it was filled again arrives for the section it left; a returned credit frees one place of the thread and lets its source go on (R65,
R81, R82, R93). -/
def Obligations.UnitsFireAndEntriesMove : Prop :=
  (∀ s (t : Tile) k c u, s.faults.test = false → unitCfg (unitAt s (tileIx t)) = some c → mayFire s (tileIx t) = true →
    tryFire (tileIx t) c k s = some u → exec (.unitFire t k) s = .next (afterEvent (tileIx t)
      (injectOverflow (tileIx t) c k s (matrixActivity (tileIx t) k (unitProgress (tileIx t) u))))) ∧
  (∀ t c k (s u : State), u.faults.test = false → injectOverflow t c k s u = u) ∧
  (∀ s (t : Tile) k c, unitCfg (unitAt s (tileIx t)) = some c → (mayFire s (tileIx t) = false ∨ tryFire (tileIx t) c k s = none) →
    exec (.unitFire t k) s = .next s) ∧
  (∀ s (t : Tile) k, unitCfg (unitAt s (tileIx t)) = none → exec (.unitFire t k) s = .next s) ∧
  (∀ s (th : ThreadId) d x it u fl e, (s.grid.leaving.find? fun y => y.2.1 == threadKey th.field th.slot (th.index % 65536) && y.2.2.1 == d) = none →
    threadCfgAt s (threadKey th.field th.slot (th.index % 65536)) = some x →
    takeFlying (threadKey th.field th.slot (th.index % 65536)) d s = some (it, u) → fieldAt s th.field = some fl → x.dests[d]? = some e →
    (e.row = 63 → e.col = 63 → exec (.entryArrival th d) s = .next (arriveEdge (threadKey th.field th.slot (th.index % 65536)) d x.lane it u)) ∧
    (¬(e.row = 63 ∧ e.col = 63) → exec (.entryArrival th d) s = .next (afterEvent (tileAt fl e.row e.col)
      (arriveUnit (threadKey th.field th.slot (th.index % 65536)) d x.lane e.port (tileAt fl e.row e.col) it u)))) ∧
  (∀ s (th : ThreadId) d y, (s.grid.leaving.find? fun y => y.2.1 == threadKey th.field th.slot (th.index % 65536) && y.2.2.1 == d) = some y →
    exec (.entryArrival th d) s = .next (leaveArrives y s)) ∧
  (∀ s (th : ThreadId) d, (s.grid.leaving.find? fun y => y.2.1 == threadKey th.field th.slot (th.index % 65536) && y.2.2.1 == d) = none →
    takeFlying (threadKey th.field th.slot (th.index % 65536)) d s = none → exec (.entryArrival th d) s = .next s) ∧
  (∀ s k d lane p t it, lane ≠ 2 → s.faults.test = false → ((unitAt s t).aborted = false ∨ (unitAt s t).active ≠ it.tag) →
    arriveUnit k d lane p t it s = modUnit t (fun u => { u with fifos := tmod [] (inPort lane p) (· ++ [it]) u.fifos }) s) ∧
  (∀ s k d p t it, s.faults.test = false → ((unitAt s t).aborted = false ∨ (unitAt s t).active ≠ it.tag) → tokenBad (tfind it.tag (unitAt s t).slots) p it = false →
    arriveUnit k d 2 p t it s = modUnit t (fun u => { u with fifos := tmod [] (inPort 2 p) (· ++ [it]) u.fifos }) s) ∧
  (∀ s (th : ThreadId) d x fl k v, k = threadKey th.field th.slot (th.index % 65536) → v = threadAt s k → threadCfgAt s k = some x → fieldAt s th.field = some fl →
    (tget 0 d v.returning = 0 → exec (.creditReturn th d) s = .next s) ∧
    (tget 0 d v.returning ≠ 0 → edgeSourced x = true → exec (.creditReturn th d) s = .next (pumpFeeds th.field feedBurst
      (setThread s k { v with returning := tmod 0 d (· - 1) v.returning, credits := tmod Config.fifoDepth d (· + 1) v.credits }))) ∧
    (tget 0 d v.returning ≠ 0 → edgeSourced x = false → exec (.creditReturn th d) s = .next (afterEvent (tileAt fl x.srcRow x.srcCol)
      (setThread s k { v with returning := tmod 0 d (· - 1) v.returning, credits := tmod Config.fifoDepth d (· + 1) v.credits }))))

/-- Control tokens. START releases the outermost counter of a unit that waits for it; DONE advances the counter that its input drives, after the
end-of-iteration operation of the unit's stages where they have one (log 161), and is dropped otherwise; SELECT waits for its scalar and sets the
predicate; END_SECTION and FLUSH are noted on their input; ABORT discards what the section holds and is passed on once; a token that stands behind
another one by R91's order waits, and without a token at the input nothing happens (R53, R86, R87, R91, R94, R113). -/
def Obligations.TokensTakeEffect : Prop :=
  (∀ s t ci x c l, TokenAt s t ci 1 x c → outermost c = some l → c.ctl.startWait = true → c.kind = 1 →
    (unitAt (popPort (tileIx t) 2 ci s) (tileIx t)).emptyRun = false → exec (.tokenStart t ci) s = .next (afterEvent (tileIx t)
      (setCounter (tileIx t) l { counterAt (unitAt (popPort (tileIx t) 2 ci s) (tileIx t)) l with
        released := (counterAt (unitAt (popPort (tileIx t) 2 ci s) (tileIx t)) l).released + 1 } (popPort (tileIx t) 2 ci s)))) ∧
  (∀ s t ci x c, TokenAt s t ci 1 x c → (outermost c = none ∨ c.ctl.startWait = false) → exec (.tokenStart t ci) s = .next (afterEvent (tileIx t) (popPort (tileIx t) 2 ci s))) ∧
  (∀ s t ci x c u, TokenAt s t ci 2 x c → u = popPort (tileIx t) 2 ci s → doneCounts c ci (tokLevel x) = true →
    (counterAt (unitAt u (tileIx t)) (tokLevel x)).running = true →
    (tokLevel x ≠ 0 ∨ doneIterates c = false → exec (.tokenDone t ci) s =
      .next (afterEvent (tileIx t) (counterAdvance (tileIx t) c (tokLevel x) (doneCloses (tileIx t) (tokLevel x) c u)))) ∧
    (tokLevel x = 0 → doneIterates c = true → stageRoom u (tileIx t) c [true] = true → exec (.tokenDone t ci) s =
      .next (afterEvent (tileIx t) (counterAdvance (tileIx t) c 0 (doneCloses (tileIx t) 0 c (endIteration (tileIx t) c u))))) ∧
    (tokLevel x = 0 → doneIterates c = true → stageRoom u (tileIx t) c [true] = false → exec (.tokenDone t ci) s = .next s)) ∧
  (∀ s t ci x c u, TokenAt s t ci 2 x c → u = popPort (tileIx t) 2 ci s →
    (doneCounts c ci (tokLevel x) = false ∨ (counterAt (unitAt u (tileIx t)) (tokLevel x)).running = false) →
    exec (.tokenDone t ci) s = .next (afterEvent (tileIx t) u)) ∧
  (∀ c ci l cc, counterCfg c l = some cc → (doneCounts c ci l = true ↔ c.kind = 1 ∧ cc.adv = 2 ∧ cc.advIn = ci)) ∧
  (∀ s t ci x c w, TokenAt s t ci 3 x c → headOf (popPort (tileIx t) 2 ci s) (tileIx t) 1 (selSi c ci - 1) = some w →
    exec (.tokenSelect t ci) s = .next (afterEvent (tileIx t) (modUnit (tileIx t) (fun u => { u with predicate := some (bits w.data.toNat 0 32 != 0), predLevel := tokLevel x })
      (popPort (tileIx t) 1 (selSi c ci - 1) (popPort (tileIx t) 2 ci s))))) ∧
  (∀ s t ci x c, TokenAt s t ci 3 x c → headOf (popPort (tileIx t) 2 ci s) (tileIx t) 1 (selSi c ci - 1) = none → exec (.tokenSelect t ci) s = .next s) ∧
  (∀ s t ci x c, TokenAt s t ci 4 x c → exec (.tokenEndSection t ci) s = .next (afterEvent (tileIx t)
    (modUnit (tileIx t) (fun u => { u with ended := setBit u.ended ci true }) (popPort (tileIx t) 2 ci s)))) ∧
  (∀ s t ci x c, TokenAt s t ci 5 x c → exec (.tokenFlush t ci) s = .next (afterEvent (tileIx t)
    (modUnit (tileIx t) (fun u => { u with flushed := setBit u.flushed ci true }) (popPort (tileIx t) 2 ci s)))) ∧
  (∀ s t ci x c u, TokenAt s t ci 6 x c → u = popPort (tileIx t) 2 ci s → (unitAt u (tileIx t)).aborted = true → exec (.tokenAbort t ci) s = .next (afterEvent (tileIx t)
    (discardTag (tileIx t) x.tag (modUnit (tileIx t) (fun y => { y with aborted := true, ended := setBit y.ended ci true, waits := y.waits }) u)))) ∧
  (∀ s t ci x c u w, TokenAt s t ci 6 x c → u = popPort (tileIx t) 2 ci s → (unitAt u (tileIx t)).aborted = false →
    w = discardTag (tileIx t) x.tag (modUnit (tileIx t) (fun y => { y with aborted := true, ended := setBit y.ended ci true, waits := [] }) u) →
    exec (.tokenAbort t ci) s = .next (afterEvent (tileIx t)
      ((controlOutputs w (tileIx t)).foldl (fun s co => emitToken (tileIx t) co 6 6 s) (modUnit (tileIx t) (fun y => { y with endEmitted := true }) w)))) ∧
  (∀ s t (ci : Fin 4), (headOf s (tileIx t) 2 ci = none ∨ takeToken (tileIx t) ci s = none) →
    exec (.tokenStart t ci) s = .next s ∧ exec (.tokenDone t ci) s = .next s ∧ exec (.tokenSelect t ci) s = .next s ∧
    exec (.tokenEndSection t ci) s = .next s ∧ exec (.tokenFlush t ci) s = .next s ∧ exec (.tokenAbort t ci) s = .next s) ∧
  (∀ s t (ci : Fin 4) x c, headOf s (tileIx t) 2 ci = some x → unitCfg (unitAt s (tileIx t)) = some c → tokenBehind s (tileIx t) c ci x = true →
    takeToken (tileIx t) ci s = none)

/-- Drains, parks, aborts and the watchdog. A run-empty drain that is done ends its sections one by one, a drain that is not done goes on; an abort
ends its section and lets the field's other work go on; a scan drain lands what is in flight, settles and then writes the park record; a starved
section with an idle limit starts its drain where there is room for its records; a section without progress past its watchdog is logged and
aborted STALL_DETECTED; below their limits nothing happens. -/
def Obligations.SectionsParkAndStop : Prop :=
  (∀ s (f : FieldId) fl, fieldAt s f = some fl → drainDone s f fl = true → (∀ e ∈ causes s f, wantsScan e.2 = false) →
    exec (.runEmptyDrainDone f) s = .next (liftFences (settleCopies (finishAborts f (((causes s f).map (·.1)).foldl (drainOne f) s))))) ∧
  (∀ s (f : FieldId) fl, fieldAt s f = some fl → drainDone s f fl = false → exec (.runEmptyDrainDone f) s = .next s) ∧
  (∀ s (f : FieldId), exec (.abortDrainTimeout f) s = .next (liftFences (settleCopies (finishAborts f s)))) ∧
  (∀ s (f : FieldId) id st, causes s f = [(id, .abort st)] → causes (deliverAbort f id st s) f = [] →
    finishAborts f s = resumeDrained f (fun x => x.why.isNone) (deliverAbort f id st s)) ∧
  (∀ s (f : FieldId) fl, fieldAt s f = some fl → exec (.scanSettleExpiry f) s =
    .next ((fl.seq.filter fun x => x.phase == .draining && x.why.any wantsScan).foldl
      (fun s x => modSec f x.id (fun x => { x with phase := .settled }) (landEntries f fl x s)) s)) ∧
  (∀ s (f : FieldId) fl x, fieldAt s f = some fl → fl.seq = [x] → x.phase = .settled → secAt s f x.id = some x →
    exec (.scanShiftDone f) s = .next (liftFences (settleCopies (finishAborts f (parkSectionNow f x.id 2 0 s))))) ∧
  (∀ s (f : FieldId) fl x, fieldAt s f = some fl →
    (fl.seq.find? fun x => x.phase == .dispatched && x.idleEn && decide (x.idleLimit ≤ x.idle) && activeIn s fl x.id) = some x →
    exec (.inputPark f) s = .next (match parkRoom true f (drainIds s fl) s with
      | some u => startDrain f x.id .inputPark false u
      | none => noRoom (drainIds s fl) s)) ∧
  (∀ s (f : FieldId) fl, fieldAt s f = some fl → (∀ x ∈ fl.seq, x.phase ≠ .dispatched ∨ x.idleEn = false ∨ x.idle < x.idleLimit) →
    exec (.inputPark f) s = .next s) ∧
  (∀ s (f : FieldId) fl x, fieldAt s f = some fl → s.faults.test = false → fl.seq = [x] → x.phase = .dispatched → x.watchdog ≤ x.wdCount →
    exec (.watchdogExpiry f) s = .next (startAbort f x.id (statusCode .stallDetected)
      (logClass1 0x0C 0x10 (watchdogLoc s x) false (statusCode .stallDetected) s))) ∧
  (∀ s (f : FieldId) fl, fieldAt s f = some fl → s.faults.test = false → (∀ x ∈ fl.seq, x.wdCount < x.watchdog) → exec (.watchdogExpiry f) s = .next s)

/-- Tier requests, arbiters, page moves, scrub. A tier request that is done ends with its data, an uncorrectable read loses the line, a page without a
translation is a detection of the unit; an arbiter beat applies its rule to its own state, on a link it sends a flit, and on a bank it makes the
losers wait; a page move happens, is put off while the page is held, or is dropped; scrub of a clean line only counts, of an uncorrectable one
logs and retires the frame, of SRAM corrects or logs (R194, R199, R201, R366). -/
def Obligations.MemoryTrafficCompletes : Prop :=
  (∀ s (t : Tile) (ctx : Fin 16) q c x cell, (s.mem.requests.find? fun q => q.tile == tileIx t && q.ctx == ctx.val) = some q → moonWaits s q = false →
    unitCfg (unitAt s (tileIx t)) = some c → streamCfg c ctx = some x → requestLive s (tileIx t) = true → q.places.any (inQuarantine s q.field) = false →
    s.faults.test = false → untranslated s q = none → lostPlace s q = none → ((q.places.head?).bind fun a => dvaCell s q.field a).map (·.1) = some cell →
    exec (.tierRequestComplete t ctx .done) s = .next (tierEnds q c x s) ∧
    (q.write = true → exec (.tierRequestComplete t ctx .uncorrectable) s = .next (tierEnds q c x s)) ∧
    (q.write = false → exec (.tierRequestComplete t ctx .uncorrectable) s = .next (afterEvent (tileIx t) (lineLost (tileIx t) cell true false (dropRequest q s))))) ∧
  (∀ s (t : Tile) (ctx : Fin 16) q c x a fin, (s.mem.requests.find? fun q => q.tile == tileIx t && q.ctx == ctx.val) = some q → moonWaits s q = false →
    unitCfg (unitAt s (tileIx t)) = some c → streamCfg c ctx = some x → requestLive s (tileIx t) = true → q.places.any (inQuarantine s q.field) = false →
    s.faults.test = false → untranslated s q = some a → exec (.tierRequestComplete t ctx fin) s =
      .next (afterEvent (tileIx t) (unitDetection (tileIx t) 0x08 (65536 * (a / 4096)) false (dropRequest q s)))) ∧
  (∀ s (t : Tile) (ctx : Fin 16) fin, (s.mem.requests.find? fun q => q.tile == tileIx t && q.ctx == ctx.val) = none → exec (.tierRequestComplete t ctx fin) s = .next s) ∧
  (∀ s (t : Tile) (ctx : Fin 16) q fin, (s.mem.requests.find? fun q => q.tile == tileIx t && q.ctx == ctx.val) = some q → moonWaits s q = true →
    exec (.tierRequestComplete t ctx fin) s = .next s) ∧
  (∀ s (l : LinkId) w n, s.entry.main = true → s.boot.warmBusy = false → islandOn s (arbIsland s (.link l)) = true → ctrlTurn s (.link l) = false →
    arbBeat (arbKind s (.link l)) { tget ({} : Arbiter) (arbKey (.link l)) s.arbs.arbs with served := stillServed s (tget ({} : Arbiter) (arbKey (.link l)) s.arbs.arbs).served }
      (arbCandidates s (stillServed s (tget ({} : Arbiter) (arbKey (.link l)) s.arbs.arbs).served) (.link l)) = (w, n) →
    exec (.arbiterBeat (.link l)) s = .next (linkBeat l w { s with arbs := { s.arbs with
      arbs := tset {} (arbKey (.link l)) { n with served := stillServed s n.served } s.arbs.arbs } })) ∧
  (∀ s (l : LinkId), s.entry.main = true → s.boot.warmBusy = false → islandOn s (arbIsland s (.link l)) = true → ctrlTurn s (.link l) = true →
    exec (.arbiterBeat (.link l)) s = .next (linkBeat l none s)) ∧
  (∀ s (t : Tile) bank w n, s.entry.main = true → s.boot.warmBusy = false → islandOn s (arbIsland s (.muBank t bank)) = true →
    arbBeat (arbKind s (.muBank t bank)) { tget ({} : Arbiter) (arbKey (.muBank t bank)) s.arbs.arbs with
        served := stillServed s (tget ({} : Arbiter) (arbKey (.muBank t bank)) s.arbs.arbs).served }
      (bankCandidates s (tileIx t) bank.val) = (w, n) →
    exec (.arbiterBeat (.muBank t bank)) s = .next (bankBeat (tileIx t) bank.val w { s with arbs := { s.arbs with
      arbs := tset {} (arbKey (.muBank t bank)) { n with served := stillServed s n.served } s.arbs.arbs } })) ∧
  (∀ s a, s.entry.main = true → s.boot.warmBusy = false → islandOn s (arbIsland s a) = true → (∀ l, a ≠ .link l) → (∀ t b, a ≠ .muBank t b) → ∃ t, exec (.arbiterBeat a) s = .next t ∧
    t = { s with arbs := { s.arbs with arbs := t.arbs.arbs } } ∧ ∀ b, arbKey b ≠ arbKey a → tget ({} : Arbiter) (arbKey b) t.arbs.arbs = tget {} (arbKey b) s.arbs.arbs) ∧
  (∀ s a, islandOn s (arbIsland s a) = false → exec (.arbiterBeat a) s = .next s) ∧
  (∀ s m ms fl p, s.mem.moves = m :: ms → fieldAt s m.field = some fl → (fl.pages.find? fun p => p.dva == m.dva && p.demoted != !m.promote) = some p →
    (pageHeld s fl p = false → exec .pageMoveDone s = .next (movePage m.field p (!m.promote) m.frame { s with mem := { s.mem with moves := ms } })) ∧
    (pageHeld s fl p = true → exec .pageMoveDone s = .next (framesFreed m.field { s with mem := { s.mem with moves := ms } }))) ∧
  (∀ s m ms, s.mem.moves = m :: ms → ((fieldAt s m.field).bind fun fl => fl.pages.find? fun p => p.dva == m.dva && p.demoted != !m.promote) = none →
    exec .pageMoveDone s = .next { s with mem := { s.mem with moves := ms } }) ∧
  (∀ s, s.mem.moves = [] → exec .pageMoveDone s = .next s) ∧
  (∀ s p found, scrubRuns s p = false → exec (.scrubPass p found) s = .next s) ∧
  (∀ s (k : StackId) line, scrubRuns s (.hbm k line) = true → s.faults.test = false → cellLost s (false, k.val * Config.stackBytes + 64 * line) = false →
    exec (.scrubPass (.hbm k line) .clean) s = .next (chargeTier none false 64 s) ∧
    exec (.scrubPass (.hbm k line) .uncorrectable) s = .next (retireFrame false k.val (64 * line)
      (logClass1 0x02 (0x30 + k.val) (64 * line) false 0 (chargeTier none false 64 s)))) ∧
  (∀ s t line, scrubRuns s (.sram t line) = true → s.faults.test = false →
    exec (.scrubPass (.sram t line) .clean) s = .next s ∧
    exec (.scrubPass (.sram t line) (.corrected false)) s = .next (logCorrected 0x01 (tileIsland s (tileIx t)) (tileLoc (tileIx t) + wordLoc line) false s) ∧
    exec (.scrubPass (.sram t line) .uncorrectable) s = .next (unitDetection (tileIx t) 0x01 (wordLoc line) false s))

/-- Moon calls begin. A header write begins a call with the header and arguments it then had: a malformed one ends with FORMAT and a detection, a
COUNT of 0 answers OK_EMPTY, else the call is queued at the lead and forwarded to every stack of its mask; a forward joins the queue of its stack,
each lead's oldest first, which lead's is free (log 168); a stopped moon does nothing (R212 to R215). -/
def Obligations.MoonCallsBegin : Prop :=
  (∀ s (k : StackId) (ch : Fin 64) h fl c, (s.moons.headers.find? fun h => h.lead == k.val && h.channel == ch.val) = some h → fieldAt s h.field = some fl →
    moonRuns s k = true → s.faults.test = false →
    c = headerCall h (callers s fl h.sec) (callDraft s h.field (callers s fl h.sec)) →
    ∀ u, u = { s with moons := { s.moons with headers := s.moons.headers.erase h } } →
    (callBad u fl c = true → exec (.moonCall k ch) s = .next (callFormat c fl false u)) ∧
    (callBad u fl c = false → c.count = 0 → exec (.moonCall k ch) s =
      .next (answerFetches k ch (countCalls c id (writeResults { c with status := statusCode .okEmpty } 0 [] u)))) ∧
    (callBad u fl c = false → c.count ≠ 0 → ∃ v, v = countCalls c (· + 1) u ∧ exec (.moonCall k ch) s =
      .next { v with moons := { v.moons with calls := v.moons.calls ++ [c], queues := tmod [] k.val (· ++ [(k.val, ch.val)]) v.moons.queues, forwards := v.moons.forwards ++ ((maskStacks c.mask).filter (· != k.val)).map (fun m => (m, k.val, ch.val)), combine := tdel (chanKey k ch) v.moons.combine } })) ∧
  (∀ s (k : StackId) (ch : Fin 64), (s.moons.headers.find? fun h => h.lead == k.val && h.channel == ch.val) = none → exec (.moonCall k ch) s = .next s) ∧
  (∀ s (k : StackId), arriving k s ≠ [] → moonRuns s k = true → ∃ e ∈ arriving k s, exec (.moonCallForward k) s =
    .next { s with fresh := s.fresh + 1, moons := { s.moons with forwards := s.moons.forwards.erase e, queues := tmod [] k.val (· ++ [(e.2.1, e.2.2)]) s.moons.queues } }) ∧
  (∀ s (k : Nat), ∀ e ∈ arriving k s, e.1 = k ∧ (s.moons.forwards.find? fun x => x.1 == k && x.2.1 == e.2.1) = some e) ∧
  (∀ s (k : Nat), (∀ e ∈ s.moons.forwards, e.1 ≠ k) → arriving k s = []) ∧
  (∀ s (k : StackId), arriving k s = [] → exec (.moonCallForward k) s = .next s) ∧
  (∀ s (k : StackId), moonRuns s k = false → exec (.moonCallForward k) s = .next s ∧ exec (.moonCallPartDone k) s = .next s ∧
    exec (.moonPartialCombine k) s = .next s ∧ exec (.moonServiceStep k) s = .next s ∧ ∀ ch n, exec (.moonCallComplete k ch n) s = .next s)

/-- Moon parts, combination, results and services. The part at the head of a stack's queue runs: attention over the key-value range, or a table's rows
at the moon whose stack holds them; a partial is combined into the lead's cells and touches no other channel; a call whose parts are all in writes
its results and answers held FETCHes; a FETCH of a pending call is held, of a finished one answered; a service step copies while no call waits,
and one that meets a lost line raises its entry and ends the request it served FENCED_UNIT (R199, R219 to R224). -/
def Obligations.MoonCallsEnd : Prop :=
  (∀ s (k : StackId) c fl m u, moonRuns s k = true → s.faults.fencedStacks.getLsbD k = false → headCall s k = some c →
    u = modCall c.lead c.channel (fun x => { x with ended := insertN k.val x.ended }) (popCall k s) → fieldAt u c.field = some fl → callProg u c = some m →
    (∀ p, kvParams m = some p → exec (.moonCallPartDone k) s = .next (liftFences (kvPart k fl m p c u))) ∧
    (∀ base rows log, kvParams m = none → m.params = .table base rows log → exec (.moonCallPartDone k) s =
      .next (liftFences (tableRows c m.cls base.toNat rows (2 ^ log) ((callIndices c).zipIdx.map fun e => (e.2, e.1)) u)))) ∧
  (∀ s (k : StackId) p, (s.moons.partials.find? fun p => p.lead == k.val) = some p → moonRuns s k = true → ∃ t, exec (.moonPartialCombine k) s = .next t ∧
    t = { s with moons := { s.moons with partials := s.moons.partials.erase p, combine := t.moons.combine } } ∧
    tfind (chanKey p.lead p.channel) t.moons.combine = some (combineCells ((tfind (chanKey p.lead p.channel) s.moons.combine).getD []) p.cells) ∧
    ∀ j, j ≠ chanKey p.lead p.channel → tfind j t.moons.combine = tfind j s.moons.combine) ∧
  (∀ s (k : StackId) (ch : Fin 64) n c, (s.moons.calls.find? fun c => c.lead == k.val && c.channel == ch.val) = some c →
    (callOver s c = false → exec (.moonCallComplete k ch n) s = .next s) ∧
    (moonRuns s k = true → callOver s c = true → ((maskStacks c.mask ++ [c.lead]).any fun j => s.faults.fencedStacks.getLsbD j) = false →
      ∃ u, u = writeResults c n (callBody s c) s ∧ exec (.moonCallComplete k ch n) s = .next (liftFences (settleMoonLoads (answerFetches k ch (countCalls c (· - 1)
        { u with moons := { u.moons with
          calls := u.moons.calls.filter fun x => !(x.lead == k.val && x.channel == ch.val),
          forwards := u.moons.forwards.filter fun e => !(e.2.1 == k.val && e.2.2 == ch.val),
          queues := (u.moons.queues.map fun e => (e.1, e.2.filter fun e => !(e.1 == k.val && e.2 == ch.val))).filter fun e => e.2 != [],
          combine := tdel (chanKey k ch) u.moons.combine } })))))) ∧
  (∀ s (k : StackId) (ch : Fin 64) (t : Tile) (ctx : Fin 16) q, (s.mem.requests.find? fun q => q.tile == tileIx t && q.ctx == ctx.val) = some q → q.write = false →
    resultArea s q.field (q.places.headD 0) = some (chanKey k ch) → s.moons.answers.contains (chanKey k ch, tileIx t, ctx.val) = false →
    s.moons.fetches.contains (k.val, ch.val, tileIx t, ctx.val) = false →
    (callPending s k ch = true → exec (.moonResultFetch k ch t ctx) s = .next { s with moons := { s.moons with fetches := s.moons.fetches ++ [(k.val, ch.val, tileIx t, ctx.val)] } }) ∧
    (callPending s k ch = false → exec (.moonResultFetch k ch t ctx) s = .next { s with moons := { s.moons with answers := s.moons.answers ++ [(chanKey k ch, tileIx t, ctx.val)] } })) ∧
  (∀ s (k : StackId) v vs rest u, tget [] k.val s.moons.services = v :: vs → moonRuns s k = true → (tget [] k.val s.moons.queues).isEmpty = true →
    ∀ lost, serviceStep serviceBytes v.copies s = (lost, rest, u) → ∃ w, w = chargeTier v.tag false (2 * (copiesBytes v.copies - copiesBytes rest)) u ∧
      (lost = none → exec (.moonServiceStep k) s =
        .next { w with moons := { w.moons with services := tset [] k.val (if rest.isEmpty then vs else { v with copies := rest } :: vs) w.moons.services } }) ∧
      (∀ c, lost = some c → v.req = none → exec (.moonServiceStep k) s =
        .next (lostEntry c { w with moons := { w.moons with services := tset [] k.val vs w.moons.services } })) ∧
      (∀ c r, lost = some c → v.req = some r → exec (.moonServiceStep k) s = .next (closeReq r (statusCode .fencedUnit) 0
        (lostEntry c { w with moons := { w.moons with services := tset [] k.val vs w.moons.services } })))) ∧
  (∀ s (k : StackId), (tget [] k.val s.moons.queues).isEmpty = false → exec (.moonServiceStep k) s = .next s)

/-- Rehash passes and new column maps. A pass that is due and matches restarts the copy's time; one that does not match quarantines the copy, which
counts as a fence action where it was not quarantined, and ends what reads it; a pass that is not due changes nothing. A pending map of a band
without a field is applied at once; of a field once its work is out: its units are cleared, its slots refilled and, when no band still waits, the
field goes on (R335, R484, R485). -/
def Obligations.RehashAndColumnMaps : Prop :=
  (∀ s (k : FieldId) d i hash c, copyIn (fieldModels s k) d i = some c → passDue s (some k.val) c = true → s.faults.test = false → rangeLost s k c.dva c.bytes = false →
    ∀ u, u = chargeTier none false c.bytes s →
    (hash = c.digest → exec (.rehashPass (some k) d i hash false) s = .next (setCopy (some k.val) d i (fun c => { c with since := s.tick }) u)) ∧
    (hash ≠ c.digest → exec (.rehashPass (some k) d i hash false) s = .next (settleCopies (quarantineEnds k c
      (noteFence c.quarantined (shardLoc i k) (setCopy (some k.val) d i (fun c => { c with quarantined := true, since := s.tick })
        (logScoped 9 0x0A (passIsland u (some k.val) c) (shardLoc i k) false (statusCode .quarantinedShard) u))))))) ∧
  (∀ s d i hash c, copyIn s.models.store d i = some c → passDue s none c = true → s.faults.test = false → storeLost s c = false →
    ∀ u, u = chargeTier none true c.bytes s →
    (hash = c.digest → exec (.rehashPass none d i hash false) s = .next (setCopy none d i (fun c => { c with since := s.tick }) u)) ∧
    (hash ≠ c.digest → exec (.rehashPass none d i hash false) s =
      .next (noteFence c.quarantined (shardLoc i 0) (setCopy none d i (fun c => { c with quarantined := true, since := s.tick })
        (logScoped 9 0x0A 0x10 (shardLoc i 0) false (statusCode .quarantinedShard) u))))) ∧
  (∀ s d i hash b c, copyIn s.models.store d i = some c → passDue s none c = false → exec (.rehashPass none d i hash b) s = .next s) ∧
  (∀ s (k : FieldId) d i hash b c, copyIn (fieldModels s k) d i = some c → passDue s (some k.val) c = false → exec (.rehashPass (some k) d i hash b) s = .next s) ∧
  (∀ s (b : BandId), tget 0 b.val s.fld.pendingPairs = 0 → exec (.columnMapApply b) s = .next s) ∧
  (∀ s (b : BandId) f fl, tget 0 b.val s.fld.pendingPairs ≠ 0 → s.entry.main = true → s.faults.fatal = false → fieldOfBand s b = some f → fieldAt s f = some fl →
    (mapReady s f fl = false → exec (.columnMapApply b) s = .next s) ∧
    (mapReady s f fl = true → ∃ u, u = fl.slots.foldl (refillSlot f) (clearUnits f fl (applyMap b (wakeField f s))) ∧
      exec (.columnMapApply b) s = .next (if fl.bands.any (fun k => tget 0 k u.fld.pendingPairs != 0) then u else releaseField f u))) ∧
  (∀ s (b : BandId), tget 0 b.val s.fld.pendingPairs ≠ 0 → s.entry.main = true → s.faults.fatal = false → fieldOfBand s b = none →
    ∃ t, exec (.columnMapApply b) s = .next t ∧ tget 0 b.val t.fld.pairs = tget 0 b.val s.store.retired ∧ tget 0 b.val t.fld.pendingPairs = 0 ∧
      ∀ e ∈ t.grid.units, tileBand e.1 ≠ b.val) ∧
  (∀ s (b : Nat), ∃ t, applyMap b s = t ∧ tget 0 b t.fld.pairs = tget 0 b s.store.retired ∧ tget 0 b t.fld.pendingPairs = 0)

/-- Steps: dispatch, sampling, commit. A step boundary does nothing while a step is open or uncommitted; else parks and batch limits act, and unless
the field is held, parked or draining the next step is dispatched in rank order; the end of a step samples its rows or grows the drafts, and
logits that are lost end the request FENCED_UNIT; a commit writes its tokens at the output address and either completes the request OK or keeps
the accepted nodes and releases the pages beyond them (R286 to R303). -/
def Obligations.StepsRunAndCommit : Prop :=
  (∀ s (f : FieldId) fl, fieldAt s f = some fl → (running s = false ∨ fl.step.isSome = true ∨ (s.serv.samples.any fun e => e.1 == f.val) = true) →
    exec (.stepBoundary f) s = .next s) ∧
  (∀ s (f : FieldId) fl u, fieldAt s f = some fl → running s = true → fl.step = none → (s.serv.samples.any fun e => e.1 == f.val) = false →
    u = actuateBatch f ((rankedReqs s f).foldl (fun s e => tryPark e.1 s) s) →
    ((fl.held = true ∨ fieldParked u f = true ∨ drainingField fl = true) → exec (.stepBoundary f) s = .next u) ∧
    (fl.held = false → fieldParked u f = false → drainingField fl = false → ∀ v w, v = (if (rankedReqs u f).any (fun e => openState e.2.state) then wakeField f u else u) →
      w = dispatchStep f (rankedReqs u f) ((rankedReqs u f).foldl (fun s e => if openState e.2.state && !allNear s e.1 e.2 then promoteReq e.1 e.2 s else s) v) →
      ∀ g, fieldAt w f = some g → exec (.stepBoundary f) s =
        .next (if g.step.isSome || !prefillRuns g then dispatchPrefill f (rankedReqs w f) w else w))) ∧
  (∀ s (f : FieldId) st, (fieldAt s f).bind (·.step) = some st → (st.ended = false ∨ running s = false) → exec (.tokenSample f) s = .next s) ∧
  (∀ s (f : FieldId) st c, (fieldAt s f).bind (·.step) = some st → st.ended = true → running s = true → configAt s st.config = some c → st.depth = none →
    ∃ t, exec (.tokenSample f) s = .next t ∧
      ∀ r n q k, st.rows = [(r, n)] → reqAt s r = some q → q.order = n → q.state = .decode → sampleRow s f c st.config 0 r q (st.nodes.getD 0 []) = some k →
        t = (let u := modField f (fun fl => { fl with step := none }) s; { u with serv := { u.serv with samples := u.serv.samples ++ [(f.val, n, k)] } })) ∧
  (∀ s (f : FieldId) st c r n q, (fieldAt s f).bind (·.step) = some st → st.ended = true → running s = true → configAt s st.config = some c → st.depth = none →
    st.rows = [(r, n)] → reqAt s r = some q → q.order = n → q.state = .decode → sampleRow s f c st.config 0 r q (st.nodes.getD 0 []) = none →
    exec (.tokenSample f) s = .next (closeReq r (statusCode .fencedUnit) 0 (modField f (fun fl => { fl with step := none }) s))) ∧
  (∀ s (f : FieldId) st c depth d e l, (fieldAt s f).bind (·.step) = some st → st.ended = true → running s = true → configAt s st.config = some c → st.depth = some depth →
    draftOf s c = some d → st.rows = [e] → draftChildren s f c d depth 0 = some l → exec (.tokenSample f) s = .next (sendStep f c (modField f (fun fl => { fl with
      step := some { st with depth := if depth < (treeBranches (branches c)).length then some (depth + 1) else none, nodes := [st.nodes.getD 0 [] ++ l] } }) s))) ∧
  (∀ s (f : FieldId) (c : Commit), (s.serv.samples.find? fun e => e.1 == f.val && e.2.2 == c) = none → exec (.stepCommit f c) s = .next s) ∧
  (∀ s (f : FieldId) (c : Commit) e q d, (s.serv.samples.find? fun e => e.1 == f.val && e.2.2 == c) = some e → reqAt s c.req.val = some q →
    d = { s with serv := { s.serv with samples := s.serv.samples.erase e } } →
    ((q.order ≠ e.2.1 ∨ q.state ≠ .decode ∨ s.faults.fatalPhase ≠ .none) → exec (.stepCommit f c) s = .next d) ∧
    (q.order = e.2.1 → q.state = .decode → s.faults.fatalPhase = .none → (∀ a, q.acc = some a → hostDma s a = true) →
      ∀ eos u, eos = (configAt s q.config).elim 0xFFFFFFFF (·.block.eos.toNat) → u = hostWrite d (q.outAddr + 4 * tokensOut q) (c.tokens.flatMap fun t => leBytes 4 t.toNat) →
      (finalCommit eos q c.tokens = true → exec (.stepCommit f c) s = .next (closeReq c.req.val (statusCode .ok) 0 (setReq u c.req.val { committed q c.tokens with state := .done }))) ∧
      (finalCommit eos q c.tokens = false → exec (.stepCommit f c) s = .next (countPages c.req.val (dropPages q.field (fun p => match p.owner with
        | .kv x pg _ => x == c.req.val && decide (q.tokens + c.tokens.length - 1 ≤ 256 * pg)
        | _ => false) (compactNodes c.req.val q c.nodes (setReq u c.req.val (committed q c.tokens)))))))) ∧
  (∀ q ts, (committed q ts).tokens = q.tokens + ts.length ∧ (committed q ts).generated = q.generated + ts.length ∧ (committed q ts).steps = q.steps + 1 ∧
    (committed q ts).kvDone = q.tokens + ts.length - 1 ∧ (committed q ts).ids = q.ids ++ ts ∧ (committed q ts).state = q.state)

/-- Entries, deadlines, idle parks, comets. A free entry goes to the first waiter; a deadline that is due cancels; an idle limit that is reached
parks; with test mode off a comet that is built goes to the pool, to host memory or to a peer, and one that cannot be written ends its park;
before their limits nothing happens (R285, R291, R303, R313 to R316). -/
def Obligations.RequestsMoveOn : Prop :=
  (∀ s r w rest, freeEntry s = some r → s.serv.waiters = w :: rest → running s = true → exec .entryAllocate s =
    .next (takeEntry r w { s with serv := { s.serv with waiters := rest } })) ∧
  (∀ s, (freeEntry s = none ∨ s.serv.waiters = [] ∨ running s = false) → exec .entryAllocate s = .next s) ∧
  (∀ s (r : ReqId) q, reqAt s r = some q → running s = true → openState q.state = true → q.noDeadline = false → q.park = none → q.due ≤ s.tick →
    exec (.deadlineExpiry r) s = .next (beginCancel r none s)) ∧
  (∀ s (r : ReqId) q, reqAt s r = some q → (s.tick < q.due ∨ q.noDeadline = true ∨ openState q.state = false) → exec (.deadlineExpiry r) s = .next s) ∧
  (∀ s (r : ReqId) q, reqAt s r = some q → running s = true → (q.state = .queued ∨ q.state = .decode) → q.parkEn = true → q.park = none → q.parkLimit ≤ q.idle →
    exec (.requestIdlePark r) s = .next (tryPark r (modReq r (fun q => { q with park := some (.idle, none), parkDesc := none }) s))) ∧
  (∀ s (r : ReqId) q, reqAt s r = some q → (q.parkEn = false ∨ q.idle < q.parkLimit) → exec (.requestIdlePark r) s = .next s) ∧
  (∀ s (r : ReqId) q ask d c, reqAt s r = some q → q.park = some (ask, some d) → q.state = .parked → running s = true →
    (s.fab.tx.any fun t => t.use == .comet r) = false → s.faults.test = false →
    (∀ st, (st = .fencedUnit ∨ st = .linkDown) → exec (.cometWritten r (some st)) s = .next (parkFails r st s)) ∧
    (buildComet s r q = none → exec (.cometWritten r none) s = .next (parkFails r .fencedUnit (modReq r (fun q => { q with park := some (ask, some d) })
      (noteLost (cometCells s r q) s)))) ∧
    (buildComet s r q = some c →
      (∀ fr n, d = .pool fr n → exec (.cometWritten r none) s = .next (parkDone r (poolComet c fr (releaseReserve (some (.pool fr n)) s)).1 (cometLength c)
        (chargeComet q.tag.toNat (cometLength c) (rawBytes c) d (poolComet c fr (releaseReserve (some (.pool fr n)) s)).2))) ∧
      (∀ a, d = .host a → parkLink s ask = true → exec (.cometWritten r none) s = .next (parkDone r 0 (cometLength c)
        (chargeComet q.tag.toNat (cometLength c) (rawBytes c) d (hostWrite s a (cometBytes c))))) ∧
      (∀ n, d = .peer n → exec (.cometWritten r none) s = .next (startTx (.comet r) (BitVec.ofNat 20 n) 4 q.tag 0 0 0 (cometBytes c)
        (chargeComet q.tag.toNat (cometLength c) (rawBytes c) d s))))) ∧
  (∀ s (r : ReqId) q o, reqAt s r = some q → (q.park = none ∨ q.state ≠ .parked) → exec (.cometWritten r o) s = .next s)

/-- The link layer. A good flit out of order is ignored, one in order is taken, a bad one asks for a resend and counts; a control flit acknowledges,
frees the retry buffer and resends on NAK; 16 failed resends or a lost lane start a fast retrain onto the spare, or lose the link; a fast retrain
that succeeds is logged, noted in the record store and resends; training that exchanges a good peer ID brings the link up (R342 to R346). -/
def Obligations.LinksCarryFlits : Prop :=
  (∀ s (l : LinkId) (f : Flit), fabricOn s = true → linkLive s l = true → (linkAt s l).fast = false → (linkAt s l).injLeft = 0 → s.faults.test = false →
    (f.good = true → f.corrected = false → f.seq ≠ (linkAt s l).rxSeq + 1 → exec (.flitReceive l f) s = .next s) ∧
    (f.good = true → f.corrected = false → f.seq = (linkAt s l).rxSeq + 1 → (linkAt s l).rxBad = false → exec (.flitReceive l f) s = .next (takeFlit l f s)) ∧
    (f.good = true → f.corrected = false → f.seq = (linkAt s l).rxSeq + 1 → (linkAt s l).rxBad = true → exec (.flitReceive l f) s =
      .next (takeFlit l f (logResend l (linkAt s l).spoiled (setLink s l { linkAt s l with rxBad := false, resends := 0 })))) ∧
    (f.good = false → (linkAt s l).rxBad = false → exec (.flitReceive l f) s = .next (putOnWire l (ctrlFlit true [])
      (setLink s l { linkAt s l with rxBad := true, resends := 0, spoiled := false, retries := min 0xFFFFFFFF ((linkAt s l).retries + 1) }))) ∧
    (f.good = false → (linkAt s l).rxBad = true → exec (.flitReceive l f) s = .next (putOnWire l (ctrlFlit true [])
      (setLink s l { linkAt s l with resends := (linkAt s l).resends + 1, spoiled := false })))) ∧
  (∀ s (l : LinkId) (f : Flit), f.ctrl = true → ∃ t, takeFlit l f s = t ∧ (linkAt t l).rxSeq = f.seq ∧ (linkAt t l).retry = ackFlits f.ackSeq (linkAt s l).retry ∧
    (linkAt t l).wire = (if f.nak then (linkAt s l).wire ++ ackFlits f.ackSeq (linkAt s l).retry else (linkAt s l).wire) ∧ (linkAt t l).rx = (linkAt s l).rx ∧ t.fab.arrived = s.fab.arrived) ∧
  (∀ s (l : LinkId) (w : Fin 16), fabricOn s = true → linkLive s l = true → (linkAt s l).fast = false →
    ((linkAt s l).rxBad = true → 16 ≤ (linkAt s l).resends → exec (.retryExhausted l w) s = .next (retryFails l w s)) ∧
    (((linkAt s l).rxBad = false ∨ (linkAt s l).resends < 16) → exec (.retryExhausted l w) s = .next s) ∧
    (∀ lane : Fin 17, exec (.laneLossOfLock l lane) s = .next (retryFails l lane s))) ∧
  (∀ s (l lane : Nat), ((linkAt s l).spared = 31 → retryFails l lane s = setLink s l { linkAt s l with fast := true, swapLane := lane }) ∧
    ((linkAt s l).spared ≠ 31 → retryFails l lane s = loseLink l lane s)) ∧
  (∀ s (l : LinkId), fabricOn s = true → (linkAt s l).fast = true → inLoopback s l = false → ∀ t, t = injReset (fun y => y.island.toNat == 0x18 + l.val) s →
    exec (.fastRetrainDone l false) s = .next (loseLink l (linkAt s l).swapLane t) ∧
    ((linkAt s l).swapLane ≠ 16 → ∃ u, u = setLink t l { linkAt s l with fast := false, resends := 0, state := .upSpare, spared := (linkAt s l).swapLane, swapLane := 31, wire := (linkAt s l).wire ++ (linkAt s l).retry } ∧
      ∃ v, v = { u with store := { u.store with spareLane := tset 31 l.val (linkAt s l).swapLane u.store.spareLane, spareEver := setBit u.store.spareEver l true } } ∧
      exec (.fastRetrainDone l true) s = .next (noteService s (recordEvent 1 (BitVec.ofNat 64 (linkAt s l).swapLane)
        (logDetection (BitVec.ofNat 8 (0x18 + l.val)) 0x0B 0 false 6 (islandCycles v (0x18 + l.val)) (BitVec.ofNat 64 (linkAt s l).swapLane) 0 v))))) ∧
  (∀ s (l : LinkId) ok, (linkAt s l).fast = false → exec (.fastRetrainDone l ok) s = .next s) ∧
  (∀ s (l : LinkId) peer, fabricOn s = true → (linkAt s l).state = .training → (linkAt s l).enable = true →
    ((peer = s.fab.nodeId ∨ peer = Config.unassignedNode) → exec (.linkTrainingDone l peer) s = .next (setLink s l { clearLink .down (linkAt s l) with peer := peer })) ∧
    (peer ≠ s.fab.nodeId → peer ≠ Config.unassignedNode → tget 31 l.val s.store.spareLane = 31 → (linkAt s l).fenced = false → exec (.linkTrainingDone l peer) s =
      .next (noteService s (setLink s l { clearLink .up (linkAt s l) with peer := peer, spared := 31, fenced := false })))) ∧
  (∀ s (l : LinkId) peer, (linkAt s l).state ≠ .training → exec (.linkTrainingDone l peer) s = .next s)

/-- Packets, acknowledgements and timers. A packet is delivered, forwarded or dropped with its reason by the active routing bank (no route or a dead
link 1, D3hot 2, too many hops 7, not accepted 8); data in order are accepted, late data are acknowledged again, early data are ignored; an ACK
advances the window and ends a shipment or comet when all is covered; a DROP ends, resends or waits by its reason; the timers resend, fail or drop
after their times (R347 to R357). -/
def Obligations.PacketsServeTransfers : Prop :=
  (∀ s (p : Packet) (tc : Fin 4) (vc : Bool) (l : LinkId), fabricOn s = true → s.fab.arrived.contains (l.val, tc.val, vc, p) = false →
    (∀ n, hopOf s p tc = .drop n → exec (.packetHop p tc vc (some l)) s = .next (sendDrop p n 0 s)) ∧
    (hopOf s p tc = .deliver → exec (.packetHop p tc vc (some l)) s = .next { s with fab := { s.fab with delivered := s.fab.delivered ++ [(p, tc.val)] } }) ∧
    (∀ k e, hopOf s p tc = .forward k e → exec (.packetHop p tc vc (some l)) s = .next (enqueue k (forwarded p vc e).1 tc (forwarded p vc e).2 s))) ∧
  (∀ s (p : Packet) (tc : Fin 4) (vc : Bool), fabricOn s = true → hopOf s p tc = .drop 1 →
    exec (.packetHop p tc vc none) s = .next (failTx p.transfer.toNat .linkDown s)) ∧
  (∀ s (p : Packet) tc, routeFor s p.dest tc = none → hopOf s p tc = .drop 1) ∧
  (∀ s (p : Packet) tc e, routeFor s p.dest tc = some e → e.egress = 0 → hopOf s p tc = (if acceptsFrom s p.src then .deliver else .drop 8)) ∧
  (∀ s (p : Packet) tc e, routeFor s p.dest tc = some e → e.egress ≠ 0 → (e.egress = 7 ∨ linkLive s (e.egress.toNat - 1) = false) → hopOf s p tc = .drop 1) ∧
  (∀ s (p : Packet) tc e, routeFor s p.dest tc = some e → 1 ≤ e.egress.toNat → e.egress.toNat ≤ 6 → linkLive s (e.egress.toNat - 1) = true →
    hopOf s p tc = (if hopLimit s ≤ p.hops then .drop 7 else .forward (e.egress.toNat - 1) e)) ∧
  (∀ s (p : Packet) (tc : Fin 4), fabricOn s = true → 2 ≤ p.kind → p.kind ≤ 6 → s.host.d3hot = true →
    exec (.packetDeliver p tc) s = .next (sendDrop p 2 0 { s with fab := { s.fab with delivered := s.fab.delivered.erase (p, tc.val) } })) ∧
  (∀ s (p : Packet) (tc : Fin 4) x u, fabricOn s = true → 2 ≤ p.kind → p.kind ≤ 6 → s.host.d3hot = false → u = { s with fab := { s.fab with delivered := s.fab.delivered.erase (p, tc.val) } } →
    rxRunAt s p.src p.transfer.toNat = some x →
    (x.accepted < p.offset → exec (.packetDeliver p tc) s = .next u) ∧
    (p.offset < x.accepted → exec (.packetDeliver p tc) s = .next (sendAck x u)) ∧
    (p.offset = x.accepted → x.finished = false →
      (∀ n st, acceptPacket x p u = .error (n, st) → exec (.packetDeliver p tc) s = .next (sendDrop p n st u)) ∧
      (∀ y v, acceptPacket x p u = .ok (y, v) → exec (.packetDeliver p tc) s = .next (if y.finished ∨ 16 ≤ y.unacked then sendAck y v else setRx y v)))) ∧
  (∀ s src tr x, rxRunAt s src tr.toNat = some x → fabricOn s = true → x.unacked ≠ 0 → exec (.ackSendTimer src tr) s = .next (sendAck x s)) ∧
  (∀ s src tr x, rxRunAt s src tr.toNat = some x → x.unacked = 0 → exec (.ackSendTimer src tr) s = .next s) ∧
  (∀ s (tr : BitVec 32) acc a2 a3 t u, fabricOn s = true → txAt s tr.toNat = some t →
    u = { s with fab := { s.fab with delivered := s.fab.delivered.filter fun e => !(e.1.kind == 0 && e.1.transfer == tr && e.1.offset == acc) } } →
    (max t.acked (min acc t.sent) < txLength t → exec (.ackReceive tr acc a2 a3) s = .next 
      (setTx { t with acked := max t.acked (min acc t.sent), times := t.times.filter fun e => decide (max t.acked (min acc t.sent) < e.1 * 4096 + 4096) } u)) ∧
    (txLength t ≤ max t.acked (min acc t.sent) → (t.times.any fun e => decide (txLength t ≤ e.1 * 4096 + 4096)) = true →
      (∀ d, t.use = .kvShip d → exec (.ackReceive tr acc a2 a3) s = .next (shipDone d (dropTx t.id u))) ∧
      (∀ r, t.use = .comet r → exec (.ackReceive tr acc a2 a3) s = .next (parkDone r (a2.toNat % 1024 + 1024 * (a3.toNat % 1024)) (txLength t) (dropTx t.id u))))) ∧
  (∀ s (tr : BitVec 32) (reason : BitVec 8) st u, fabricOn s = true →
    u = { s with fab := { s.fab with delivered := s.fab.delivered.filter fun e => !(e.1.kind == 1 && e.1.transfer == tr && e.1.arg0 == reason) } } →
    ((reason = 1 ∨ reason = 7 ∨ reason = 8) → exec (.dropReceive tr reason st) s = .next (failTx tr.toNat .linkDown u)) ∧
    (reason = 3 → exec (.dropReceive tr reason st) s = .next (failTx tr.toNat .countMismatch u)) ∧
    (reason = 4 → exec (.dropReceive tr reason st) s = .next (failTx tr.toNat .parked u)) ∧
    (∀ x, reason = 5 → st = some x → exec (.dropReceive tr reason st) s = .next (failTx tr.toNat x u)) ∧
    (reason = 6 → exec (.dropReceive tr reason st) s = .next (resendFrom tr.toNat u)) ∧
    (∀ t, reason = 2 → txAt u tr.toNat = some t → exec (.dropReceive tr reason st) s = .next (setTx { t with times := t.times.map fun e => (e.1, s.tick, s.tick) } u))) ∧
  (∀ s (tr : BitVec 32) t first last, txAt s tr.toNat = some t → oldestSend t = some (first, last) → fabricOn s = true →
    exec (.resendTimeout tr) s = .next (if last + t.window / 2 ≤ s.tick then resendFrom t.id s else s) ∧
    exec (.transferWindowExpiry tr) s = .next (if first + t.window ≤ s.tick then failTx t.id .linkDown s else s)) ∧
  (∀ s (l : LinkId) (p : Packet) ch b, fabricOn s = true → ((linkAt s l).rx.find? fun e => decide (32 ≤ e.2.length) && natAt e.2 3 3 == p.src.toNat &&
      natAt e.2 12 4 == p.transfer.toNat && natAt e.2 16 8 == p.offset && decide (tget 0 e.1 (linkAt s l).rxAt + 50 ≤ s.tick)) = some (ch, b) →
    exec (.packetStallTimeout l p) s = .next (sendDrop (parsePacket b) 6 0 (setLink s l { linkAt s l with
      rx := tdel ch (linkAt s l).rx, rxAt := tdel ch (linkAt s l).rxAt, toReturn := tmod 0 ch (· + b.length / flitPayload) (linkAt s l).toReturn }))) ∧
  (∀ s (l : LinkId) (p : Packet), (linkAt s l).rx = [] → exec (.packetStallTimeout l p) s = .next s)

/-- Collectives. Set-up packets agree on the operation and length, or end the instance COUNT_MISMATCH or OK_EMPTY; segments are added in ring order
and sent on until the reduce phase ends, then delivered likewise until the instance ends; a join that waits too long ends STALL_DETECTED; without
an instance nothing happens (R360). -/
def Obligations.CollectivesGoOn : Prop :=
  (∀ s (g : BitVec 8) r x k, running s = true → runningColl s g.toNat = some (r, x, k) →
    (r.phase = .setup 0 → ∀ a z, exec (.collSetupPacket g a z false) s = .next (setRun { r with phase := .setup 1 } s)) ∧
    (r.phase = .setup 1 → (∀ z, exec (.collSetupPacket g false z true) s = .next (endInstance g.toNat .countMismatch 0 s)) ∧
      exec (.collSetupPacket g true true true) s = .next (endInstance g.toNat .okEmpty 0 s) ∧
      (r.d.length = 0 → ∀ z, exec (.collSetupPacket g true z true) s = .next (endInstance g.toNat .okEmpty 0 s)) ∧
      (r.d.length ≠ 0 → exec (.collSetupPacket g true false true) s = .next (beginColl g.toNat s))) ∧
    (∀ n seg cells conv, r.phase = .reduce n → seg = (k + 2 * x.nodes.length - 1 - n % x.nodes.length) % x.nodes.length →
      ∀ u, u = setRun { addSegment r x.nodes.length seg cells with phase := .reduce (n + 1) } s →
      (n + 2 < x.nodes.length → exec (.collSegmentReceive g seg cells conv) s = .next (sendSegment g.toNat
        ((segmentCells (addSegment r x.nodes.length seg cells) x.nodes.length seg).flatMap fun c => leBytes 32 c.toNat) u)) ∧
      (x.nodes.length ≤ n + 2 → exec (.collSegmentReceive g seg cells conv) s = .next (deliverColl g.toNat u))) ∧
    (∀ n seg cells conv, r.phase = .delivery n → seg = (k + 2 * x.nodes.length - n % x.nodes.length) % x.nodes.length →
      ∀ b, b = padTo ((segmentOf (collCount r.d) x.nodes.length seg).2 * collElem r.d.outFmt.toNat) conv → ∀ u, u = setRun { r with phase := .delivery (n + 1), out := tset [] seg b r.out } s →
      (n + 2 < x.nodes.length → exec (.collSegmentReceive g seg cells conv) s = .next (sendSegment g.toNat b u)) ∧
      (x.nodes.length ≤ n + 2 → exec (.collSegmentReceive g seg cells conv) s = .next (finishColl g.toNat (collBytes { r with out := tset [] seg b r.out } x.nodes.length) u))) ∧
    (∀ n, r.phase = .setup n → exec (.joinWaitExpiry g) s = .next (if ((tfind r.acc s.host.opens).map (·.since)).getD 0 + x.joinWait ≤ s.tick
      then endInstance g.toNat .stallDetected 0 s else s)) ∧
    (∀ n, (r.phase = .reduce n ∨ r.phase = .delivery n) → exec (.joinWaitExpiry g) s = .next s)) ∧
  (∀ s (g : BitVec 8), runningColl s g.toNat = none → (∀ a z v, exec (.collSetupPacket g a z v) s = .next s) ∧
    (∀ n c b, exec (.collSegmentReceive g n c b) s = .next s) ∧ exec (.joinWaitExpiry g) s = .next s)

/-- Fence actions, unit tests and fatal events. A contained detection of a known island takes its fence action (with test mode off: no injection slot
then meets it); the cycle counter of the island it names only ever rises; a unit that passes its test has its fence lifted, one that fails retires
its column pair; a fatal detection stops dispatch, logs and parks, and a rail out of regulation takes PWR_GOOD with it (R28); an input fault or
trip removes the rails; later fatal detections are only logged; the end of the fatal park completes phase 4. That an unknown island is ignored is
the model's choice (log 66). -/
def Obligations.FaultsAreHandled : Prop :=
  (∀ s (d : Detection), s.entry.main = true → fatalDetector d.detector.toNat d.island.toNat = false → islandKnown d.island.toNat = true → s.faults.test = false →
    exec (.fenceAction d) s =
    .next (noteService s (liftFences (fenceAction d.detector.toNat d.island.toNat d.loc.toNat (takeCycles d.island.toNat d.cycles s))))) ∧
  (∀ s (d : Detection), (s.entry.main = false ∨ fatalDetector d.detector.toNat d.island.toNat = true) → exec (.fenceAction d) s = .next s) ∧
  (∀ s (u : Tile), s.entry.main = true → s.faults.fatal = false → s.faults.fencedUnits.contains (tileIx u) = true →
    (tget 0 (tileBand (tileIx u)) s.fld.pendingPairs).getLsbD (tilePair s (tileIx u)) = false → fieldOfTile s (tileIx u) = none →
    (twoEvents (setUnit s (tileIx u) {}) (tileIx u) = false → ∃ v, v = setUnit s (tileIx u) {} ∧ exec (.unitTest u true) s =
      .next (noteLift (tileIsland v (tileIx u)) (tileLoc (tileIx u)) 2 { v with faults := { v.faults with fencedUnits := v.faults.fencedUnits.filter fun x => x != tileIx u } })) ∧
    (exec (.unitTest u false) s = .next (noteService s (retirePair (tileBand (tileIx u)) (tilePair (setUnit s (tileIx u) {}) (tileIx u)) (setUnit s (tileIx u) {}))))) ∧
  (∀ s (u : Tile) b, s.faults.fencedUnits.contains (tileIx u) = false → exec (.unitTest u b) s = .next s) ∧
  (∀ s (d : Detection), s.entry.main = true → fatalDetector d.detector.toNat d.island.toNat = true → d.detector ≠ 0x12 → d.detector ≠ 0x13 → ∃ u,
    u = takeCycles d.island.toNat d.cycles s ∧
    (d.detector ≠ 0x11 → exec (.fatalEvent d) s = .next (fatalStart d.detector.toNat d.island.toNat d.loc.toNat false false u)) ∧
    (d.detector = 0x11 → exec (.fatalEvent d) s = .next (fatalStart 0x11 d.island.toNat d.loc.toNat false false
      (setEntry u { u.entry with pwrGood := false })))) ∧
  (∀ s i c, (cyclesPerTick s i = 0 ∨ c < islandCycles s i → takeCycles i c s = s) ∧
    (cyclesPerTick s i ≠ 0 → islandCycles s i ≤ c → takeCycles i c s = { s with grid := { s.grid with cycles := tset 0 i c s.grid.cycles } })) ∧
  (∀ s (d : Detection), s.entry.main = true → fatalDetector d.detector.toNat d.island.toNat = true → d.detector = 0x12 →
    ∃ t, exec (.fatalEvent d) s = .next t ∧ t.entry.main = false ∧ t.entry.inputFault = true) ∧
  (∀ s (d : Detection), s.entry.main = true → fatalDetector d.detector.toNat d.island.toNat = true → d.detector = 0x13 →
    exec (.fatalEvent d) s = exec (.thermalTrip d.island) (takeCycles d.island.toNat d.cycles s)) ∧
  (∀ s (pair : Bool) cycles, s.entry.main = true → exec (.heartbeatLoss pair cycles) s = .next (fatalStart 0x10 0x12 (if pair then 1 else 0) false false (takeCycles 0x12 cycles s))) ∧
  (∀ s d i loc a r, s.faults.fatal = true → ∃ u, u = { s with faults := { s.faults with fatalRails := s.faults.fatalRails || r }, entry := { s.entry with alive := false } } ∧
    fatalStart d i loc a r s = logDetection (BitVec.ofNat 8 i) (BitVec.ofNat 8 d) 2 a 11 (islandCycles u i) (BitVec.ofNat 64 loc) 0x04FF u) ∧
  (∀ s, s.faults.fatalPhase = .stopped → ∃ t, exec .fatalParkExpiry s = .next t ∧ t.faults.fatalPhase = .completed) ∧
  (∀ s, s.faults.fatalPhase ≠ .stopped → exec .fatalParkExpiry s = .next s) ∧
  (∀ s, s.entry.main = false → (∀ d, exec (.fatalEvent d) s = .next s) ∧ (∀ p c, exec (.heartbeatLoss p c) s = .next s) ∧ ∀ u b, exec (.unitTest u b) s = .next s)

/-- The metering chip. A sample adds its product exactly; an interval end, a loss of power, a power-up, a restart, a failed self-check and the seal
write their records with the next SEQ and the digest of the last; the ring keeps the newest 16,384; a written record reaches its slot of the
recent buffer while the link is up; an unpowered meter only notes the seal. Where no samples filled the interval the meter's time is carried to
its boundary by the model's choice (log 50). -/
def Obligations.MeterRecords : Prop :=
  (∀ s mv ma, s.meter.powered = true → ∃ t, exec (.meterSample mv ma) s = .next t ∧ t = { s with meter := t.meter } ∧
    t.meter.accum * microWh + t.meter.rest = s.meter.accum * microWh + s.meter.rest + mv * ma ∧
    t.meter.time = s.meter.time + 1 ∧ t.meter.records = s.meter.records ∧ t.meter.seq = s.meter.seq) ∧
  (∀ s mv ma, s.meter.powered = false → exec (.meterSample mv ma) s = .next s) ∧
  (∀ s, s.meter.powered = true → ∃ u, u = writeRecord (recordOf 1 0 s.meter.intervalCum s.meter.cum (atBoundary s.meter)) (setMeter s (atBoundary s.meter)) ∧
    exec .meterIntervalEnd s = .next (setMeter u (newInterval u.meter))) ∧
  (∀ s osc adc, s.meter.powered = true →
    (osc ≤ 500 → adc ≤ 1000 → exec (.meterSelfCheck osc adc) s = .next s) ∧
    (500 < osc → adc ≤ 1000 → exec (.meterSelfCheck osc adc) s = .next (meterEvent 5 (setMeter s { s.meter with checkInInterval := true }))) ∧
    (osc ≤ 500 → 1000 < adc → exec (.meterSelfCheck osc adc) s = .next (meterEvent 6 (setMeter s { s.meter with checkInInterval := true }))) ∧
    (500 < osc → 1000 < adc → exec (.meterSelfCheck osc adc) s = .next (meterEvent 6 (meterEvent 5 (setMeter s { s.meter with checkInInterval := true }))))) ∧
  (∀ s, s.meter.powered = true → ∃ u, u = writeRecord (recordOf 3 0 s.meter.intervalCum s.meter.cum s.meter) s ∧
    exec .meterPowerLoss s = .next (setMeter u { u.meter with powered := false })) ∧
  (∀ s, s.meter.powered = false → s.entry.p56v = true → s.meter.unpoweredOpening = false → ∃ t, exec (.meterPowerUp false) s = .next t ∧ t.meter.powered = true ∧
    t.meter.powerUps = s.meter.powerUps + 1 ∧ t.meter.cum = s.meter.cum ∧ t.meter.mark = none ∧ t.meter.seq = s.meter.seq + 1 ∧ t.meter.intervalCum = s.meter.cum ∧
    t.meter.intervalMs = 900000) ∧
  (∀ s, (s.meter.powered = true ∨ s.entry.p56v = false) → ∀ b, exec (.meterPowerUp b) s = .next s) ∧
  (∀ s, s.meter.powered = true → exec .meterRestart s = .next (meterEvent 8 (setMeter s { s.meter with checkInInterval := true }))) ∧
  (∀ s, s.meter.powered = true → exec (.sealEvent .opened) s = .next (meterEvent 1 (setMeter s { s.meter with sealOpen := true, sealInInterval := true })) ∧
    exec (.sealEvent .closed) s = .next (meterEvent 2 (setMeter s { s.meter with sealOpen := false })) ∧ exec (.sealEvent .meshBreak) s = .next (meterEvent 4 s)) ∧
  (∀ s, s.meter.powered = false → exec (.sealEvent .opened) s = .next (setMeter s { s.meter with sealOpen := true, unpoweredOpening := true }) ∧
    exec (.sealEvent .closed) s = .next (setMeter s { s.meter with sealOpen := false }) ∧ exec .meterRestart s = .next s ∧ exec .meterPowerLoss s = .next s) ∧
  (∀ s, s.entry.aux = true → ∀ r, ∃ t, writeRecord r s = t ∧ t.meter.seq = r.seq ∧ t.meter.records = (s.meter.records ++ [r]).drop (s.meter.records.length + 1 - 16384) ∧
    (s.window.linkOk = true → tfind (r.seq % 64) t.window.recent = some r) ∧ (s.window.linkOk = false → t.window = s.window)) ∧
  (∀ k e a b m, (recordOf k e a b m).seq = m.seq + 1 ∧ (recordOf k e a b m).prevDigest = prevDigest m ∧ (recordOf k e a b m).powerUps = m.powerUps)

/-- ALIVE, the endurance region, the apportionment of energy. ALIVE toggles while the module is well and holds still otherwise; an endurance write
takes the larger of old and new hours and cycles (log 67) and writes the region; the apportionment gives each tag its share of the energy above
base by activity and the rest to UNATTRIBUTED, and is skipped while the meter's window is not valid (R391, R434). -/
def Obligations.PeriodicDuties : Prop :=
  (∀ s, aliveRuns s = true → exec .aliveToggle s = .next (setEntry s { s.entry with alive := !s.entry.alive, aliveSeen := true })) ∧
  (∀ s, (s.entry.main = false ∨ s.faults.fatal = true ∨ s.boot.warmBusy = true) → exec .aliveToggle s = .next s) ∧
  (∀ s h c, mgmtOn s = true → ∃ t, exec (.enduranceWrite h c) s = .next t ∧ t = { s with store := t.store } ∧ t.store.hours = max s.store.hours h ∧
    t.store.thermalCycles = max s.store.thermalCycles c ∧ t.store.enduranceWritten = some (enduranceList t.store) ∧ t.store.floor = s.store.floor ∧ t.store.retired = s.store.retired) ∧
  (∀ s, mgmtOn s = true → s.entry.main = true → s.window.linkOk = true → ∃ t, exec .energyApportionment s = .next t ∧ t = { s with acct := t.acct } ∧
    t.acct.lastMeter = s.window.cum ∧ t.acct.live.windowBytes = s.acct.live.windowBytes ∧
    t.acct.live.unattributed = s.acct.live.unattributed + BitVec.ofNat 64 (1000 * (s.window.cum - s.acct.lastMeter) -
      sumN (s.acct.live.tags.map fun e => energyShare s.acct (1000 * (s.window.cum - s.acct.lastMeter) -
        min (1000 * (s.window.cum - s.acct.lastMeter)) (baseEnergy s.acct)) e.1)) ∧
    ∀ e ∈ t.acct.live.tags, ∃ x, (e.1, x) ∈ s.acct.live.tags ∧ e.2 = { x with energy := x.energy + BitVec.ofNat 64 (energyShare s.acct (1000 * (s.window.cum - s.acct.lastMeter) -
      min (1000 * (s.window.cum - s.acct.lastMeter)) (baseEnergy s.acct)) e.1) }) ∧
  (∀ s, s.window.linkOk = false → exec .energyApportionment s = .next s)
end

