-- ==== Sys2Proof/Laws/Table.lean ====
section
/-!
SUPPORT. Tables and byte memories: a read after a write, and the canonical form is kept by every operation.
-/

namespace Sys2Proof.Machine

variable {α : Type}

@[simp] theorem tfind_nil (k : Nat) : tfind k ([] : Tab α) = none := rfl
@[simp] theorem tget_nil (d : α) (k : Nat) : tget d k [] = d := rfl
@[simp] theorem tdel_nil (k : Nat) : tdel k ([] : Tab α) = [] := rfl

theorem tfind_mem {k : Nat} {v : α} {t : Tab α} (h : tfind k t = some v) : (k, v) ∈ t := by
  induction t with
  | nil => simp at h
  | cons e t ih =>
    obtain ⟨j, w⟩ := e
    by_cases hj : j = k <;> simp_all [tfind]

@[simp] theorem tfind_tdel_same (k : Nat) (t : Tab α) : tfind k (tdel k t) = none := by
  induction t with
  | nil => rfl
  | cons e t ih =>
    obtain ⟨j, w⟩ := e
    by_cases hj : j = k <;> simp_all [tfind, tdel]

theorem tfind_tdel_other {k j : Nat} (hk : j ≠ k) (t : Tab α) : tfind j (tdel k t) = tfind j t := by
  induction t with
  | nil => rfl
  | cons e t ih =>
    obtain ⟨i, w⟩ := e
    by_cases hi : i = k
    · subst hi; simp [tfind, tdel, ih, hk.symm]
    · by_cases hj : i = j
      · subst hj; simp [tfind, tdel, hi]
      · simp [tfind, tdel, hi, hj, ih]

@[simp] theorem tfind_tput_same (k : Nat) (v : α) (t : Tab α) : tfind k (tput k v t) = some v := by
  induction t with
  | nil => simp [tput, tfind]
  | cons e t ih =>
    obtain ⟨j, w⟩ := e
    by_cases h1 : k < j
    · simp [tput, tfind, h1]
    · by_cases h2 : k = j
      · simp [tput, tfind, h2]
      · have : ¬ j = k := fun h => h2 h.symm
        simp [tput, tfind, h1, h2, this, ih]

theorem tfind_tput_other {k j : Nat} (hk : j ≠ k) (v : α) (t : Tab α) : tfind j (tput k v t) = tfind j t := by
  induction t with
  | nil => simp [tput, tfind, hk.symm]
  | cons e t ih =>
    obtain ⟨i, w⟩ := e
    by_cases h1 : k < i
    · simp [tput, tfind, h1, hk.symm]
    · by_cases h2 : k = i
      · subst h2; simp [tput, tfind, hk.symm]
      · simp [tput, tfind, h1, h2, ih]

/-- Reading a key after it is set gives what was set. -/
@[simp] theorem tget_tset_same [DecidableEq α] (d : α) (k : Nat) (v : α) (t : Tab α) : tget d k (tset d k v t) = v := by
  unfold tset tget; split <;> simp_all

/-- Setting a key leaves every other key alone. -/
theorem tget_tset_other [DecidableEq α] (d : α) {k j : Nat} (hk : j ≠ k) (v : α) (t : Tab α) :
    tget d j (tset d k v t) = tget d j t := by
  unfold tset tget; split
  · rw [tfind_tdel_other hk]
  · rw [tfind_tput_other hk]

/-! ### The canonical form -/

theorem tabove_tput {b k : Nat} {v : α} {t : Tab α} (h : tabove b t = true) (hk : b < k) : tabove b (tput k v t) = true := by
  induction t with
  | nil => simp [tput, tabove, hk]
  | cons e t ih =>
    obtain ⟨j, w⟩ := e
    simp only [tabove, List.all_cons, Bool.and_eq_true, decide_eq_true_eq] at h ih ⊢
    by_cases h1 : k < j
    · simp [tput, h1, hk, h.1]; simpa using h.2
    · by_cases h2 : k = j
      · simp [tput, h2, h.1]; simpa using h.2
      · simp only [tput, h1, h2, if_false, List.all_cons, Bool.and_eq_true, decide_eq_true_eq]; exact ⟨h.1, ih h.2⟩

theorem tabove_mono {a b : Nat} {t : Tab α} (hab : a ≤ b) (h : tabove b t = true) : tabove a t = true := by
  simp only [tabove, List.all_eq_true, decide_eq_true_eq] at h ⊢
  exact fun e he => Nat.lt_of_le_of_lt hab (h e he)

theorem trising_tput {k : Nat} {v : α} {t : Tab α} (h : trising t = true) : trising (tput k v t) = true := by
  induction t with
  | nil => simp [tput, trising, tabove]
  | cons e t ih =>
    obtain ⟨j, w⟩ := e
    simp only [trising, Bool.and_eq_true] at h ih
    by_cases h1 : k < j
    · simp only [tput, h1, if_true, trising, Bool.and_eq_true]
      refine ⟨?_, h.1, h.2⟩
      simp only [tabove, List.all_cons, Bool.and_eq_true, decide_eq_true_eq]
      exact ⟨h1, by simpa [tabove] using tabove_mono (Nat.le_of_lt h1) h.1⟩
    · by_cases h2 : k = j
      · subst h2; simp [tput, trising, h.1, h.2]
      · simp only [tput, h1, h2, if_false, trising, Bool.and_eq_true]
        exact ⟨tabove_tput h.1 (by omega), ih h.2⟩

theorem all_tdel {p : Nat × α → Bool} {k : Nat} {t : Tab α} (h : t.all p = true) : (tdel k t).all p = true := by
  induction t with
  | nil => rfl
  | cons e t ih =>
    obtain ⟨j, w⟩ := e
    simp only [List.all_cons, Bool.and_eq_true] at h
    by_cases hj : j = k <;> simp [tdel, hj, ih h.2]
    exact h.1

theorem trising_tdel {k : Nat} {t : Tab α} (h : trising t = true) : trising (tdel k t) = true := by
  induction t with
  | nil => rfl
  | cons e t ih =>
    obtain ⟨j, w⟩ := e
    simp only [trising, Bool.and_eq_true] at h
    by_cases hj : j = k <;> simp [tdel, hj, trising, ih h.2]
    exact all_tdel (by simpa [tabove, hj] using h.1)

theorem all_tput {p : Nat × α → Bool} {k : Nat} {v : α} {t : Tab α} (h : t.all p = true) (hv : p (k, v) = true) :
    (tput k v t).all p = true := by
  induction t with
  | nil => simp [tput, hv]
  | cons e t ih =>
    obtain ⟨j, w⟩ := e
    simp only [List.all_cons, Bool.and_eq_true] at h
    by_cases h1 : k < j
    · simp [tput, h1, hv, h.1]; simpa using h.2
    · by_cases h2 : k = j
      · subst h2; simp [tput, hv]; simpa using h.2
      · simp [tput, h1, h2, h.1]; simpa using ih h.2

/-- Setting a key keeps the canonical form. -/
theorem tcanon_tset [DecidableEq α] {d : α} {k : Nat} {v : α} {t : Tab α} (h : tcanon d t = true) : tcanon d (tset d k v t) = true := by
  simp only [tcanon, Bool.and_eq_true] at h ⊢
  unfold tset; split
  · exact ⟨trising_tdel h.1, all_tdel h.2⟩
  · exact ⟨trising_tput h.1, all_tput h.2 (by simpa)⟩

theorem tabove_filter {b : Nat} {p : Nat × α → Bool} {t : Tab α} (h : tabove b t = true) : tabove b (t.filter p) = true := by
  simp only [tabove, List.all_eq_true, List.mem_filter] at h ⊢
  exact fun e he => h e he.1

/-- Leaving entries out keeps the canonical form. -/
theorem tcanon_filter [DecidableEq α] {d : α} {p : Nat × α → Bool} {t : Tab α} (h : tcanon d t = true) : tcanon d (t.filter p) = true := by
  simp only [tcanon, Bool.and_eq_true, List.all_eq_true] at h ⊢
  refine ⟨?_, fun e he => h.2 e (List.mem_filter.1 he).1⟩
  have h1 := h.1
  clear h
  induction t with
  | nil => rfl
  | cons e t ih =>
    obtain ⟨j, w⟩ := e
    simp only [trising, Bool.and_eq_true] at h1
    by_cases hp : p (j, w) = true
    · rw [List.filter_cons_of_pos hp]; simp [trising, tabove_filter h1.1, ih h1.2]
    · rw [List.filter_cons_of_neg hp]; exact ih h1.2

/-! ### Byte memories -/

theorem memWf_nil : memWf [] = true := rfl

theorem memWf_mwrite {m : List Host.Cell} {a : Nat} {b : Byte} (h : memWf m = true) : memWf (mwrite m a b) = true := tcanon_tset h

theorem memWf_mwrites {bs : List Byte} : ∀ {m : List Host.Cell} {a : Nat}, memWf m = true → memWf (mwrites m a bs) = true := by
  induction bs with
  | nil => exact fun h => h
  | cons b bs ih => exact fun h => ih (memWf_mwrite h)

theorem memWf_mclear {m : List Host.Cell} {a n : Nat} (h : memWf m = true) : memWf (mclear m a n) = true := tcanon_filter h

theorem memWf_mslice {m : List Host.Cell} {a n : Nat} (h : memWf m = true) : memWf (mslice m a n) = true := tcanon_filter h

/-- A byte reads as it was written. -/
@[simp] theorem mread_mwrite_same (m : List Host.Cell) (a : Nat) (b : Byte) : mread (mwrite m a b) a = b := tget_tset_same ..

/-- Writing one byte leaves every other byte alone. -/
theorem mread_mwrite_other {a c : Nat} (h : c ≠ a) (m : List Host.Cell) (b : Byte) : mread (mwrite m a b) c = mread m c :=
  tget_tset_other _ h ..

/-- Writing a run of bytes leaves every byte outside the run alone. -/
theorem mread_mwrites_other {bs : List Byte} : ∀ (m : List Host.Cell) {a c : Nat}, (c < a ∨ a + bs.length ≤ c) →
    mread (mwrites m a bs) c = mread m c := by
  induction bs with
  | nil => exact fun m a c h => rfl
  | cons b bs ih =>
    intro m a c h
    simp only [List.length_cons] at h
    rw [mwrites, ih _ (by omega), mread_mwrite_other (by omega)]

/-- A byte of a written run reads as it was written. -/
theorem mread_mwrites_inside {bs : List Byte} : ∀ (m : List Host.Cell) {a c : Nat}, a ≤ c → c < a + bs.length →
    mread (mwrites m a bs) c = bs.getD (c - a) 0 := by
  induction bs with
  | nil => intro m a c h1 h2; simp at h2; omega
  | cons b bs ih =>
    intro m a c h1 h2
    simp only [List.length_cons] at h2
    by_cases h : c = a
    · subst h; rw [mwrites, mread_mwrites_other _ (.inl (by omega)), mread_mwrite_same]; simp
    · rw [mwrites, ih _ (by omega) (by omega), show c - a = c - (a + 1) + 1 by omega]; simp

end Sys2Proof.Machine
end

