-- ==== Sys2Proof/Laws/Kept.lean ====
section
/-!
SUPPORT. What every operation on the state keeps: soundness, the queue of waiting commands and the tick. One lemma per operation says so, in
Laws/Kept1.lean and the files after it; here stand the predicate and the lemmas about the shapes that bodies are made of.
-/

namespace Sys2Proof.Machine

/-- What a state is measured against: its tick, and what its meter and its record store must satisfy. -/
structure Base where
  tick : Nat
  meter : Meter → Prop
  store : Nat → BitVec 4 → Prop

/-- The meter's register and the accumulator agree, and the register has not fallen below n (R418). -/
def MeterUp (n : Nat) (m : Meter) : Prop := n ≤ m.cum ∧ MeterOk m

/-- The version floor and the revoked-slot mask have not fallen (R441). -/
def FloorUp (n : Nat) (r : BitVec 4) (n' : Nat) (r' : BitVec 4) : Prop := n ≤ n' ∧ r' ||| r = r'

/-- s is sound, its queue is p, its tick is that of k, and its meter and its store are as k says. -/
structure Kept (p : List Instr) (k : Base) (s : State) : Prop where
  mem : MemOk s.mem
  seq : SeqOk s.faults
  pending : s.pending = p
  base : s.tick = k.tick ∧ (k.meter s.meter ∧ MeterOk s.meter) ∧ k.store s.store.floor s.store.revoked

/-- Measure a state against itself: the meter and the floors have not fallen. -/
def State.base (s : State) : Base := { tick := s.tick, meter := MeterUp s.meter.cum, store := FloorUp s.store.floor s.store.revoked }

/-- Measure a state against itself: the meter and the floors are what they were. -/
def State.same (s : State) : Base := { tick := s.tick, meter := fun m => m = s.meter, store := fun n r => n = s.store.floor ∧ r = s.store.revoked }

/-- A sound state keeps what it is. -/
theorem kept_self {s : State} (h : Sound s) : Kept s.pending s.base s :=
  ⟨h.1, h.2.1, rfl, rfl, ⟨⟨Nat.le_refl _, h.2.2⟩, h.2.2⟩, Nat.le_refl _, BitVec.or_self⟩

theorem kept_same {s : State} (h : Sound s) : Kept s.pending s.same s := ⟨h.1, h.2.1, rfl, rfl, ⟨rfl, h.2.2⟩, rfl, rfl⟩

variable {p : List Instr} {k : Base} {s : State} {α β ε : Type}

theorem Kept.tick (h : Kept p k s) : s.tick = k.tick := h.base.1
theorem Kept.meterOk (h : Kept p k s) : MeterOk s.meter := h.base.2.1.2
theorem Kept.meter (h : Kept p k s) : k.meter s.meter := h.base.2.1.1
theorem Kept.store (h : Kept p k s) : k.store s.store.floor s.store.revoked := h.base.2.2
theorem Kept.sound (h : Kept p k s) : Sound s := ⟨h.mem, h.seq, h.meterOk⟩

/-- The state in an optional result is kept. -/
def KeptO (p : List Instr) (k : Base) (o : Option State) : Prop := ∀ t, o = some t → Kept p k t
/-- The state in an optional pair is kept. -/
def KeptOP (p : List Instr) (k : Base) (o : Option (α × State)) : Prop := ∀ a t, o = some (a, t) → Kept p k t
/-- The state of an answer that is not an error is kept. -/
def KeptE (p : List Instr) (k : Base) (o : Except ε State) : Prop := ∀ t, o = .ok t → Kept p k t
/-- The state of a pair that is not an error is kept. -/
def KeptEP (p : List Instr) (k : Base) (o : Except ε (α × State)) : Prop := ∀ a t, o = .ok (a, t) → Kept p k t
/-- The next state of an outcome is kept. -/
def KeptN (p : List Instr) (k : Base) (o : Host.Outcome State Fault Refusal) : Prop := ∀ t, o = .next t → Kept p k t

theorem keptO_some (h : Kept p k s) : KeptO p k (some s) := fun _ e => Option.some.inj e ▸ h
theorem keptO_none : KeptO p k none := fun _ e => nomatch e
theorem keptOP_some {a : α} (h : Kept p k s) : KeptOP p k (some (a, s)) := by rintro _ _ ⟨rfl, rfl⟩; exact h
theorem keptOP_none : KeptOP p k (none : Option (α × State)) := fun _ _ e => nomatch e
theorem keptE_ok (h : Kept p k s) : KeptE p k (.ok s : Except ε State) := by rintro _ ⟨rfl⟩; exact h
theorem keptE_error {e : ε} : KeptE p k (.error e : Except ε State) := fun _ e => nomatch e
theorem keptEP_ok {a : α} (h : Kept p k s) : KeptEP p k (.ok (a, s) : Except ε (α × State)) := by rintro _ _ ⟨rfl⟩; exact h
theorem keptEP_error {e : ε} : KeptEP p k (.error e : Except ε (α × State)) := fun _ _ e => nomatch e
theorem keptN_next (h : Kept p k s) : KeptN p k (.next s) := by rintro _ ⟨rfl⟩; exact h

theorem kept_ite {c : Prop} {inst : Decidable c} {s t : State} (hs : c → Kept p k s) (ht : ¬c → Kept p k t) : Kept p k (if c then s else t) := by
  split
  · exact hs ‹_›
  · exact ht ‹_›

theorem keptO_elim {o : Option State} (e : o = some s) (h : KeptO p k o) : Kept p k s := h _ e
theorem keptOP_elim {o : Option (α × State)} {a : α} (e : o = some (a, s)) (h : KeptOP p k o) : Kept p k s := h _ _ e
theorem keptE_elim {o : Except ε State} (e : o = .ok s) (h : KeptE p k o) : Kept p k s := h _ e
theorem keptEP_elim {o : Except ε (α × State)} {a : α} (e : o = .ok (a, s)) (h : KeptEP p k o) : Kept p k s := h _ _ e
theorem keptN_elim {o : Host.Outcome State Fault Refusal} (e : o = .next s) (h : KeptN p k o) : Kept p k s := h _ e
theorem kept_snd {x : α × State} {a : α} (e : x = (a, s)) (h : Kept p k x.2) : Kept p k s := by subst e; exact h

theorem kept_afterOf {o : Host.Outcome State Fault Refusal} (ho : KeptN p k o) (h : Kept p k s) : Kept p k (afterOf s o) := by
  unfold afterOf; split
  · exact ho _ rfl
  · exact h

theorem kept_foldl {f : State → α → State} {l : List α} (hf : ∀ s a, Kept p k s → Kept p k (f s a)) (h : Kept p k s) :
    Kept p k (l.foldl f s) := by
  induction l generalizing s with
  | nil => exact h
  | cons a l ih => exact ih (hf _ _ h)

theorem kept_foldl_pair {f : β × State → α → β × State} {l : List α} {b : β} (hf : ∀ b s a, Kept p k s → Kept p k (f (b, s) a).2)
    (h : Kept p k s) : Kept p k (l.foldl f (b, s)).2 := by
  induction l generalizing b s with
  | nil => exact h
  | cons a l ih => exact ih (b := (f (b, s) a).1) (s := (f (b, s) a).2) (hf _ _ _ h)

theorem kept_getD {o : Option State} (ho : KeptO p k o) (h : Kept p k s) : Kept p k (o.getD s) := by
  cases o with
  | none => exact h
  | some t => exact ho t rfl

theorem keptO_bind {o : Option (α × State)} {f : α × State → Option State} (ho : KeptOP p k o) (hf : ∀ e, Kept p k e.2 → KeptO p k (f e)) :
    KeptO p k (o.bind f) := by
  cases o with
  | none => exact keptO_none
  | some e => exact hf e (ho e.1 e.2 rfl)

theorem keptO_map {o : Option α} {f : α → State} (hf : ∀ a, Kept p k (f a)) : KeptO p k (o.map f) := by
  rintro t e
  obtain ⟨a, rfl, rfl⟩ := Option.map_eq_some_iff.1 e
  exact hf a

theorem keptO_or {o q : Option State} (ho : KeptO p k o) (hq : KeptO p k q) : KeptO p k (o.or q) := by
  cases o with
  | none => simpa using hq
  | some t => simpa using ho

theorem keptOP_map {o : Option α} {f : α → β × State} (hf : ∀ a, Kept p k (f a).2) : KeptOP p k (o.map f) := by
  rintro b t e
  obtain ⟨a, rfl, h⟩ := Option.map_eq_some_iff.1 e
  have := hf a
  rwa [h] at this

theorem keptO_bindS {o : Option State} {f : State → Option State} (ho : KeptO p k o) (hf : ∀ s, Kept p k s → KeptO p k (f s)) :
    KeptO p k (o.bind f) := by
  cases o with
  | none => exact keptO_none
  | some e => exact hf e (ho e rfl)

theorem keptO_bindA {o : Option α} {f : α → Option State} (hf : ∀ a, KeptO p k (f a)) : KeptO p k (o.bind f) := by
  cases o with
  | none => exact keptO_none
  | some e => exact hf e

theorem keptOP_bindA {o : Option β} {f : β → Option (α × State)} (hf : ∀ a, KeptOP p k (f a)) : KeptOP p k (o.bind f) := by
  cases o with
  | none => exact keptOP_none
  | some e => exact hf e

theorem keptO_mapS {o : Option State} {f : State → State} (ho : KeptO p k o) (hf : ∀ s, Kept p k s → Kept p k (f s)) : KeptO p k (o.map f) := by
  rintro t e
  obtain ⟨a, rfl, rfl⟩ := Option.map_eq_some_iff.1 e
  exact hf a (ho a rfl)

theorem keptO_mapP {o : Option (α × State)} {f : α × State → State} (ho : KeptOP p k o) (hf : ∀ e, Kept p k e.2 → Kept p k (f e)) :
    KeptO p k (o.map f) := by
  rintro t e
  obtain ⟨⟨a, u⟩, rfl, rfl⟩ := Option.map_eq_some_iff.1 e
  exact hf _ (ho a u rfl)

theorem keptOP_mapS {o : Option State} {f : State → α × State} (ho : KeptO p k o) (hf : ∀ s, Kept p k s → Kept p k (f s).2) :
    KeptOP p k (o.map f) := by
  rintro b t e
  obtain ⟨a, rfl, h⟩ := Option.map_eq_some_iff.1 e
  have := hf a (ho a rfl)
  rwa [h] at this

theorem keptEP_map {o : Except ε State} {f : State → α × State} (ho : KeptE p k o) (hf : ∀ s, Kept p k s → Kept p k (f s).2) :
    KeptEP p k (o.map f) := by
  cases o with
  | error e => exact keptEP_error
  | ok t => exact keptEP_ok (hf t (ho t rfl))

theorem keptO_foldl {f : Option State → α → Option State} {l : List α} {o : Option State}
    (hf : ∀ o a, KeptO p k o → KeptO p k (f o a)) (ho : KeptO p k o) : KeptO p k (l.foldl f o) := by
  induction l generalizing o with
  | nil => exact ho
  | cons a l ih => exact ih (hf _ _ ho)

theorem keptO_findSome {l : List α} {f : α → Option State} (hf : ∀ a, KeptO p k (f a)) : KeptO p k (l.findSome? f) := by
  intro t e
  obtain ⟨a, _, h⟩ := List.exists_of_findSome?_eq_some e
  exact hf a t h

/-! ### A record update keeps what it does not touch -/

section
variable {a b c d e g f i j l m n o q y r t u v w x}

/-- Neither the memories nor the faults differ. -/
theorem kept_mk (h : Kept p k s) : Kept p k (State.mk a b s.store d e g s.faults i j s.meter m n o q s.mem r t u v w s.tick x s.pending) :=
  ⟨h.mem, h.seq, h.pending, h.base⟩

/-- The memory structure differs. -/
theorem kept_mkm (h : Kept p k s) (hm : MemOk y) : Kept p k (State.mk a b s.store d e g s.faults i j s.meter m n o q y r t u v w s.tick x s.pending) :=
  ⟨hm, h.seq, h.pending, h.base⟩

/-- The faults differ. -/
theorem kept_mkf (h : Kept p k s) (hf : SeqOk f) : Kept p k (State.mk a b s.store d e g f i j s.meter m n o q s.mem r t u v w s.tick x s.pending) :=
  ⟨h.mem, hf, h.pending, h.base⟩

/-- Both differ. -/
theorem kept_mkmf (h : Kept p k s) (hm : MemOk y) (hf : SeqOk f) :
    Kept p k (State.mk a b s.store d e g f i j s.meter m n o q y r t u v w s.tick x s.pending) :=
  ⟨hm, hf, h.pending, h.base⟩

/-- The record store differs. -/
theorem kept_mks (h : Kept p k s) (hc : k.store c.floor c.revoked) :
    Kept p k (State.mk a b c d e g s.faults i j s.meter m n o q s.mem r t u v w s.tick x s.pending) :=
  ⟨h.mem, h.seq, h.pending, h.base.1, h.base.2.1, hc⟩

/-- Memories, faults, store and meter differ. -/
theorem kept_mka (h : Kept p k s) (hm : MemOk y) (hf : SeqOk f) (hc : k.store c.floor c.revoked) (hl : k.meter l ∧ MeterOk l) :
    Kept p k (State.mk a b c d e g f i j l m n o q y r t u v w s.tick x s.pending) :=
  ⟨hm, hf, h.pending, h.base.1, hl, hc⟩

/-- The meter differs. -/
theorem kept_mkt (h : Kept p k s) (hl : k.meter l ∧ MeterOk l) :
    Kept p k (State.mk a b s.store d e g s.faults i j l m n o q s.mem r t u v w s.tick x s.pending) :=
  ⟨h.mem, h.seq, h.pending, h.base.1, hl, h.base.2.2⟩
end

/-- The version floor takes the maximum, the mask the union (R441). -/
theorem floorUp_max {n m fl : Nat} {y x rv : BitVec 4} (hz : FloorUp n y m x) : FloorUp n y (max m fl) (x ||| rv) :=
  ⟨Nat.le_trans hz.1 (Nat.le_max_left _ _), by rw [BitVec.or_assoc, BitVec.or_comm rv y, ← BitVec.or_assoc, hz.2]⟩

theorem Kept.meterUp (h : Kept p k s) : k.meter s.meter ∧ MeterOk s.meter := h.base.2.1

/-- Bytes are written to host memory. -/
theorem memOk_host {m : Mem} {z : Memory} (hm : MemOk m) (hz : memWf z = true) : MemOk { m with host := z } := ⟨hz, hm.2⟩
/-- Bytes of tier 1 change. -/
theorem memOk_tier1 {m : Mem} {z : Memory} (hm : MemOk m) (hz : memWf z = true) : MemOk { m with tier1 := z } := ⟨hm.1, hz, hm.2.2⟩
/-- Bytes of tier 2 change. -/
theorem memOk_tier2 {m : Mem} {z : Memory} (hm : MemOk m) (hz : memWf z = true) : MemOk { m with tier2 := z } := ⟨hm.1, hm.2.1, hz⟩

/-- An event takes the next number (R21). -/
theorem seqOk_event {f : Faults} {e : Nat × Nat × BitVec 64} (hf : SeqOk f) (he : e.1 = f.nextSeq) :
    SeqOk { f with nextSeq := f.nextSeq + 1, events := f.events ++ [e] } := by
  obtain ⟨h1, h2, h3⟩ := hf
  refine ⟨by simp, fun x hx => ⟨(h2 x hx).1, ?_⟩, fun x hx => ?_⟩
  · have := (h2 x hx).2; simp; omega
  · simp only [List.mem_append, List.mem_singleton] at hx
    obtain hx | rfl := hx
    · have := h3 x hx; simp; omega
    · simp; omega

theorem mem_tput {i : Nat} {v : α} {t : Tab α} {e : Nat × α} (h : e ∈ tput i v t) : e = (i, v) ∨ e ∈ t := by
  induction t with
  | nil => simpa [tput] using h
  | cons x t ih =>
    obtain ⟨j, w⟩ := x
    by_cases h1 : i < j
    · simpa [tput, h1] using h
    · by_cases h2 : i = j
      · simp [tput, h2] at h; rcases h with h | h <;> simp [h, h2]
      · simp [tput, h1, h2] at h
        rcases h with h | h
        · simp [h]
        · rcases ih h with h | h <;> simp [h]

/-- An entry takes the next number (R471). -/
theorem seqOk_entry {f : Faults} {i : Nat} {e : HistEntry} (hf : SeqOk f) (he : e.seq = f.nextSeq) :
    SeqOk { f with nextSeq := f.nextSeq + 1, ring := tput i e f.ring } := by
  obtain ⟨h1, h2, h3⟩ := hf
  refine ⟨by simp, fun x hx => ?_, fun x hx => ?_⟩
  · rcases mem_tput hx with rfl | hx
    · simp [he]; omega
    · have := h2 x hx; simp; omega
  · have := h3 x hx; simp; omega

/-- An entry of the ring is replaced by one with its number (R473). -/
theorem seqOk_merge {f : Faults} {i j : Nat} {e e' : HistEntry} (hf : SeqOk f) (hi : tfind j f.ring = some e) (he : e'.seq = e.seq) :
    SeqOk { f with ring := tput i e' f.ring } := by
  obtain ⟨h1, h2, h3⟩ := hf
  refine ⟨h1, fun x hx => ?_, h3⟩
  rcases mem_tput hx with rfl | hx
  · simpa [he] using h2 _ (tfind_mem hi)
  · exact h2 x hx

/-- The bytes of the memories do not differ. -/
theorem memOk_mk {m : Mem} {a b c d e f g h i j l n o q r t u v w x y z z'} (hm : MemOk m) :
    MemOk (Mem.mk m.tier1 m.tier2 m.host a b c d e f g h i j l n o q r t u v w x y z z') := hm

theorem memOk_mk3 {a b c d e f g h i j l n o q r t u v w x y z z'} {t1 t2 hst : Memory} (h1 : memWf t1 = true) (h2 : memWf t2 = true)
    (h3 : memWf hst = true) : MemOk (Mem.mk t1 t2 hst a b c d e f g h i j l n o q r t u v w x y z z') := ⟨h3, h1, h2⟩
theorem Kept.tier1 (h : Kept p k s) : memWf s.mem.tier1 = true := h.mem.2.1
theorem Kept.tier2 (h : Kept p k s) : memWf s.mem.tier2 = true := h.mem.2.2
theorem Kept.host (h : Kept p k s) : memWf s.mem.host = true := h.mem.1

/-- The numbers and their entries do not differ. -/
theorem seqOk_mk {f : Faults} {a b c d e g h i j l m n o q r t u v w x y z a' b' c' d' e'} (hf : SeqOk f) :
    SeqOk (Faults.mk a b c d e g h f.ring i j l m n o q r t u v w x e' f.nextSeq f.events y z a' b' c' d') := hf

end Sys2Proof.Machine
end

