-- ==== Sys2Proof/Laws/KeptCore.lean ====
section
/-!
SUPPORT. Every operation and every meaning of the shared operations, frames, queues and requests keeps a sound state sound, the queue and the tick (Laws/Kept.lean).
-/

namespace Sys2Proof.Machine

variable {p : List Instr} {k : Base} {n : Nat}

/-! ### Machine/Ops.lean -/

theorem setHost_kept {s0 : State} {x1} (h0 : Kept p k s0) :
    Kept p k (setHost s0 x1) := by
  unfold setHost
  try dsimp only
  with_reducible repeat' first
    | assumption | (intro _; try dsimp only) | (fail_if_no_progress apply kept_mk)

theorem setQueue_kept {s0 : State} {x1} {x2} (h0 : Kept p k s0) :
    Kept p k (setQueue s0 x1 x2) := by
  unfold setQueue
  try dsimp only
  with_reducible repeat' first
    | assumption | (intro _; try dsimp only) | (apply setHost_kept) | (fail_if_no_progress apply kept_mk)

theorem hostWrite_kept {s0 : State} {x1} {x2} (h0 : Kept p k s0) :
    Kept p k (hostWrite s0 x1 x2) := by
  exact ⟨memOk_host h0.mem (memWf_mwrites h0.mem.1), h0.seq, h0.pending, h0.base⟩

theorem recordEvent_kept {x0} {x1} {s2 : State} (h2 : Kept p k s2) :
    Kept p k (recordEvent x0 x1 s2) := by
  exact ⟨h2.mem, seqOk_event h2.seq rfl, h2.pending, h2.base⟩

theorem traceEntry_kept {x0} {s1 : State} (h1 : Kept p k s1) :
    Kept p k (traceEntry x0 s1) := by
  unfold traceEntry
  try dsimp only
  with_reducible repeat' first
    | assumption | (intro _; try dsimp only) | (apply hostWrite_kept) | (apply kept_ite) | (fail_if_no_progress apply kept_mk) | split
    | (fail_if_no_progress apply seqOk_mk) | (refine Kept.seq (p := p) (k := k) ?_) | (apply kept_mkf)

theorem pushHistory_kept {x0} {s1 : State} (h1 : Kept p k s1) :
    Kept p k (pushHistory x0 s1) := by
  unfold pushHistory
  apply traceEntry_kept
  exact ⟨h1.mem, seqOk_mk (seqOk_entry (e := { x0 with seq := s1.faults.nextSeq }) h1.seq rfl), h1.pending, h1.base⟩

theorem logDetection_kept {x0} {x1} {x2} {x3} {x4} {x5} {x6} {x7} {s8 : State} (h8 : Kept p k s8) :
    Kept p k (logDetection x0 x1 x2 x3 x4 x5 x6 x7 s8) := by
  unfold logDetection
  extract_lets f0 s' e'
  have h : Kept p k s' := by
    simp only [s']; split
    · exact ⟨h8.mem, h8.seq, h8.pending, h8.base⟩
    · exact h8
  clear_value s' e'
  split
  · rename_i j e heq
    split
    · unfold newestEntry at heq
      obtain ⟨a, ha, hb⟩ := Option.map_eq_some_iff.1 heq
      cases hb
      exact ⟨h.mem, seqOk_merge h.seq ha rfl, h.pending, h.base⟩
    · exact pushHistory_kept h
  · exact pushHistory_kept h

theorem raiseVector_kept {x0} {s1 : State} (h1 : Kept p k s1) :
    Kept p k (raiseVector x0 s1) := by
  unfold raiseVector
  try dsimp only
  with_reducible repeat' first
    | assumption | (intro _; try dsimp only) | (apply setHost_kept) | (apply kept_ite) | (fail_if_no_progress apply kept_mk) | split

theorem sendQueueIrq_kept {x0} {s1 : State} (h1 : Kept p k s1) :
    Kept p k (sendQueueIrq x0 s1) := by
  unfold sendQueueIrq
  try dsimp only
  with_reducible repeat' first
    | assumption | (intro _; try dsimp only) | (apply setQueue_kept) | (apply raiseVector_kept) | (fail_if_no_progress apply kept_mk)

theorem countCompletion_kept {x0} {x1} {s2 : State} (h2 : Kept p k s2) :
    Kept p k (countCompletion x0 x1 s2) := by
  unfold countCompletion
  try dsimp only
  with_reducible repeat' first
    | assumption | (intro _; try dsimp only) | (apply setQueue_kept) | (apply sendQueueIrq_kept) | (apply kept_ite)
    | (fail_if_no_progress apply kept_mk) | split

theorem writeShadow_kept {x0} {s1 : State} (h1 : Kept p k s1) :
    Kept p k (writeShadow x0 s1) := by
  unfold writeShadow
  try dsimp only
  with_reducible repeat' first
    | assumption | (intro _; try dsimp only) | (apply hostWrite_kept) | (apply kept_ite) | split

theorem writeCompletion_kept {x0} {x1} {s2 : State} (h2 : Kept p k s2) :
    Kept p k (writeCompletion x0 x1 s2) := by
  unfold writeCompletion
  try dsimp only
  with_reducible repeat' first
    | assumption | (intro _; try dsimp only) | (apply setQueue_kept) | (apply hostWrite_kept) | (apply countCompletion_kept)
    | (apply writeShadow_kept) | (apply kept_ite) | (fail_if_no_progress apply kept_mk) | split

theorem post_kept {x0} {x1} {s2 : State} (h2 : Kept p k s2) :
    Kept p k (post x0 x1 s2) := by
  unfold post
  try dsimp only
  with_reducible repeat' first
    | assumption | (intro _; try dsimp only) | (apply setQueue_kept) | (apply raiseVector_kept) | (apply writeCompletion_kept) | (apply kept_ite)
    | (fail_if_no_progress apply kept_mk) | split

theorem releaseHeld_kept {x0} {x1} {s2 : State} (h2 : Kept p k s2) :
    Kept p k (releaseHeld x0 x1 s2) := by
  induction x1 generalizing x0 s2 with
  | zero =>
    unfold releaseHeld
    try dsimp only
    with_reducible repeat' first
      | assumption | (intro _; try dsimp only) | (apply setQueue_kept) | (apply raiseVector_kept) | (apply writeCompletion_kept) | (apply kept_ite)
      | (fail_if_no_progress apply kept_mk) | split
  | succ n ih =>
    unfold releaseHeld
    try dsimp only
    with_reducible repeat' first
      | assumption | apply ih | (intro _; try dsimp only) | (apply setQueue_kept) | (apply raiseVector_kept) | (apply writeCompletion_kept) | (apply kept_ite)
      | (fail_if_no_progress apply kept_mk) | split

theorem setOpens_kept {s0 : State} {x1} (h0 : Kept p k s0) :
    Kept p k (setOpens s0 x1) := by
  unfold setOpens
  try dsimp only
  with_reducible repeat' first
    | assumption | (intro _; try dsimp only) | (apply setHost_kept) | (fail_if_no_progress apply kept_mk)

theorem setPhase_kept {x0} {x1} {s2 : State} (h2 : Kept p k s2) :
    Kept p k (setPhase x0 x1 s2) := by
  unfold setPhase
  try dsimp only
  with_reducible repeat' first
    | assumption | (intro _; try dsimp only) | (apply setOpens_kept) | (fail_if_no_progress apply kept_mk)

theorem closeDesc_kept {x0} {x1} {x2} {x3} {s4 : State} (h4 : Kept p k s4) :
    Kept p k (closeDesc x0 x1 x2 x3 s4) := by
  unfold closeDesc
  try dsimp only
  with_reducible repeat' first
    | assumption | (intro _; try dsimp only) | (apply setHost_kept) | (apply post_kept) | (fail_if_no_progress apply kept_mk) | split

theorem fenceWindow_kept {x0} {s1 : State} (h1 : Kept p k s1) :
    Kept p k (fenceWindow x0 s1) := by
  unfold fenceWindow
  try dsimp only
  with_reducible repeat' first
    | assumption | (intro _; try dsimp only) | (fail_if_no_progress apply kept_mk) | split | (fail_if_no_progress apply memOk_mk)
    | (refine Kept.mem (p := p) (k := k) ?_) | (apply kept_mkm)

theorem settleFences_kept {x0} {s1 : State} (h1 : Kept p k s1) :
    Kept p k (settleFences x0 s1) := by
  induction x0 generalizing s1 with
  | zero =>
    unfold settleFences
    try dsimp only
    with_reducible repeat' first
      | assumption | (intro _; try dsimp only) | (apply closeDesc_kept) | (apply fenceWindow_kept) | split
  | succ n ih =>
    unfold settleFences
    try dsimp only
    with_reducible repeat' first
      | assumption | apply ih | (intro _; try dsimp only) | (apply closeDesc_kept) | (apply fenceWindow_kept) | split

theorem finishCode_kept {x0} {x1} {x2} {x3} {s4 : State} (h4 : Kept p k s4) :
    Kept p k (finishCode x0 x1 x2 x3 s4) := by
  unfold finishCode
  try dsimp only
  with_reducible repeat' first
    | assumption | (intro _; try dsimp only) | (apply closeDesc_kept) | (apply settleFences_kept)

theorem finish_kept {x0} {x1} {x2} {x3} {s4 : State} (h4 : Kept p k s4) :
    Kept p k (finish x0 x1 x2 x3 s4) := by
  unfold finish
  try dsimp only
  with_reducible repeat' first
    | assumption | (intro _; try dsimp only) | (apply finishCode_kept)

theorem finish?_kept {g0} {x1} {x2} {x3} {s4 : State} (h4 : Kept p k s4) :
    Kept p k (finish? g0 x1 x2 x3 s4) := by
  unfold finish?
  try dsimp only
  with_reducible repeat' first
    | assumption | (intro _; try dsimp only) | (apply finishCode_kept) | split

theorem place_kept {x0} {s1 : State} (h1 : Kept p k s1) :
    Kept p k (place x0 s1) := by
  unfold place
  try dsimp only
  with_reducible repeat' first
    | assumption | (intro _; try dsimp only) | (apply setPhase_kept) | (apply settleFences_kept)

theorem acceptOne_kept {x0} {x1} {s2 : State} (h2 : Kept p k s2) :
    Kept p k (acceptOne x0 x1 s2) := by
  unfold acceptOne
  try dsimp only
  with_reducible repeat' first
    | assumption | (intro _; try dsimp only) | (apply setHost_kept) | (apply setQueue_kept) | (fail_if_no_progress apply kept_mk)

theorem closeBatches_kept {x0} {s1 : State} (h1 : Kept p k s1) :
    Kept p k (closeBatches x0 s1) := by
  unfold closeBatches
  try dsimp only
  with_reducible repeat' first
    | assumption | (intro _; try dsimp only) | (fail_if_no_progress apply kept_mk)

theorem withDesc_kept {x0} {x1} {x2} {x3} {g4} {s5 : State} (h4 : ∀ y0 u1, Kept p k u1 → Kept p k (g4 y0 u1)) (h5 : Kept p k s5) :
    Kept p k (withDesc x0 x1 x2 x3 g4 s5) := by
  unfold withDesc
  try dsimp only
  with_reducible repeat' first
    | assumption | (intro _; try dsimp only) | (apply writeShadow_kept) | (apply setPhase_kept) | (apply acceptOne_kept) | (apply closeBatches_kept)
    | (apply h4) | (apply kept_ite) | split

theorem writeBlock_kept {x0} {x1} {x2} {s3 : State} (h3 : Kept p k s3) :
    Kept p k (writeBlock x0 x1 x2 s3) := by
  unfold writeBlock
  try dsimp only
  with_reducible repeat' first
    | assumption | (intro _; try dsimp only) | (apply hostWrite_kept) | split

theorem mboxEnd_kept {x0} {x1} {x2} {s3 : State} (h3 : Kept p k s3) :
    Kept p k (mboxEnd x0 x1 x2 s3) := by
  unfold mboxEnd
  try dsimp only
  with_reducible repeat' first
    | assumption | (intro _; try dsimp only) | (apply writeBlock_kept) | (apply setHost_kept) | (apply raiseVector_kept) | (fail_if_no_progress apply kept_mk)

theorem mailbox_kept {x0} {g1} {s2 : State} (h1 : ∀ u0, Kept p k u0 → Kept p k (g1 u0)) (h2 : Kept p k s2) :
    Kept p k (mailbox x0 g1 s2) := by
  unfold mailbox
  try dsimp only
  with_reducible repeat' first
    | assumption | (intro _; try dsimp only) | (apply mboxEnd_kept) | (apply h1) | (apply kept_ite) | split

theorem mctpSend_kept {x0} {s1 : State} (h1 : Kept p k s1) :
    Kept p k (mctpSend x0 s1) := by
  unfold mctpSend
  try dsimp only
  with_reducible repeat' first
    | assumption | (intro _; try dsimp only) | (fail_if_no_progress apply kept_mk)

theorem mctpRespond_kept {x0} {x1} {x2} {s3 : State} (h3 : Kept p k s3) :
    Kept p k (mctpRespond x0 x1 x2 s3) := by
  unfold mctpRespond
  try dsimp only
  with_reducible repeat' first
    | assumption | (intro _; try dsimp only) | (apply mctpSend_kept)

theorem powerEvent_kept {x0} {s1 : State} (h1 : Kept p k s1) :
    Kept p k (powerEvent x0 s1) := by
  unfold powerEvent
  try dsimp only
  with_reducible repeat' first
    | assumption | (intro _; try dsimp only) | (apply mctpSend_kept)

theorem freeBytes_kept {x0} {s1 : State} (h1 : Kept p k s1) :
    Kept p k (freeBytes x0 s1).2 := by
  unfold freeBytes
  try dsimp only
  with_reducible repeat' first
    | assumption | (intro _; try dsimp only) | (refine kept_snd (by assumption) ?_) | (fail_if_no_progress apply kept_mk)

/-! ### Machine/Frames.lean -/

theorem setField_kept {s0 : State} {x1} {x2} (h0 : Kept p k s0) :
    Kept p k (setField s0 x1 x2) := by
  unfold setField
  try dsimp only
  with_reducible repeat' first
    | assumption | (intro _; try dsimp only) | (fail_if_no_progress apply kept_mk)

theorem modField_kept {x0} {x1} {s2 : State} (h2 : Kept p k s2) :
    Kept p k (modField x0 x1 s2) := by
  unfold modField
  try dsimp only
  with_reducible repeat' first
    | assumption | (intro _; try dsimp only) | (fail_if_no_progress apply kept_mk)

theorem cellWrite_kept {s0 : State} {x1} {x2} (h0 : Kept p k s0) :
    Kept p k (cellWrite s0 x1 x2) := by
  unfold cellWrite
  split
  · exact ⟨memOk_tier2 h0.mem (memWf_mwrite h0.mem.2.2), h0.seq, h0.pending, h0.base⟩
  · exact ⟨memOk_tier1 h0.mem (memWf_mwrite h0.mem.2.1), h0.seq, h0.pending, h0.base⟩

theorem undefine_kept {x0} {x1} {x2} {s3 : State} (h3 : Kept p k s3) :
    Kept p k (undefine x0 x1 x2 s3) := by
  unfold undefine
  try dsimp only
  with_reducible repeat' first
    | assumption | (intro _; try dsimp only) | (apply kept_ite) | (fail_if_no_progress apply kept_mk) | split | (fail_if_no_progress apply memOk_mk)
    | (refine Kept.mem (p := p) (k := k) ?_) | (apply kept_mkm)

theorem writeDva_kept {s0 : State} {x1} {x2} {x3} (h0 : Kept p k s0) :
    KeptO p k (writeDva s0 x1 x2 x3) := by
  induction x3 generalizing s0 x1 x2 with
  | nil =>
    unfold writeDva
    try dsimp only
    with_reducible repeat' first
      | assumption | (intro _; try dsimp only) | (refine keptO_elim (by assumption) ?_) | (apply cellWrite_kept) | (exact keptO_none)
      | (apply keptO_some) | (apply kept_ite) | (fail_if_no_progress apply kept_mk) | split | (fail_if_no_progress apply memOk_mk)
      | (refine Kept.mem (p := p) (k := k) ?_) | (apply kept_mkm)
  | cons a l ih =>
    unfold writeDva
    try dsimp only
    with_reducible repeat' first
      | assumption | apply ih | (intro _; try dsimp only) | (refine keptO_elim (by assumption) ?_) | (apply cellWrite_kept) | (exact keptO_none)
      | (apply keptO_some) | (apply kept_ite) | (fail_if_no_progress apply kept_mk) | split | (fail_if_no_progress apply memOk_mk)
      | (refine Kept.mem (p := p) (k := k) ?_) | (apply kept_mkm)

theorem touchDva_kept {x0} {x1} {s2 : State} (h2 : Kept p k s2) :
    Kept p k (touchDva x0 x1 s2) := by
  unfold touchDva
  try dsimp only
  with_reducible repeat' first
    | assumption | (intro _; try dsimp only) | (apply modField_kept) | (fail_if_no_progress apply kept_mk)

theorem touchRange_kept {x0} {x1} {x2} {s3 : State} (h3 : Kept p k s3) :
    Kept p k (touchRange x0 x1 x2 s3) := by
  unfold touchRange
  try dsimp only
  with_reducible repeat' first
    | assumption | (intro _; try dsimp only) | (apply modField_kept) | (fail_if_no_progress apply kept_mk)

theorem writeWindow_kept {s0 : State} {x1} {x2} (h0 : Kept p k s0) :
    KeptO p k (writeWindow s0 x1 x2) := by
  induction x2 generalizing s0 x1 with
  | nil =>
    unfold writeWindow
    try dsimp only
    with_reducible repeat' first
      | assumption | (intro _; try dsimp only) | (refine keptO_elim (by assumption) ?_) | (apply cellWrite_kept) | (exact keptO_none)
      | (apply keptO_some) | (apply kept_ite) | split
  | cons a l ih =>
    unfold writeWindow
    try dsimp only
    with_reducible repeat' first
      | assumption | apply ih | (intro _; try dsimp only) | (refine keptO_elim (by assumption) ?_) | (apply cellWrite_kept) | (exact keptO_none)
      | (apply keptO_some) | (apply kept_ite) | split

theorem copyCells_kept {s0 : State} {x1} {x2} {x3} (h0 : Kept p k s0) :
    Kept p k (copyCells s0 x1 x2 x3) := by
  induction x3 generalizing s0 x1 x2 with
  | zero =>
    unfold copyCells
    try dsimp only
    with_reducible repeat' first
      | assumption | (intro _; try dsimp only) | (apply cellWrite_kept) | split
  | succ n ih =>
    unfold copyCells
    try dsimp only
    with_reducible repeat' first
      | assumption | apply ih | (intro _; try dsimp only) | (apply cellWrite_kept) | split

theorem movePage_kept {x0} {x1} {x2} {x3} {s4 : State} (h4 : Kept p k s4) :
    Kept p k (movePage x0 x1 x2 x3 s4) := by
  unfold movePage
  try dsimp only
  with_reducible repeat' first
    | assumption | (intro _; try dsimp only) | (apply modField_kept) | (apply copyCells_kept) | (fail_if_no_progress apply kept_mk) | split

theorem demoteOldest_kept {x0} {s1 : State} (h1 : Kept p k s1) :
    KeptO p k (demoteOldest x0 s1) := by
  unfold demoteOldest
  try dsimp only
  with_reducible repeat' first
    | assumption | (intro _; try dsimp only) | (refine keptO_elim (by assumption) ?_) | (apply movePage_kept) | (exact keptO_none)
    | (apply keptO_some) | (apply keptO_bind) | (apply keptO_bindS) | (apply keptO_bindA) | (apply kept_ite) | (fail_if_no_progress apply kept_mk)
    | split

theorem demoteFor_kept {x0} {x1} {x2} {x3} {x4} {s5 : State} (h5 : Kept p k s5) :
    KeptOP p k (demoteFor x0 x1 x2 x3 x4 s5) := by
  induction x4 generalizing x0 x1 x2 x3 s5 with
  | zero =>
    unfold demoteFor
    try dsimp only
    with_reducible repeat' first
      | assumption | (intro _; try dsimp only) | (refine keptO_elim (by assumption) ?_) | (refine keptOP_elim (by assumption) ?_)
      | (apply demoteOldest_kept) | (exact keptO_none) | (apply keptO_some) | (exact keptOP_none) | (apply keptOP_some) | (apply keptO_mapS)
      | (apply keptO_mapP) | (apply keptO_map) | (apply keptOP_mapS) | (apply keptOP_map) | split
  | succ n ih =>
    unfold demoteFor
    try dsimp only
    with_reducible repeat' first
      | assumption | apply ih | (intro _; try dsimp only) | (refine keptO_elim (by assumption) ?_) | (refine keptOP_elim (by assumption) ?_)
      | (apply demoteOldest_kept) | (exact keptO_none) | (apply keptO_some) | (exact keptOP_none) | (apply keptOP_some) | (apply keptO_mapS)
      | (apply keptO_mapP) | (apply keptO_map) | (apply keptOP_mapS) | (apply keptOP_map) | split

theorem allocT1_kept {x0} {x1} {x2} {x3} {s4 : State} (h4 : Kept p k s4) :
    KeptOP p k (allocT1 x0 x1 x2 x3 s4) := by
  unfold allocT1
  try dsimp only
  with_reducible repeat' first
    | assumption | (intro _; try dsimp only) | (refine keptOP_elim (by assumption) ?_) | (apply demoteFor_kept) | (exact keptOP_none)
    | (apply keptOP_some) | split

theorem startPromotions_kept {x0} {x1} {s2 : State} (h2 : Kept p k s2) :
    Kept p k (startPromotions x0 x1 s2) := by
  induction x1 generalizing x0 s2 with
  | zero =>
    unfold startPromotions
    try dsimp only
    with_reducible repeat' first
      | assumption | (intro _; try dsimp only) | (fail_if_no_progress apply kept_mk) | split | (fail_if_no_progress apply memOk_mk)
      | (refine Kept.mem (p := p) (k := k) ?_) | (apply kept_mkm)
  | succ n ih =>
    unfold startPromotions
    try dsimp only
    with_reducible repeat' first
      | assumption | apply ih | (intro _; try dsimp only) | (fail_if_no_progress apply kept_mk) | split | (fail_if_no_progress apply memOk_mk)
      | (refine Kept.mem (p := p) (k := k) ?_) | (apply kept_mkm)

theorem framesFreed_kept {x0} {s1 : State} (h1 : Kept p k s1) :
    Kept p k (framesFreed x0 s1) := by
  unfold framesFreed
  try dsimp only
  with_reducible repeat' first
    | assumption | (intro _; try dsimp only) | (apply startPromotions_kept) | split

theorem charge_kept {g0} {x1} {x2} {s3 : State} (h3 : Kept p k s3) :
    Kept p k (charge g0 x1 x2 s3) := by
  unfold charge
  try dsimp only
  with_reducible repeat' first
    | assumption | (intro _; try dsimp only) | (fail_if_no_progress apply kept_mk) | split

theorem chargeTier_kept {g0} {x1} {x2} {s3 : State} (h3 : Kept p k s3) :
    Kept p k (chargeTier g0 x1 x2 s3) := by
  unfold chargeTier
  try dsimp only
  with_reducible repeat' first
    | assumption | (intro _; try dsimp only) | (apply charge_kept) | (apply kept_ite) | (fail_if_no_progress apply kept_mk) | split

theorem chargeHost_kept {g0} {x1} {s2 : State} (h2 : Kept p k s2) :
    Kept p k (chargeHost g0 x1 s2) := by
  unfold chargeHost
  try dsimp only
  with_reducible repeat' first
    | assumption | (intro _; try dsimp only) | (apply charge_kept) | (fail_if_no_progress apply kept_mk)

/-! ### Machine/Requests.lean -/

theorem setReq_kept {s0 : State} {x1} {x2} (h0 : Kept p k s0) :
    Kept p k (setReq s0 x1 x2) := by
  unfold setReq
  try dsimp only
  with_reducible repeat' first
    | assumption | (intro _; try dsimp only) | (fail_if_no_progress apply kept_mk)

theorem modReq_kept {x0} {x1} {s2 : State} (h2 : Kept p k s2) :
    Kept p k (modReq x0 x1 s2) := by
  unfold modReq
  try dsimp only
  with_reducible repeat' first
    | assumption | (intro _; try dsimp only) | (fail_if_no_progress apply kept_mk)

theorem freeKv_kept {x0} {s1 : State} (h1 : Kept p k s1) :
    Kept p k (freeKv x0 s1) := by
  unfold freeKv
  try dsimp only
  with_reducible repeat' first
    | assumption | (intro _; try dsimp only) | (apply modField_kept) | (apply framesFreed_kept) | (apply modReq_kept)
    | (fail_if_no_progress apply kept_mk) | split | (fail_if_no_progress apply memOk_mk) | (refine Kept.mem (p := p) (k := k) ?_) | (apply kept_mkm)
    | (apply memOk_mk3) | (apply memWf_mwrites) | (apply memWf_mwrite) | (apply memWf_mclear) | (exact memWf_nil)
    | (refine Kept.tier1 (p := p) (k := k) ?_) | (refine Kept.tier2 (p := p) (k := k) ?_) | (refine Kept.host (p := p) (k := k) ?_)

theorem releaseReserve_kept {g0} {s1 : State} (h1 : Kept p k s1) :
    Kept p k (releaseReserve g0 s1) := by
  unfold releaseReserve
  try dsimp only
  with_reducible repeat' first
    | assumption | (intro _; try dsimp only) | (fail_if_no_progress apply kept_mk) | split | (fail_if_no_progress apply memOk_mk)
    | (refine Kept.mem (p := p) (k := k) ?_) | (apply kept_mkm)

theorem dropPark_kept {x0} {s1 : State} (h1 : Kept p k s1) :
    Kept p k (dropPark x0 s1) := by
  unfold dropPark
  try dsimp only
  with_reducible repeat' first
    | assumption | (intro _; try dsimp only) | (apply finish_kept) | (apply releaseReserve_kept) | split

theorem closeReq_kept {x0} {x1} {x2} {s3 : State} (h3 : Kept p k s3) :
    Kept p k (closeReq x0 x1 x2 s3) := by
  unfold closeReq
  try dsimp only
  with_reducible repeat' first
    | assumption | (intro _; try dsimp only) | (apply finish_kept) | (apply finish?_kept) | (apply freeKv_kept) | (apply dropPark_kept)
    | (apply kept_foldl) | (fail_if_no_progress apply kept_mk) | split

theorem dropHolds_kept {x0} {s1 : State} (h1 : Kept p k s1) :
    Kept p k (dropHolds x0 s1) := by
  unfold dropHolds
  try dsimp only
  with_reducible repeat' first
    | assumption | (intro _; try dsimp only) | (apply finish_kept) | (apply kept_foldl) | (apply kept_foldl_pair)
    | (fail_if_no_progress apply kept_mk) | split

theorem settleCancel_kept {x0} {s1 : State} (h1 : Kept p k s1) :
    Kept p k (settleCancel x0 s1) := by
  unfold settleCancel
  try dsimp only
  with_reducible repeat' first
    | assumption | (intro _; try dsimp only) | (apply finish_kept) | (apply finish?_kept) | (apply modReq_kept) | (apply dropPark_kept)
    | (apply closeReq_kept) | (apply kept_foldl) | (apply kept_ite) | (fail_if_no_progress apply kept_mk) | split

theorem beginCancel_kept {x0} {g1} {s2 : State} (h2 : Kept p k s2) :
    Kept p k (beginCancel x0 g1 s2) := by
  unfold beginCancel
  try dsimp only
  with_reducible repeat' first
    | assumption | (intro _; try dsimp only) | (apply modReq_kept) | (apply settleCancel_kept) | (fail_if_no_progress apply kept_mk)

theorem stepEnded_kept {x0} {x1} {x2} {s3 : State} (h3 : Kept p k s3) :
    Kept p k (stepEnded x0 x1 x2 s3) := by
  unfold stepEnded
  try dsimp only
  with_reducible repeat' first
    | assumption | (intro _; try dsimp only) | (apply modField_kept) | (apply modReq_kept) | (apply step_kept) | (apply kept_foldl)
    | (apply kept_foldl_pair) | (apply kept_ite) | (fail_if_no_progress apply kept_mk) | split

theorem serveEnded_kept {x0} {x1} {x2} {s3 : State} (h3 : Kept p k s3) :
    Kept p k (serveEnded x0 x1 x2 s3) := by
  unfold serveEnded
  try dsimp only
  with_reducible repeat' first
    | assumption | (intro _; try dsimp only) | (apply modReq_kept) | (apply closeReq_kept) | (apply settleCancel_kept) | (apply stepEnded_kept)
    | (apply kept_foldl) | (apply kept_foldl_pair) | (apply kept_ite) | split

/-! ### Machine/Geometry.lean -/

theorem actuate_kept {x0} {s1 : State} (h1 : Kept p k s1) :
    Kept p k (actuate x0 s1) := by
  unfold actuate
  try dsimp only
  with_reducible repeat' first
    | assumption | (intro _; try dsimp only) | (apply recordEvent_kept) | (fail_if_no_progress apply kept_mk)

end Sys2Proof.Machine
end

