-- ==== Sys2Proof/Laws/KeptArray.lean ====
section
/-!
SUPPORT. Every operation and every meaning of the array keeps a sound state sound, the queue and the tick (Laws/Kept.lean).
-/

namespace Sys2Proof.Machine

variable {p : List Instr} {k : Base} {n : Nat}

/-! ### Machine/Grid.lean -/

theorem setUnit_kept {s0 : State} {x1} {x2} (h0 : Kept p k s0) :
    Kept p k (setUnit s0 x1 x2) := by
  unfold setUnit
  try dsimp only
  with_reducible repeat' first
    | assumption | (intro _; try dsimp only) | (fail_if_no_progress apply kept_mk)

theorem modUnit_kept {x0} {x1} {s2 : State} (h2 : Kept p k s2) :
    Kept p k (modUnit x0 x1 s2) := by
  unfold modUnit
  try dsimp only
  with_reducible repeat' first
    | assumption | (intro _; try dsimp only) | (apply setUnit_kept)

theorem setThread_kept {s0 : State} {x1} {x2} (h0 : Kept p k s0) :
    Kept p k (setThread s0 x1 x2) := by
  unfold setThread
  try dsimp only
  with_reducible repeat' first
    | assumption | (intro _; try dsimp only) | (fail_if_no_progress apply kept_mk)

theorem returnCredit_kept {x0} {x1} {s2 : State} (h2 : Kept p k s2) :
    Kept p k (returnCredit x0 x1 s2) := by
  unfold returnCredit
  try dsimp only
  with_reducible repeat' first
    | assumption | (intro _; try dsimp only) | (apply setThread_kept) | (fail_if_no_progress apply kept_mk)

theorem popPort_kept {x0} {x1} {x2} {s3 : State} (h3 : Kept p k s3) :
    Kept p k (popPort x0 x1 x2 s3) := by
  unfold popPort
  try dsimp only
  with_reducible repeat' first
    | assumption | (intro _; try dsimp only) | (apply setUnit_kept) | (apply returnCredit_kept) | (fail_if_no_progress apply kept_mk) | split

theorem sendOn_kept {x0} {x1} {x2} {x3} {s4 : State} (h4 : Kept p k s4) :
    Kept p k (sendOn x0 x1 x2 x3 s4) := by
  unfold sendOn
  try dsimp only
  with_reducible repeat' first
    | assumption | (intro _; try dsimp only) | (apply setThread_kept) | (apply kept_foldl) | (fail_if_no_progress apply kept_mk)

theorem sendOut_kept {x0} {x1} {x2} {x3} {s4 : State} (h4 : Kept p k s4) :
    Kept p k (sendOut x0 x1 x2 x3 s4) := by
  unfold sendOut
  try dsimp only
  with_reducible repeat' first
    | assumption | (intro _; try dsimp only) | (apply sendOn_kept) | (apply kept_ite) | split

theorem sendToken_kept {x0} {x1} {x2} {s3 : State} (h3 : Kept p k s3) :
    Kept p k (sendToken x0 x1 x2 s3) := by
  unfold sendToken
  try dsimp only
  with_reducible repeat' first
    | assumption | (intro _; try dsimp only) | (apply sendOn_kept) | (apply kept_ite) | split

theorem emitToken_kept {x0} {x1} {x2} {x3} {s4 : State} (h4 : Kept p k s4) :
    Kept p k (emitToken x0 x1 x2 x3 s4) := by
  unfold emitToken
  try dsimp only
  with_reducible repeat' first
    | assumption | (intro _; try dsimp only) | (apply setUnit_kept) | (apply kept_ite) | (fail_if_no_progress apply kept_mk) | split

theorem setCounter_kept {x0} {x1} {x2} {s3 : State} (h3 : Kept p k s3) :
    Kept p k (setCounter x0 x1 x2 s3) := by
  unfold setCounter
  try dsimp only
  with_reducible repeat' first
    | assumption | (intro _; try dsimp only) | (apply modUnit_kept) | (fail_if_no_progress apply kept_mk)

theorem report_kept {x0} {x1} {x2} {s3 : State} (h3 : Kept p k s3) :
    Kept p k (report x0 x1 x2 s3) := by
  unfold report
  try dsimp only
  with_reducible repeat' first
    | assumption | (intro _; try dsimp only) | (fail_if_no_progress apply kept_mk)

theorem emitDone_kept {x0} {x1} {x2} {s3 : State} (h3 : Kept p k s3) :
    Kept p k (emitDone x0 x1 x2 s3) := by
  unfold emitDone
  try dsimp only
  with_reducible repeat' first
    | assumption | (intro _; try dsimp only) | (apply emitToken_kept) | (apply kept_foldl) | (apply kept_ite) | split

theorem counterEnds_kept {x0} {x1} {x2} {x3} {s4 : State} (h4 : Kept p k s4) :
    Kept p k (counterEnds x0 x1 x2 x3 s4) := by
  induction x3 generalizing x0 x1 x2 s4 with
  | zero =>
    unfold counterEnds
    try dsimp only
    with_reducible repeat' first
      | assumption | (intro _; try dsimp only) | (apply modUnit_kept) | (apply setCounter_kept) | (apply emitDone_kept) | (apply kept_ite)
      | (fail_if_no_progress apply kept_mk) | split
  | succ n ih =>
    unfold counterEnds
    try dsimp only
    with_reducible repeat' first
      | assumption | apply ih | (intro _; try dsimp only) | (apply modUnit_kept) | (apply setCounter_kept) | (apply emitDone_kept) | (apply kept_ite)
      | (fail_if_no_progress apply kept_mk) | split

theorem counterAdvance_kept {x0} {x1} {x2} {s3 : State} (h3 : Kept p k s3) :
    Kept p k (counterAdvance x0 x1 x2 s3) := by
  unfold counterAdvance
  try dsimp only
  with_reducible repeat' first
    | assumption | (intro _; try dsimp only) | (apply modUnit_kept) | (apply setCounter_kept) | (apply counterEnds_kept) | (apply kept_ite)
    | (fail_if_no_progress apply kept_mk) | split

theorem setStream_kept {x0} {x1} {x2} {s3 : State} (h3 : Kept p k s3) :
    Kept p k (setStream x0 x1 x2 s3) := by
  unfold setStream
  try dsimp only
  with_reducible repeat' first
    | assumption | (intro _; try dsimp only) | (apply modUnit_kept) | (fail_if_no_progress apply kept_mk)

theorem streamDone_kept {x0} {x1} {x2} {x3} {x4} {x5} {s6 : State} (h6 : Kept p k s6) :
    Kept p k (streamDone x0 x1 x2 x3 x4 x5 s6) := by
  unfold streamDone
  try dsimp only
  with_reducible repeat' first
    | assumption | (intro _; try dsimp only) | (apply emitToken_kept) | (apply kept_foldl) | (apply kept_ite) | split

theorem streamFinish_kept {x0} {x1} {x2} {x3} {x4} {s5 : State} (h5 : Kept p k s5) :
    Kept p k (streamFinish x0 x1 x2 x3 x4 s5) := by
  unfold streamFinish
  try dsimp only
  with_reducible repeat' first
    | assumption | (intro _; try dsimp only) | (apply setStream_kept) | (apply streamDone_kept) | (apply kept_foldl)
    | (fail_if_no_progress apply kept_mk)

theorem streamEmpty_kept {x0} {x1} {x2} {s3 : State} (h3 : Kept p k s3) :
    Kept p k (streamEmpty x0 x1 x2 s3) := by
  unfold streamEmpty
  try dsimp only
  with_reducible repeat' first
    | assumption | (intro _; try dsimp only) | (apply emitToken_kept) | (apply kept_foldl) | (apply kept_ite) | split

theorem streamExt_kept {x0} {x1} {x2} {s3 : State} (h3 : Kept p k s3) :
    Kept p k (streamExt x0 x1 x2 s3) := by
  unfold streamExt
  try dsimp only
  with_reducible repeat' first
    | assumption | (intro _; try dsimp only) | (apply popPort_kept) | (apply setStream_kept) | (apply streamEmpty_kept) | (apply kept_ite)
    | (fail_if_no_progress apply kept_mk) | split

/-! ### Machine/Array.lean -/

theorem sendResults_kept {x0} {x1} {x2} {x3} {s4 : State} (h4 : Kept p k s4) :
    Kept p k (sendResults x0 x1 x2 x3 s4) := by
  unfold sendResults
  try dsimp only
  with_reducible repeat' first
    | assumption | (intro _; try dsimp only) | (apply sendOut_kept) | (apply kept_foldl) | (apply kept_ite) | split

theorem fireAdvance_kept {x0} {x1} {s2 : State} (h2 : Kept p k s2) :
    Kept p k (fireAdvance x0 x1 s2) := by
  unfold fireAdvance
  try dsimp only
  with_reducible repeat' first
    | assumption | (intro _; try dsimp only) | (apply counterAdvance_kept) | (apply kept_ite) | split

theorem endIteration_kept {x0} {x1} {s2 : State} (h2 : Kept p k s2) :
    Kept p k (endIteration x0 x1 s2) := by
  unfold endIteration
  try dsimp only
  with_reducible repeat' first
    | assumption | (intro _; try dsimp only) | (apply modUnit_kept) | (apply sendResults_kept) | (fail_if_no_progress apply kept_mk) | split

theorem tryVector_kept {x0} {x1} {s2 : State} (h2 : Kept p k s2) :
    KeptO p k (tryVector x0 x1 s2) := by
  unfold tryVector
  try dsimp only
  with_reducible repeat' first
    | assumption | (intro _; try dsimp only) | (refine keptO_elim (by assumption) ?_) | (apply modUnit_kept) | (apply popPort_kept)
    | (apply sendResults_kept) | (apply fireAdvance_kept) | (apply endIteration_kept) | (exact keptO_none) | (apply keptO_some) | (apply kept_foldl)
    | (apply kept_foldl_pair) | (apply keptO_foldl) | (apply kept_getD) | (apply kept_ite) | (fail_if_no_progress apply kept_mk) | split

theorem tryMatrix_kept {x0} {x1} {x2} {x3} {s4 : State} (h4 : Kept p k s4) :
    KeptO p k (tryMatrix x0 x1 x2 x3 s4) := by
  unfold tryMatrix
  try dsimp only
  with_reducible repeat' first
    | assumption | (intro _; try dsimp only) | (refine keptO_elim (by assumption) ?_) | (apply modUnit_kept) | (apply popPort_kept)
    | (apply report_kept) | (apply fireAdvance_kept) | (exact keptO_none) | (apply keptO_some) | (apply kept_foldl) | (apply kept_foldl_pair)
    | (apply keptO_foldl) | (apply keptO_mapS) | (apply keptO_mapP) | (apply keptO_map) | (apply kept_ite) | (fail_if_no_progress apply kept_mk)
    | split

theorem tryWeight_kept {x0} {x1} {x2} {s3 : State} (h3 : Kept p k s3) :
    KeptO p k (tryWeight x0 x1 x2 s3) := by
  unfold tryWeight
  try dsimp only
  with_reducible repeat' first
    | assumption | (intro _; try dsimp only) | (refine keptO_elim (by assumption) ?_) | (apply modUnit_kept) | (apply popPort_kept)
    | (exact keptO_none) | (apply keptO_some) | (apply kept_ite) | (fail_if_no_progress apply kept_mk) | split

theorem tryClose_kept {x0} {x1} {s2 : State} (h2 : Kept p k s2) :
    KeptO p k (tryClose x0 x1 s2) := by
  unfold tryClose
  try dsimp only
  with_reducible repeat' first
    | assumption | (intro _; try dsimp only) | (refine keptO_elim (by assumption) ?_) | (apply modUnit_kept) | (exact keptO_none) | (apply keptO_some)
    | (apply kept_ite) | (fail_if_no_progress apply kept_mk) | split

theorem doneCloses_kept {x0} {x1} {x2} {s3 : State} (h3 : Kept p k s3) :
    Kept p k (doneCloses x0 x1 x2 s3) := by
  unfold doneCloses
  try dsimp only
  with_reducible repeat' first
    | assumption | (intro _; try dsimp only) | (apply setUnit_kept) | (apply kept_ite) | (fail_if_no_progress apply kept_mk) | split

theorem takeOperands_kept {x0} {x1} {x2} {s3 : State} (h3 : Kept p k s3) :
    KeptO p k (takeOperands x0 x1 x2 s3) := by
  induction x2 generalizing x0 x1 s3 with
  | nil =>
    unfold takeOperands
    try dsimp only
    with_reducible repeat' first
      | assumption | (intro _; try dsimp only) | (refine keptO_elim (by assumption) ?_) | (apply modUnit_kept) | (apply popPort_kept)
      | (exact keptO_none) | (apply keptO_some) | (apply kept_foldl) | (apply keptO_foldl) | (apply kept_ite) | (fail_if_no_progress apply kept_mk)
      | split
  | cons a l ih =>
    unfold takeOperands
    try dsimp only
    with_reducible repeat' first
      | assumption | apply ih | (intro _; try dsimp only) | (refine keptO_elim (by assumption) ?_) | (apply modUnit_kept) | (apply popPort_kept)
      | (exact keptO_none) | (apply keptO_some) | (apply kept_foldl) | (apply keptO_foldl) | (apply kept_ite) | (fail_if_no_progress apply kept_mk)
      | split

theorem tryDrain_kept {x0} {x1} {s2 : State} (h2 : Kept p k s2) :
    KeptO p k (tryDrain x0 x1 s2) := by
  unfold tryDrain
  try dsimp only
  with_reducible repeat' first
    | assumption | (intro _; try dsimp only) | (refine keptO_elim (by assumption) ?_) | (apply modUnit_kept) | (apply sendOut_kept)
    | (apply takeOperands_kept) | (exact keptO_none) | (apply keptO_some) | (apply kept_ite) | (fail_if_no_progress apply kept_mk) | split

theorem trySelect_kept {x0} {x1} {x2} {x3} {s4 : State} (h4 : Kept p k s4) :
    KeptO p k (trySelect x0 x1 x2 x3 s4) := by
  unfold trySelect
  try dsimp only
  with_reducible repeat' first
    | assumption | (intro _; try dsimp only) | (refine keptO_elim (by assumption) ?_) | (apply emitToken_kept) | (exact keptO_none)
    | (apply keptO_some) | (apply kept_ite) | split

/-! ### Machine/Streams.lean -/

theorem issue_kept {x0} {x1} {x2} {s3 : State} (h3 : Kept p k s3) :
    Kept p k (issue x0 x1 x2 s3) := by
  unfold issue
  try dsimp only
  with_reducible repeat' first
    | assumption | (intro _; try dsimp only) | (apply setStream_kept) | (fail_if_no_progress apply kept_mk) | (fail_if_no_progress apply memOk_mk)
    | (refine Kept.mem (p := p) (k := k) ?_) | (apply kept_mkm)

theorem spillStep_kept {x0} {x1} {x2} {x3} {x4} {s5 : State} (h5 : Kept p k s5) :
    KeptO p k (spillStep x0 x1 x2 x3 x4 s5) := by
  unfold spillStep
  try dsimp only
  with_reducible repeat' first
    | assumption | (intro _; try dsimp only) | (refine keptO_elim (by assumption) ?_) | (apply modUnit_kept) | (apply issue_kept) | (exact keptO_none)
    | (apply keptO_some) | (apply kept_getD) | (apply keptO_mapS) | (apply keptO_mapP) | (apply keptO_map) | (apply kept_ite)
    | (fail_if_no_progress apply kept_mk) | split

theorem bringTile_kept {x0} {x1} {x2} {x3} {x4} {s5 : State} (h5 : Kept p k s5) :
    KeptO p k (bringTile x0 x1 x2 x3 x4 s5) := by
  unfold bringTile
  try dsimp only
  with_reducible repeat' first
    | assumption | (intro _; try dsimp only) | (refine keptO_elim (by assumption) ?_) | (apply setUnit_kept) | (apply spillStep_kept)
    | (exact keptO_none) | (apply keptO_some) | (apply keptO_mapS) | (apply keptO_mapP) | (apply keptO_map) | (apply kept_ite)
    | (fail_if_no_progress apply kept_mk) | split

theorem writeSram_kept {x0} {x1} {x2} {s3 : State} (h3 : Kept p k s3) :
    Kept p k (writeSram x0 x1 x2 s3) := by
  unfold writeSram
  try dsimp only
  with_reducible repeat' first
    | assumption | (intro _; try dsimp only) | (apply modUnit_kept) | (fail_if_no_progress apply kept_mk)

theorem accAdd_kept {x0} {x1} {x2} {x3} {x4} {x5} {s6 : State} (h6 : Kept p k s6) :
    Kept p k (accAdd x0 x1 x2 x3 x4 x5 s6) := by
  unfold accAdd
  try dsimp only
  with_reducible repeat' first
    | assumption | (intro _; try dsimp only) | (refine keptOP_elim (by assumption) ?_) | (apply modUnit_kept) | (apply report_kept)
    | (apply accCell_kept) | (apply writeSram_kept) | (exact keptOP_none) | (apply keptOP_some) | (apply kept_ite)
    | (fail_if_no_progress apply kept_mk) | split

theorem putElem_kept {x0} {x1} {x2} {x3} {x4} {x5} {s6 : State} (h6 : Kept p k s6) :
    Kept p k (putElem x0 x1 x2 x3 x4 x5 s6) := by
  unfold putElem
  try dsimp only
  with_reducible repeat' first
    | assumption | (intro _; try dsimp only) | (apply writeSram_kept) | (apply accAdd_kept) | (apply kept_ite) | split

theorem streamSend_kept {x0} {x1} {x2} {x3} {x4} {s5 : State} (h5 : Kept p k s5) :
    Kept p k (streamSend x0 x1 x2 x3 x4 s5) := by
  unfold streamSend
  try dsimp only
  with_reducible repeat' first
    | assumption | (intro _; try dsimp only) | (apply sendOut_kept) | (apply setStream_kept) | (fail_if_no_progress apply kept_mk) | split

theorem tryGather_kept {x0} {x1} {x2} {x3} {x4} {x5} {g6} {s7 : State} (h6 : ∀ y0 y1 u2, Kept p k u2 → Kept p k (g6 y0 y1 u2)) (h7 : Kept p k s7) :
    KeptO p k (tryGather x0 x1 x2 x3 x4 x5 g6 s7) := by
  unfold tryGather
  try dsimp only
  with_reducible repeat' first
    | assumption | (intro _; try dsimp only) | (refine keptO_elim (by assumption) ?_) | (apply setStream_kept) | (apply bringTile_kept) | (apply h6)
    | (exact keptO_none) | (apply keptO_some) | (apply kept_ite) | (fail_if_no_progress apply kept_mk) | split

theorem tryRead_kept {x0} {x1} {x2} {x3} {x4} {s5 : State} (h5 : Kept p k s5) :
    KeptO p k (tryRead x0 x1 x2 x3 x4 s5) := by
  unfold tryRead
  try dsimp only
  with_reducible repeat' first
    | assumption | (intro _; try dsimp only) | (refine keptO_elim (by assumption) ?_) | (apply streamFinish_kept) | (apply streamSend_kept)
    | (apply tryGather_kept) | (exact keptO_none) | (apply keptO_some) | (apply kept_ite) | split

theorem tryWrite_kept {x0} {x1} {x2} {x3} {x4} {s5 : State} (h5 : Kept p k s5) :
    KeptO p k (tryWrite x0 x1 x2 x3 x4 s5) := by
  unfold tryWrite
  try dsimp only
  with_reducible repeat' first
    | assumption | (intro _; try dsimp only) | (refine keptO_elim (by assumption) ?_) | (apply popPort_kept) | (apply setStream_kept)
    | (apply streamFinish_kept) | (apply bringTile_kept) | (apply putElem_kept) | (exact keptO_none) | (apply keptO_some) | (apply kept_foldl)
    | (apply kept_foldl_pair) | (apply keptO_foldl) | (apply keptO_mapS) | (apply keptO_mapP) | (apply keptO_map) | (apply kept_ite)
    | (fail_if_no_progress apply kept_mk) | split

theorem takeIndex_kept {x0} {x1} {x2} {s3 : State} (h3 : Kept p k s3) :
    KeptOP p k (takeIndex x0 x1 x2 s3) := by
  unfold takeIndex
  try dsimp only
  with_reducible repeat' first
    | assumption | (intro _; try dsimp only) | (refine keptOP_elim (by assumption) ?_) | (apply popPort_kept) | (apply setStream_kept)
    | (exact keptOP_none) | (apply keptOP_some) | (apply keptOP_mapS) | (apply keptOP_map) | (apply kept_ite) | (fail_if_no_progress apply kept_mk)
    | split

theorem takeData_kept {x0} {x1} {x2} {s3 : State} (h3 : Kept p k s3) :
    KeptOP p k (takeData x0 x1 x2 s3) := by
  unfold takeData
  try dsimp only
  with_reducible repeat' first
    | assumption | (intro _; try dsimp only) | (refine keptOP_elim (by assumption) ?_) | (apply popPort_kept) | (apply setStream_kept)
    | (exact keptOP_none) | (apply keptOP_some) | (apply kept_ite) | (fail_if_no_progress apply kept_mk) | split

theorem tryIndexed_kept {x0} {x1} {x2} {x3} {x4} {s5 : State} (h5 : Kept p k s5) :
    KeptO p k (tryIndexed x0 x1 x2 x3 x4 s5) := by
  unfold tryIndexed
  try dsimp only
  with_reducible repeat' first
    | assumption | (intro _; try dsimp only) | (refine keptO_elim (by assumption) ?_) | (refine keptOP_elim (by assumption) ?_)
    | (apply setStream_kept) | (apply streamFinish_kept) | (apply bringTile_kept) | (apply putElem_kept) | (apply streamSend_kept)
    | (apply takeIndex_kept) | (apply takeData_kept) | (apply step_kept) | (exact keptO_none) | (apply keptO_some) | (exact keptOP_none)
    | (apply keptOP_some) | (apply keptO_mapS) | (apply keptO_mapP) | (apply keptO_map) | (apply keptOP_mapS) | (apply keptOP_map) | (apply kept_ite)
    | (fail_if_no_progress apply kept_mk) | split

theorem relayOut_kept {x0} {x1} {x2} {x3} {x4} {s5 : State} (h5 : Kept p k s5) :
    KeptO p k (relayOut x0 x1 x2 x3 x4 s5) := by
  unfold relayOut
  try dsimp only
  with_reducible repeat' first
    | assumption | (intro _; try dsimp only) | (refine keptO_elim (by assumption) ?_) | (apply sendOut_kept) | (apply setStream_kept)
    | (apply streamFinish_kept) | (exact keptO_none) | (apply keptO_some) | (apply kept_ite) | (fail_if_no_progress apply kept_mk) | split

theorem relayIn_kept {x0} {x1} {x2} {x3} {s4 : State} (h4 : Kept p k s4) :
    KeptO p k (relayIn x0 x1 x2 x3 s4) := by
  unfold relayIn
  try dsimp only
  with_reducible repeat' first
    | assumption | (intro _; try dsimp only) | (refine keptO_elim (by assumption) ?_) | (apply popPort_kept) | (apply setStream_kept)
    | (apply writeSram_kept) | (exact keptO_none) | (apply keptO_some) | (apply kept_getD) | (apply kept_ite) | (fail_if_no_progress apply kept_mk)
    | split

theorem tryTier_kept {x0} {x1} {x2} {x3} {x4} {s5 : State} (h5 : Kept p k s5) :
    KeptO p k (tryTier x0 x1 x2 x3 x4 s5) := by
  unfold tryTier
  try dsimp only
  with_reducible repeat' first
    | assumption | (intro _; try dsimp only) | (refine keptO_elim (by assumption) ?_) | (apply setStream_kept) | (apply issue_kept)
    | (apply bringTile_kept) | (apply tryGather_kept) | (exact keptO_none) | (apply keptO_some) | (apply kept_ite)
    | (fail_if_no_progress apply kept_mk) | split

theorem tryAccess_kept {x0} {x1} {x2} {s3 : State} (h3 : Kept p k s3) :
    KeptO p k (tryAccess x0 x1 x2 s3) := by
  unfold tryAccess
  try dsimp only
  with_reducible repeat' first
    | assumption | (intro _; try dsimp only) | (refine keptO_elim (by assumption) ?_) | (apply tryRead_kept) | (apply tryWrite_kept)
    | (apply tryIndexed_kept) | (apply relayOut_kept) | (apply relayIn_kept) | (apply tryTier_kept) | (exact keptO_none) | (apply keptO_some)
    | (apply keptO_or) | (apply kept_ite) | split

theorem tryStream_kept {x0} {x1} {x2} {s3 : State} (h3 : Kept p k s3) :
    KeptO p k (tryStream x0 x1 x2 s3) := by
  unfold tryStream
  try dsimp only
  with_reducible repeat' first
    | assumption | (intro _; try dsimp only) | (refine keptO_elim (by assumption) ?_) | (apply modUnit_kept) | (apply tryAccess_kept)
    | (exact keptO_none) | (apply keptO_some) | (apply keptO_mapS) | (apply keptO_mapP) | (apply keptO_map) | (apply kept_ite)
    | (fail_if_no_progress apply kept_mk) | split

theorem tryFire_kept {x0} {x1} {x2} {s3 : State} (h3 : Kept p k s3) :
    KeptO p k (tryFire x0 x1 x2 s3) := by
  unfold tryFire
  try dsimp only
  with_reducible repeat' first
    | assumption | (intro _; try dsimp only) | (refine keptO_elim (by assumption) ?_) | (apply tryVector_kept) | (apply tryMatrix_kept)
    | (apply tryWeight_kept) | (apply tryClose_kept) | (apply tryDrain_kept) | (apply trySelect_kept) | (apply tryStream_kept) | (exact keptO_none)
    | (apply keptO_some) | (apply keptO_mapS) | (apply keptO_mapP) | (apply keptO_map) | split

/-! ### Machine/Settle.lean -/

theorem counterBegin_kept {x0} {x1} {x2} {s3 : State} (h3 : Kept p k s3) :
    Kept p k (counterBegin x0 x1 x2 s3) := by
  unfold counterBegin
  try dsimp only
  with_reducible repeat' first
    | assumption | (intro _; try dsimp only) | (apply popPort_kept) | (apply setCounter_kept) | (apply report_kept) | (apply counterEnds_kept)
    | (apply endIteration_kept) | (apply kept_ite) | (fail_if_no_progress apply kept_mk) | split

theorem countersBegin_kept {x0} {x1} {x2} {s3 : State} (h3 : Kept p k s3) :
    Kept p k (countersBegin x0 x1 x2 s3) := by
  induction x2 generalizing x0 x1 s3 with
  | zero =>
    unfold countersBegin
    try dsimp only
    with_reducible repeat' first
      | assumption | (intro _; try dsimp only) | (apply counterBegin_kept) | (apply kept_foldl) | (apply kept_ite) | split
  | succ n ih =>
    unfold countersBegin
    try dsimp only
    with_reducible repeat' first
      | assumption | apply ih | (intro _; try dsimp only) | (apply counterBegin_kept) | (apply kept_foldl) | (apply kept_ite) | split

theorem discardTag_kept {x0} {x1} {s2 : State} (h2 : Kept p k s2) :
    Kept p k (discardTag x0 x1 s2) := by
  unfold discardTag
  try dsimp only
  with_reducible repeat' first
    | assumption | (intro _; try dsimp only) | (apply setUnit_kept) | (apply returnCredit_kept) | (apply kept_foldl) | (apply kept_foldl_pair)
    | (fail_if_no_progress apply kept_mk) | split

theorem takeStart_kept {x0} {x1} {s2 : State} (h2 : Kept p k s2) :
    Kept p k (takeStart x0 x1 s2) := by
  unfold takeStart
  try dsimp only
  with_reducible repeat' first
    | assumption | (intro _; try dsimp only) | (apply setCounter_kept) | (apply kept_ite) | (fail_if_no_progress apply kept_mk) | split

theorem takeDone_kept {x0} {x1} {x2} {x3} {s4 : State} (h4 : Kept p k s4) :
    KeptO p k (takeDone x0 x1 x2 x3 s4) := by
  unfold takeDone
  try dsimp only
  with_reducible repeat' first
    | assumption | (intro _; try dsimp only) | (refine keptO_elim (by assumption) ?_) | (apply counterAdvance_kept) | (apply endIteration_kept)
    | (apply doneCloses_kept) | (exact keptO_none) | (apply keptO_some) | (apply kept_ite) | split

theorem takeSelect_kept {x0} {x1} {x2} {x3} {s4 : State} (h4 : Kept p k s4) :
    KeptO p k (takeSelect x0 x1 x2 x3 s4) := by
  unfold takeSelect
  try dsimp only
  with_reducible repeat' first
    | assumption | (intro _; try dsimp only) | (refine keptO_elim (by assumption) ?_) | (apply modUnit_kept) | (apply popPort_kept)
    | (exact keptO_none) | (apply keptO_some) | (apply keptO_mapS) | (apply keptO_mapP) | (apply keptO_map) | (fail_if_no_progress apply kept_mk)

theorem takeAbort_kept {x0} {x1} {x2} {s3 : State} (h3 : Kept p k s3) :
    Kept p k (takeAbort x0 x1 x2 s3) := by
  unfold takeAbort
  try dsimp only
  with_reducible repeat' first
    | assumption | (intro _; try dsimp only) | (apply modUnit_kept) | (apply emitToken_kept) | (apply discardTag_kept) | (apply kept_foldl)
    | (apply kept_ite) | (fail_if_no_progress apply kept_mk) | split

theorem tokenEffect_kept {x0} {x1} {x2} {x3} {s4 : State} (h4 : Kept p k s4) :
    KeptO p k (tokenEffect x0 x1 x2 x3 s4) := by
  unfold tokenEffect
  try dsimp only
  with_reducible repeat' first
    | assumption | (intro _; try dsimp only) | (refine keptO_elim (by assumption) ?_) | (apply modUnit_kept) | (apply takeStart_kept)
    | (apply takeDone_kept) | (apply takeSelect_kept) | (apply takeAbort_kept) | (exact keptO_none) | (apply keptO_some)
    | (fail_if_no_progress apply kept_mk) | split

theorem takeToken_kept {x0} {x1} {s2 : State} (h2 : Kept p k s2) :
    KeptO p k (takeToken x0 x1 s2) := by
  unfold takeToken
  try dsimp only
  with_reducible repeat' first
    | assumption | (intro _; try dsimp only) | (refine keptO_elim (by assumption) ?_) | (apply popPort_kept) | (apply tokenEffect_kept)
    | (exact keptO_none) | (apply keptO_some) | (apply kept_ite) | split

theorem openOutputs_kept {x0} {s1 : State} (h1 : Kept p k s1) :
    Kept p k (openOutputs x0 s1) := by
  unfold openOutputs
  try dsimp only
  with_reducible repeat' first
    | assumption | (intro _; try dsimp only) | (apply setThread_kept) | (apply kept_foldl) | (apply kept_foldl_pair)
    | (fail_if_no_progress apply kept_mk) | split

theorem pumpTokens_kept {x0} {x1} {s2 : State} (h2 : Kept p k s2) :
    Kept p k (pumpTokens x0 x1 s2) := by
  induction x1 generalizing x0 s2 with
  | zero =>
    unfold pumpTokens
    try dsimp only
    with_reducible repeat' first
      | assumption | (intro _; try dsimp only) | (apply setUnit_kept) | (apply sendToken_kept) | (fail_if_no_progress apply kept_mk) | split
  | succ n ih =>
    unfold pumpTokens
    try dsimp only
    with_reducible repeat' first
      | assumption | apply ih | (intro _; try dsimp only) | (apply setUnit_kept) | (apply sendToken_kept) | (fail_if_no_progress apply kept_mk) | split

theorem beginRuns_kept {x0} {x1} {s2 : State} (h2 : Kept p k s2) :
    Kept p k (beginRuns x0 x1 s2) := by
  unfold beginRuns
  try dsimp only
  with_reducible repeat' first
    | assumption | (intro _; try dsimp only) | (apply streamExt_kept) | (apply countersBegin_kept) | (apply kept_foldl) | (apply kept_ite) | split

theorem endWork_kept {x0} {s1 : State} (h1 : Kept p k s1) :
    Kept p k (endWork x0 s1) := by
  unfold endWork
  try dsimp only
  with_reducible repeat' first
    | assumption | (intro _; try dsimp only) | (apply setUnit_kept) | (apply emitToken_kept) | (apply kept_foldl) | (apply kept_ite)
    | (fail_if_no_progress apply kept_mk) | split

theorem passFlush_kept {x0} {s1 : State} (h1 : Kept p k s1) :
    Kept p k (passFlush x0 s1) := by
  unfold passFlush
  try dsimp only
  with_reducible repeat' first
    | assumption | (intro _; try dsimp only) | (apply setUnit_kept) | (apply emitToken_kept) | (apply kept_foldl) | (apply kept_ite)
    | (fail_if_no_progress apply kept_mk) | split

theorem stopUnit_kept {x0} {s1 : State} (h1 : Kept p k s1) :
    Kept p k (stopUnit x0 s1) := by
  unfold stopUnit
  try dsimp only
  with_reducible repeat' first
    | assumption | (intro _; try dsimp only) | (apply setUnit_kept) | (apply kept_ite) | (fail_if_no_progress apply kept_mk) | split

theorem settleUnit_kept {x0} {s1 : State} (h1 : Kept p k s1) :
    Kept p k (settleUnit x0 s1) := by
  unfold settleUnit
  try dsimp only
  with_reducible repeat' first
    | assumption | (intro _; try dsimp only) | (apply pumpTokens_kept) | (apply beginRuns_kept) | (apply endWork_kept) | (apply passFlush_kept)
    | (apply stopUnit_kept) | (apply kept_ite) | split

end Sys2Proof.Machine
end

