-- ==== Sys2Proof/Laws/KeptSections.lean ====
section
/-!
SUPPORT. Every operation and every meaning of records, sections, queues, faults, runs and copies keeps a sound state sound, the queue and the tick (Laws/Kept.lean).
-/

namespace Sys2Proof.Machine

variable {p : List Instr} {k : Base} {n : Nat}

/-! ### Machine/Records.lean -/

theorem countFences_kept {x0} {s1 : State} (h1 : Kept p k s1) :
    Kept p k (countFences x0 s1) := by
  unfold countFences
  try dsimp only
  with_reducible repeat' first
    | assumption | (intro _; try dsimp only) | (apply setThread_kept) | (apply kept_foldl) | (apply kept_foldl_pair)
    | (fail_if_no_progress apply kept_mk) | split

theorem useCredits_kept {x0} {x1} {x2} {s3 : State} (h3 : Kept p k s3) :
    Kept p k (useCredits x0 x1 x2 s3) := by
  unfold useCredits
  try dsimp only
  with_reducible repeat' first
    | assumption | (intro _; try dsimp only) | (apply setThread_kept) | (fail_if_no_progress apply kept_mk)

theorem takeResidue_kept {x0} {x1} {x2} {x3} {s4 : State} (h4 : Kept p k s4) :
    Kept p k (takeResidue x0 x1 x2 x3 s4) := by
  unfold takeResidue
  try dsimp only
  with_reducible repeat' first
    | assumption | (intro _; try dsimp only) | (apply setThread_kept) | (apply useCredits_kept) | (apply kept_foldl) | (apply kept_foldl_pair)
    | (apply kept_ite) | (fail_if_no_progress apply kept_mk) | split

/-! ### Machine/Sections.lean -/

theorem modSec_kept {x0} {x1} {x2} {s3 : State} (h3 : Kept p k s3) :
    Kept p k (modSec x0 x1 x2 s3) := by
  unfold modSec
  try dsimp only
  with_reducible repeat' first
    | assumption | (intro _; try dsimp only) | (apply modField_kept) | (fail_if_no_progress apply kept_mk)

theorem showProgress_kept {x0} {x1} {s2 : State} (h2 : Kept p k s2) :
    Kept p k (showProgress x0 x1 s2) := by
  unfold showProgress
  try dsimp only
  with_reducible repeat' first
    | assumption | (intro _; try dsimp only) | (apply modSec_kept) | (fail_if_no_progress apply kept_mk)

theorem wakeIslands_kept {x0} {s1 : State} (h1 : Kept p k s1) :
    Kept p k (wakeIslands x0 s1) := by
  unfold wakeIslands
  try dsimp only
  with_reducible repeat' first
    | assumption | (intro _; try dsimp only) | (apply kept_foldl) | (fail_if_no_progress apply kept_mk)

theorem place?_kept {g0} {s1 : State} (h1 : Kept p k s1) :
    Kept p k (place? g0 s1) := by
  unfold place?
  try dsimp only
  with_reducible repeat' first
    | assumption | (intro _; try dsimp only) | (apply place_kept) | split

theorem pullWaiting_kept {x0} {x1} {s2 : State} (h2 : Kept p k s2) :
    Kept p k (pullWaiting x0 x1 s2) := by
  induction x1 generalizing x0 s2 with
  | zero =>
    unfold pullWaiting
    try dsimp only
    with_reducible repeat' first
      | assumption | (intro _; try dsimp only) | (apply place_kept) | (apply setField_kept) | (apply wakeIslands_kept) | (apply place?_kept)
      | (apply kept_ite) | (fail_if_no_progress apply kept_mk) | split
  | succ n ih =>
    unfold pullWaiting
    try dsimp only
    with_reducible repeat' first
      | assumption | apply ih | (intro _; try dsimp only) | (apply place_kept) | (apply setField_kept) | (apply wakeIslands_kept) | (apply place?_kept)
      | (apply kept_ite) | (fail_if_no_progress apply kept_mk) | split

theorem enterSection_kept {x0} {x1} {s2 : State} (h2 : Kept p k s2) :
    Kept p k (enterSection x0 x1 s2) := by
  unfold enterSection
  try dsimp only
  with_reducible repeat' first
    | assumption | (intro _; try dsimp only) | (apply modField_kept) | (apply pullWaiting_kept) | (fail_if_no_progress apply kept_mk)

theorem returnSection_kept {x0} {x1} {s2 : State} (h2 : Kept p k s2) :
    Kept p k (returnSection x0 x1 s2) := by
  unfold returnSection
  try dsimp only
  with_reducible repeat' first
    | assumption | (intro _; try dsimp only) | (apply place_kept) | (apply setField_kept) | (apply modUnit_kept) | (apply wakeIslands_kept)
    | (apply place?_kept) | (apply kept_foldl) | (apply kept_ite) | (fail_if_no_progress apply kept_mk) | split

theorem countSection_kept {s0 : State} (h0 : Kept p k s0) :
    Kept p k (countSection s0) := by
  unfold countSection
  try dsimp only
  with_reducible repeat' first
    | assumption | (intro _; try dsimp only) | (fail_if_no_progress apply kept_mk)

theorem modCopy_kept {x0} {x1} {s2 : State} (h2 : Kept p k s2) :
    Kept p k (modCopy x0 x1 s2) := by
  unfold modCopy
  try dsimp only
  with_reducible repeat' first
    | assumption | (intro _; try dsimp only) | (fail_if_no_progress apply kept_mk)

theorem chargePlace_kept {s0 : State} {x1} {x2} {x3} {x4} {x5} (h0 : Kept p k s0) :
    Kept p k (chargePlace s0 x1 x2 x3 x4 x5) := by
  unfold chargePlace
  try dsimp only
  with_reducible repeat' first
    | assumption | (intro _; try dsimp only) | (apply chargeTier_kept) | (apply chargeHost_kept) | (apply kept_ite) | split

theorem feedOne_kept {x0} {x1} {x2} {s3 : State} (h3 : Kept p k s3) :
    KeptO p k (feedOne x0 x1 x2 s3) := by
  unfold feedOne
  try dsimp only
  with_reducible repeat' first
    | assumption | (intro _; try dsimp only) | (refine keptO_elim (by assumption) ?_) | (apply touchDva_kept) | (apply sendOn_kept)
    | (apply modSec_kept) | (apply modCopy_kept) | (apply chargePlace_kept) | (exact keptO_none) | (apply keptO_some) | (apply kept_ite)
    | (fail_if_no_progress apply kept_mk) | split

theorem pumpFeeds_kept {x0} {x1} {s2 : State} (h2 : Kept p k s2) :
    Kept p k (pumpFeeds x0 x1 s2) := by
  induction x1 generalizing x0 s2 with
  | zero =>
    unfold pumpFeeds
    try dsimp only
    with_reducible repeat' first
      | assumption | (intro _; try dsimp only) | (refine keptO_elim (by assumption) ?_) | (apply feedOne_kept) | (exact keptO_none) | (apply keptO_some)
      | (apply keptO_mapS) | (apply keptO_mapP) | (apply keptO_map) | (apply keptO_findSome) | split
  | succ n ih =>
    unfold pumpFeeds
    try dsimp only
    with_reducible repeat' first
      | assumption | apply ih | (intro _; try dsimp only) | (refine keptO_elim (by assumption) ?_) | (apply feedOne_kept) | (exact keptO_none) | (apply keptO_some)
      | (apply keptO_mapS) | (apply keptO_mapP) | (apply keptO_map) | (apply keptO_findSome) | split

theorem closeFeeds_kept {x0} {x1} {s2 : State} (h2 : Kept p k s2) :
    Kept p k (closeFeeds x0 x1 s2) := by
  unfold closeFeeds
  try dsimp only
  with_reducible repeat' first
    | assumption | (intro _; try dsimp only) | (apply finishCode_kept) | (apply kept_foldl) | (apply kept_ite) | (fail_if_no_progress apply kept_mk)
    | split

theorem chargeSection_kept {x0} {x1} {x2} {x3} {s4 : State} (h4 : Kept p k s4) :
    Kept p k (chargeSection x0 x1 x2 x3 s4) := by
  unfold chargeSection
  try dsimp only
  with_reducible repeat' first
    | assumption | (intro _; try dsimp only) | (apply charge_kept) | (apply modSec_kept) | (fail_if_no_progress apply kept_mk) | split

theorem chargeSecTier_kept {x0} {x1} {x2} {x3} {s4 : State} (h4 : Kept p k s4) :
    Kept p k (chargeSecTier x0 x1 x2 x3 s4) := by
  unfold chargeSecTier
  try dsimp only
  with_reducible repeat' first
    | assumption | (intro _; try dsimp only) | (apply chargeSection_kept) | (apply kept_ite) | (fail_if_no_progress apply kept_mk) | split

theorem splitCounts_kept {x0} {s1 : State} (h1 : Kept p k s1) :
    Kept p k (splitCounts x0 s1) := by
  unfold splitCounts
  try dsimp only
  with_reducible repeat' first
    | assumption | (intro _; try dsimp only) | (apply charge_kept) | (apply kept_foldl) | (apply kept_foldl_pair) | (apply kept_ite)
    | (fail_if_no_progress apply kept_mk) | split

theorem dropParkWait_kept {x0} {x1} {s2 : State} (h2 : Kept p k s2) :
    Kept p k (dropParkWait x0 x1 s2) := by
  unfold dropParkWait
  try dsimp only
  with_reducible repeat' first
    | assumption | (intro _; try dsimp only) | (apply finish_kept) | (apply kept_foldl) | (apply kept_foldl_pair)
    | (fail_if_no_progress apply kept_mk) | split

theorem markAbort_kept {x0} {x1} {x2} {s3 : State} (h3 : Kept p k s3) :
    Kept p k (markAbort x0 x1 x2 s3) := by
  unfold markAbort
  try dsimp only
  with_reducible repeat' first
    | assumption | (intro _; try dsimp only) | (apply finish_kept) | (apply modField_kept) | (apply kept_ite) | (fail_if_no_progress apply kept_mk)
    | split

theorem dropFieldRecord_kept {x0} {x1} {s2 : State} (h2 : Kept p k s2) :
    Kept p k (dropFieldRecord x0 x1 s2) := by
  unfold dropFieldRecord
  try dsimp only
  with_reducible repeat' first
    | assumption | (intro _; try dsimp only) | (fail_if_no_progress apply kept_mk)

theorem endSection_kept {x0} {x1} {x2} {x3} {x4} {x5} {s6 : State} (h6 : Kept p k s6) :
    Kept p k (endSection x0 x1 x2 x3 x4 x5 s6) := by
  induction x5 generalizing x0 x1 x2 x3 x4 s6 with
  | zero =>
    unfold endSection
    try dsimp only
    with_reducible repeat' first
      | assumption | (intro _; try dsimp only) | (apply finish_kept) | (apply finish?_kept) | (apply modField_kept) | (apply serveEnded_kept)
      | (apply pullWaiting_kept) | (apply closeFeeds_kept) | (apply splitCounts_kept) | (apply dropParkWait_kept) | (apply markAbort_kept)
      | (apply dropFieldRecord_kept) | (apply kept_foldl) | (apply kept_ite) | (fail_if_no_progress apply kept_mk) | split
  | succ n ih =>
    unfold endSection
    try dsimp only
    with_reducible repeat' first
      | assumption | apply ih | (intro _; try dsimp only) | (apply finish_kept) | (apply finish?_kept) | (apply modField_kept) | (apply serveEnded_kept)
      | (apply pullWaiting_kept) | (apply closeFeeds_kept) | (apply splitCounts_kept) | (apply dropParkWait_kept) | (apply markAbort_kept)
      | (apply dropFieldRecord_kept) | (apply kept_foldl) | (apply kept_ite) | (fail_if_no_progress apply kept_mk) | split

theorem closeSection_kept {x0} {x1} {x2} {x3} {x4} {s5 : State} (h5 : Kept p k s5) :
    Kept p k (closeSection x0 x1 x2 x3 x4 s5) := by
  unfold closeSection
  try dsimp only
  with_reducible repeat' first
    | assumption | (intro _; try dsimp only) | (apply endSection_kept)

theorem settleField_kept {x0} {s1 : State} (h1 : Kept p k s1) :
    Kept p k (settleField x0 s1) := by
  unfold settleField
  try dsimp only
  with_reducible repeat' first
    | assumption | (intro _; try dsimp only) | (apply settleUnit_kept) | (apply kept_foldl) | split

theorem recordRoom_kept {x0} {x1} {s2 : State} (h2 : Kept p k s2) :
    KeptO p k (recordRoom x0 x1 s2) := by
  induction x1 generalizing s2 with
  | nil => exact keptO_some h2
  | cons a l ih =>
    have h3 : Kept p k { s2 with fresh := s2.fresh + 1 } := by apply kept_mk <;> assumption
    unfold recordRoom
    split
    · exact ih h3
    · split
      · exact ih (modSec_kept (keptOP_elim (by assumption) (allocT1_kept h3)))
      · exact keptO_none

theorem parkRoom_kept {x0} {x1} {x2} {s3 : State} (h3 : Kept p k s3) :
    KeptO p k (parkRoom x0 x1 x2 s3) := by
  unfold parkRoom
  split
  · exact recordRoom_kept h3
  · exact keptO_some h3

theorem noRoom_kept {x0} {s1 : State} (h1 : Kept p k s1) : Kept p k (noRoom x0 s1) := by
  unfold noRoom
  apply kept_mk <;> assumption

theorem startDrain_kept {x0} {x1} {x2} {x3} {s4 : State} (h4 : Kept p k s4) :
    Kept p k (startDrain x0 x1 x2 x3 s4) := by
  unfold startDrain
  try dsimp only
  with_reducible repeat' first
    | assumption | (intro _; try dsimp only) | (apply modField_kept) | (apply modUnit_kept) | (apply settleField_kept) | (apply kept_foldl)
    | (apply kept_ite) | (fail_if_no_progress apply kept_mk) | split

theorem startAbort_kept {x0} {x1} {x2} {s3 : State} (h3 : Kept p k s3) :
    Kept p k (startAbort x0 x1 x2 s3) := by
  unfold startAbort
  try dsimp only
  with_reducible repeat' first
    | assumption | (intro _; try dsimp only) | (apply modSec_kept) | (apply markAbort_kept) | (apply closeSection_kept) | (apply settleField_kept)
    | (apply kept_ite) | (fail_if_no_progress apply kept_mk) | split

theorem purgeSection_kept {x0} {x1} {x2} {s3 : State} (h3 : Kept p k s3) :
    Kept p k (purgeSection x0 x1 x2 s3) := by
  unfold purgeSection
  try dsimp only
  with_reducible repeat' first
    | assumption | (intro _; try dsimp only) | (apply modUnit_kept) | (apply setThread_kept) | (apply kept_foldl) | (apply kept_foldl_pair)
    | (apply kept_ite) | (fail_if_no_progress apply kept_mk) | split

theorem deliverAbort_kept {x0} {x1} {x2} {s3 : State} (h3 : Kept p k s3) :
    Kept p k (deliverAbort x0 x1 x2 s3) := by
  unfold deliverAbort
  try dsimp only
  with_reducible repeat' first
    | assumption | (intro _; try dsimp only) | (apply undefine_kept) | (apply modUnit_kept) | (apply closeSection_kept) | (apply purgeSection_kept)
    | (apply kept_foldl) | (apply kept_foldl_pair) | (fail_if_no_progress apply kept_mk) | split | (fail_if_no_progress apply memOk_mk)
    | (refine Kept.mem (p := p) (k := k) ?_) | (apply kept_mkm)

theorem resumeDrained_kept {x0} {x1} {s2 : State} (h2 : Kept p k s2) :
    Kept p k (resumeDrained x0 x1 s2) := by
  unfold resumeDrained
  try dsimp only
  with_reducible repeat' first
    | assumption | (intro _; try dsimp only) | (apply modField_kept) | (apply modUnit_kept) | (apply settleUnit_kept) | (apply pumpFeeds_kept)
    | (apply dropFieldRecord_kept) | (apply kept_foldl) | (fail_if_no_progress apply kept_mk) | split

theorem finishAborts_kept {x0} {s1 : State} (h1 : Kept p k s1) :
    Kept p k (finishAborts x0 s1) := by
  unfold finishAborts
  try dsimp only
  with_reducible repeat' first
    | assumption | (intro _; try dsimp only) | (apply deliverAbort_kept) | (apply resumeDrained_kept) | (apply kept_foldl) | (apply kept_foldl_pair)
    | (apply kept_ite) | split

theorem writeFeedCounts_kept {x0} {s1 : State} (h1 : Kept p k s1) :
    Kept p k (writeFeedCounts x0 s1) := by
  unfold writeFeedCounts
  try dsimp only
  with_reducible repeat' first
    | assumption | (intro _; try dsimp only) | (apply hostWrite_kept) | (apply kept_foldl) | (apply kept_ite) | split

theorem parkSectionNow_kept {x0} {x1} {x2} {x3} {s4 : State} (h4 : Kept p k s4) :
    Kept p k (parkSectionNow x0 x1 x2 x3 s4) := by
  unfold parkSectionNow
  try dsimp only
  with_reducible repeat' first
    | assumption | (intro _; try dsimp only) | (apply finish_kept) | (apply modUnit_kept) | (apply closeSection_kept) | (apply purgeSection_kept)
    | (apply writeFeedCounts_kept) | (apply kept_foldl) | (apply kept_ite) | (fail_if_no_progress apply kept_mk) | split
    | (fail_if_no_progress apply memOk_mk) | (refine Kept.mem (p := p) (k := k) ?_) | (apply kept_mkm)

theorem governorPark_kept {x0} {x1} {s2 : State} (h2 : Kept p k s2) :
    Kept p k (governorPark x0 x1 s2) := by
  unfold governorPark
  try dsimp only
  with_reducible repeat' first
    | assumption | (intro _; try dsimp only) | (apply modSec_kept) | (fail_if_no_progress apply kept_mk) | split

theorem drainOne_kept {x0} {s1 : State} {x2} (h1 : Kept p k s1) :
    Kept p k (drainOne x0 s1 x2) := by
  unfold drainOne
  try dsimp only
  with_reducible repeat' first
    | assumption | (intro _; try dsimp only) | (apply deliverAbort_kept) | (apply parkSectionNow_kept) | (apply governorPark_kept) | split

theorem emptyDones_kept {x0} {x1} {s2 : State} (h2 : Kept p k s2) :
    Kept p k (emptyDones x0 x1 s2) := by
  unfold emptyDones
  try dsimp only
  with_reducible repeat' first
    | assumption | (intro _; try dsimp only) | (apply emitDone_kept) | (apply streamEmpty_kept) | (apply kept_foldl) | (apply kept_ite) | split

theorem zeroDones_kept {x0} {x1} {s2 : State} (h2 : Kept p k s2) :
    Kept p k (zeroDones x0 x1 s2) := by
  unfold zeroDones
  try dsimp only
  with_reducible repeat' first
    | assumption | (intro _; try dsimp only) | (apply streamEmpty_kept) | (apply kept_foldl) | (apply kept_ite) | split

theorem collectCounts_kept {x0} {x1} {s2 : State} (h2 : Kept p k s2) :
    Kept p k (collectCounts x0 x1 s2) := by
  unfold collectCounts
  try dsimp only
  with_reducible repeat' first
    | assumption | (intro _; try dsimp only) | (apply modSec_kept) | (fail_if_no_progress apply kept_mk) | split

theorem startUnit_kept {x0} {x1} {s2 : State} (h2 : Kept p k s2) :
    Kept p k (startUnit x0 x1 s2) := by
  unfold startUnit
  try dsimp only
  with_reducible repeat' first
    | assumption | (intro _; try dsimp only) | (apply emptyDones_kept) | (apply zeroDones_kept) | (apply kept_ite) | split

theorem activate_kept {x0} {x1} {x2} {x3} {s4 : State} (h4 : Kept p k s4) :
    Kept p k (activate x0 x1 x2 x3 s4) := by
  unfold activate
  try dsimp only
  with_reducible repeat' first
    | assumption | (intro _; try dsimp only) | (apply setUnit_kept) | (apply modUnit_kept) | (apply settleUnit_kept) | (apply countFences_kept)
    | (apply takeResidue_kept) | (apply modSec_kept) | (apply startUnit_kept) | (apply kept_ite) | (fail_if_no_progress apply kept_mk) | split
    | (fail_if_no_progress apply memOk_mk) | (refine Kept.mem (p := p) (k := k) ?_) | (apply kept_mkm)

theorem takeParkWait_kept {x0} {x1} {s2 : State} (h2 : Kept p k s2) :
    Kept p k (takeParkWait x0 x1 s2) := by
  unfold takeParkWait
  try dsimp only
  with_reducible repeat' first
    | assumption | (intro _; try dsimp only) | (refine keptO_elim (by assumption) ?_) | (apply parkRoom_kept) | (apply noRoom_kept)
    | (apply finish_kept) | (apply startDrain_kept) | (fail_if_no_progress apply kept_mk) | split

theorem dropCopy_kept {x0} {s1 : State} (h1 : Kept p k s1) :
    Kept p k (dropCopy x0 s1) := by
  unfold dropCopy
  try dsimp only
  with_reducible repeat' first
    | assumption | (intro _; try dsimp only) | (fail_if_no_progress apply kept_mk)

theorem endCopy_kept {x0} {x1} {s2 : State} (h2 : Kept p k s2) :
    Kept p k (endCopy x0 x1 s2) := by
  unfold endCopy
  try dsimp only
  with_reducible repeat' first
    | assumption | (intro _; try dsimp only) | (apply finishCode_kept) | (apply dropCopy_kept)

theorem resolveFeed_kept {s0 : State} {x1} (h0 : Kept p k s0) :
    Kept p k (resolveFeed s0 x1) := by
  unfold resolveFeed
  try dsimp only
  with_reducible repeat' first
    | assumption | (intro _; try dsimp only) | (apply modSec_kept) | (apply modCopy_kept) | (apply endCopy_kept) | (apply kept_ite)
    | (fail_if_no_progress apply kept_mk) | split

theorem resolveFeeds_kept {s0 : State} (h0 : Kept p k s0) :
    Kept p k (resolveFeeds s0) := by
  unfold resolveFeeds
  try dsimp only
  with_reducible repeat' first
    | assumption | (intro _; try dsimp only) | (apply resolveFeed_kept) | (apply kept_foldl)

theorem pumpAll_kept {s0 : State} (h0 : Kept p k s0) :
    Kept p k (pumpAll s0) := by
  unfold pumpAll
  try dsimp only
  with_reducible repeat' first
    | assumption | (intro _; try dsimp only) | (apply pumpFeeds_kept) | (apply kept_foldl) | split

theorem settleCopies_kept {s0 : State} (h0 : Kept p k s0) :
    Kept p k (settleCopies s0) := by
  unfold settleCopies
  try dsimp only
  with_reducible repeat' first
    | assumption | (intro _; try dsimp only) | (apply resolveFeeds_kept) | (apply pumpAll_kept)

theorem writePreloads_kept {x0} {x1} {s2 : State} (h2 : Kept p k s2) :
    Kept p k (writePreloads x0 x1 s2) := by
  unfold writePreloads
  try dsimp only
  with_reducible repeat' first
    | assumption | (intro _; try dsimp only) | (apply modUnit_kept) | (apply kept_foldl) | (fail_if_no_progress apply kept_mk)

theorem fillSlot_kept {x0} {x1} {x2} {s3 : State} (h3 : Kept p k s3) :
    Kept p k (fillSlot x0 x1 x2 s3) := by
  unfold fillSlot
  try dsimp only
  with_reducible repeat' first
    | assumption | (intro _; try dsimp only) | (apply setField_kept) | (apply modUnit_kept) | (apply wakeIslands_kept) | (apply writePreloads_kept)
    | (apply kept_foldl) | (fail_if_no_progress apply kept_mk) | split

/-! ### Machine/Queues.lean -/

theorem execNop_kept {x0} {x1} {s2 : State} (h2 : Kept p k s2) :
    KeptN p k (execNop x0 x1 s2) := by
  unfold execNop
  try dsimp only
  with_reducible repeat' first
    | assumption | (intro _; try dsimp only) | (apply finish_kept) | (apply withDesc_kept) | (apply keptN_next)

theorem execFence_kept {x0} {x1} {x2} {s3 : State} (h3 : Kept p k s3) :
    KeptN p k (execFence x0 x1 x2 s3) := by
  unfold execFence
  try dsimp only
  with_reducible repeat' first
    | assumption | (intro _; try dsimp only) | (apply setOpens_kept) | (apply settleFences_kept) | (apply withDesc_kept) | (apply keptN_next)
    | (fail_if_no_progress apply kept_mk)

theorem execTimeMark_kept {x0} {x1} {s2 : State} (h2 : Kept p k s2) :
    KeptN p k (execTimeMark x0 x1 s2) := by
  unfold execTimeMark
  try dsimp only
  with_reducible repeat' first
    | assumption | (intro _; try dsimp only) | (apply recordEvent_kept) | (apply finish_kept) | (apply withDesc_kept) | (apply keptN_next)

theorem acceptFetched_kept {x0} {s1 : State} {x2} (h1 : Kept p k s1) :
    Kept p k (acceptFetched x0 s1 x2) := by
  unfold acceptFetched
  try dsimp only
  with_reducible repeat' first
    | assumption | (intro _; try dsimp only) | (apply finish_kept) | (apply acceptOne_kept) | (apply kept_ite) | split

theorem execDescriptorFetchBurst_kept {x0} {x1} {s2 : State} (h2 : Kept p k s2) :
    KeptN p k (execDescriptorFetchBurst x0 x1 s2) := by
  unfold execDescriptorFetchBurst
  try dsimp only
  with_reducible repeat' first
    | assumption | (intro _; try dsimp only) | (apply writeShadow_kept) | (apply settleCopies_kept) | (apply acceptFetched_kept) | (apply keptN_next)
    | (apply kept_foldl) | (apply kept_ite) | split

theorem doorbellError_kept {x0} {s1 : State} (h1 : Kept p k s1) :
    Kept p k (doorbellError x0 s1) := by
  unfold doorbellError
  try dsimp only
  with_reducible repeat' first
    | assumption | (intro _; try dsimp only) | (apply setQueue_kept) | (apply raiseVector_kept) | (fail_if_no_progress apply kept_mk)

theorem execSqTail_kept {x0} {x1} {s2 : State} (h2 : Kept p k s2) :
    KeptN p k (execSqTail x0 x1 s2) := by
  unfold execSqTail
  try dsimp only
  with_reducible repeat' first
    | assumption | (intro _; try dsimp only) | (apply setQueue_kept) | (apply doorbellError_kept) | (apply keptN_next) | (apply kept_ite)
    | (fail_if_no_progress apply kept_mk) | split

theorem execCqHead_kept {x0} {x1} {s2 : State} (h2 : Kept p k s2) :
    KeptN p k (execCqHead x0 x1 s2) := by
  unfold execCqHead
  try dsimp only
  with_reducible repeat' first
    | assumption | (intro _; try dsimp only) | (apply setQueue_kept) | (apply releaseHeld_kept) | (apply doorbellError_kept) | (apply keptN_next)
    | (apply kept_ite) | (fail_if_no_progress apply kept_mk) | split

theorem execQueueEnable_kept {x0} {x1} {s2 : State} (h2 : Kept p k s2) :
    KeptN p k (execQueueEnable x0 x1 s2) := by
  unfold execQueueEnable
  try dsimp only
  with_reducible repeat' first
    | assumption | (intro _; try dsimp only) | (apply setQueue_kept) | (apply raiseVector_kept) | (apply keptN_next) | (apply kept_ite)
    | (fail_if_no_progress apply kept_mk) | split

theorem stopFetch_kept {x0} {s1 : State} (h1 : Kept p k s1) :
    Kept p k (stopFetch x0 s1) := by
  unfold stopFetch
  try dsimp only
  with_reducible repeat' first
    | assumption | (intro _; try dsimp only) | (apply setQueue_kept) | (apply kept_ite) | (fail_if_no_progress apply kept_mk) | split

theorem execQueueDisable_kept {x0} {s1 : State} (h1 : Kept p k s1) :
    KeptN p k (execQueueDisable x0 s1) := by
  unfold execQueueDisable
  try dsimp only
  with_reducible repeat' first
    | assumption | (intro _; try dsimp only) | (apply stopFetch_kept) | (apply keptN_next) | (apply kept_ite) | split

theorem execQcfgErrClear_kept {x0} {x1} {s2 : State} (h2 : Kept p k s2) :
    KeptN p k (execQcfgErrClear x0 x1 s2) := by
  unfold execQcfgErrClear
  try dsimp only
  with_reducible repeat' first
    | assumption | (intro _; try dsimp only) | (apply setQueue_kept) | (apply keptN_next) | (apply kept_ite) | (fail_if_no_progress apply kept_mk)
    | split

theorem execIrqEnClear_kept {x0} {s1 : State} (h1 : Kept p k s1) :
    KeptN p k (execIrqEnClear x0 s1) := by
  unfold execIrqEnClear
  try dsimp only
  with_reducible repeat' first
    | assumption | (intro _; try dsimp only) | (apply setQueue_kept) | (apply keptN_next) | (apply kept_ite) | (fail_if_no_progress apply kept_mk)
    | split

theorem execCoalTimerExpiry_kept {x0} {s1 : State} (h1 : Kept p k s1) :
    KeptN p k (execCoalTimerExpiry x0 s1) := by
  unfold execCoalTimerExpiry
  try dsimp only
  with_reducible repeat' first
    | assumption | (intro _; try dsimp only) | (apply sendQueueIrq_kept) | (apply keptN_next) | (apply kept_ite) | split

theorem execMsixUnmask_kept {x0} {s1 : State} (h1 : Kept p k s1) :
    KeptN p k (execMsixUnmask x0 s1) := by
  unfold execMsixUnmask
  try dsimp only
  with_reducible repeat' first
    | assumption | (intro _; try dsimp only) | (apply setHost_kept) | (apply raiseVector_kept) | (apply keptN_next) | (apply kept_ite)
    | (fail_if_no_progress apply kept_mk) | split

theorem execCxlPortDown_kept {x0} {s1 : State} (h1 : Kept p k s1) :
    KeptN p k (execCxlPortDown x0 s1) := by
  unfold execCxlPortDown
  try dsimp only
  with_reducible repeat' first
    | assumption | (intro _; try dsimp only) | (apply setHost_kept) | (apply keptN_next) | (apply kept_ite) | (fail_if_no_progress apply kept_mk)
    | split

theorem releaseAll_kept {s0 : State} (h0 : Kept p k s0) :
    Kept p k (releaseAll s0) := by
  unfold releaseAll
  try dsimp only
  with_reducible repeat' first
    | assumption | (intro _; try dsimp only) | (apply releaseHeld_kept) | (apply kept_foldl) | (apply kept_foldl_pair) | split

theorem execCxlPortUp_kept {x0} {x1} {x2} {x3} {s4 : State} (h4 : Kept p k s4) :
    KeptN p k (execCxlPortUp x0 x1 x2 x3 s4) := by
  unfold execCxlPortUp
  try dsimp only
  with_reducible repeat' first
    | assumption | (intro _; try dsimp only) | (apply setHost_kept) | (apply releaseAll_kept) | (apply keptN_next) | (apply kept_ite)
    | (fail_if_no_progress apply kept_mk) | split

theorem noteWindow_kept {s0 : State} {x1} {s2 : State} (h0 : Kept p k s0) (h2 : Kept p k s2) :
    Kept p k (noteWindow s0 x1 s2) := by
  unfold noteWindow
  try dsimp only
  with_reducible repeat' first
    | assumption | (intro _; try dsimp only) | (fail_if_no_progress apply kept_mk) | split | (fail_if_no_progress apply memOk_mk)
    | (refine Kept.mem (p := p) (k := k) ?_) | (apply kept_mkm)

theorem execCxlMemWrite_kept {x0} {x1} {s2 : State} (h2 : Kept p k s2) :
    KeptN p k (execCxlMemWrite x0 x1 s2) := by
  unfold execCxlMemWrite
  try dsimp only
  with_reducible repeat' first
    | assumption | (intro _; try dsimp only) | (refine keptO_elim (by assumption) ?_) | (apply writeWindow_kept) | (apply chargeTier_kept)
    | (apply noteWindow_kept) | (exact keptO_none) | (apply keptO_some) | (apply keptN_next) | (apply kept_ite) | (fail_if_no_progress apply kept_mk)
    | split

/-! ### Machine/Faults.lean -/

theorem injFire_kept {x0} {s1 : State} (h1 : Kept p k s1) :
    Kept p k (injFire x0 s1) := by
  unfold injFire
  try dsimp only
  with_reducible repeat' first
    | assumption | (intro _; try dsimp only) | (fail_if_no_progress apply kept_mk) | (fail_if_no_progress apply seqOk_mk)
    | (refine Kept.seq (p := p) (k := k) ?_) | (apply kept_mkf)

theorem injMeet_kept {x0} {x1} {x2} {s3 : State} (h3 : Kept p k s3) :
    Kept p k (injMeet x0 x1 x2 s3) := by
  unfold injMeet
  try dsimp only
  with_reducible repeat' first
    | assumption | (intro _; try dsimp only) | (apply injFire_kept) | split

theorem injReset_kept {x0} {s1 : State} (h1 : Kept p k s1) :
    Kept p k (injReset x0 s1) := by
  unfold injReset
  try dsimp only
  with_reducible repeat' first
    | assumption | (intro _; try dsimp only) | (fail_if_no_progress apply kept_mk) | (fail_if_no_progress apply seqOk_mk)
    | (refine Kept.seq (p := p) (k := k) ?_) | (apply kept_mkf)

theorem fenceEnds_kept {x0} {x1} {s2 : State} (h2 : Kept p k s2) :
    Kept p k (fenceEnds x0 x1 s2) := by
  unfold fenceEnds
  try dsimp only
  with_reducible repeat' first
    | assumption | (intro _; try dsimp only) | (apply finish_kept) | (apply modSec_kept) | (apply startAbort_kept)
    | (fail_if_no_progress apply kept_mk) | split

theorem spoilRecords_kept {x0} {s1 : State} (h1 : Kept p k s1) :
    Kept p k (spoilRecords x0 s1) := by
  unfold spoilRecords
  try dsimp only
  with_reducible repeat' first
    | assumption | (intro _; try dsimp only) | (fail_if_no_progress apply kept_mk)

theorem noteFence_kept {x0} {x1} {s2 : State} (h2 : Kept p k s2) :
    Kept p k (noteFence x0 x1 s2) := by
  unfold noteFence
  try dsimp only
  with_reducible repeat' first
    | assumption | (intro _; try dsimp only) | (apply recordEvent_kept) | (apply kept_ite)

theorem fenceUnit_kept {x0} {s1 : State} (h1 : Kept p k s1) :
    Kept p k (fenceUnit x0 s1) := by
  unfold fenceUnit
  try dsimp only
  with_reducible repeat' first
    | assumption | (intro _; try dsimp only) | (apply injReset_kept) | (apply noteFence_kept) | (apply fenceEnds_kept) | (apply spoilRecords_kept) | (apply kept_foldl)
    | (apply kept_ite) | (fail_if_no_progress apply kept_mk) | split | (fail_if_no_progress apply seqOk_mk) | (refine Kept.seq (p := p) (k := k) ?_)
    | (apply kept_mkf)

theorem fenceSection_kept {x0} {x1} {x2} {x3} {s4 : State} (h4 : Kept p k s4) :
    Kept p k (fenceSection x0 x1 x2 x3 s4) := by
  unfold fenceSection
  try dsimp only
  with_reducible repeat' first
    | assumption | (intro _; try dsimp only) | (apply fenceEnds_kept) | (fail_if_no_progress apply kept_mk) | (fail_if_no_progress apply seqOk_mk)
    | (refine Kept.seq (p := p) (k := k) ?_) | (apply kept_mkf)

theorem noteLift_kept {x0} {x1} {x2} {s3 : State} (h3 : Kept p k s3) :
    Kept p k (noteLift x0 x1 x2 s3) := by
  unfold noteLift
  try dsimp only
  with_reducible repeat' first
    | assumption | (intro _; try dsimp only) | (apply logDetection_kept)

theorem liftFences_kept {s0 : State} (h0 : Kept p k s0) :
    Kept p k (liftFences s0) := by
  unfold liftFences
  try dsimp only
  with_reducible repeat' first
    | assumption | (intro _; try dsimp only)
    | (fail_if_no_progress apply kept_mk) | split | (fail_if_no_progress apply seqOk_mk) | (refine Kept.seq (p := p) (k := k) ?_) | (apply kept_mkf)

theorem fenceBand_kept {x0} {s1 : State} (h1 : Kept p k s1) :
    Kept p k (fenceBand x0 s1) := by
  unfold fenceBand
  try dsimp only
  with_reducible repeat' first
    | assumption | (intro _; try dsimp only) | (apply noteFence_kept) | (apply fenceEnds_kept) | (apply spoilRecords_kept) | (apply kept_foldl)
    | (fail_if_no_progress apply kept_mk) | split | (fail_if_no_progress apply seqOk_mk) | (refine Kept.seq (p := p) (k := k) ?_) | (apply kept_mkf)

theorem fenceStack_kept {x0} {s1 : State} (h1 : Kept p k s1) :
    Kept p k (fenceStack x0 s1) := by
  unfold fenceStack
  try dsimp only
  with_reducible repeat' first
    | assumption | (intro _; try dsimp only) | (apply noteFence_kept) | (fail_if_no_progress apply kept_mk)
    | (fail_if_no_progress apply seqOk_mk) | (refine Kept.seq (p := p) (k := k) ?_) | (apply kept_mkf)

theorem fenceChannel_kept {x0} {s1 : State} (h1 : Kept p k s1) :
    Kept p k (fenceChannel x0 s1) := by
  unfold fenceChannel
  try dsimp only
  with_reducible repeat' first
    | assumption | (intro _; try dsimp only) | (apply noteFence_kept) | (fail_if_no_progress apply kept_mk)
    | (fail_if_no_progress apply seqOk_mk) | (refine Kept.seq (p := p) (k := k) ?_) | (apply kept_mkf)

theorem retireFrame_kept {x0} {x1} {x2} {s3 : State} (h3 : Kept p k s3) :
    Kept p k (retireFrame x0 x1 x2 s3) := by
  unfold retireFrame
  try dsimp only
  with_reducible repeat' first
    | assumption | (intro _; try dsimp only) | (apply place_kept) | (apply kept_ite) | (fail_if_no_progress apply kept_mk) | split
    | (fail_if_no_progress apply memOk_mk) | (refine Kept.mem (p := p) (k := k) ?_) | (apply kept_mkm) | exact kept_mka h3 (memOk_mk h3.mem) h3.seq h3.store h3.meterUp

theorem logScoped_kept {x0} {x1} {x2} {x3} {x4} {x5} {s6 : State} (h6 : Kept p k s6) :
    Kept p k (logScoped x0 x1 x2 x3 x4 x5 s6) := by
  unfold logScoped
  try dsimp only
  with_reducible repeat' first
    | assumption | (intro _; try dsimp only) | (apply logDetection_kept)

theorem logClass1_kept {x0} {x1} {x2} {x3} {x4} {s5 : State} (h5 : Kept p k s5) :
    Kept p k (logClass1 x0 x1 x2 x3 x4 s5) := by
  unfold logClass1
  try dsimp only
  with_reducible repeat' first
    | assumption | (intro _; try dsimp only) | (apply logScoped_kept)

theorem logCorrected_kept {x0} {x1} {x2} {x3} {s4 : State} (h4 : Kept p k s4) :
    Kept p k (logCorrected x0 x1 x2 x3 s4) := by
  unfold logCorrected
  try dsimp only
  with_reducible repeat' first
    | assumption | (intro _; try dsimp only) | (apply logDetection_kept)

theorem unitDetection_kept {x0} {x1} {x2} {x3} {s4 : State} (h4 : Kept p k s4) :
    Kept p k (unitDetection x0 x1 x2 x3 s4) := by
  unfold unitDetection
  try dsimp only
  with_reducible repeat' first
    | assumption | (intro _; try dsimp only) | (apply fenceUnit_kept) | (apply fenceSection_kept) | (apply logClass1_kept) | (apply kept_ite)
    | (fail_if_no_progress apply kept_mk) | split | (fail_if_no_progress apply seqOk_mk) | (refine Kept.seq (p := p) (k := k) ?_) | (apply kept_mkf)

theorem drainReports_kept {s0 : State} (h0 : Kept p k s0) :
    Kept p k (drainReports s0) := by
  unfold drainReports
  try dsimp only
  with_reducible repeat' first
    | assumption | (intro _; try dsimp only) | (apply unitDetection_kept) | (apply kept_foldl) | (apply kept_foldl_pair)
    | (fail_if_no_progress apply kept_mk) | split

theorem dmaFault_kept {x0} {s1 : State} (h1 : Kept p k s1) :
    Kept p k (dmaFault x0 s1) := by
  unfold dmaFault
  try dsimp only
  with_reducible repeat' first
    | assumption | (intro _; try dsimp only) | (apply logClass1_kept)

theorem injectLine_kept {x0} {x1} {s2 : State} (h2 : Kept p k s2) :
    Kept p k (injectLine x0 x1 s2).2 := by
  unfold injectLine
  try dsimp only
  with_reducible repeat' first
    | assumption | (intro _; try dsimp only) | (refine kept_snd (by assumption) ?_) | (apply injFire_kept) | (apply logClass1_kept)
    | (apply logCorrected_kept) | (apply kept_ite) | split

theorem injectLines_kept {x0} {x1} {s2 : State} (h2 : Kept p k s2) :
    Kept p k (injectLines x0 x1 s2).2 := by
  induction x1 generalizing s2 with
  | nil =>
    unfold injectLines
    try dsimp only
    with_reducible repeat' first
      | assumption | (intro _; try dsimp only) | (refine kept_snd (by assumption) ?_) | (apply injectLine_kept) | (apply logClass1_kept)
      | (apply logCorrected_kept) | (apply kept_ite) | split
  | cons a l ih =>
    unfold injectLines
    try dsimp only
    with_reducible repeat' first
      | assumption | apply ih | (intro _; try dsimp only) | (refine kept_snd (by assumption) ?_) | (apply injectLine_kept) | (apply logClass1_kept)
      | (apply logCorrected_kept) | (apply kept_ite) | split

theorem meetLines_kept {x0} {x1} {s2 : State} (h2 : Kept p k s2) :
    Kept p k (meetLines x0 x1 s2).2 := by
  unfold meetLines
  split
  · exact injectLines_kept h2
  · exact h2

theorem lostEntry_kept {x0} {s2 : State} (h2 : Kept p k s2) : Kept p k (lostEntry x0 s2) := by
  unfold lostEntry
  try dsimp only
  with_reducible repeat' first
    | assumption | (intro _; try dsimp only) | (apply logClass1_kept) | (apply kept_ite)

theorem noteLost_kept {x0} {s1 : State} (h1 : Kept p k s1) :
    Kept p k (noteLost x0 s1) := by
  unfold noteLost
  try dsimp only
  with_reducible repeat' first
    | assumption | (intro _; try dsimp only) | (apply lostEntry_kept) | split

theorem accessFault_kept {x0} {x1} {s2 : State} (h2 : Kept p k s2) :
    Kept p k (accessFault x0 x1 s2) := by
  unfold accessFault
  try dsimp only
  with_reducible repeat' first
    | assumption | (intro _; try dsimp only) | (apply lostEntry_kept) | (apply dmaFault_kept) | (apply kept_ite) | split

theorem windowFault_kept {x0} {s2 : State} (h2 : Kept p k s2) : Kept p k (windowFault x0 s2) := by
  unfold windowFault
  split
  · exact lostEntry_kept h2
  · exact h2

theorem placeFault_kept {x0} {x1} {x2} {s2 : State} (h2 : Kept p k s2) : Kept p k (placeFault x0 x1 x2 s2) := by
  unfold placeFault
  exact kept_ite (fun _ => accessFault_kept h2) (fun _ => kept_ite (fun _ => windowFault_kept h2) (fun _ => h2))

theorem hubRead_kept {x0} {x1} {x2} {x3} {s2 : State} (h2 : Kept p k s2) : Kept p k (hubRead x0 x1 x2 x3 s2).2 := by
  unfold hubRead
  split
  · exact placeFault_kept h2
  · exact meetLines_kept h2

theorem noteService_kept {s0 : State} {s1 : State} (h0 : Kept p k s0) (h1 : Kept p k s1) :
    Kept p k (noteService s0 s1) := by
  unfold noteService
  try dsimp only
  with_reducible repeat' first
    | assumption | (intro _; try dsimp only) | (apply powerEvent_kept) | (apply kept_ite) | split

theorem parkFields_kept {s0 : State} (h0 : Kept p k s0) :
    Kept p k (parkFields s0) := by
  unfold parkFields
  try dsimp only
  with_reducible repeat' first
    | assumption | (intro _; try dsimp only) | (apply recordEvent_kept) | (apply startDrain_kept) | (apply kept_foldl) | (apply kept_foldl_pair)
    | (apply kept_ite) | split

theorem parkRequests_kept {s0 : State} (h0 : Kept p k s0) :
    Kept p k (parkRequests s0) := by
  unfold parkRequests
  try dsimp only
  with_reducible repeat' first
    | assumption | (intro _; try dsimp only) | (apply kept_ite) | (fail_if_no_progress apply kept_mk) | split

theorem fatalStart_kept {x0} {x1} {x2} {x3} {x4} {s5 : State} (h5 : Kept p k s5) :
    Kept p k (fatalStart x0 x1 x2 x3 x4 s5) := by
  unfold fatalStart
  try dsimp only
  with_reducible repeat' first
    | assumption | (intro _; try dsimp only) | (apply logDetection_kept) | (apply raiseVector_kept) | (apply powerEvent_kept)
    | (apply parkFields_kept) | (apply parkRequests_kept) | (apply kept_ite) | (fail_if_no_progress apply kept_mk) | split
    | (fail_if_no_progress apply seqOk_mk) | (refine Kept.seq (p := p) (k := k) ?_) | (apply kept_mkf)
    | (apply kept_mks) | (refine Kept.store (p := p) (k := k) ?_) | (apply kept_mka)
    | (fail_if_no_progress apply memOk_mk) | (refine Kept.mem (p := p) (k := k) ?_) | (refine Kept.meterUp (p := p) (k := k) ?_)

/-! ### Machine/Runs.lean -/

theorem wakeField_kept {x0} {s1 : State} (h1 : Kept p k s1) :
    Kept p k (wakeField x0 s1) := by
  unfold wakeField
  try dsimp only
  with_reducible repeat' first
    | assumption | (intro _; try dsimp only) | (apply setField_kept) | (apply wakeIslands_kept) | (apply kept_ite)
    | (fail_if_no_progress apply kept_mk) | split

theorem reserveRoom_kept {s0 : State} (h0 : Kept p k s0) :
    KeptO p k (reserveRoom s0) := by
  unfold reserveRoom
  try dsimp only
  with_reducible repeat' first
    | assumption | (intro _; try dsimp only) | (refine keptO_elim (by assumption) ?_) | (exact keptO_none) | (apply keptO_some) | (apply keptO_mapS)
    | (apply keptO_mapP) | (apply keptO_map) | (apply kept_ite) | (fail_if_no_progress apply kept_mk) | split

theorem cacheImage_kept {x0} {s1 : State} (h1 : Kept p k s1) :
    Kept p k (cacheImage x0 s1) := by
  unfold cacheImage
  try dsimp only
  with_reducible repeat' first
    | assumption | (intro _; try dsimp only) | (fail_if_no_progress apply kept_mk) | split

theorem dropLoad_kept {x0} {s1 : State} (h1 : Kept p k s1) :
    Kept p k (dropLoad x0 s1) := by
  unfold dropLoad
  try dsimp only
  with_reducible repeat' first
    | assumption | (intro _; try dsimp only) | (fail_if_no_progress apply kept_mk)

theorem skeinChecked_kept {x0} {x1} {x2} {s3 : State} (h3 : Kept p k s3) :
    Kept p k (skeinChecked x0 x1 x2 s3) := by
  unfold skeinChecked
  try dsimp only
  with_reducible repeat' first
    | assumption | (intro _; try dsimp only) | (apply finish_kept) | (apply report_kept) | (apply startAbort_kept) | (apply cacheImage_kept)
    | (apply dropLoad_kept) | (apply kept_foldl) | (apply kept_ite) | (fail_if_no_progress apply kept_mk) | split

theorem loadStart_kept {x0} {x1} {x2} {x3} {s4 : State} (h4 : Kept p k s4) :
    Kept p k (loadStart x0 x1 x2 x3 s4) := by
  unfold loadStart
  try dsimp only
  with_reducible repeat' first
    | assumption | (intro _; try dsimp only) | (refine keptO_elim (by assumption) ?_) | (apply finish_kept) | (apply report_kept)
    | (apply reserveRoom_kept) | (apply skeinChecked_kept) | (exact keptO_none) | (apply keptO_some) | (apply kept_ite)
    | (fail_if_no_progress apply kept_mk) | split

theorem execLoadSkein_kept {x0} {x1} {x2} {x3} {s4 : State} (h4 : Kept p k s4) :
    KeptN p k (execLoadSkein x0 x1 x2 x3 s4) := by
  unfold execLoadSkein
  try dsimp only
  with_reducible repeat' first
    | assumption | (intro _; try dsimp only) | (refine kept_snd (by assumption) ?_) | (apply finish_kept) | (apply withDesc_kept)
    | (apply hubRead_kept) | (apply wakeField_kept) | (apply loadStart_kept) | (apply keptN_next) | (apply kept_ite) | split

theorem execSlotFill_kept {x0} {x1} {s2 : State} (h2 : Kept p k s2) :
    KeptN p k (execSlotFill x0 x1 s2) := by
  unfold execSlotFill
  try dsimp only
  with_reducible repeat' first
    | assumption | (intro _; try dsimp only) | (apply hostWrite_kept) | (apply finish_kept) | (apply fillSlot_kept) | (apply keptN_next)
    | (apply kept_ite) | (fail_if_no_progress apply kept_mk) | split

theorem execRunSection_kept {x0} {x1} {x2} {x3} {s4 : State} (h4 : Kept p k s4) :
    KeptN p k (execRunSection x0 x1 x2 x3 s4) := by
  unfold execRunSection
  try dsimp only
  with_reducible repeat' first
    | assumption | (intro _; try dsimp only) | (apply setPhase_kept) | (apply finishCode_kept) | (apply withDesc_kept) | (apply enterSection_kept)
    | (apply countSection_kept) | (apply dropParkWait_kept) | (apply settleCopies_kept) | (apply wakeField_kept) | (apply keptN_next)
    | (apply kept_ite) | (fail_if_no_progress apply kept_mk) | split

theorem sendDispatch_kept {x0} {x1} {x2} {s3 : State} (h3 : Kept p k s3) :
    Kept p k (sendDispatch x0 x1 x2 s3) := by
  unfold sendDispatch
  try dsimp only
  with_reducible repeat' first
    | assumption | (intro _; try dsimp only) | (apply sendOn_kept) | (apply kept_foldl) | (apply kept_foldl_pair) | (apply kept_ite) | split

theorem execSectionDispatch_kept {x0} {s1 : State} (h1 : Kept p k s1) :
    KeptN p k (execSectionDispatch x0 s1) := by
  unfold execSectionDispatch
  try dsimp only
  with_reducible repeat' first
    | assumption | (intro _; try dsimp only) | (apply modSec_kept) | (apply pumpFeeds_kept) | (apply sendDispatch_kept) | (apply keptN_next)
    | (apply kept_ite) | (fail_if_no_progress apply kept_mk) | split

theorem execUnitSwap_kept {x0} {s1 : State} (h1 : Kept p k s1) :
    KeptN p k (execUnitSwap x0 s1) := by
  unfold execUnitSwap
  try dsimp only
  with_reducible repeat' first
    | assumption | (intro _; try dsimp only) | (apply modUnit_kept) | (apply pumpFeeds_kept) | (apply collectCounts_kept) | (apply activate_kept)
    | (apply takeParkWait_kept) | (apply liftFences_kept) | (apply keptN_next) | (apply kept_ite) | (fail_if_no_progress apply kept_mk) | split

theorem execSectionComplete_kept {x0} {s1 : State} (h1 : Kept p k s1) :
    KeptN p k (execSectionComplete x0 s1) := by
  unfold execSectionComplete
  try dsimp only
  with_reducible repeat' first
    | assumption | (intro _; try dsimp only) | (apply closeSection_kept) | (apply settleCopies_kept) | (apply liftFences_kept) | (apply keptN_next)
    | (apply kept_ite) | split

theorem parkTarget_kept {x0} {x1} {s2 : State} (h2 : Kept p k s2) :
    Kept p k (parkTarget x0 x1 s2) := by
  unfold parkTarget
  try dsimp only
  with_reducible repeat' first
    | assumption | (intro _; try dsimp only) | (refine keptO_elim (by assumption) ?_) | (apply parkRoom_kept) | (apply noRoom_kept)
    | (apply setPhase_kept) | (apply finish_kept) | (apply modSec_kept) | (apply startDrain_kept)
    | (apply parkSectionNow_kept) | (apply kept_ite) | (fail_if_no_progress apply kept_mk) | split

theorem execParkSection_kept {x0} {x1} {x2} {s3 : State} (h3 : Kept p k s3) :
    KeptN p k (execParkSection x0 x1 x2 s3) := by
  unfold execParkSection
  try dsimp only
  with_reducible repeat' first
    | assumption | (intro _; try dsimp only) | (apply finish_kept) | (apply withDesc_kept) | (apply parkTarget_kept) | (apply keptN_next)
    | (apply kept_ite) | split

theorem execRunEmptyDrainDone_kept {x0} {s1 : State} (h1 : Kept p k s1) :
    KeptN p k (execRunEmptyDrainDone x0 s1) := by
  unfold execRunEmptyDrainDone
  try dsimp only
  with_reducible repeat' first
    | assumption | (intro _; try dsimp only) | (apply finishAborts_kept) | (apply drainOne_kept) | (apply settleCopies_kept) | (apply liftFences_kept)
    | (apply keptN_next) | (apply kept_foldl) | (apply kept_foldl_pair) | (apply kept_ite) | split

theorem execAbortDrainTimeout_kept {x0} {s1 : State} (h1 : Kept p k s1) :
    KeptN p k (execAbortDrainTimeout x0 s1) := by
  unfold execAbortDrainTimeout
  try dsimp only
  with_reducible repeat' first
    | assumption | (intro _; try dsimp only) | (apply finishAborts_kept) | (apply settleCopies_kept) | (apply liftFences_kept) | (apply keptN_next)

theorem landEntries_kept {x0} {x1} {x2} {s3 : State} (h3 : Kept p k s3) :
    Kept p k (landEntries x0 x1 x2 s3) := by
  unfold landEntries
  try dsimp only
  with_reducible repeat' first
    | assumption | (intro _; try dsimp only) | (apply modUnit_kept) | (apply setThread_kept) | (apply returnCredit_kept) | (apply kept_foldl)
    | (apply kept_foldl_pair) | (apply kept_ite) | (fail_if_no_progress apply kept_mk) | split

theorem execScanSettleExpiry_kept {x0} {s1 : State} (h1 : Kept p k s1) :
    KeptN p k (execScanSettleExpiry x0 s1) := by
  unfold execScanSettleExpiry
  try dsimp only
  with_reducible repeat' first
    | assumption | (intro _; try dsimp only) | (apply modSec_kept) | (apply landEntries_kept) | (apply keptN_next) | (apply kept_foldl)
    | (fail_if_no_progress apply kept_mk) | split

theorem execScanShiftDone_kept {x0} {s1 : State} (h1 : Kept p k s1) :
    KeptN p k (execScanShiftDone x0 s1) := by
  unfold execScanShiftDone
  try dsimp only
  with_reducible repeat' first
    | assumption | (intro _; try dsimp only) | (apply finishAborts_kept) | (apply parkSectionNow_kept) | (apply settleCopies_kept)
    | (apply liftFences_kept) | (apply keptN_next) | (apply kept_foldl) | (apply kept_ite) | split

theorem execInputPark_kept {x0} {s1 : State} (h1 : Kept p k s1) :
    KeptN p k (execInputPark x0 s1) := by
  unfold execInputPark
  try dsimp only
  with_reducible repeat' first
    | assumption | (intro _; try dsimp only) | (refine keptO_elim (by assumption) ?_) | (apply parkRoom_kept) | (apply noRoom_kept)
    | (apply startDrain_kept) | (apply keptN_next) | split

theorem execWatchdogExpiry_kept {x0} {s1 : State} (h1 : Kept p k s1) :
    KeptN p k (execWatchdogExpiry x0 s1) := by
  unfold execWatchdogExpiry
  try dsimp only
  with_reducible repeat' first
    | assumption | (intro _; try dsimp only) | (apply startAbort_kept) | (apply injFire_kept) | (apply logClass1_kept) | (apply keptN_next) | split

theorem dropRecord_kept {x0} {s1 : State} (h1 : Kept p k s1) :
    Kept p k (dropRecord x0 s1) := by
  unfold dropRecord
  try dsimp only
  with_reducible repeat' first
    | assumption | (intro _; try dsimp only) | (apply framesFreed_kept) | (apply kept_foldl) | (fail_if_no_progress apply kept_mk)

theorem execResumeParkRecord_kept {x0} {x1} {x2} {s3 : State} (h3 : Kept p k s3) :
    KeptN p k (execResumeParkRecord x0 x1 x2 s3) := by
  unfold execResumeParkRecord
  try dsimp only
  with_reducible repeat' first
    | assumption | (intro _; try dsimp only) | (apply setPhase_kept) | (apply finishCode_kept) | (apply withDesc_kept) | (apply report_kept)
    | (apply enterSection_kept) | (apply returnSection_kept) | (apply countSection_kept) | (apply dropParkWait_kept) | (apply settleCopies_kept)
    | (apply fillSlot_kept) | (apply wakeField_kept) | (apply cacheImage_kept) | (apply dropRecord_kept) | (apply keptN_next) | (apply kept_ite)
    | (fail_if_no_progress apply kept_mk) | split

theorem execResumeDiscard_kept {x0} {x1} {x2} {s3 : State} (h3 : Kept p k s3) :
    KeptN p k (execResumeDiscard x0 x1 x2 s3) := by
  unfold execResumeDiscard
  try dsimp only
  with_reducible repeat' first
    | assumption | (intro _; try dsimp only) | (apply finish_kept) | (apply withDesc_kept) | (apply dropRecord_kept) | (apply keptN_next) | split

/-! ### Machine/Channels.lean -/

theorem noteHeaders_kept {x0} {x1} {x2} {g3} {s4 : State} (h4 : Kept p k s4) :
    Kept p k (noteHeaders x0 x1 x2 g3 s4) := by
  unfold noteHeaders
  try dsimp only
  with_reducible repeat' first
    | assumption | (intro _; try dsimp only) | (apply kept_foldl) | (apply kept_foldl_pair) | (apply kept_ite) | (fail_if_no_progress apply kept_mk)
    | split

/-! ### Machine/Copies.lean -/

theorem addCopy_kept {x0} {x1} {s2 : State} (h2 : Kept p k s2) :
    Kept p k (addCopy x0 x1 s2) := by
  unfold addCopy
  try dsimp only
  with_reducible repeat' first
    | assumption | (intro _; try dsimp only) | (apply closeBatches_kept) | (apply kept_ite) | (fail_if_no_progress apply kept_mk) | split

theorem execCopy_kept {x0} {x1} {x2} {x3} {s4 : State} (h4 : Kept p k s4) :
    KeptN p k (execCopy x0 x1 x2 x3 s4) := by
  unfold execCopy
  try dsimp only
  with_reducible repeat' first
    | assumption | (intro _; try dsimp only) | (apply finish_kept) | (apply closeBatches_kept) | (apply withDesc_kept) | (apply settleCopies_kept)
    | (apply wakeField_kept) | (apply addCopy_kept) | (apply keptN_next) | (apply kept_ite) | split

theorem execCopyBatchClose_kept {s0 : State} (h0 : Kept p k s0) :
    KeptN p k (execCopyBatchClose s0) := by
  unfold execCopyBatchClose
  try dsimp only
  with_reducible repeat' first
    | assumption | (intro _; try dsimp only) | (apply settleCopies_kept) | (apply keptN_next) | (fail_if_no_progress apply kept_mk)

theorem copyDest_kept {s0 : State} {x1} {x2} {x3} (h0 : Kept p k s0) :
    KeptO p k (copyDest s0 x1 x2 x3) := by
  unfold copyDest
  try dsimp only
  with_reducible repeat' first
    | assumption | (intro _; try dsimp only) | (refine keptO_elim (by assumption) ?_) | (apply hostWrite_kept) | (apply writeDva_kept)
    | (apply writeWindow_kept) | (exact keptO_none) | (apply keptO_some) | (apply kept_ite) | split

theorem movePieces_kept {x0} {x1} {x2} {s3 : State} (h3 : Kept p k s3) :
    Kept p k (movePieces x0 x1 x2 s3).2 := by
  induction x1 generalizing x0 x2 s3 with
  | zero =>
    unfold movePieces
    try dsimp only
    with_reducible repeat' first
      | assumption | (intro _; try dsimp only) | (refine keptO_elim (by assumption) ?_) | (refine kept_snd (by assumption) ?_)
      | (apply injectLines_kept) | (apply accessFault_kept) | (apply placeFault_kept) | (apply copyDest_kept) | (exact keptO_none) | (apply keptO_some) | (apply kept_ite)
      | split
  | succ n ih =>
    unfold movePieces
    try dsimp only
    with_reducible repeat' first
      | assumption | apply ih | (intro _; try dsimp only) | (refine keptO_elim (by assumption) ?_) | (refine kept_snd (by assumption) ?_)
      | (apply injectLines_kept) | (apply accessFault_kept) | (apply placeFault_kept) | (apply copyDest_kept) | (exact keptO_none) | (apply keptO_some) | (apply kept_ite)
      | split

theorem execCopyTransferDone_kept {x0} {x1} {s2 : State} (h2 : Kept p k s2) :
    KeptN p k (execCopyTransferDone x0 x1 s2) := by
  unfold execCopyTransferDone
  try dsimp only
  with_reducible repeat' first
    | assumption | (intro _; try dsimp only) | (refine kept_snd (by assumption) ?_) | (apply touchRange_kept) | (apply chargePlace_kept)
    | (apply endCopy_kept) | (apply settleCopies_kept) | (apply placeFault_kept) | (apply noteHeaders_kept) | (apply movePieces_kept)
    | (apply keptN_next) | (apply kept_ite) | (fail_if_no_progress apply kept_mk) | split

end Sys2Proof.Machine
end

