-- ==== Sys2Proof/Laws/KeptServing.lean ====
section
/-!
SUPPORT. Every operation and every meaning of moons, KV, serving and comets keeps a sound state sound, the queue and the tick (Laws/Kept.lean).
-/

namespace Sys2Proof.Machine

variable {p : List Instr} {k : Base} {n : Nat}

/-! ### Machine/Moons.lean -/

theorem execMoonLoad_kept {x0} {x1} {x2} {x3} {s4 : State} (h4 : Kept p k s4) :
    KeptN p k (execMoonLoad x0 x1 x2 x3 s4) := by
  unfold execMoonLoad
  try dsimp only
  with_reducible repeat' first
    | assumption | (intro _; try dsimp only) | (refine keptO_elim (by assumption) ?_) | (refine kept_snd (by assumption) ?_) | (apply finish_kept)
    | (apply withDesc_kept) | (apply report_kept) | (apply hubRead_kept) | (apply wakeField_kept) | (apply reserveRoom_kept) | (exact keptO_none)
    | (apply keptO_some) | (apply keptN_next) | (apply kept_foldl) | (apply kept_foldl_pair) | (apply keptO_foldl) | (apply kept_ite)
    | (fail_if_no_progress apply kept_mk) | split

theorem writeProgram_kept {x0} {x1} {s2 : State} (h2 : Kept p k s2) :
    Kept p k (writeProgram x0 x1 s2) := by
  unfold writeProgram
  try dsimp only
  with_reducible repeat' first
    | assumption | (intro _; try dsimp only) | (apply finish_kept) | (apply dropLoad_kept) | (apply kept_foldl) | (fail_if_no_progress apply kept_mk)

theorem settleMoonLoads_kept {s0 : State} (h0 : Kept p k s0) :
    Kept p k (settleMoonLoads s0) := by
  unfold settleMoonLoads
  try dsimp only
  with_reducible repeat' first
    | assumption | (intro _; try dsimp only) | (apply finish_kept) | (apply dropLoad_kept) | (apply writeProgram_kept) | (apply kept_foldl)
    | (apply kept_ite) | split

theorem moonChecked_kept {x0} {x1} {x2} {s3 : State} (h3 : Kept p k s3) :
    Kept p k (moonChecked x0 x1 x2 s3) := by
  unfold moonChecked
  try dsimp only
  with_reducible repeat' first
    | assumption | (intro _; try dsimp only) | (apply finish_kept) | (apply dropLoad_kept) | (apply settleMoonLoads_kept) | (apply kept_ite)
    | (fail_if_no_progress apply kept_mk) | split

theorem execImageChecked_kept {x0} {x1} {x2} {s3 : State} (h3 : Kept p k s3) :
    KeptN p k (execImageChecked x0 x1 x2 s3) := by
  unfold execImageChecked
  try dsimp only
  with_reducible repeat' first
    | assumption | (intro _; try dsimp only) | (apply settleCopies_kept) | (apply skeinChecked_kept) | (apply moonChecked_kept) | (apply keptN_next)
    | (apply kept_ite) | split

theorem chanWrite_kept {x0} {x1} {x2} {x3} {s4 : State} (h4 : Kept p k s4) :
    Kept p k (chanWrite x0 x1 x2 x3 s4) := by
  unfold chanWrite
  try dsimp only
  with_reducible repeat' first
    | assumption | (intro _; try dsimp only) | (fail_if_no_progress apply kept_mk) | (fail_if_no_progress apply memOk_mk)
    | (refine Kept.mem (p := p) (k := k) ?_) | (apply kept_mkm) | (apply memOk_mk3) | (apply memWf_mwrites) | (apply memWf_mwrite)
    | (apply memWf_mclear) | (exact memWf_nil) | (refine Kept.tier1 (p := p) (k := k) ?_) | (refine Kept.tier2 (p := p) (k := k) ?_)
    | (refine Kept.host (p := p) (k := k) ?_)

theorem countCalls_kept {x0} {x1} {s2 : State} (h2 : Kept p k s2) :
    Kept p k (countCalls x0 x1 s2) := by
  unfold countCalls
  try dsimp only
  with_reducible repeat' first
    | assumption | (intro _; try dsimp only) | (apply modSec_kept) | (apply kept_foldl) | (fail_if_no_progress apply kept_mk)

theorem writeResults_kept {x0} {x1} {x2} {s3 : State} (h3 : Kept p k s3) :
    Kept p k (writeResults x0 x1 x2 s3) := by
  unfold writeResults
  try dsimp only
  with_reducible repeat' first
    | assumption | (intro _; try dsimp only) | (apply chanWrite_kept)

theorem answerFetches_kept {x0} {x1} {s2 : State} (h2 : Kept p k s2) :
    Kept p k (answerFetches x0 x1 s2) := by
  unfold answerFetches
  try dsimp only
  with_reducible repeat' first
    | assumption | (intro _; try dsimp only) | (fail_if_no_progress apply kept_mk) | split

theorem callFormat_kept {x0} {x1} {x2} {s3 : State} (h3 : Kept p k s3) :
    Kept p k (callFormat x0 x1 x2 s3) := by
  unfold callFormat
  try dsimp only
  with_reducible repeat' first
    | assumption | (intro _; try dsimp only) | (apply fenceSection_kept) | (apply logClass1_kept) | (apply answerFetches_kept) | (apply kept_foldl)

theorem execMoonCall_kept {x0} {x1} {s2 : State} (h2 : Kept p k s2) :
    KeptN p k (execMoonCall x0 x1 s2) := by
  unfold execMoonCall
  try dsimp only
  with_reducible repeat' first
    | assumption | (intro _; try dsimp only) | (apply injFire_kept) | (apply countCalls_kept) | (apply writeResults_kept) | (apply answerFetches_kept)
    | (apply callFormat_kept) | (apply keptN_next) | (apply kept_ite) | (fail_if_no_progress apply kept_mk) | split

theorem execMoonCallForward_kept {x0} {s1 : State} (h1 : Kept p k s1) :
    KeptN p k (execMoonCallForward x0 s1) := by
  unfold execMoonCallForward
  try dsimp only
  with_reducible repeat' first
    | assumption | (intro _; try dsimp only) | (apply keptN_next) | (apply kept_ite) | (fail_if_no_progress apply kept_mk) | split

theorem writeRows_kept {x0} {x1} {x2} {x3} {x4} {s5 : State} (h5 : Kept p k s5) :
    Kept p k (writeRows x0 x1 x2 x3 x4 s5) := by
  unfold writeRows
  try dsimp only
  with_reducible repeat' first
    | assumption | (intro _; try dsimp only) | (apply cellWrite_kept) | (apply kept_foldl) | (apply kept_foldl_pair) | (apply kept_ite) | split

theorem addPartial_kept {x0} {x1} {s2 : State} (h2 : Kept p k s2) :
    Kept p k (addPartial x0 x1 s2) := by
  unfold addPartial
  try dsimp only
  with_reducible repeat' first
    | assumption | (intro _; try dsimp only) | (fail_if_no_progress apply kept_mk)

theorem modCall_kept {x0} {x1} {x2} {s3 : State} (h3 : Kept p k s3) :
    Kept p k (modCall x0 x1 x2 s3) := by
  unfold modCall
  try dsimp only
  with_reducible repeat' first
    | assumption | (intro _; try dsimp only) | (fail_if_no_progress apply kept_mk)

theorem callFails_kept {x0} {s1 : State} (h1 : Kept p k s1) :
    Kept p k (callFails x0 s1) := by
  unfold callFails
  try dsimp only
  with_reducible repeat' first
    | assumption | (intro _; try dsimp only) | (apply fenceEnds_kept) | (apply modCall_kept) | (apply kept_foldl)
    | (fail_if_no_progress apply kept_mk)

theorem chargeCall_kept {x0} {x1} {x2} {s3 : State} (h3 : Kept p k s3) :
    Kept p k (chargeCall x0 x1 x2 s3) := by
  unfold chargeCall
  try dsimp only
  with_reducible repeat' first
    | assumption | (intro _; try dsimp only) | (apply chargeTier_kept) | (apply chargeSection_kept) | (apply chargeSecTier_kept) | split

theorem kvPart_kept {x0} {x1} {x2} {x3} {x4} {s5 : State} (h5 : Kept p k s5) :
    Kept p k (kvPart x0 x1 x2 x3 x4 s5) := by
  unfold kvPart
  try dsimp only
  with_reducible repeat' first
    | assumption | (intro _; try dsimp only) | (refine kept_snd (by assumption) ?_) | (apply meetLines_kept) | (apply noteLost_kept)
    | (apply writeRows_kept) | (apply addPartial_kept) | (apply callFails_kept) | (apply chargeCall_kept) | (apply kept_foldl)
    | (apply kept_foldl_pair) | (apply kept_ite) | (fail_if_no_progress apply kept_mk) | split

theorem moonFault_kept {x0} {x1} {x2} {s3 : State} (h3 : Kept p k s3) :
    Kept p k (moonFault x0 x1 x2 s3) := by
  unfold moonFault
  try dsimp only
  with_reducible repeat' first
    | assumption | (intro _; try dsimp only) | (apply fenceSection_kept) | (apply logClass1_kept) | (apply modCall_kept) | (apply kept_foldl)
    | (fail_if_no_progress apply kept_mk)

theorem tableRows_kept {x0} {x1} {x2} {x3} {x4} {x5} {s6 : State} (h6 : Kept p k s6) :
    Kept p k (tableRows x0 x1 x2 x3 x4 x5 s6) := by
  induction x5 generalizing x0 x1 x2 x3 x4 s6 with
  | nil =>
    unfold tableRows
    try dsimp only
    with_reducible repeat' first
      | assumption | (intro _; try dsimp only) | (refine keptO_elim (by assumption) ?_) | (refine kept_snd (by assumption) ?_) | (apply writeDva_kept)
      | (apply meetLines_kept) | (apply lostEntry_kept) | (apply modCall_kept) | (apply callFails_kept) | (apply chargeCall_kept)
      | (apply moonFault_kept) | (exact keptO_none) | (apply keptO_some) | (apply kept_ite) | (fail_if_no_progress apply kept_mk) | split
  | cons a l ih =>
    unfold tableRows
    try dsimp only
    with_reducible repeat' first
      | assumption | apply ih | (intro _; try dsimp only) | (refine keptO_elim (by assumption) ?_) | (refine kept_snd (by assumption) ?_) | (apply writeDva_kept)
      | (apply meetLines_kept) | (apply lostEntry_kept) | (apply modCall_kept) | (apply callFails_kept) | (apply chargeCall_kept)
      | (apply moonFault_kept) | (exact keptO_none) | (apply keptO_some) | (apply kept_ite) | (fail_if_no_progress apply kept_mk) | split

theorem popCall_kept {x0} {s1 : State} (h1 : Kept p k s1) :
    Kept p k (popCall x0 s1) := by
  unfold popCall
  try dsimp only
  with_reducible repeat' first
    | assumption | (intro _; try dsimp only) | (fail_if_no_progress apply kept_mk)

theorem execMoonCallPartDone_kept {x0} {s1 : State} (h1 : Kept p k s1) :
    KeptN p k (execMoonCallPartDone x0 s1) := by
  unfold execMoonCallPartDone
  try dsimp only
  with_reducible repeat' first
    | assumption | (intro _; try dsimp only) | (apply liftFences_kept) | (apply modCall_kept) | (apply kvPart_kept) | (apply tableRows_kept)
    | (apply popCall_kept) | (apply keptN_next) | (apply kept_ite) | (fail_if_no_progress apply kept_mk) | split

theorem execMoonPartialCombine_kept {x0} {s1 : State} (h1 : Kept p k s1) :
    KeptN p k (execMoonPartialCombine x0 s1) := by
  unfold execMoonPartialCombine
  try dsimp only
  with_reducible repeat' first
    | assumption | (intro _; try dsimp only) | (apply addPartial_kept) | (apply keptN_next) | (apply kept_ite) | (fail_if_no_progress apply kept_mk)
    | split

theorem execMoonCallComplete_kept {x0} {x1} {x2} {s3 : State} (h3 : Kept p k s3) :
    KeptN p k (execMoonCallComplete x0 x1 x2 s3) := by
  unfold execMoonCallComplete
  try dsimp only
  with_reducible repeat' first
    | assumption | (intro _; try dsimp only) | (apply liftFences_kept) | (apply settleMoonLoads_kept) | (apply countCalls_kept)
    | (apply writeResults_kept) | (apply answerFetches_kept) | (apply callFails_kept) | (apply lostEntry_kept) | (apply keptN_next) | (apply kept_ite)
    | (fail_if_no_progress apply kept_mk) | split

theorem execMoonResultFetch_kept {x0} {x1} {x2} {x3} {s4 : State} (h4 : Kept p k s4) :
    KeptN p k (execMoonResultFetch x0 x1 x2 x3 s4) := by
  unfold execMoonResultFetch
  try dsimp only
  with_reducible repeat' first
    | assumption | (intro _; try dsimp only) | (apply keptN_next) | (apply kept_ite) | (fail_if_no_progress apply kept_mk) | split

theorem serviceStep_kept {x0} {x1} {s2 : State} (h2 : Kept p k s2) :
    Kept p k (serviceStep x0 x1 s2).2.2 := by
  induction x1 generalizing x0 s2 with
  | nil => exact h2
  | cons e l ih =>
    obtain ⟨src, dst, len⟩ := e
    unfold serviceStep
    dsimp only
    split
    · exact h2
    · split
      · exact kept_mkm h2 (memOk_tier1 h2.mem (memWf_mwrites h2.tier1))
      · exact ih (kept_mkm h2 (memOk_tier1 h2.mem (memWf_mwrites h2.tier1)))

theorem execMoonServiceStep_kept {x0} {s1 : State} (h1 : Kept p k s1) :
    KeptN p k (execMoonServiceStep x0 s1) := by
  unfold execMoonServiceStep
  try dsimp only
  with_reducible repeat' first
    | assumption | (intro _; try dsimp only) | (refine kept_snd (by assumption) ?_) | (apply chargeTier_kept) | (apply closeReq_kept)
    | (apply lostEntry_kept) | (apply serviceStep_kept) | (apply keptN_next) | (apply kept_ite) | (fail_if_no_progress apply kept_mk) | split

/-! ### Machine/Kv.lean -/

theorem putPage_kept {x0} {x1} {s2 : State} (h2 : Kept p k s2) :
    Kept p k (putPage x0 x1 s2) := by
  unfold putPage
  try dsimp only
  with_reducible repeat' first
    | assumption | (intro _; try dsimp only) | (apply modField_kept) | (fail_if_no_progress apply kept_mk)

theorem allocKv_kept {x0} {x1} {x2} {x3} {x4} {s5 : State} (h5 : Kept p k s5) :
    KeptO p k (allocKv x0 x1 x2 x3 x4 s5) := by
  unfold allocKv
  try dsimp only
  with_reducible repeat' first
    | assumption | (intro _; try dsimp only) | (refine keptO_elim (by assumption) ?_) | (refine keptOP_elim (by assumption) ?_) | (apply place_kept)
    | (apply allocT1_kept) | (apply putPage_kept) | (exact keptO_none) | (apply keptO_some) | (exact keptOP_none) | (apply keptOP_some)
    | (apply keptO_mapS) | (apply keptO_mapP) | (apply keptO_map) | (apply keptOP_mapS) | (apply keptOP_map) | (apply kept_ite) | split

theorem allocList_kept {x0} {x1} {x2} {x3} {x4} {s5 : State} (h5 : Kept p k s5) :
    KeptO p k (allocList x0 x1 x2 x3 x4 s5) := by
  unfold allocList
  try dsimp only
  with_reducible repeat' first
    | assumption | (intro _; try dsimp only) | (refine keptO_elim (by assumption) ?_) | (apply allocKv_kept) | (exact keptO_none) | (apply keptO_some)
    | (apply kept_foldl) | (apply keptO_foldl) | (apply keptO_bind) | (apply keptO_bindS) | (apply keptO_bindA)

theorem countPages_kept {x0} {s1 : State} (h1 : Kept p k s1) :
    Kept p k (countPages x0 s1) := by
  unfold countPages
  try dsimp only
  with_reducible repeat' first
    | assumption | (intro _; try dsimp only) | (apply modReq_kept) | (fail_if_no_progress apply kept_mk)

theorem allocPositions_kept {x0} {x1} {x2} {s3 : State} (h3 : Kept p k s3) :
    KeptO p k (allocPositions x0 x1 x2 s3) := by
  unfold allocPositions
  try dsimp only
  with_reducible repeat' first
    | assumption | (intro _; try dsimp only) | (refine keptO_elim (by assumption) ?_) | (apply allocList_kept) | (apply countPages_kept)
    | (exact keptO_none) | (apply keptO_some) | (apply keptO_mapS) | (apply keptO_mapP) | (apply keptO_map) | split

theorem dropPages_kept {x0} {x1} {s2 : State} (h2 : Kept p k s2) :
    Kept p k (dropPages x0 x1 s2) := by
  unfold dropPages
  try dsimp only
  with_reducible repeat' first
    | assumption | (intro _; try dsimp only) | (apply modField_kept) | (apply framesFreed_kept) | (fail_if_no_progress apply kept_mk) | split
    | (fail_if_no_progress apply memOk_mk) | (refine Kept.mem (p := p) (k := k) ?_) | (apply kept_mkm)

theorem promoteReq_kept {x0} {x1} {s2 : State} (h2 : Kept p k s2) :
    Kept p k (promoteReq x0 x1 s2) := by
  unfold promoteReq
  try dsimp only
  with_reducible repeat' first
    | assumption | (intro _; try dsimp only) | (apply kept_foldl) | (apply kept_ite) | (fail_if_no_progress apply kept_mk) | split
    | (fail_if_no_progress apply memOk_mk) | (refine Kept.mem (p := p) (k := k) ?_) | (apply kept_mkm)

theorem reservePool_kept {x0} {s1 : State} (h1 : Kept p k s1) :
    KeptOP p k (reservePool x0 s1) := by
  unfold reservePool
  try dsimp only
  with_reducible repeat' first
    | assumption | (intro _; try dsimp only) | (refine keptOP_elim (by assumption) ?_) | (exact keptOP_none) | (apply keptOP_some)
    | (apply keptOP_mapS) | (apply keptOP_map) | (fail_if_no_progress apply kept_mk) | (fail_if_no_progress apply memOk_mk)
    | (refine Kept.mem (p := p) (k := k) ?_) | (apply kept_mkm)

theorem enterPark_kept {x0} {x1} {x2} {s3 : State} (h3 : Kept p k s3) :
    Kept p k (enterPark x0 x1 x2 s3) := by
  unfold enterPark
  try dsimp only
  with_reducible repeat' first
    | assumption | (intro _; try dsimp only) | (apply modReq_kept) | (fail_if_no_progress apply kept_mk)

theorem startTx_kept {x0} {x1} {x2} {x3} {x4} {x5} {x6} {x7} {s8 : State} (h8 : Kept p k s8) :
    Kept p k (startTx x0 x1 x2 x3 x4 x5 x6 x7 s8) := by
  unfold startTx
  try dsimp only
  with_reducible repeat' first
    | assumption | (intro _; try dsimp only) | (fail_if_no_progress apply kept_mk)

theorem tryPark_kept {x0} {s1 : State} (h1 : Kept p k s1) :
    Kept p k (tryPark x0 s1) := by
  unfold tryPark
  try dsimp only
  with_reducible repeat' first
    | assumption | (intro _; try dsimp only) | (refine keptOP_elim (by assumption) ?_) | (apply finish_kept) | (apply modReq_kept)
    | (apply reservePool_kept) | (apply enterPark_kept) | (exact keptOP_none) | (apply keptOP_some) | (apply kept_ite)
    | (fail_if_no_progress apply kept_mk) | split

theorem applyPark_kept {x0} {x1} {x2} {s3 : State} (h3 : Kept p k s3) :
    Kept p k (applyPark x0 x1 x2 s3) := by
  unfold applyPark
  try dsimp only
  with_reducible repeat' first
    | assumption | (intro _; try dsimp only) | (apply setPhase_kept) | (apply finish_kept) | (apply modReq_kept) | (apply tryPark_kept)
    | (apply kept_ite) | (fail_if_no_progress apply kept_mk) | split

theorem applyCancel_kept {x0} {x1} {s2 : State} (h2 : Kept p k s2) :
    Kept p k (applyCancel x0 x1 s2) := by
  unfold applyCancel
  try dsimp only
  with_reducible repeat' first
    | assumption | (intro _; try dsimp only) | (apply setPhase_kept) | (apply finish_kept) | (apply modReq_kept) | (apply beginCancel_kept)
    | (apply kept_ite) | (fail_if_no_progress apply kept_mk) | split

theorem settleHold_kept {s0 : State} {g1} (h0 : Kept p k s0) :
    Kept p k (settleHold s0 g1) := by
  unfold settleHold
  try dsimp only
  with_reducible repeat' first
    | assumption | (intro _; try dsimp only) | (apply finish_kept) | (apply applyPark_kept) | (apply applyCancel_kept) | (apply kept_ite)
    | (fail_if_no_progress apply kept_mk) | split

theorem settleHolds_kept {s0 : State} (h0 : Kept p k s0) :
    Kept p k (settleHolds s0) := by
  unfold settleHolds
  try dsimp only
  with_reducible repeat' first
    | assumption | (intro _; try dsimp only) | (apply settleHold_kept) | (apply kept_foldl)

theorem targetRequest_kept {x0} {x1} {x2} {g3} {s4 : State} (h4 : Kept p k s4) :
    Kept p k (targetRequest x0 x1 x2 g3 s4) := by
  unfold targetRequest
  try dsimp only
  with_reducible repeat' first
    | assumption | (intro _; try dsimp only) | (apply setPhase_kept) | (apply finish_kept) | (apply settleHolds_kept) | (apply kept_ite)
    | (fail_if_no_progress apply kept_mk) | split

theorem writeKv_kept {x0} {x1} {x2} {x3} {x4} {s5 : State} (h5 : Kept p k s5) :
    Kept p k (writeKv x0 x1 x2 x3 x4 s5) := by
  unfold writeKv
  try dsimp only
  with_reducible repeat' first
    | assumption | (intro _; try dsimp only) | (apply cellWrite_kept) | (apply kept_foldl) | (apply kept_foldl_pair) | split

theorem restoreRecords_kept {x0} {x1} {x2} {g3} {x4} {s5 : State} (h5 : Kept p k s5) :
    KeptO p k (restoreRecords x0 x1 x2 g3 x4 s5) := by
  unfold restoreRecords
  try dsimp only
  with_reducible repeat' first
    | assumption | (intro _; try dsimp only) | (refine keptO_elim (by assumption) ?_) | (apply writeKv_kept) | (exact keptO_none) | (apply keptO_some)
    | (apply kept_foldl) | (apply keptO_foldl) | (apply kept_getD) | (apply keptO_bind) | (apply keptO_bindS) | (apply keptO_bindA)
    | (apply keptO_mapS) | (apply keptO_mapP) | (apply keptO_map) | (apply kept_ite) | split

theorem restoreComet_kept {x0} {x1} {s2 : State} (h2 : Kept p k s2) :
    Kept p k (restoreComet x0 x1 s2).2 := by
  unfold restoreComet
  try dsimp only
  with_reducible repeat' first
    | assumption | (intro _; try dsimp only) | (refine keptO_elim (by assumption) ?_) | (refine kept_snd (by assumption) ?_)
    | (apply allocPositions_kept) | (apply restoreRecords_kept) | (exact keptO_none) | (apply keptO_some) | (apply kept_ite)
    | (fail_if_no_progress apply kept_mk) | split

theorem takeEntry_kept {x0} {x1} {s2 : State} (h2 : Kept p k s2) :
    Kept p k (takeEntry x0 x1 s2) := by
  unfold takeEntry
  try dsimp only
  with_reducible repeat' first
    | assumption | (intro _; try dsimp only) | (refine kept_snd (by assumption) ?_) | (apply finish_kept) | (apply place_kept) | (apply setReq_kept)
    | (apply modReq_kept) | (apply settleHolds_kept) | (apply restoreComet_kept) | split

theorem awaitEntry_kept {x0} {s1 : State} (h1 : Kept p k s1) :
    Kept p k (awaitEntry x0 s1) := by
  unfold awaitEntry
  try dsimp only
  with_reducible repeat' first
    | assumption | (intro _; try dsimp only) | (apply setPhase_kept) | (apply takeEntry_kept) | (fail_if_no_progress apply kept_mk) | split

/-! ### Machine/Serving.lean -/

theorem execServeMode_kept {x0} {s1 : State} (h1 : Kept p k s1) :
    KeptN p k (execServeMode x0 s1) := by
  unfold execServeMode
  try dsimp only
  with_reducible repeat' first
    | assumption | (intro _; try dsimp only) | (apply mboxEnd_kept) | (apply mailbox_kept) | (apply keptN_next) | (apply kept_ite)
    | (fail_if_no_progress apply kept_mk) | split

theorem execExpertMap_kept {x0} {x1} {x2} {s3 : State} (h3 : Kept p k s3) :
    KeptN p k (execExpertMap x0 x1 x2 s3) := by
  unfold execExpertMap
  try dsimp only
  with_reducible repeat' first
    | assumption | (intro _; try dsimp only) | (apply mboxEnd_kept) | (apply mailbox_kept) | (apply keptN_next) | (apply kept_ite)
    | (fail_if_no_progress apply kept_mk) | split

theorem allocRange_kept {x0} {x1} {x2} {x3} {s4 : State} (h4 : Kept p k s4) :
    KeptO p k (allocRange x0 x1 x2 x3 s4) := by
  induction x2 generalizing x0 x1 x3 s4 with
  | zero =>
    unfold allocRange
    try dsimp only
    with_reducible repeat' first
      | assumption | (intro _; try dsimp only) | (refine keptO_elim (by assumption) ?_) | (refine keptOP_elim (by assumption) ?_) | (apply place_kept)
      | (apply allocT1_kept) | (apply putPage_kept) | (exact keptO_none) | (apply keptO_some) | (exact keptOP_none) | (apply keptOP_some)
      | (apply keptO_bind) | (apply keptO_bindS) | (apply keptO_bindA) | (apply keptOP_bindA) | split
  | succ n ih =>
    unfold allocRange
    try dsimp only
    with_reducible repeat' first
      | assumption | apply ih | (intro _; try dsimp only) | (refine keptO_elim (by assumption) ?_) | (refine keptOP_elim (by assumption) ?_) | (apply place_kept)
      | (apply allocT1_kept) | (apply putPage_kept) | (exact keptO_none) | (apply keptO_some) | (exact keptOP_none) | (apply keptOP_some)
      | (apply keptO_bind) | (apply keptO_bindS) | (apply keptO_bindA) | (apply keptOP_bindA) | split

theorem removeConfig_kept {x0} {s1 : State} (h1 : Kept p k s1) :
    Kept p k (removeConfig x0 s1) := by
  unfold removeConfig
  try dsimp only
  with_reducible repeat' first
    | assumption | (intro _; try dsimp only) | (apply dropPages_kept) | (fail_if_no_progress apply kept_mk) | split

theorem defineConfig_kept {x0} {s1 : State} (h1 : Kept p k s1) :
    Kept p k (defineConfig x0 s1).2 := by
  unfold defineConfig
  extract_lets i t branch nodes draft bytes
  have ht : Kept p k t := removeConfig_kept h1
  clear_value bytes draft nodes branch t i
  split
  · exact h1
  · split
    · exact h1
    · split
      · exact h1
      · split
        · exact h1
        · split
          · exact h1
          · exact kept_mk (allocRange_kept ht _ (by assumption))

theorem execServeConfig_kept {x0} {s1 : State} (h1 : Kept p k s1) :
    KeptN p k (execServeConfig x0 s1) := by
  unfold execServeConfig
  try dsimp only
  with_reducible repeat' first
    | assumption | (intro _; try dsimp only) | (refine kept_snd (by assumption) ?_) | (apply mboxEnd_kept) | (apply mailbox_kept)
    | (apply removeConfig_kept) | (apply defineConfig_kept) | (apply keptN_next) | (apply kept_ite) | split

theorem execPlaceGroup_kept {x0} {x1} {x2} {s3 : State} (h3 : Kept p k s3) :
    KeptN p k (execPlaceGroup x0 x1 x2 s3) := by
  unfold execPlaceGroup
  try dsimp only
  with_reducible repeat' first
    | assumption | (intro _; try dsimp only) | (apply mboxEnd_kept) | (apply mailbox_kept) | (apply keptN_next) | (apply kept_ite)
    | (fail_if_no_progress apply kept_mk) | split

theorem execRequestSubmit_kept {x0} {x1} {x2} {x3} {s4 : State} (h4 : Kept p k s4) :
    KeptN p k (execRequestSubmit x0 x1 x2 x3 s4) := by
  unfold execRequestSubmit
  try dsimp only
  with_reducible repeat' first
    | assumption | (intro _; try dsimp only) | (apply finish_kept) | (apply withDesc_kept) | (apply wakeField_kept) | (apply settleHolds_kept)
    | (apply awaitEntry_kept) | (apply keptN_next) | (apply kept_ite) | split

theorem execEntryAllocate_kept {s0 : State} (h0 : Kept p k s0) :
    KeptN p k (execEntryAllocate s0) := by
  unfold execEntryAllocate
  try dsimp only
  with_reducible repeat' first
    | assumption | (intro _; try dsimp only) | (apply takeEntry_kept) | (apply keptN_next) | (apply kept_ite) | (fail_if_no_progress apply kept_mk)
    | split

theorem execRequestCancel_kept {x0} {x1} {x2} {x3} {s4 : State} (h4 : Kept p k s4) :
    KeptN p k (execRequestCancel x0 x1 x2 x3 s4) := by
  unfold execRequestCancel
  try dsimp only
  with_reducible repeat' first
    | assumption | (intro _; try dsimp only) | (apply withDesc_kept) | (apply targetRequest_kept) | (apply keptN_next)

theorem execDeadlineExpiry_kept {x0} {s1 : State} (h1 : Kept p k s1) :
    KeptN p k (execDeadlineExpiry x0 s1) := by
  unfold execDeadlineExpiry
  try dsimp only
  with_reducible repeat' first
    | assumption | (intro _; try dsimp only) | (apply beginCancel_kept) | (apply keptN_next) | (apply kept_ite) | split

theorem publishLists_kept {x0} {x1} {s2 : State} (h2 : Kept p k s2) :
    Kept p k (publishLists x0 x1 s2) := by
  unfold publishLists
  try dsimp only
  with_reducible repeat' first
    | assumption | (intro _; try dsimp only) | (apply modField_kept) | (fail_if_no_progress apply kept_mk)

theorem firmwareSection_kept {x0} {x1} {x2} {x3} {x4} {x5} {s6 : State} (h6 : Kept p k s6) :
    Kept p k (firmwareSection x0 x1 x2 x3 x4 x5 s6).2 := by
  unfold firmwareSection
  try dsimp only
  with_reducible repeat' first
    | assumption | (intro _; try dsimp only) | (refine kept_snd (by assumption) ?_) | (apply closeReq_kept) | (apply enterSection_kept)
    | (apply countSection_kept) | (apply publishLists_kept) | (apply kept_foldl) | (apply kept_foldl_pair) | (apply kept_ite)
    | (fail_if_no_progress apply kept_mk) | split

theorem joinStep_kept {x0} {s1 : State} (h1 : Kept p k s1) :
    Kept p k (joinStep x0 s1) := by
  unfold joinStep
  try dsimp only
  with_reducible repeat' first
    | assumption | (intro _; try dsimp only) | (apply modReq_kept) | (apply kept_ite) | (fail_if_no_progress apply kept_mk) | split

theorem takeRows_kept {x0} {x1} {x2} {x3} {x4} {s5 : State} (h5 : Kept p k s5) :
    Kept p k (takeRows x0 x1 x2 x3 x4 s5) := by
  unfold takeRows
  try dsimp only
  with_reducible repeat' first
    | assumption | (intro _; try dsimp only) | (refine keptO_elim (by assumption) ?_) | (apply modField_kept) | (apply allocPositions_kept)
    | (apply step_kept) | (exact keptO_none) | (apply keptO_some) | (apply kept_foldl) | (apply keptO_foldl) | (apply keptO_bind)
    | (apply keptO_bindS) | (apply keptO_bindA) | (apply kept_ite) | (fail_if_no_progress apply kept_mk) | split

theorem takeChunks_kept {x0} {x1} {x2} {s3 : State} (h3 : Kept p k s3) :
    Kept p k (takeChunks x0 x1 x2 s3) := by
  unfold takeChunks
  try dsimp only
  with_reducible repeat' first
    | assumption | (intro _; try dsimp only) | (refine keptO_elim (by assumption) ?_) | (apply modField_kept) | (apply allocPositions_kept)
    | (apply step_kept) | (exact keptO_none) | (apply keptO_some) | (apply kept_foldl) | (apply kept_foldl_pair) | (apply keptO_foldl)
    | (apply keptO_bind) | (apply keptO_bindS) | (apply keptO_bindA) | (apply keptO_mapS) | (apply keptO_mapP) | (apply keptO_map) | (apply kept_ite)
    | (fail_if_no_progress apply kept_mk) | split

theorem writeBatch_kept {x0} {x1} {x2} {s3 : State} (h3 : Kept p k s3) :
    Kept p k (writeBatch x0 x1 x2 s3) := by
  unfold writeBatch
  extract_lets put s'
  have hp : ∀ a bs u, Kept p k u → Kept p k (put a bs u) := fun a bs u hu => kept_getD (writeDva_kept hu) hu
  have hs : Kept p k s' := by
    refine kept_foldl (fun u e hu => ?_) h3
    split
    · exact hp _ _ _ hu
    · exact hu
  clear_value s' put
  exact kept_foldl (fun u e hu => hp _ _ u hu) hs

theorem sendStep_kept {x0} {x1} {s2 : State} (h2 : Kept p k s2) :
    Kept p k (sendStep x0 x1 s2) := by
  unfold sendStep
  try dsimp only
  with_reducible repeat' first
    | assumption | (intro _; try dsimp only) | (refine kept_snd (by assumption) ?_) | (apply modField_kept) | (apply firmwareSection_kept)
    | (apply writeBatch_kept) | (apply step_kept) | (apply kept_ite) | (fail_if_no_progress apply kept_mk) | split

theorem actuateBatch_kept {x0} {s1 : State} (h1 : Kept p k s1) :
    Kept p k (actuateBatch x0 s1) := by
  unfold actuateBatch
  try dsimp only
  with_reducible repeat' first
    | assumption | (intro _; try dsimp only) | (apply actuate_kept) | (apply kept_ite) | (fail_if_no_progress apply kept_mk) | split

theorem dispatchStep_kept {x0} {x1} {s2 : State} (h2 : Kept p k s2) :
    Kept p k (dispatchStep x0 x1 s2) := by
  unfold dispatchStep
  try dsimp only
  with_reducible repeat' first
    | assumption | (intro _; try dsimp only) | (apply modField_kept) | (apply joinStep_kept) | (apply takeRows_kept) | (apply takeChunks_kept)
    | (apply sendStep_kept) | (apply step_kept) | (apply kept_foldl) | (apply kept_ite) | (fail_if_no_progress apply kept_mk) | split

theorem dispatchPrefill_kept {x0} {x1} {s2 : State} (h2 : Kept p k s2) :
    Kept p k (dispatchPrefill x0 x1 s2) := by
  unfold dispatchPrefill
  split
  · exact h2
  split
  · exact h2
  extract_lets ready
  have hr : ∀ r c n i t, ready = some (r, c, n, i, t) → Kept p k t := by
    intro r c n i t e
    obtain ⟨a, _, h⟩ := List.exists_of_findSome?_eq_some e
    split at h
    · cases h
    · obtain ⟨b, hb, h⟩ := Option.bind_eq_some_iff.1 h
      obtain ⟨u, hu, h⟩ := Option.map_eq_some_iff.1 h
      cases h
      exact allocPositions_kept h2 _ hu
  clear_value ready
  split
  · exact h2
  · rename_i r c n i t
    have ht := firmwareSection_kept (x0 := x0) (x1 := c.block.prefillSlot) (x2 := [1, 0, n, 0]) (x3 := i) (x4 := true) (x5 := [(r, n)])
      (joinStep_kept (x0 := r) (hr _ _ _ _ _ rfl))
    split
    · rename_i e; rw [e] at ht; exact ht
    · rename_i e; rw [e] at ht
      split
      · exact firmwareSection_kept ht
      · exact ht

theorem execStepBoundary_kept {x0} {s1 : State} (h1 : Kept p k s1) :
    KeptN p k (execStepBoundary x0 s1) := by
  unfold execStepBoundary
  try dsimp only
  with_reducible repeat' first
    | assumption | (intro _; try dsimp only) | (apply wakeField_kept) | (apply promoteReq_kept) | (apply tryPark_kept) | (apply actuateBatch_kept)
    | (apply dispatchStep_kept) | (apply dispatchPrefill_kept) | (apply keptN_next) | (apply kept_foldl) | (apply kept_foldl_pair) | (apply kept_ite)
    | split

theorem execTokenSample_kept {x0} {s1 : State} (h1 : Kept p k s1) :
    KeptN p k (execTokenSample x0 s1) := by
  unfold execTokenSample
  try dsimp only
  with_reducible repeat' first
    | assumption | (intro _; try dsimp only) | (apply modField_kept) | (apply closeReq_kept) | (apply sendStep_kept) | (apply step_kept)
    | (apply keptN_next) | (apply kept_foldl) | (apply kept_foldl_pair) | (apply kept_ite) | (fail_if_no_progress apply kept_mk) | split

theorem compactNodes_kept {x0} {x1} {x2} {s3 : State} (h3 : Kept p k s3) :
    Kept p k (compactNodes x0 x1 x2 s3) := by
  unfold compactNodes
  try dsimp only
  with_reducible repeat' first
    | assumption | (intro _; try dsimp only) | (fail_if_no_progress apply kept_mk) | split

theorem execStepCommit_kept {x0} {x1} {s2 : State} (h2 : Kept p k s2) :
    KeptN p k (execStepCommit x0 x1 s2) := by
  unfold execStepCommit
  try dsimp only
  with_reducible repeat' first
    | assumption | (intro _; try dsimp only) | (apply hostWrite_kept) | (apply setReq_kept) | (apply closeReq_kept) | (apply countPages_kept)
    | (apply dropPages_kept) | (apply compactNodes_kept) | (apply keptN_next) | (apply kept_ite) | (fail_if_no_progress apply kept_mk) | split

/-! ### Machine/Comets.lean -/

theorem execParkRequest_kept {x0} {x1} {x2} {s3 : State} (h3 : Kept p k s3) :
    KeptN p k (execParkRequest x0 x1 x2 s3) := by
  unfold execParkRequest
  try dsimp only
  with_reducible repeat' first
    | assumption | (intro _; try dsimp only) | (apply finish_kept) | (apply withDesc_kept) | (apply targetRequest_kept) | (apply keptN_next)
    | (apply kept_ite) | split

theorem execRequestIdlePark_kept {x0} {s1 : State} (h1 : Kept p k s1) :
    KeptN p k (execRequestIdlePark x0 s1) := by
  unfold execRequestIdlePark
  try dsimp only
  with_reducible repeat' first
    | assumption | (intro _; try dsimp only) | (apply modReq_kept) | (apply tryPark_kept) | (apply keptN_next) | (apply kept_ite)
    | (fail_if_no_progress apply kept_mk) | split

theorem parkFails_kept {x0} {x1} {s2 : State} (h2 : Kept p k s2) :
    Kept p k (parkFails x0 x1 s2) := by
  unfold parkFails
  try dsimp only
  with_reducible repeat' first
    | assumption | (intro _; try dsimp only) | (apply finish_kept) | (apply mboxEnd_kept) | (apply modReq_kept) | (apply releaseReserve_kept)
    | (fail_if_no_progress apply kept_mk) | split

theorem parkDone_kept {x0} {x1} {x2} {s3 : State} (h3 : Kept p k s3) :
    Kept p k (parkDone x0 x1 x2 s3) := by
  unfold parkDone
  try dsimp only
  with_reducible repeat' first
    | assumption | (intro _; try dsimp only) | (apply finish_kept) | (apply mboxEnd_kept) | (apply modReq_kept) | (apply closeReq_kept)
    | (fail_if_no_progress apply kept_mk) | split

theorem poolComet_kept {x0} {x1} {s2 : State} (h2 : Kept p k s2) :
    Kept p k (poolComet x0 x1 s2).2 := by
  unfold poolComet
  try dsimp only
  with_reducible repeat' first
    | assumption | (intro _; try dsimp only) | (refine kept_snd (by assumption) ?_) | (fail_if_no_progress apply kept_mk)

theorem chargeComet_kept {x0} {x1} {x2} {x3} {s4 : State} (h4 : Kept p k s4) :
    Kept p k (chargeComet x0 x1 x2 x3 s4) := by
  unfold chargeComet
  try dsimp only
  with_reducible repeat' first
    | assumption | (intro _; try dsimp only) | (apply chargeTier_kept) | (apply chargeHost_kept) | split

theorem execCometWritten_kept {x0} {g1} {s2 : State} (h2 : Kept p k s2) :
    KeptN p k (execCometWritten x0 g1 s2) := by
  unfold execCometWritten
  try dsimp only
  with_reducible repeat' first
    | assumption | (intro _; try dsimp only) | (refine keptOP_elim (by assumption) ?_) | (refine kept_snd (by assumption) ?_) | (apply hostWrite_kept)
    | (apply modReq_kept) | (apply releaseReserve_kept) | (apply meetLines_kept) | (apply noteLost_kept) | (apply reservePool_kept)
    | (apply startTx_kept) | (apply parkFails_kept) | (apply parkDone_kept) | (apply poolComet_kept) | (apply chargeComet_kept) | (exact keptOP_none)
    | (apply keptOP_some) | (apply keptN_next) | (apply kept_ite) | (fail_if_no_progress apply kept_mk) | split

theorem execResumeComet_kept {x0} {x1} {x2} {x3} {s4 : State} (h4 : Kept p k s4) :
    KeptN p k (execResumeComet x0 x1 x2 x3 s4) := by
  unfold execResumeComet
  try dsimp only
  with_reducible repeat' first
    | assumption | (intro _; try dsimp only) | (apply finish_kept) | (apply withDesc_kept) | (apply wakeField_kept) | (apply settleHolds_kept)
    | (apply awaitEntry_kept) | (apply keptN_next) | (apply kept_ite) | split

theorem execRetainedFree_kept {x0} {s1 : State} (h1 : Kept p k s1) :
    KeptN p k (execRetainedFree x0 s1) := by
  unfold execRetainedFree
  try dsimp only
  with_reducible repeat' first
    | assumption | (intro _; try dsimp only) | (apply mboxEnd_kept) | (apply mailbox_kept) | (apply closeReq_kept) | (apply keptN_next) | split

theorem packRetained_kept {x0} {x1} {s2 : State} (h2 : Kept p k s2) :
    Kept p k (packRetained x0 x1 s2) := by
  unfold packRetained
  split
  · exact mboxEnd_kept h2
  · exact setHost_kept (modReq_kept (reservePool_kept h2 _ _ (by assumption)))

theorem execRetainedPack_kept {x0} {s1 : State} (h1 : Kept p k s1) :
    KeptN p k (execRetainedPack x0 s1) := by
  unfold execRetainedPack
  try dsimp only
  with_reducible repeat' first
    | assumption | (intro _; try dsimp only) | (apply mboxEnd_kept) | (apply mailbox_kept) | (apply packRetained_kept) | (apply keptN_next)
    | (apply kept_ite) | split

theorem execCometTrust_kept {x0} {x1} {s2 : State} (h2 : Kept p k s2) :
    KeptN p k (execCometTrust x0 x1 s2) := by
  unfold execCometTrust
  try dsimp only
  with_reducible repeat' first
    | assumption | (intro _; try dsimp only) | (apply mboxEnd_kept) | (apply mailbox_kept) | (apply keptN_next) | (apply kept_ite)
    | (fail_if_no_progress apply kept_mk) | split

end Sys2Proof.Machine
end

