-- ==== Sys2Proof/Laws/KeptFabric.lean ====
section
/-!
SUPPORT. Every operation and every meaning of links, tiers, transfers, collectives and models keeps a sound state sound, the queue and the tick (Laws/Kept.lean).
-/

namespace Sys2Proof.Machine

variable {p : List Instr} {k : Base} {n : Nat}

/-! ### Machine/Links.lean -/

theorem setLink_kept {s0 : State} {x1} {x2} (h0 : Kept p k s0) :
    Kept p k (setLink s0 x1 x2) := by
  unfold setLink
  try dsimp only
  with_reducible repeat' first
    | assumption | (intro _; try dsimp only) | (fail_if_no_progress apply kept_mk)

theorem modLink_kept {x0} {x1} {s2 : State} (h2 : Kept p k s2) :
    Kept p k (modLink x0 x1 s2) := by
  unfold modLink
  try dsimp only
  with_reducible repeat' first
    | assumption | (intro _; try dsimp only) | (apply setLink_kept)

theorem chargeLink_kept {x0} {x1} {x2} {s3 : State} (h3 : Kept p k s3) :
    Kept p k (chargeLink x0 x1 x2 s3) := by
  unfold chargeLink
  try dsimp only
  with_reducible repeat' first
    | assumption | (intro _; try dsimp only) | (apply charge_kept) | (apply kept_ite) | (fail_if_no_progress apply kept_mk) | split

theorem execCommit_kept {s0 : State} (h0 : Kept p k s0) :
    KeptN p k (execCommit s0) := by
  unfold execCommit
  try dsimp only
  with_reducible repeat' first
    | assumption | (intro _; try dsimp only) | (apply keptN_next) | (apply kept_ite) | (fail_if_no_progress apply kept_mk) | split

theorem execRoutingBankSwap_kept {s0 : State} (h0 : Kept p k s0) :
    KeptN p k (execRoutingBankSwap s0) := by
  unfold execRoutingBankSwap
  try dsimp only
  with_reducible repeat' first
    | assumption | (intro _; try dsimp only) | (apply keptN_next) | (apply kept_ite) | (fail_if_no_progress apply kept_mk) | split

theorem openInstance_kept {x0} {s1 : State} (h1 : Kept p k s1) :
    Kept p k (openInstance x0 s1) := by
  unfold openInstance
  try dsimp only
  with_reducible repeat' first
    | assumption | (intro _; try dsimp only) | (apply kept_ite) | (fail_if_no_progress apply kept_mk) | split

theorem endInstance_kept {x0} {x1} {x2} {s3 : State} (h3 : Kept p k s3) :
    Kept p k (endInstance x0 x1 x2 s3) := by
  unfold endInstance
  try dsimp only
  with_reducible repeat' first
    | assumption | (intro _; try dsimp only) | (apply finish_kept) | (apply openInstance_kept) | (fail_if_no_progress apply kept_mk) | split

theorem setTx_kept {x0} {s1 : State} (h1 : Kept p k s1) :
    Kept p k (setTx x0 s1) := by
  unfold setTx
  try dsimp only
  with_reducible repeat' first
    | assumption | (intro _; try dsimp only) | (fail_if_no_progress apply kept_mk)

theorem dropTx_kept {x0} {s1 : State} (h1 : Kept p k s1) :
    Kept p k (dropTx x0 s1) := by
  unfold dropTx
  try dsimp only
  with_reducible repeat' first
    | assumption | (intro _; try dsimp only) | (fail_if_no_progress apply kept_mk)

theorem dropShip_kept {x0} {s1 : State} (h1 : Kept p k s1) :
    Kept p k (dropShip x0 s1) := by
  unfold dropShip
  try dsimp only
  with_reducible repeat' first
    | assumption | (intro _; try dsimp only) | (fail_if_no_progress apply kept_mk) | split

theorem endFeedTx_kept {x0} {x1} {x2} {x3} {s4 : State} (h4 : Kept p k s4) :
    Kept p k (endFeedTx x0 x1 x2 x3 s4) := by
  unfold endFeedTx
  try dsimp only
  with_reducible repeat' first
    | assumption | (intro _; try dsimp only) | (apply startAbort_kept) | (apply kept_ite) | (fail_if_no_progress apply kept_mk) | split

theorem failTx_kept {x0} {x1} {s2 : State} (h2 : Kept p k s2) :
    Kept p k (failTx x0 x1 s2) := by
  unfold failTx
  try dsimp only
  with_reducible repeat' first
    | assumption | (intro _; try dsimp only) | (apply finish_kept) | (apply parkFails_kept) | (apply endInstance_kept) | (apply dropTx_kept)
    | (apply dropShip_kept) | (apply endFeedTx_kept) | split

theorem enqueue_kept {x0} {x1} {x2} {x3} {s4 : State} (h4 : Kept p k s4) :
    Kept p k (enqueue x0 x1 x2 x3 s4) := by
  unfold enqueue
  try dsimp only
  with_reducible repeat' first
    | assumption | (intro _; try dsimp only) | (apply modLink_kept) | (fail_if_no_progress apply kept_mk)

theorem takeHop_kept {x0} {x1} {x2} {s3 : State} (h3 : Kept p k s3) :
    Kept p k (takeHop x0 x1 x2 s3) := by
  unfold takeHop
  try dsimp only
  with_reducible repeat' first
    | assumption | (intro _; try dsimp only) | (apply enqueue_kept) | (fail_if_no_progress apply kept_mk) | split

theorem sendDrop_kept {x0} {x1} {x2} {s3 : State} (h3 : Kept p k s3) :
    Kept p k (sendDrop x0 x1 x2 s3) := by
  unfold sendDrop
  try dsimp only
  with_reducible repeat' first
    | assumption | (intro _; try dsimp only) | (apply takeHop_kept) | (apply kept_ite) | split

theorem routePacket_kept {x0} {x1} {x2} {s3 : State} (h3 : Kept p k s3) :
    Kept p k (routePacket x0 x1 x2 s3) := by
  unfold routePacket
  try dsimp only
  with_reducible repeat' first
    | assumption | (intro _; try dsimp only) | (apply takeHop_kept) | (apply sendDrop_kept) | split

theorem noteSent_kept {x0} {x1} {x2} {s3 : State} (h3 : Kept p k s3) :
    Kept p k (noteSent x0 x1 x2 s3) := by
  unfold noteSent
  try dsimp only
  with_reducible repeat' first
    | assumption | (intro _; try dsimp only) | (apply setTx_kept) | (fail_if_no_progress apply kept_mk) | split

theorem sendPacket_kept {x0} {x1} {s2 : State} (h2 : Kept p k s2) :
    Kept p k (sendPacket x0 x1 s2) := by
  unfold sendPacket
  try dsimp only
  with_reducible repeat' first
    | assumption | (intro _; try dsimp only) | (apply failTx_kept) | (apply takeHop_kept) | (apply sendDrop_kept) | (apply noteSent_kept) | split

theorem execPacketHop_kept {x0} {x1} {x2} {g3} {s4 : State} (h4 : Kept p k s4) :
    KeptN p k (execPacketHop x0 x1 x2 g3 s4) := by
  unfold execPacketHop
  try dsimp only
  with_reducible repeat' first
    | assumption | (intro _; try dsimp only) | (apply modLink_kept) | (apply routePacket_kept) | (apply sendPacket_kept) | (apply keptN_next)
    | (apply kept_ite) | (fail_if_no_progress apply kept_mk) | split

theorem putOnWire_kept {x0} {x1} {s2 : State} (h2 : Kept p k s2) :
    Kept p k (putOnWire x0 x1 s2) := by
  unfold putOnWire
  try dsimp only
  with_reducible repeat' first
    | assumption | (intro _; try dsimp only) | (apply modLink_kept) | (fail_if_no_progress apply kept_mk)

theorem injectLink_kept {x0} {s1 : State} (h1 : Kept p k s1) :
    Kept p k (injectLink x0 s1) := by
  unfold injectLink
  try dsimp only
  with_reducible repeat' first
    | assumption | (intro _; try dsimp only) | (apply injFire_kept) | (apply modLink_kept) | (apply kept_ite) | (fail_if_no_progress apply kept_mk)
    | split

theorem logResend_kept {x0} {x1} {s2 : State} (h2 : Kept p k s2) :
    Kept p k (logResend x0 x1 s2) := by
  unfold logResend
  try dsimp only
  with_reducible repeat' first
    | assumption | (intro _; try dsimp only) | (apply logCorrected_kept) | (apply modLink_kept) | (apply kept_ite)
    | (fail_if_no_progress apply kept_mk) | split

theorem takeWhole_kept {x0} {x1} {x2} {s3 : State} (h3 : Kept p k s3) :
    Kept p k (takeWhole x0 x1 x2 s3) := by
  unfold takeWhole
  try dsimp only
  with_reducible repeat' first
    | assumption | (intro _; try dsimp only) | (apply setLink_kept) | (apply chargeLink_kept) | (apply kept_ite) | (fail_if_no_progress apply kept_mk)
    | split

theorem takeFlit_kept {x0} {x1} {s2 : State} (h2 : Kept p k s2) :
    Kept p k (takeFlit x0 x1 s2) := by
  unfold takeFlit
  try dsimp only
  with_reducible repeat' first
    | assumption | (intro _; try dsimp only) | (apply setLink_kept) | (apply takeWhole_kept) | (apply kept_foldl) | (apply kept_ite)
    | (fail_if_no_progress apply kept_mk) | split

theorem execFlitReceive_kept {x0} {x1} {s2 : State} (h2 : Kept p k s2) :
    KeptN p k (execFlitReceive x0 x1 s2) := by
  unfold execFlitReceive
  try dsimp only
  with_reducible repeat' first
    | assumption | (intro _; try dsimp only) | (apply setLink_kept) | (apply modLink_kept) | (apply putOnWire_kept) | (apply injectLink_kept)
    | (apply logResend_kept) | (apply takeFlit_kept) | (apply keptN_next) | (apply kept_ite) | (fail_if_no_progress apply kept_mk) | split

theorem downLink_kept {x0} {s1 : State} (h1 : Kept p k s1) :
    Kept p k (downLink x0 s1) := by
  unfold downLink
  try dsimp only
  with_reducible repeat' first
    | assumption | (intro _; try dsimp only) | (apply noteFence_kept) | (apply modLink_kept) | (fail_if_no_progress apply kept_mk)

theorem loseLink_kept {x0} {x1} {s2 : State} (h2 : Kept p k s2) :
    Kept p k (loseLink x0 x1 s2) := by
  unfold loseLink
  try dsimp only
  with_reducible repeat' first
    | assumption | (intro _; try dsimp only) | (apply downLink_kept) | (apply logClass1_kept) | (apply modLink_kept) | (fail_if_no_progress apply kept_mk) | split

theorem retryFails_kept {x0} {x1} {s2 : State} (h2 : Kept p k s2) :
    Kept p k (retryFails x0 x1 s2) := by
  unfold retryFails
  try dsimp only
  with_reducible repeat' first
    | assumption | (intro _; try dsimp only) | (apply setLink_kept) | (apply loseLink_kept) | (apply kept_ite) | (fail_if_no_progress apply kept_mk)
    | split

theorem execRetryExhausted_kept {x0} {x1} {s2 : State} (h2 : Kept p k s2) :
    KeptN p k (execRetryExhausted x0 x1 s2) := by
  unfold execRetryExhausted
  try dsimp only
  with_reducible repeat' first
    | assumption | (intro _; try dsimp only) | (apply retryFails_kept) | (apply keptN_next) | (apply kept_ite) | split

theorem execLaneLossOfLock_kept {x0} {x1} {s2 : State} (h2 : Kept p k s2) :
    KeptN p k (execLaneLossOfLock x0 x1 s2) := by
  unfold execLaneLossOfLock
  try dsimp only
  with_reducible repeat' first
    | assumption | (intro _; try dsimp only) | (apply retryFails_kept) | (apply keptN_next) | (apply kept_ite) | split

theorem execFastRetrainDone_kept {x0} {x1} {s2 : State} (h2 : Kept p k s2) :
    KeptN p k (execFastRetrainDone x0 x1 s2) := by
  unfold execFastRetrainDone
  try dsimp only
  with_reducible repeat' first
    | assumption | (intro _; try dsimp only) | (apply recordEvent_kept) | (apply logDetection_kept) | (apply injReset_kept) | (apply noteService_kept)
    | (apply setLink_kept) | (apply loseLink_kept) | (apply keptN_next) | (apply kept_ite) | (fail_if_no_progress apply kept_mk) | split
    | (apply kept_mks) | (refine Kept.store (p := p) (k := k) ?_)

theorem execLinkTrainingDone_kept {x0} {x1} {s2 : State} (h2 : Kept p k s2) :
    KeptN p k (execLinkTrainingDone x0 x1 s2) := by
  unfold execLinkTrainingDone
  try dsimp only
  with_reducible repeat' first
    | assumption | (intro _; try dsimp only) | (apply noteLift_kept) | (apply noteService_kept) | (apply setLink_kept) | (apply keptN_next)
    | (apply kept_ite) | (fail_if_no_progress apply kept_mk) | split

theorem startTraining_kept {x0} {s1 : State} (h1 : Kept p k s1) :
    Kept p k (startTraining x0 s1) := by
  unfold startTraining
  try dsimp only
  with_reducible repeat' first
    | assumption | (intro _; try dsimp only) | (apply injReset_kept) | (apply modLink_kept) | (fail_if_no_progress apply kept_mk) | split

theorem writeLinkEnable_kept {x0} {x1} {s2 : State} (h2 : Kept p k s2) :
    Kept p k (writeLinkEnable x0 x1 s2) := by
  unfold writeLinkEnable
  try dsimp only
  with_reducible repeat' first
    | assumption | (intro _; try dsimp only) | (apply setLink_kept) | (apply startTraining_kept) | (apply kept_ite)
    | (fail_if_no_progress apply kept_mk) | split

theorem execLinkEnable_kept {x0} {x1} {s2 : State} (h2 : Kept p k s2) :
    KeptN p k (execLinkEnable x0 x1 s2) := by
  unfold execLinkEnable
  try dsimp only
  with_reducible repeat' first
    | assumption | (intro _; try dsimp only) | (apply writeLinkEnable_kept) | (apply keptN_next) | (apply kept_ite) | split

theorem execRetrain_kept {x0} {s1 : State} (h1 : Kept p k s1) :
    KeptN p k (execRetrain x0 s1) := by
  unfold execRetrain
  try dsimp only
  with_reducible repeat' first
    | assumption | (intro _; try dsimp only) | (apply startTraining_kept) | (apply keptN_next) | (apply kept_ite) | split

theorem execNodeId_kept {x0} {s1 : State} (h1 : Kept p k s1) :
    KeptN p k (execNodeId x0 s1) := by
  unfold execNodeId
  try dsimp only
  with_reducible repeat' first
    | assumption | (intro _; try dsimp only) | (apply startTraining_kept) | (apply keptN_next) | (apply kept_foldl) | (apply kept_ite)
    | (fail_if_no_progress apply kept_mk) | split

theorem execPacketStallTimeout_kept {x0} {x1} {s2 : State} (h2 : Kept p k s2) :
    KeptN p k (execPacketStallTimeout x0 x1 s2) := by
  unfold execPacketStallTimeout
  try dsimp only
  with_reducible repeat' first
    | assumption | (intro _; try dsimp only) | (apply setLink_kept) | (apply sendDrop_kept) | (apply keptN_next) | (apply kept_ite)
    | (fail_if_no_progress apply kept_mk) | split

/-! ### Machine/Tiers.lean -/

theorem addPage_kept {x0} {x1} {s2 : State} (h2 : Kept p k s2) :
    Kept p k (addPage x0 x1 s2) := by
  unfold addPage
  try dsimp only
  with_reducible repeat' first
    | assumption | (intro _; try dsimp only) | (apply modField_kept) | (fail_if_no_progress apply kept_mk)

theorem mapPages_kept {x0} {x1} {x2} {s3 : State} (h3 : Kept p k s3) :
    KeptO p k (mapPages x0 x1 x2 s3) := by
  induction x1 generalizing x0 x2 s3 with
  | zero =>
    unfold mapPages
    try dsimp only
    with_reducible repeat' first
      | assumption | (intro _; try dsimp only) | (refine keptO_elim (by assumption) ?_) | (refine keptOP_elim (by assumption) ?_) | (apply place_kept)
      | (apply allocT1_kept) | (apply addPage_kept) | (exact keptO_none) | (apply keptO_some) | (exact keptOP_none) | (apply keptOP_some)
      | (apply keptO_bind) | (apply keptO_bindS) | (apply keptO_bindA) | (apply keptOP_bindA) | split
  | succ n ih =>
    unfold mapPages
    try dsimp only
    with_reducible repeat' first
      | assumption | apply ih | (intro _; try dsimp only) | (refine keptO_elim (by assumption) ?_) | (refine keptOP_elim (by assumption) ?_) | (apply place_kept)
      | (apply allocT1_kept) | (apply addPage_kept) | (exact keptO_none) | (apply keptO_some) | (exact keptOP_none) | (apply keptOP_some)
      | (apply keptO_bind) | (apply keptO_bindS) | (apply keptO_bindA) | (apply keptOP_bindA) | split

theorem execMap_kept {x0} {s1 : State} (h1 : Kept p k s1) :
    KeptN p k (execMap x0 s1) := by
  unfold execMap
  try dsimp only
  with_reducible repeat' first
    | assumption | (intro _; try dsimp only) | (refine keptO_elim (by assumption) ?_) | (apply mboxEnd_kept) | (apply mailbox_kept)
    | (apply wakeField_kept) | (apply mapPages_kept) | (exact keptO_none) | (apply keptO_some) | (apply keptN_next) | (apply kept_ite) | split

theorem evictCopies_kept {x0} {x1} {x2} {s3 : State} (h3 : Kept p k s3) :
    Kept p k (evictCopies x0 x1 x2 s3) := by
  unfold evictCopies
  try dsimp only
  with_reducible repeat' first
    | assumption | (intro _; try dsimp only) | (fail_if_no_progress apply kept_mk)

theorem removePages_kept {x0} {x1} {x2} {s3 : State} (h3 : Kept p k s3) :
    Kept p k (removePages x0 x1 x2 s3) := by
  unfold removePages
  try dsimp only
  with_reducible repeat' first
    | assumption | (intro _; try dsimp only) | (apply setField_kept) | (apply framesFreed_kept) | (apply evictCopies_kept) | (apply kept_foldl)
    | (fail_if_no_progress apply kept_mk) | split | (fail_if_no_progress apply memOk_mk) | (refine Kept.mem (p := p) (k := k) ?_) | (apply kept_mkm)

theorem execUnmap_kept {x0} {s1 : State} (h1 : Kept p k s1) :
    KeptN p k (execUnmap x0 s1) := by
  unfold execUnmap
  try dsimp only
  with_reducible repeat' first
    | assumption | (intro _; try dsimp only) | (apply mboxEnd_kept) | (apply mailbox_kept) | (apply removePages_kept) | (apply keptN_next)
    | (apply kept_ite) | split

theorem execPageMoveDone_kept {s0 : State} (h0 : Kept p k s0) :
    KeptN p k (execPageMoveDone s0) := by
  unfold execPageMoveDone
  try dsimp only
  with_reducible repeat' first
    | assumption | (intro _; try dsimp only) | (apply movePage_kept) | (apply framesFreed_kept) | (apply keptN_next) | (apply kept_ite)
    | (fail_if_no_progress apply kept_mk) | split | (fail_if_no_progress apply memOk_mk) | (refine Kept.mem (p := p) (k := k) ?_) | (apply kept_mkm)

theorem execCxlMemRead_kept {x0} {s1 : State} (h1 : Kept p k s1) :
    KeptN p k (execCxlMemRead x0 s1) := by
  unfold execCxlMemRead
  try dsimp only
  with_reducible repeat' first
    | assumption | (intro _; try dsimp only) | (refine kept_snd (by assumption) ?_) | (apply setHost_kept) | (apply chargeTier_kept)
    | (apply meetLines_kept) | (apply noteLost_kept) | (apply keptN_next) | (apply kept_ite) | (fail_if_no_progress apply kept_mk) | split

theorem execScrubPass_kept {x0} {x1} {s2 : State} (h2 : Kept p k s2) :
    KeptN p k (execScrubPass x0 x1 s2) := by
  unfold execScrubPass
  try dsimp only
  with_reducible repeat' first
    | assumption | (intro _; try dsimp only) | (apply injMeet_kept) | (apply injectLine_kept) | (refine kept_snd (by assumption) ?_) | (apply chargeTier_kept) | (apply injFire_kept)
    | (apply retireFrame_kept) | (apply logClass1_kept) | (apply logCorrected_kept) | (apply unitDetection_kept) | (apply injectLines_kept)
    | (apply keptN_next) | (apply kept_ite) | split

/-! ### Machine/Transfers.lean -/

theorem setRx_kept {x0} {s1 : State} (h1 : Kept p k s1) :
    Kept p k (setRx x0 s1) := by
  unfold setRx
  try dsimp only
  with_reducible repeat' first
    | assumption | (intro _; try dsimp only) | (fail_if_no_progress apply kept_mk)

theorem sendAck_kept {x0} {s1 : State} (h1 : Kept p k s1) :
    Kept p k (sendAck x0 s1) := by
  unfold sendAck
  try dsimp only
  with_reducible repeat' first
    | assumption | (intro _; try dsimp only) | (apply takeHop_kept) | (apply setRx_kept) | (apply kept_ite) | (fail_if_no_progress apply kept_mk)
    | split

theorem execAckSendTimer_kept {x0} {x1} {s2 : State} (h2 : Kept p k s2) :
    KeptN p k (execAckSendTimer x0 x1 s2) := by
  unfold execAckSendTimer
  try dsimp only
  with_reducible repeat' first
    | assumption | (intro _; try dsimp only) | (apply sendAck_kept) | (apply keptN_next) | (apply kept_ite) | split

theorem takeFeed_kept {x0} {s1 : State} (h1 : Kept p k s1) :
    KeptE p k (takeFeed x0 s1) := by
  unfold takeFeed
  try dsimp only
  with_reducible repeat' first
    | assumption | (intro _; try dsimp only) | (refine keptE_elim (by assumption) ?_) | (apply modSec_kept) | (apply pumpAll_kept)
    | (exact keptE_error) | (apply keptE_ok) | (fail_if_no_progress apply kept_mk) | split

theorem installShip_kept {x0} {x1} {x2} {x3} {s4 : State} (h4 : Kept p k s4) :
    KeptO p k (installShip x0 x1 x2 x3 s4) := by
  unfold installShip
  try dsimp only
  with_reducible repeat' first
    | assumption | (intro _; try dsimp only) | (refine keptO_elim (by assumption) ?_) | (apply modReq_kept) | (apply allocKv_kept)
    | (apply countPages_kept) | (apply settleHolds_kept) | (apply writeKv_kept) | (exact keptO_none) | (apply keptO_some) | (apply kept_foldl)
    | (apply kept_foldl_pair) | (apply keptO_foldl) | (apply keptO_bind) | (apply keptO_bindS) | (apply keptO_bindA) | (apply keptO_mapS)
    | (apply keptO_mapP) | (apply keptO_map) | (fail_if_no_progress apply kept_mk) | split

theorem keepComet_kept {x0} {g1} {s2 : State} (h2 : Kept p k s2) :
    Kept p k (keepComet x0 g1 s2).2 := by
  unfold keepComet
  try dsimp only
  with_reducible repeat' first
    | assumption | (intro _; try dsimp only) | (refine kept_snd (by assumption) ?_) | (apply releaseReserve_kept)
    | (fail_if_no_progress apply kept_mk) | split

theorem takeRoom_kept {x0} {x1} {s2 : State} (h2 : Kept p k s2) :
    KeptOP p k (takeRoom x0 x1 s2) := by
  unfold takeRoom
  try dsimp only
  with_reducible repeat' first
    | assumption | (intro _; try dsimp only) | (refine keptOP_elim (by assumption) ?_) | (apply reservePool_kept) | (exact keptOP_none)
    | (apply keptOP_some) | split

theorem acceptPacket_kept {x0} {x1} {s2 : State} (h2 : Kept p k s2) :
    KeptEP p k (acceptPacket x0 x1 s2) := by
  unfold acceptPacket
  try dsimp only
  with_reducible repeat' first
    | assumption | (intro _; try dsimp only) | (refine keptO_elim (by assumption) ?_) | (refine keptOP_elim (by assumption) ?_)
    | (refine keptE_elim (by assumption) ?_) | (refine keptEP_elim (by assumption) ?_) | (refine kept_snd (by assumption) ?_)
    | (apply chargeTier_kept) | (apply takeFeed_kept) | (apply installShip_kept) | (apply keepComet_kept) | (apply takeRoom_kept) | (exact keptO_none)
    | (apply keptO_some) | (exact keptOP_none) | (apply keptOP_some) | (exact keptE_error) | (apply keptE_ok) | (exact keptEP_error)
    | (apply keptEP_ok) | (apply keptO_mapS) | (apply keptO_mapP) | (apply keptO_map) | (apply keptOP_mapS) | (apply keptOP_map) | (apply keptEP_map)
    | (apply kept_ite) | (fail_if_no_progress apply kept_mk) | split

theorem execPacketDeliver_kept {x0} {x1} {s2 : State} (h2 : Kept p k s2) :
    KeptN p k (execPacketDeliver x0 x1 s2) := by
  unfold execPacketDeliver
  try dsimp only
  with_reducible repeat' first
    | assumption | (intro _; try dsimp only) | (refine keptEP_elim (by assumption) ?_) | (apply sendDrop_kept) | (apply setRx_kept)
    | (apply sendAck_kept) | (apply acceptPacket_kept) | (exact keptEP_error) | (apply keptEP_ok) | (apply keptN_next) | (apply kept_ite)
    | (fail_if_no_progress apply kept_mk) | split

theorem shipDone_kept {x0} {s1 : State} (h1 : Kept p k s1) :
    Kept p k (shipDone x0 s1) := by
  unfold shipDone
  try dsimp only
  with_reducible repeat' first
    | assumption | (intro _; try dsimp only) | (apply finish_kept) | (apply closeReq_kept) | (apply dropShip_kept) | (apply kept_ite) | split

theorem execAckReceive_kept {x0} {x1} {x2} {x3} {s4 : State} (h4 : Kept p k s4) :
    KeptN p k (execAckReceive x0 x1 x2 x3 s4) := by
  unfold execAckReceive
  try dsimp only
  with_reducible repeat' first
    | assumption | (intro _; try dsimp only) | (apply parkDone_kept) | (apply setTx_kept) | (apply dropTx_kept) | (apply endFeedTx_kept)
    | (apply shipDone_kept) | (apply keptN_next) | (apply kept_ite) | (fail_if_no_progress apply kept_mk) | split

theorem resendFrom_kept {x0} {s1 : State} (h1 : Kept p k s1) :
    Kept p k (resendFrom x0 s1) := by
  unfold resendFrom
  try dsimp only
  with_reducible repeat' first
    | assumption | (intro _; try dsimp only) | (apply sendPacket_kept) | (apply kept_foldl) | split

theorem execDropReceive_kept {x0} {x1} {g2} {s3 : State} (h3 : Kept p k s3) :
    KeptN p k (execDropReceive x0 x1 g2 s3) := by
  unfold execDropReceive
  try dsimp only
  with_reducible repeat' first
    | assumption | (intro _; try dsimp only) | (apply setTx_kept) | (apply failTx_kept) | (apply resendFrom_kept) | (apply keptN_next)
    | (apply kept_ite) | (fail_if_no_progress apply kept_mk) | split

theorem execResendTimeout_kept {x0} {s1 : State} (h1 : Kept p k s1) :
    KeptN p k (execResendTimeout x0 s1) := by
  unfold execResendTimeout
  try dsimp only
  with_reducible repeat' first
    | assumption | (intro _; try dsimp only) | (apply resendFrom_kept) | (apply keptN_next) | (apply kept_ite) | split

theorem execTransferWindowExpiry_kept {x0} {s1 : State} (h1 : Kept p k s1) :
    KeptN p k (execTransferWindowExpiry x0 s1) := by
  unfold execTransferWindowExpiry
  try dsimp only
  with_reducible repeat' first
    | assumption | (intro _; try dsimp only) | (apply failTx_kept) | (apply keptN_next) | (apply kept_ite) | split

theorem execKvShip_kept {x0} {x1} {x2} {s3 : State} (h3 : Kept p k s3) :
    KeptN p k (execKvShip x0 x1 x2 s3) := by
  unfold execKvShip
  try dsimp only
  with_reducible repeat' first
    | assumption | (intro _; try dsimp only) | (refine kept_snd (by assumption) ?_) | (apply setPhase_kept) | (apply finish_kept)
    | (apply withDesc_kept) | (apply chargeTier_kept) | (apply meetLines_kept) | (apply noteLost_kept) | (apply startTx_kept) | (apply keptN_next)
    | (apply kept_ite) | (fail_if_no_progress apply kept_mk) | split

/-! ### Machine/Collectives.lean -/

theorem execCollGroup_kept {x0} {x1} {x2} {x3} {x4} {s5 : State} (h5 : Kept p k s5) :
    KeptN p k (execCollGroup x0 x1 x2 x3 x4 s5) := by
  unfold execCollGroup
  try dsimp only
  with_reducible repeat' first
    | assumption | (intro _; try dsimp only) | (apply mboxEnd_kept) | (apply mailbox_kept) | (apply keptN_next) | (apply kept_ite)
    | (fail_if_no_progress apply kept_mk) | split

theorem execCopyCollective_kept {x0} {x1} {x2} {s3 : State} (h3 : Kept p k s3) :
    KeptN p k (execCopyCollective x0 x1 x2 s3) := by
  unfold execCopyCollective
  try dsimp only
  with_reducible repeat' first
    | assumption | (intro _; try dsimp only) | (apply setPhase_kept) | (apply finish_kept) | (apply closeBatches_kept) | (apply withDesc_kept)
    | (apply wakeField_kept) | (apply openInstance_kept) | (apply keptN_next) | (apply kept_ite) | (fail_if_no_progress apply kept_mk) | split

theorem setRun_kept {x0} {s1 : State} (h1 : Kept p k s1) :
    Kept p k (setRun x0 s1) := by
  unfold setRun
  try dsimp only
  with_reducible repeat' first
    | assumption | (intro _; try dsimp only) | (fail_if_no_progress apply kept_mk)

theorem sendSegment_kept {x0} {x1} {s2 : State} (h2 : Kept p k s2) :
    Kept p k (sendSegment x0 x1 s2) := by
  unfold sendSegment
  try dsimp only
  with_reducible repeat' first
    | assumption | (intro _; try dsimp only) | (apply startTx_kept) | (apply endInstance_kept) | (apply kept_ite) | split

theorem finishColl_kept {x0} {x1} {s2 : State} (h2 : Kept p k s2) :
    Kept p k (finishColl x0 x1 s2) := by
  unfold finishColl
  try dsimp only
  with_reducible repeat' first
    | assumption | (intro _; try dsimp only) | (refine keptO_elim (by assumption) ?_) | (apply writeDva_kept) | (apply touchRange_kept)
    | (apply chargePlace_kept) | (apply accessFault_kept) | (apply placeFault_kept) | (apply endInstance_kept) | (exact keptO_none) | (apply keptO_some) | split

theorem deliverColl_kept {x0} {s1 : State} (h1 : Kept p k s1) :
    Kept p k (deliverColl x0 s1) := by
  unfold deliverColl
  try dsimp only
  with_reducible repeat' first
    | assumption | (intro _; try dsimp only) | (apply setRun_kept) | (apply sendSegment_kept) | (apply finishColl_kept) | (apply kept_ite)
    | (fail_if_no_progress apply kept_mk) | split

theorem beginColl_kept {x0} {s1 : State} (h1 : Kept p k s1) :
    Kept p k (beginColl x0 s1) := by
  unfold beginColl
  try dsimp only
  with_reducible repeat' first
    | assumption | (intro _; try dsimp only) | (apply meetLines_kept) | (apply touchRange_kept) | (apply chargePlace_kept) | (apply accessFault_kept) | (apply placeFault_kept)
    | (apply endInstance_kept) | (apply setRun_kept) | (apply sendSegment_kept) | (apply deliverColl_kept) | (apply kept_ite)
    | (fail_if_no_progress apply kept_mk) | split

theorem execCollSetupPacket_kept {x0} {x1} {x2} {x3} {s4 : State} (h4 : Kept p k s4) :
    KeptN p k (execCollSetupPacket x0 x1 x2 x3 s4) := by
  unfold execCollSetupPacket
  try dsimp only
  with_reducible repeat' first
    | assumption | (intro _; try dsimp only) | (apply endInstance_kept) | (apply setRun_kept) | (apply beginColl_kept) | (apply keptN_next)
    | (apply kept_ite) | (fail_if_no_progress apply kept_mk) | split

theorem execCollSegmentReceive_kept {x0} {x1} {x2} {x3} {s4 : State} (h4 : Kept p k s4) :
    KeptN p k (execCollSegmentReceive x0 x1 x2 x3 s4) := by
  unfold execCollSegmentReceive
  try dsimp only
  with_reducible repeat' first
    | assumption | (intro _; try dsimp only) | (apply setRun_kept) | (apply sendSegment_kept) | (apply finishColl_kept) | (apply deliverColl_kept)
    | (apply keptN_next) | (apply kept_ite) | (fail_if_no_progress apply kept_mk) | split

theorem execJoinWaitExpiry_kept {x0} {s1 : State} (h1 : Kept p k s1) :
    KeptN p k (execJoinWaitExpiry x0 s1) := by
  unfold execJoinWaitExpiry
  try dsimp only
  with_reducible repeat' first
    | assumption | (intro _; try dsimp only) | (apply endInstance_kept) | (apply keptN_next) | (apply kept_ite) | split

/-! ### Machine/Models.lean -/

theorem meetPlaced_kept {x0} {x1} {s2 : State} (h2 : Kept p k s2) :
    Kept p k (meetPlaced x0 x1 s2).2 := by
  unfold meetPlaced
  split
  · exact h2
  · exact meetLines_kept h2

theorem writeShard_kept {x0} {x1} {x2} {s3 : State} (h3 : Kept p k s3) :
    Kept p k (writeShard x0 x1 x2 s3) := by
  unfold writeShard
  try dsimp only
  with_reducible repeat' first
    | assumption | (intro _; try dsimp only) | (apply cellWrite_kept) | (apply kept_foldl) | (apply kept_foldl_pair) | split

theorem installStore_kept {x0} {x1} {x2} {x3} {s4 : State} (h4 : Kept p k s4) :
    KeptO p k (installStore x0 x1 x2 x3 s4) := by
  unfold installStore
  try dsimp only
  with_reducible repeat' first
    | assumption | (intro _; try dsimp only) | (refine keptO_elim (by assumption) ?_) | (apply writeShard_kept) | (exact keptO_none)
    | (apply keptO_some) | (apply keptO_mapS) | (apply keptO_mapP) | (apply keptO_map) | (fail_if_no_progress apply kept_mk)

theorem mapShard_kept {x0} {x1} {x2} {x3} {x4} {x5} {s6 : State} (h6 : Kept p k s6) :
    KeptO p k (mapShard x0 x1 x2 x3 x4 x5 s6) := by
  induction x4 generalizing x0 x1 x2 x3 x5 s6 with
  | zero =>
    unfold mapShard
    try dsimp only
    with_reducible repeat' first
      | assumption | (intro _; try dsimp only) | (refine keptO_elim (by assumption) ?_) | (refine keptOP_elim (by assumption) ?_) | (apply place_kept)
      | (apply allocT1_kept) | (apply addPage_kept) | (exact keptO_none) | (apply keptO_some) | (exact keptOP_none) | (apply keptOP_some) | split
  | succ n ih =>
    unfold mapShard
    try dsimp only
    with_reducible repeat' first
      | assumption | apply ih | (intro _; try dsimp only) | (refine keptO_elim (by assumption) ?_) | (refine keptOP_elim (by assumption) ?_) | (apply place_kept)
      | (apply allocT1_kept) | (apply addPage_kept) | (exact keptO_none) | (apply keptO_some) | (exact keptOP_none) | (apply keptOP_some) | split

theorem placeShard_kept {x0} {x1} {x2} {x3} {s4 : State} (h4 : Kept p k s4) :
    KeptE p k (placeShard x0 x1 x2 x3 s4) := by
  unfold placeShard
  split
  · exact keptE_error
  · split
    · exact keptE_error
    · extract_lets old
      split
      · exact keptE_error
      · rename_i t e
        have ht : Kept p k t := mapShard_kept h4 t e
        extract_lets u
        have hu : Kept p k u := modField_kept ht
        clear_value u
        split
        · exact keptE_error
        · exact keptE_ok hu

theorem installTier1_kept {x0} {x1} {x2} {x3} {x4} {s5 : State} (h5 : Kept p k s5) :
    Kept p k (installTier1 x0 x1 x2 x3 x4 s5) := by
  unfold installTier1
  try dsimp only
  with_reducible repeat' first
    | assumption | (intro _; try dsimp only) | (apply framesFreed_kept) | (apply writeShard_kept) | (fail_if_no_progress apply kept_mk) | split
    | (fail_if_no_progress apply memOk_mk) | (refine Kept.mem (p := p) (k := k) ?_) | (apply kept_mkm)

theorem dropModel_kept {x0} {s1 : State} (h1 : Kept p k s1) :
    Kept p k (dropModel x0 s1) := by
  unfold dropModel
  try dsimp only
  with_reducible repeat' first
    | assumption | (intro _; try dsimp only) | (fail_if_no_progress apply kept_mk)

theorem settleDrop_kept {s0 : State} (h0 : Kept p k s0) :
    Kept p k (settleDrop s0) := by
  unfold settleDrop
  try dsimp only
  with_reducible repeat' first
    | assumption | (intro _; try dsimp only) | (apply mboxEnd_kept) | (apply dropModel_kept) | (apply kept_ite) | split

theorem endLoad_kept {x0} {x1} {x2} {s3 : State} (h3 : Kept p k s3) :
    Kept p k (endLoad x0 x1 x2 s3) := by
  unfold endLoad
  try dsimp only
  with_reducible repeat' first
    | assumption | (intro _; try dsimp only) | (apply finish_kept) | (apply settleDrop_kept) | (fail_if_no_progress apply kept_mk)

theorem setLoad_kept {x0} {s1 : State} (h1 : Kept p k s1) :
    Kept p k (setLoad x0 s1) := by
  unfold setLoad
  try dsimp only
  with_reducible repeat' first
    | assumption | (intro _; try dsimp only) | (fail_if_no_progress apply kept_mk)

theorem shardLoaded_kept {x0} {x1} {s2 : State} (h2 : Kept p k s2) :
    Kept p k (shardLoaded x0 x1 s2) := by
  unfold shardLoaded
  try dsimp only
  with_reducible repeat' first
    | assumption | (intro _; try dsimp only) | (apply setLoad_kept) | (fail_if_no_progress apply kept_mk)

theorem swapIn_kept {x0} {x1} {x2} {x3} {s4 : State} (h4 : Kept p k s4) :
    Kept p k (swapIn x0 x1 x2 x3 s4) := by
  unfold swapIn
  try dsimp only
  with_reducible repeat' first
    | assumption | (intro _; try dsimp only) | (refine keptE_elim (by assumption) ?_) | (refine kept_snd (by assumption) ?_) | (apply chargeTier_kept)
    | (apply noteLost_kept) | (apply meetPlaced_kept) | (apply placeShard_kept) | (apply installTier1_kept) | (apply endLoad_kept)
    | (apply shardLoaded_kept) | (exact keptE_error) | (apply keptE_ok) | (apply kept_ite) | split

theorem advanceLoads_kept {x0} {s1 : State} (h1 : Kept p k s1) :
    Kept p k (advanceLoads x0 s1) := by
  induction x0 generalizing s1 with
  | zero =>
    unfold advanceLoads
    try dsimp only
    with_reducible repeat' first
      | assumption | (intro _; try dsimp only) | (apply endLoad_kept) | (apply setLoad_kept) | (apply swapIn_kept) | (apply kept_ite)
      | (fail_if_no_progress apply kept_mk) | split
  | succ n ih =>
    unfold advanceLoads
    try dsimp only
    with_reducible repeat' first
      | assumption | apply ih | (intro _; try dsimp only) | (apply endLoad_kept) | (apply setLoad_kept) | (apply swapIn_kept) | (apply kept_ite)
      | (fail_if_no_progress apply kept_mk) | split

theorem execWeightLoad_kept {x0} {x1} {x2} {x3} {s4 : State} (h4 : Kept p k s4) :
    KeptN p k (execWeightLoad x0 x1 x2 x3 s4) := by
  unfold execWeightLoad
  try dsimp only
  with_reducible repeat' first
    | assumption | (intro _; try dsimp only) | (apply finish_kept) | (apply withDesc_kept) | (apply hubRead_kept) | (apply wakeField_kept)
    | (apply advanceLoads_kept) | (apply keptN_next) | (apply kept_ite) | (fail_if_no_progress apply kept_mk) | split

theorem shardRoom_kept {s0 : State} {x1} {x2} (h0 : Kept p k s0) :
    KeptE p k (shardRoom s0 x1 x2) := by
  unfold shardRoom
  try dsimp only
  with_reducible repeat' first
    | assumption | (intro _; try dsimp only) | (refine keptO_elim (by assumption) ?_) | (refine keptE_elim (by assumption) ?_)
    | (apply installStore_kept) | (apply placeShard_kept) | (exact keptO_none) | (apply keptO_some) | (exact keptE_error) | (apply keptE_ok)
    | (apply kept_ite) | split

theorem installShard_kept {x0} {x1} {x2} {s3 : State} (h3 : Kept p k s3) :
    Kept p k (installShard x0 x1 x2 s3) := by
  unfold installShard
  try dsimp only
  with_reducible repeat' first
    | assumption | (intro _; try dsimp only) | (refine keptO_elim (by assumption) ?_) | (apply chargeTier_kept) | (apply installStore_kept)
    | (apply installTier1_kept) | (exact keptO_none) | (apply keptO_some) | (apply kept_getD) | split

theorem execShardHashed_kept {x0} {s1 : State} (h1 : Kept p k s1) :
    KeptN p k (execShardHashed x0 s1) := by
  unfold execShardHashed
  try dsimp only
  with_reducible repeat' first
    | assumption | (intro _; try dsimp only) | (apply meetPlaced_kept) | (refine keptE_elim (by assumption) ?_) | (apply logDetection_kept) | (apply chargePlace_kept)
    | (apply injFire_kept) | (apply accessFault_kept) | (apply placeFault_kept) | (apply endLoad_kept) | (apply shardLoaded_kept) | (apply advanceLoads_kept)
    | (apply shardRoom_kept) | (apply installShard_kept) | (exact keptE_error) | (apply keptE_ok) | (apply keptN_next) | (apply kept_ite) | split

theorem setCopy_kept {g0} {x1} {x2} {x3} {s4 : State} (h4 : Kept p k s4) :
    Kept p k (setCopy g0 x1 x2 x3 s4) := by
  unfold setCopy
  try dsimp only
  with_reducible repeat' first
    | assumption | (intro _; try dsimp only) | (fail_if_no_progress apply kept_mk) | split

theorem quarantineEnds_kept {x0} {x1} {s2 : State} (h2 : Kept p k s2) :
    Kept p k (quarantineEnds x0 x1 s2) := by
  unfold quarantineEnds
  try dsimp only
  with_reducible repeat' first
    | assumption | (intro _; try dsimp only) | (apply startAbort_kept) | (apply kept_foldl) | split

theorem retireOf_kept {g0} {x1} {s2 : State} (h2 : Kept p k s2) :
    Kept p k (retireOf g0 x1 s2) := by
  unfold retireOf
  try dsimp only
  with_reducible repeat' first
    | assumption | (intro _; try dsimp only) | (apply retireFrame_kept) | (apply logClass1_kept) | (apply kept_ite)
    | (fail_if_no_progress apply kept_mk) | split

theorem execRehashPass_kept {g0} {x1} {x2} {x3} {x4} {s5 : State} (h5 : Kept p k s5) :
    KeptN p k (execRehashPass g0 x1 x2 x3 x4 s5) := by
  unfold execRehashPass
  try dsimp only
  with_reducible repeat' first
    | assumption | (intro _; try dsimp only) | (apply noteFence_kept) | (apply meetLines_kept) | (apply chargeTier_kept) | (apply settleCopies_kept) | (apply injFire_kept) | (apply logScoped_kept)
    | (apply setCopy_kept) | (apply quarantineEnds_kept) | (apply retireOf_kept) | (apply keptN_next) | (apply kept_ite)
    | (fail_if_no_progress apply kept_mk) | split

theorem execModelOwners_kept {x0} {x1} {s2 : State} (h2 : Kept p k s2) :
    KeptN p k (execModelOwners x0 x1 s2) := by
  unfold execModelOwners
  try dsimp only
  with_reducible repeat' first
    | assumption | (intro _; try dsimp only) | (apply mboxEnd_kept) | (apply mailbox_kept) | (apply keptN_next) | (apply kept_ite)
    | (fail_if_no_progress apply kept_mk) | split

theorem execModelDrop_kept {x0} {s1 : State} (h1 : Kept p k s1) :
    KeptN p k (execModelDrop x0 s1) := by
  unfold execModelDrop
  try dsimp only
  with_reducible repeat' first
    | assumption | (intro _; try dsimp only) | (apply setHost_kept) | (apply mboxEnd_kept) | (apply mailbox_kept) | (apply settleDrop_kept)
    | (apply keptN_next) | (apply kept_ite) | (fail_if_no_progress apply kept_mk) | split

end Sys2Proof.Machine
end

