-- ==== Sys2Proof/Laws/KeptHub.lean ====
section
/-!
SUPPORT. Every operation and every meaning of the meter, resets, the governor, the managers and power entry keeps a sound state sound, the queue and the tick (Laws/Kept.lean).
-/

namespace Sys2Proof.Machine

variable {p : List Instr} {k : Base} {n : Nat}

/-! ### Machine/Meter.lean -/

/-- The meter's register and accumulator do not differ. -/
theorem meterUp_mk {z : Meter} {n : Nat} {a0 a2 a4 a5 a6 a7 a8 a9 a10 a11 a12 a13 a14 a15 a16 a17 a18 a19 a20 a21 a22 a23} (hz : MeterUp n z) :
    MeterUp n (Meter.mk a0 z.accum a2 z.cum a4 a5 a6 a7 a8 a9 a10 a11 a12 a13 a14 a15 a16 a17 a18 a19 a20 a21 a22 a23) := hz

theorem meterUp_addRecord {z : Meter} {n : Nat} {r : MeterRec} (hz : MeterUp n z) : MeterUp n (addRecord r z) := hz

theorem meterUp_newInterval {z : Meter} {n : Nat} (hz : MeterUp n z) : MeterUp n (newInterval z) := hz

theorem meterUp_atBoundary {z : Meter} {n : Nat} (hz : MeterUp n z) : MeterUp n (atBoundary z) := hz

/-- A sample adds to the accumulator, and the register follows it (R416, R418). -/
theorem meterUp_sample {z : Meter} {n v i : Nat} (hz : MeterUp n z) : MeterUp n (sampleMeter v i z) := by
  obtain ⟨h1, h2⟩ := hz
  simp only [MeterUp, MeterOk, sampleMeter] at *
  exact ⟨by rw [h2] at h1; exact Nat.le_trans h1 (Nat.div_le_div_right (Nat.le_add_right _ _)), trivial⟩

/-- At power-up the accumulator takes the register's value: what was below 1 mWh is lost (R418). -/
theorem meterUp_powerUp {z : Meter} {n : Nat} {a0 a2 a4 a5 a6 a7 a8 a9 a10 a11 a12 a13 a14 a15 a16 a17 a18 a19 a20 a21 a22 a23} (hz : MeterUp n z) :
    MeterUp n (Meter.mk a0 (z.cum * 1000) a2 z.cum a4 a5 a6 a7 a8 a9 a10 a11 a12 a13 a14 a15 a16 a17 a18 a19 a20 a21 a22 a23) :=
  ⟨hz.1, by simp [MeterOk]⟩

/-- The state's meter, where the base asks that it has not fallen. -/
theorem Kept.meterOf {s : State} (hk : k.meter = MeterUp n) (h : Kept p k s) : MeterUp n s.meter := by
  have := h.meter
  rwa [hk] at this

theorem setMeter_kept (hk : k.meter = MeterUp n) {s0 : State} {x1} (h0 : Kept p k s0) (hm : MeterUp n x1) : Kept p k (setMeter s0 x1) :=
  kept_mkt h0 (by rw [hk]; exact ⟨hm, hm.2⟩)

theorem writeRecord_kept (hk : k.meter = MeterUp n) {x0} {s1 : State} (h1 : Kept p k s1) :
    Kept p k (writeRecord x0 s1) := by
  unfold writeRecord
  try dsimp only
  with_reducible repeat' first
    | assumption | (intro _; try dsimp only) | (apply setMeter_kept hk) | (apply kept_ite) | (fail_if_no_progress apply kept_mk) | split
    | (apply meterUp_sample) | (apply meterUp_addRecord) | (apply meterUp_newInterval) | (apply meterUp_atBoundary)
    | (fail_if_no_progress apply meterUp_mk) | (apply meterUp_powerUp) | (refine Kept.meterOf (p := p) (k := k) hk ?_)

theorem meterEvent_kept (hk : k.meter = MeterUp n) {x0} {s1 : State} (h1 : Kept p k s1) :
    Kept p k (meterEvent x0 s1) := by
  unfold meterEvent
  try dsimp only
  with_reducible repeat' first
    | assumption | (intro _; try dsimp only) | (apply writeRecord_kept hk)

theorem execMeterSample_kept (hk : k.meter = MeterUp n) {x0} {x1} {s2 : State} (h2 : Kept p k s2) :
    KeptN p k (execMeterSample x0 x1 s2) := by
  unfold execMeterSample
  try dsimp only
  with_reducible repeat' first
    | assumption | (intro _; try dsimp only) | (apply setMeter_kept hk) | (apply keptN_next) | (apply kept_ite) | split
    | (apply meterUp_sample) | (apply meterUp_addRecord) | (apply meterUp_newInterval) | (apply meterUp_atBoundary)
    | (fail_if_no_progress apply meterUp_mk) | (apply meterUp_powerUp) | (refine Kept.meterOf (p := p) (k := k) hk ?_)

theorem execMeterIntervalEnd_kept (hk : k.meter = MeterUp n) {s0 : State} (h0 : Kept p k s0) :
    KeptN p k (execMeterIntervalEnd s0) := by
  unfold execMeterIntervalEnd
  try dsimp only
  with_reducible repeat' first
    | assumption | (intro _; try dsimp only) | (apply setMeter_kept hk) | (apply writeRecord_kept hk) | (apply keptN_next) | (apply kept_ite) | split
    | (apply meterUp_sample) | (apply meterUp_addRecord) | (apply meterUp_newInterval) | (apply meterUp_atBoundary)
    | (fail_if_no_progress apply meterUp_mk) | (apply meterUp_powerUp) | (refine Kept.meterOf (p := p) (k := k) hk ?_)

theorem execMeterSelfCheck_kept (hk : k.meter = MeterUp n) {x0} {x1} {s2 : State} (h2 : Kept p k s2) :
    KeptN p k (execMeterSelfCheck x0 x1 s2) := by
  unfold execMeterSelfCheck
  try dsimp only
  with_reducible repeat' first
    | assumption | (intro _; try dsimp only) | (apply setMeter_kept hk) | (apply meterEvent_kept hk) | (apply keptN_next) | (apply kept_ite)
    | (fail_if_no_progress apply kept_mk) | split
    | (apply meterUp_sample) | (apply meterUp_addRecord) | (apply meterUp_newInterval) | (apply meterUp_atBoundary)
    | (fail_if_no_progress apply meterUp_mk) | (apply meterUp_powerUp) | (refine Kept.meterOf (p := p) (k := k) hk ?_)

theorem execMeterPowerLoss_kept (hk : k.meter = MeterUp n) {s0 : State} (h0 : Kept p k s0) :
    KeptN p k (execMeterPowerLoss s0) := by
  unfold execMeterPowerLoss
  try dsimp only
  with_reducible repeat' first
    | assumption | (intro _; try dsimp only) | (apply setMeter_kept hk) | (apply writeRecord_kept hk) | (apply keptN_next) | (apply kept_ite)
    | (fail_if_no_progress apply kept_mk) | split
    | (apply meterUp_sample) | (apply meterUp_addRecord) | (apply meterUp_newInterval) | (apply meterUp_atBoundary)
    | (fail_if_no_progress apply meterUp_mk) | (apply meterUp_powerUp) | (refine Kept.meterOf (p := p) (k := k) hk ?_)

theorem execMeterPowerUp_kept (hk : k.meter = MeterUp n) {x0} {s1 : State} (h1 : Kept p k s1) :
    KeptN p k (execMeterPowerUp x0 s1) := by
  unfold execMeterPowerUp
  try dsimp only
  with_reducible repeat' first
    | assumption | (intro _; try dsimp only) | (apply setMeter_kept hk) | (apply writeRecord_kept hk) | (apply meterEvent_kept hk) | (apply keptN_next)
    | (apply kept_ite) | (fail_if_no_progress apply kept_mk) | split
    | (apply meterUp_sample) | (apply meterUp_addRecord) | (apply meterUp_newInterval) | (apply meterUp_atBoundary)
    | (fail_if_no_progress apply meterUp_mk) | (apply meterUp_powerUp) | (refine Kept.meterOf (p := p) (k := k) hk ?_)

theorem execMeterRestart_kept (hk : k.meter = MeterUp n) {s0 : State} (h0 : Kept p k s0) :
    KeptN p k (execMeterRestart s0) := by
  unfold execMeterRestart
  try dsimp only
  with_reducible repeat' first
    | assumption | (intro _; try dsimp only) | (apply setMeter_kept hk) | (apply meterEvent_kept hk) | (apply keptN_next) | (apply kept_ite)
    | (fail_if_no_progress apply kept_mk) | split
    | (apply meterUp_sample) | (apply meterUp_addRecord) | (apply meterUp_newInterval) | (apply meterUp_atBoundary)
    | (fail_if_no_progress apply meterUp_mk) | (apply meterUp_powerUp) | (refine Kept.meterOf (p := p) (k := k) hk ?_)

theorem execSealEvent_kept (hk : k.meter = MeterUp n) {x0} {s1 : State} (h1 : Kept p k s1) :
    KeptN p k (execSealEvent x0 s1) := by
  unfold execSealEvent
  try dsimp only
  with_reducible repeat' first
    | assumption | (intro _; try dsimp only) | (apply setMeter_kept hk) | (apply meterEvent_kept hk) | (apply keptN_next) | (apply kept_ite)
    | (fail_if_no_progress apply kept_mk) | split
    | (apply meterUp_sample) | (apply meterUp_addRecord) | (apply meterUp_newInterval) | (apply meterUp_atBoundary)
    | (fail_if_no_progress apply meterUp_mk) | (apply meterUp_powerUp) | (refine Kept.meterOf (p := p) (k := k) hk ?_)

theorem execMeterStatusFrame_kept {s0 : State} (h0 : Kept p k s0) :
    KeptN p k (execMeterStatusFrame s0) := by
  unfold execMeterStatusFrame
  try dsimp only
  with_reducible repeat' first
    | assumption | (intro _; try dsimp only) | (apply keptN_next) | (apply kept_ite) | (fail_if_no_progress apply kept_mk) | split

theorem execMeterLinkTimeout_kept {s0 : State} (h0 : Kept p k s0) :
    KeptN p k (execMeterLinkTimeout s0) := by
  unfold execMeterLinkTimeout
  try dsimp only
  with_reducible repeat' first
    | assumption | (intro _; try dsimp only) | (apply keptN_next) | (fail_if_no_progress apply kept_mk)

theorem execReplayGo_kept {x0} {s1 : State} (h1 : Kept p k s1) :
    KeptN p k (execReplayGo x0 s1) := by
  unfold execReplayGo
  try dsimp only
  with_reducible repeat' first
    | assumption | (intro _; try dsimp only) | (apply keptN_next) | (apply kept_ite) | (fail_if_no_progress apply kept_mk) | split

theorem acceptMark_kept (hk : k.meter = MeterUp n) {x0} {s1 : State} (h1 : Kept p k s1) :
    Kept p k (acceptMark x0 s1) := by
  unfold acceptMark
  try dsimp only
  with_reducible repeat' first
    | assumption | (intro _; try dsimp only) | (apply setMeter_kept hk) | (apply meterEvent_kept hk) | (apply kept_ite)
    | (fail_if_no_progress apply kept_mk) | split
    | (apply meterUp_sample) | (apply meterUp_addRecord) | (apply meterUp_newInterval) | (apply meterUp_atBoundary)
    | (fail_if_no_progress apply meterUp_mk) | (apply meterUp_powerUp) | (refine Kept.meterOf (p := p) (k := k) hk ?_)

theorem setAcct_kept {s0 : State} {x1} (h0 : Kept p k s0) :
    Kept p k (setAcct s0 x1) := by
  unfold setAcct
  try dsimp only
  with_reducible repeat' first
    | assumption | (intro _; try dsimp only) | (fail_if_no_progress apply kept_mk)

theorem execEnergyApportionment_kept {s0 : State} (h0 : Kept p k s0) :
    KeptN p k (execEnergyApportionment s0) := by
  unfold execEnergyApportionment
  try dsimp only
  with_reducible repeat' first
    | assumption | (intro _; try dsimp only) | (apply setAcct_kept) | (apply keptN_next) | (apply kept_ite) | split

theorem execTake_kept {s0 : State} (h0 : Kept p k s0) :
    KeptN p k (execTake s0) := by
  unfold execTake
  try dsimp only
  with_reducible repeat' first
    | assumption | (intro _; try dsimp only) | (apply setAcct_kept) | (apply keptN_next) | (apply kept_ite) | (fail_if_no_progress apply kept_mk)
    | split

theorem execClear_kept {s0 : State} (h0 : Kept p k s0) :
    KeptN p k (execClear s0) := by
  unfold execClear
  try dsimp only
  with_reducible repeat' first
    | assumption | (intro _; try dsimp only) | (apply setAcct_kept) | (apply keptN_next) | (apply kept_ite) | (fail_if_no_progress apply kept_mk)
    | split

/-! ### Machine/Resets.lean -/

theorem endLoopbacks_kept {s0 : State} (h0 : Kept p k s0) :
    Kept p k (endLoopbacks s0) := by
  unfold endLoopbacks
  try dsimp only
  with_reducible repeat' first
    | assumption | (intro _; try dsimp only) | (apply startTraining_kept) | (apply kept_foldl) | (apply kept_foldl_pair) | (apply kept_ite)
    | (fail_if_no_progress apply kept_mk) | split

theorem endTest_kept {s0 : State} (h0 : Kept p k s0) :
    Kept p k (endTest s0) := by
  unfold endTest
  try dsimp only
  with_reducible repeat' first
    | assumption | (intro _; try dsimp only) | (apply logDetection_kept) | (apply endLoopbacks_kept) | (apply kept_ite)
    | (fail_if_no_progress apply kept_mk) | split | (fail_if_no_progress apply seqOk_mk) | (refine Kept.seq (p := p) (k := k) ?_) | (apply kept_mkf)

theorem coldState_kept {s0 : State} (h0 : Kept p k s0) :
    Kept p k (coldState s0) := by
  exact ⟨⟨h0.host, memWf_nil, memWf_nil⟩, ⟨by simp [coldState, faultsCold], by simp [coldState, faultsCold], by simp [coldState, faultsCold]⟩,
    h0.pending, h0.base⟩

theorem powerOnState_kept {s0 : State} (h0 : Kept p k s0) :
    Kept p k (powerOnState s0) := by
  unfold powerOnState
  try dsimp only
  with_reducible repeat' first
    | assumption | (intro _; try dsimp only) | (apply coldState_kept) | (fail_if_no_progress apply kept_mk)

theorem warmState_kept {s0 : State} (h0 : Kept p k s0) :
    Kept p k (warmState s0) := by
  have h := endTest_kept h0
  unfold warmState
  extract_lets s
  have h : Kept p k s := h
  clear_value s
  refine ⟨⟨h.host, ?_, h.tier2⟩, h.seq, h.pending, h.base⟩
  simp only [memWarm]; split
  · exact h.tier1
  · exact memWf_nil

theorem abortField_kept {x0} {x1} {s2 : State} (h2 : Kept p k s2) :
    Kept p k (abortField x0 x1 s2) := by
  unfold abortField
  try dsimp only
  with_reducible repeat' first
    | assumption | (intro _; try dsimp only) | (apply markAbort_kept) | (apply closeSection_kept) | (apply deliverAbort_kept) | (apply kept_foldl)
    | (apply kept_ite) | split

theorem freeChannels_kept {x0} {s1 : State} (h1 : Kept p k s1) :
    Kept p k (freeChannels x0 s1) := by
  unfold freeChannels
  try dsimp only
  with_reducible repeat' first
    | assumption | (intro _; try dsimp only) | (fail_if_no_progress apply kept_mk) | split

theorem clearUnits_kept {x0} {x1} {s2 : State} (h2 : Kept p k s2) :
    Kept p k (clearUnits x0 x1 s2) := by
  unfold clearUnits
  try dsimp only
  with_reducible repeat' first
    | assumption | (intro _; try dsimp only) | (fail_if_no_progress apply kept_mk) | split | (fail_if_no_progress apply memOk_mk)
    | (refine Kept.mem (p := p) (k := k) ?_) | (apply kept_mkm)

theorem resetField_kept {x0} {x1} {s2 : State} (h2 : Kept p k s2) :
    Kept p k (resetField x0 x1 s2) := by
  unfold resetField
  try dsimp only
  with_reducible repeat' first
    | assumption | (intro _; try dsimp only) | (apply modField_kept) | (apply injReset_kept) | (apply wakeField_kept) | (apply removeConfig_kept)
    | (apply abortField_kept) | (apply freeChannels_kept) | (apply clearUnits_kept) | (apply step_kept) | (apply kept_foldl) | (apply kept_foldl_pair)
    | (fail_if_no_progress apply kept_mk) | split

theorem retainRequests_kept {s0 : State} (h0 : Kept p k s0) :
    Kept p k (retainRequests s0) := by
  unfold retainRequests
  try dsimp only
  with_reducible repeat' first
    | assumption | (intro _; try dsimp only) | (apply modReq_kept) | (apply releaseReserve_kept) | (apply closeReq_kept) | (apply kept_foldl)
    | (apply kept_foldl_pair) | (apply kept_ite) | (fail_if_no_progress apply kept_mk) | split

theorem dropWork_kept {s0 : State} (h0 : Kept p k s0) :
    Kept p k (dropWork s0) := by
  unfold dropWork
  try dsimp only
  with_reducible repeat' first
    | assumption | (intro _; try dsimp only) | (fail_if_no_progress apply kept_mk) | split

theorem flrState_kept {s0 : State} (h0 : Kept p k s0) :
    Kept p k (flrState s0) := by
  unfold flrState
  extract_lets s1 s2 s3 s4
  have h1 : Kept p k s1 := kept_mk h0
  have h2 : Kept p k s2 := retainRequests_kept (dropWork_kept h1)
  have h3 : Kept p k s3 := kept_foldl (fun u e hu => abortField_kept hu) h2
  have h4 : Kept p k s4 := endTest_kept h3
  clear_value s4
  exact ⟨h4.mem, h4.seq, h4.pending, h4.base⟩

/-! ### Machine/Governor.lean -/

theorem setGov_kept {s0 : State} {x1} (h0 : Kept p k s0) :
    Kept p k (setGov s0 x1) := by
  unfold setGov
  try dsimp only
  with_reducible repeat' first
    | assumption | (intro _; try dsimp only) | (fail_if_no_progress apply kept_mk)

theorem noteLowering_kept {x0} {s1 : State} (h1 : Kept p k s1) :
    Kept p k (noteLowering x0 s1) := by
  unfold noteLowering
  try dsimp only
  with_reducible repeat' first
    | assumption | (intro _; try dsimp only) | (apply setGov_kept) | (apply kept_ite) | (fail_if_no_progress apply kept_mk) | split

theorem changeCaps_kept {x0} {s1 : State} (h1 : Kept p k s1) :
    Kept p k (changeCaps x0 s1) := by
  unfold changeCaps
  try dsimp only
  with_reducible repeat' first
    | assumption | (intro _; try dsimp only) | (apply setGov_kept) | (apply noteLowering_kept)

theorem setTarget_kept {x0} {s1 : State} (h1 : Kept p k s1) :
    Kept p k (setTarget x0 s1) := by
  unfold setTarget
  try dsimp only
  with_reducible repeat' first
    | assumption | (intro _; try dsimp only) | (apply actuate_kept) | (apply setGov_kept) | (apply kept_ite) | (fail_if_no_progress apply kept_mk)
    | split

theorem askPause_kept {x0} {s1 : State} (h1 : Kept p k s1) :
    Kept p k (askPause x0 s1) := by
  unfold askPause
  try dsimp only
  with_reducible repeat' first
    | assumption | (intro _; try dsimp only) | (apply actuate_kept) | (apply setGov_kept) | (apply kept_ite) | (fail_if_no_progress apply kept_mk)
    | split

theorem setBatchMove_kept {x0} {s1 : State} (h1 : Kept p k s1) :
    Kept p k (setBatchMove x0 s1) := by
  unfold setBatchMove
  try dsimp only
  with_reducible repeat' first
    | assumption | (intro _; try dsimp only) | (apply actuate_kept) | (apply setGov_kept) | (apply kept_ite) | (fail_if_no_progress apply kept_mk)
    | split

theorem parkField_kept {x0} {x1} {s2 : State} (h2 : Kept p k s2) :
    Kept p k (parkField x0 x1 s2) := by
  unfold parkField
  try dsimp only
  with_reducible repeat' first
    | assumption | (intro _; try dsimp only) | (apply recordEvent_kept) | (apply startDrain_kept) | (apply setGov_kept) | (apply kept_ite)
    | (fail_if_no_progress apply kept_mk) | split

theorem parkExcess_kept {x0} {x1} {x2} {s3 : State} (h3 : Kept p k s3) :
    Kept p k (parkExcess x0 x1 x2 s3) := by
  induction x1 generalizing x0 x2 s3 with
  | nil =>
    unfold parkExcess
    try dsimp only
    with_reducible repeat' first
      | assumption | (intro _; try dsimp only) | (apply setGov_kept) | (apply parkField_kept) | (apply kept_foldl) | (fail_if_no_progress apply kept_mk)
  | cons a l ih =>
    unfold parkExcess
    try dsimp only
    with_reducible repeat' first
      | assumption | apply ih | (intro _; try dsimp only) | (apply setGov_kept) | (apply parkField_kept) | (apply kept_foldl) | (fail_if_no_progress apply kept_mk)

theorem unparkField_kept {x0} {s1 : State} (h1 : Kept p k s1) :
    Kept p k (unparkField x0 s1) := by
  unfold unparkField
  try dsimp only
  with_reducible repeat' first
    | assumption | (intro _; try dsimp only) | (apply recordEvent_kept) | (apply resumeDrained_kept) | (apply setGov_kept)
    | (fail_if_no_progress apply kept_mk) | split

theorem execGovernorCheck_kept {x0} {x1} {s2 : State} (h2 : Kept p k s2) :
    KeptN p k (execGovernorCheck x0 x1 s2) := by
  unfold execGovernorCheck
  try dsimp only
  with_reducible repeat' first
    | assumption | (intro _; try dsimp only) | (apply setTarget_kept) | (apply askPause_kept) | (apply setBatchMove_kept) | (apply parkExcess_kept)
    | (apply keptN_next) | (apply kept_ite) | split

theorem execGovernorUnpark_kept {x0} {s1 : State} (h1 : Kept p k s1) :
    KeptN p k (execGovernorUnpark x0 s1) := by
  unfold execGovernorUnpark
  try dsimp only
  with_reducible repeat' first
    | assumption | (intro _; try dsimp only) | (apply unparkField_kept) | (apply keptN_next) | (apply kept_ite) | split

theorem freeSteps_kept {s0 : State} (h0 : Kept p k s0) :
    Kept p k (freeSteps s0).2 := by
  unfold freeSteps
  try dsimp only
  with_reducible repeat' first
    | assumption | (intro _; try dsimp only) | (refine kept_snd (by assumption) ?_) | (fail_if_no_progress apply kept_mk)

theorem tightenLever_kept {s0 : State} (h0 : Kept p k s0) :
    Kept p k (tightenLever s0) := by
  unfold tightenLever
  try dsimp only
  with_reducible repeat' first
    | assumption | (intro _; try dsimp only) | (refine kept_snd (by assumption) ?_) | (apply setTarget_kept) | (apply askPause_kept)
    | (apply setBatchMove_kept) | (apply parkField_kept) | (apply freeSteps_kept) | (apply kept_ite) | (fail_if_no_progress apply kept_mk) | split

theorem releaseLever_kept {s0 : State} (h0 : Kept p k s0) :
    Kept p k (releaseLever s0) := by
  unfold releaseLever
  try dsimp only
  with_reducible repeat' first
    | assumption | (intro _; try dsimp only) | (refine kept_snd (by assumption) ?_) | (apply setTarget_kept) | (apply askPause_kept)
    | (apply setBatchMove_kept) | (apply freeSteps_kept) | (apply kept_ite) | split

theorem inputStep_kept {x0} {s1 : State} (h1 : Kept p k s1) :
    Kept p k (inputStep x0 s1) := by
  unfold inputStep
  try dsimp only
  with_reducible repeat' first
    | assumption | (intro _; try dsimp only) | (apply changeCaps_kept) | (apply setTarget_kept) | (apply kept_ite)
    | (fail_if_no_progress apply kept_mk) | split

theorem execP100Window_kept {x0} {x1} {s2 : State} (h2 : Kept p k s2) :
    KeptN p k (execP100Window x0 x1 s2) := by
  unfold execP100Window
  try dsimp only
  with_reducible repeat' first
    | assumption | (intro _; try dsimp only) | (apply setGov_kept) | (apply setBatchMove_kept) | (apply tightenLever_kept) | (apply releaseLever_kept)
    | (apply inputStep_kept) | (apply keptN_next) | (apply kept_ite) | (fail_if_no_progress apply kept_mk) | split

theorem reportLag_kept {s0 : State} (h0 : Kept p k s0) :
    Kept p k (reportLag s0) := by
  unfold reportLag
  try dsimp only
  with_reducible repeat' first
    | assumption | (intro _; try dsimp only) | (apply post_kept) | (apply mctpSend_kept) | (apply kept_foldl) | (apply kept_foldl_pair) | split

theorem execLagEpisodeStart_kept {s0 : State} (h0 : Kept p k s0) :
    KeptN p k (execLagEpisodeStart s0) := by
  unfold execLagEpisodeStart
  try dsimp only
  with_reducible repeat' first
    | assumption | (intro _; try dsimp only) | (apply setGov_kept) | (apply reportLag_kept) | (apply keptN_next) | (apply kept_ite)
    | (fail_if_no_progress apply kept_mk) | split

theorem execLagReport_kept {s0 : State} (h0 : Kept p k s0) :
    KeptN p k (execLagReport s0) := by
  unfold execLagReport
  try dsimp only
  with_reducible repeat' first
    | assumption | (intro _; try dsimp only) | (apply reportLag_kept) | (apply keptN_next) | (apply kept_ite) | split

theorem execLagEpisodeEnd_kept {s0 : State} (h0 : Kept p k s0) :
    KeptN p k (execLagEpisodeEnd s0) := by
  unfold execLagEpisodeEnd
  try dsimp only
  with_reducible repeat' first
    | assumption | (intro _; try dsimp only) | (apply setGov_kept) | (apply reportLag_kept) | (apply keptN_next) | (apply kept_ite)
    | (fail_if_no_progress apply kept_mk) | split

theorem execThermalHot_kept {x0} {x1} {s2 : State} (h2 : Kept p k s2) :
    KeptN p k (execThermalHot x0 x1 s2) := by
  unfold execThermalHot
  try dsimp only
  with_reducible repeat' first
    | assumption | (intro _; try dsimp only) | (apply setGov_kept) | (apply changeCaps_kept) | (apply keptN_next) | (apply kept_ite)
    | (fail_if_no_progress apply kept_mk) | split

theorem execThermalCapStep_kept {x0} {s1 : State} (h1 : Kept p k s1) :
    KeptN p k (execThermalCapStep x0 s1) := by
  unfold execThermalCapStep
  try dsimp only
  with_reducible repeat' first
    | assumption | (intro _; try dsimp only) | (apply setGov_kept) | (apply changeCaps_kept) | (apply keptN_next) | (apply kept_ite)
    | (fail_if_no_progress apply kept_mk) | split

theorem execThermalPark_kept {x0} {s1 : State} (h1 : Kept p k s1) :
    KeptN p k (execThermalPark x0 s1) := by
  unfold execThermalPark
  try dsimp only
  with_reducible repeat' first
    | assumption | (intro _; try dsimp only) | (apply powerEvent_kept) | (apply setGov_kept) | (apply parkField_kept) | (apply keptN_next)
    | (apply kept_foldl) | (apply kept_ite) | (fail_if_no_progress apply kept_mk) | split

theorem execThermalUnpark_kept {x0} {s1 : State} (h1 : Kept p k s1) :
    KeptN p k (execThermalUnpark x0 s1) := by
  unfold execThermalUnpark
  try dsimp only
  with_reducible repeat' first
    | assumption | (intro _; try dsimp only) | (apply setGov_kept) | (apply keptN_next) | (apply kept_ite) | (fail_if_no_progress apply kept_mk)
    | split

/-! ### Machine/Managers.lean -/

theorem mgmtReport_kept {s0 : State} (h0 : Kept p k s0) :
    Kept p k (mgmtReport s0) := by
  unfold mgmtReport
  try dsimp only
  with_reducible repeat' first
    | assumption | (intro _; try dsimp only) | (apply mctpSend_kept) | (fail_if_no_progress apply kept_mk)

theorem takeMessage_kept {x0} {x1} {s2 : State} (h2 : Kept p k s2) :
    Kept p k (takeMessage x0 x1 s2) := by
  unfold takeMessage
  try dsimp only
  with_reducible repeat' first
    | assumption | (intro _; try dsimp only) | (apply changeCaps_kept)

theorem execHeartbeat_kept {x0} {x1} {s2 : State} (h2 : Kept p k s2) :
    KeptN p k (execHeartbeat x0 x1 s2) := by
  unfold execHeartbeat
  try dsimp only
  with_reducible repeat' first
    | assumption | (intro _; try dsimp only) | (apply mctpRespond_kept) | (apply takeMessage_kept) | (apply keptN_next) | (apply kept_ite)
    | (fail_if_no_progress apply kept_mk) | split

theorem execSetCap_kept {x0} {x1} {s2 : State} (h2 : Kept p k s2) :
    KeptN p k (execSetCap x0 x1 s2) := by
  unfold execSetCap
  try dsimp only
  with_reducible repeat' first
    | assumption | (intro _; try dsimp only) | (apply mctpRespond_kept) | (apply takeMessage_kept) | (apply keptN_next) | (apply kept_ite)
    | (fail_if_no_progress apply kept_mk) | split

theorem execSetOrphanCap_kept {x0} {x1} {s2 : State} (h2 : Kept p k s2) :
    KeptN p k (execSetOrphanCap x0 x1 s2) := by
  unfold execSetOrphanCap
  try dsimp only
  with_reducible repeat' first
    | assumption | (intro _; try dsimp only) | (apply mctpRespond_kept) | (apply takeMessage_kept) | (apply keptN_next) | (apply kept_ite)
    | (fail_if_no_progress apply kept_mk) | split

theorem execGetStatus_kept {x0} {s1 : State} (h1 : Kept p k s1) :
    KeptN p k (execGetStatus x0 s1) := by
  unfold execGetStatus
  try dsimp only
  with_reducible repeat' first
    | assumption | (intro _; try dsimp only) | (apply mctpRespond_kept) | (apply takeMessage_kept) | (apply keptN_next) | (apply kept_ite) | split

theorem execMeterMark_kept (hk : k.meter = MeterUp n) {x0} {x1} {s2 : State} (h2 : Kept p k s2) :
    KeptN p k (execMeterMark x0 x1 s2) := by
  unfold execMeterMark
  try dsimp only
  with_reducible repeat' first
    | assumption | (intro _; try dsimp only) | (apply mctpRespond_kept) | (apply acceptMark_kept hk) | (apply takeMessage_kept) | (apply keptN_next)
    | (apply kept_ite) | split

theorem execManagersSilent_kept {s0 : State} (h0 : Kept p k s0) :
    KeptN p k (execManagersSilent s0) := by
  unfold execManagersSilent
  try dsimp only
  with_reducible repeat' first
    | assumption | (intro _; try dsimp only) | (apply powerEvent_kept) | (apply changeCaps_kept) | (apply keptN_next) | (apply kept_ite)
    | (fail_if_no_progress apply kept_mk) | split

theorem execPeriodicPowerReport_kept {s0 : State} (h0 : Kept p k s0) :
    KeptN p k (execPeriodicPowerReport s0) := by
  unfold execPeriodicPowerReport
  try dsimp only
  with_reducible repeat' first
    | assumption | (intro _; try dsimp only) | (apply powerEvent_kept) | (apply mgmtReport_kept) | (apply keptN_next) | (apply kept_ite) | split

theorem execDynamicAddressAssignment_kept {x0} {x1} {s2 : State} (h2 : Kept p k s2) :
    KeptN p k (execDynamicAddressAssignment x0 x1 s2) := by
  unfold execDynamicAddressAssignment
  try dsimp only
  with_reducible repeat' first
    | assumption | (intro _; try dsimp only) | (apply setGov_kept) | (apply keptN_next) | (apply kept_ite) | (fail_if_no_progress apply kept_mk)
    | split

/-! ### Machine/Entry.lean -/

theorem setEntry_kept {s0 : State} {x1} (h0 : Kept p k s0) :
    Kept p k (setEntry s0 x1) := by
  unfold setEntry
  try dsimp only
  with_reducible repeat' first
    | assumption | (intro _; try dsimp only) | (fail_if_no_progress apply kept_mk)

theorem writeEndurance_kept {s0 : State} (h0 : Kept p k s0) :
    Kept p k (writeEndurance s0) := by
  unfold writeEndurance
  try dsimp only
  with_reducible repeat' first
    | assumption | (intro _; try dsimp only) | (fail_if_no_progress apply kept_mk)
    | (apply kept_mks) | (refine Kept.store (p := p) (k := k) ?_)

theorem railsOff_kept {s0 : State} (h0 : Kept p k s0) :
    Kept p k (railsOff s0) := by
  unfold railsOff
  try dsimp only
  with_reducible repeat' first
    | assumption | (intro _; try dsimp only) | (apply coldState_kept) | (fail_if_no_progress apply kept_mk) | (fail_if_no_progress apply seqOk_mk)
    | (refine Kept.seq (p := p) (k := k) ?_) | (apply kept_mkf)

theorem railsOn_kept {s0 : State} (h0 : Kept p k s0) :
    Kept p k (railsOn s0) := by
  unfold railsOn
  try dsimp only
  with_reducible repeat' first
    | assumption | (intro _; try dsimp only) | (apply coldState_kept) | (fail_if_no_progress apply kept_mk)
    | (apply kept_mks) | (refine Kept.store (p := p) (k := k) ?_)

theorem actOnPwrEn_kept {s0 : State} (h0 : Kept p k s0) :
    Kept p k (actOnPwrEn s0) := by
  unfold actOnPwrEn
  try dsimp only
  with_reducible repeat' first
    | assumption | (intro _; try dsimp only) | (apply powerEvent_kept) | (apply setEntry_kept) | (apply railsOn_kept) | (apply kept_ite)
    | (fail_if_no_progress apply kept_mk) | split

theorem execP56vContact_kept {s0 : State} (h0 : Kept p k s0) :
    KeptN p k (execP56vContact s0) := by
  unfold execP56vContact
  try dsimp only
  with_reducible repeat' first
    | assumption | (intro _; try dsimp only) | (apply setEntry_kept) | (apply keptN_next) | (apply kept_ite) | (fail_if_no_progress apply kept_mk)
    | split

theorem auxUp_kept {s0 : State} (h0 : Kept p k s0) :
    Kept p k (auxUp s0) := by
  unfold auxUp
  try dsimp only
  with_reducible repeat' first
    | assumption | (intro _; try dsimp only) | (apply powerOnState_kept) | (apply setEntry_kept) | (apply actOnPwrEn_kept) | (apply kept_ite)
    | (fail_if_no_progress apply kept_mk) | split

theorem inputAboveAux_kept {s0 : State} (h0 : Kept p k s0) :
    Kept p k (inputAboveAux s0) := by
  unfold inputAboveAux
  try dsimp only
  with_reducible repeat' first
    | assumption | (intro _; try dsimp only) | (apply setEntry_kept) | (apply auxUp_kept) | (apply kept_ite) | (fail_if_no_progress apply kept_mk)
    | split

theorem execPrechargeComplete_kept {s0 : State} (h0 : Kept p k s0) :
    KeptN p k (execPrechargeComplete s0) := by
  unfold execPrechargeComplete
  try dsimp only
  with_reducible repeat' first
    | assumption | (intro _; try dsimp only) | (apply setEntry_kept) | (apply auxUp_kept) | (apply keptN_next) | (apply kept_ite)
    | (fail_if_no_progress apply kept_mk) | split

theorem latchPrecharge_kept {x0} {s1 : State} (h1 : Kept p k s1) :
    Kept p k (latchPrecharge x0 s1) := by
  unfold latchPrecharge
  try dsimp only
  with_reducible repeat' first
    | assumption | (intro _; try dsimp only) | (apply powerOnState_kept) | (apply mgmtReport_kept) | (apply setEntry_kept) | (apply kept_ite)
    | (fail_if_no_progress apply kept_mk) | split

theorem execPrechargeTimeout_kept {x0} {s1 : State} (h1 : Kept p k s1) :
    KeptN p k (execPrechargeTimeout x0 s1) := by
  unfold execPrechargeTimeout
  try dsimp only
  with_reducible repeat' first
    | assumption | (intro _; try dsimp only) | (apply latchPrecharge_kept) | (apply keptN_next) | (apply kept_ite) | split

theorem execPwrEnRise_kept {s0 : State} (h0 : Kept p k s0) :
    KeptN p k (execPwrEnRise s0) := by
  unfold execPwrEnRise
  try dsimp only
  with_reducible repeat' first
    | assumption | (intro _; try dsimp only) | (apply setEntry_kept) | (apply actOnPwrEn_kept) | (apply keptN_next) | (apply kept_ite)
    | (fail_if_no_progress apply kept_mk) | split

theorem execPwrEnHoldExpiry_kept {s0 : State} (h0 : Kept p k s0) :
    KeptN p k (execPwrEnHoldExpiry s0) := by
  unfold execPwrEnHoldExpiry
  try dsimp only
  with_reducible repeat' first
    | assumption | (intro _; try dsimp only) | (apply setEntry_kept) | (apply actOnPwrEn_kept) | (apply keptN_next) | (apply kept_ite)
    | (fail_if_no_progress apply kept_mk) | split

theorem execPwrEnFall_kept {s0 : State} (h0 : Kept p k s0) :
    KeptN p k (execPwrEnFall s0) := by
  unfold execPwrEnFall
  try dsimp only
  with_reducible repeat' first
    | assumption | (intro _; try dsimp only) | (apply setEntry_kept) | (apply writeEndurance_kept) | (apply railsOff_kept) | (apply keptN_next)
    | (apply kept_ite) | (fail_if_no_progress apply kept_mk) | split

theorem execRemoveOkRelease_kept {s0 : State} (h0 : Kept p k s0) :
    KeptN p k (execRemoveOkRelease s0) := by
  unfold execRemoveOkRelease
  try dsimp only
  with_reducible repeat' first
    | assumption | (intro _; try dsimp only) | (apply setEntry_kept) | (apply keptN_next) | (apply kept_ite) | (fail_if_no_progress apply kept_mk)
    | split

theorem execAttnN_kept {s0 : State} (h0 : Kept p k s0) :
    KeptN p k (execAttnN s0) := by
  unfold execAttnN
  try dsimp only
  with_reducible repeat' first
    | assumption | (intro _; try dsimp only) | (apply setHost_kept) | (apply raiseVector_kept) | (apply mgmtReport_kept) | (apply keptN_next)
    | (apply kept_ite) | (fail_if_no_progress apply kept_mk) | split

theorem execFlowOkFall_kept {s0 : State} (h0 : Kept p k s0) :
    KeptN p k (execFlowOkFall s0) := by
  unfold execFlowOkFall
  try dsimp only
  with_reducible repeat' first
    | assumption | (intro _; try dsimp only) | (apply powerEvent_kept) | (apply changeCaps_kept) | (apply setEntry_kept) | (apply keptN_next)
    | (apply kept_ite) | (fail_if_no_progress apply kept_mk) | split

theorem execFlowOkRise_kept {s0 : State} (h0 : Kept p k s0) :
    KeptN p k (execFlowOkRise s0) := by
  unfold execFlowOkRise
  try dsimp only
  with_reducible repeat' first
    | assumption | (intro _; try dsimp only) | (apply changeCaps_kept) | (apply setEntry_kept) | (apply actOnPwrEn_kept) | (apply keptN_next)
    | (apply kept_ite) | (fail_if_no_progress apply kept_mk) | split

theorem execFlowCapLift_kept {s0 : State} (h0 : Kept p k s0) :
    KeptN p k (execFlowCapLift s0) := by
  unfold execFlowCapLift
  try dsimp only
  with_reducible repeat' first
    | assumption | (intro _; try dsimp only) | (apply changeCaps_kept) | (apply keptN_next) | (apply kept_ite) | (fail_if_no_progress apply kept_mk)
    | split

theorem inputFloor_kept {x0} {s1 : State} (h1 : Kept p k s1) :
    Kept p k (inputFloor x0 s1) := by
  unfold inputFloor
  try dsimp only
  with_reducible repeat' first
    | assumption | (intro _; try dsimp only) | (apply changeCaps_kept) | (fail_if_no_progress apply kept_mk)

theorem execInputBelow50v_kept {x0} {s1 : State} (h1 : Kept p k s1) :
    KeptN p k (execInputBelow50v x0 s1) := by
  unfold execInputBelow50v
  try dsimp only
  with_reducible repeat' first
    | assumption | (intro _; try dsimp only) | (apply powerEvent_kept) | (apply setGov_kept) | (apply setTarget_kept) | (apply setEntry_kept)
    | (apply inputAboveAux_kept) | (apply inputFloor_kept) | (apply keptN_next) | (apply kept_ite) | (fail_if_no_progress apply kept_mk) | split

theorem execInputCapLift_kept {s0 : State} (h0 : Kept p k s0) :
    KeptN p k (execInputCapLift s0) := by
  unfold execInputCapLift
  try dsimp only
  with_reducible repeat' first
    | assumption | (intro _; try dsimp only) | (apply actuate_kept) | (apply changeCaps_kept) | (apply keptN_next) | (apply kept_ite)
    | (fail_if_no_progress apply kept_mk) | split

theorem withdrawn_kept {s0 : State} (h0 : Kept p k s0) :
    Kept p k (withdrawn s0) := by
  unfold withdrawn
  try dsimp only
  with_reducible repeat' first
    | assumption | (intro _; try dsimp only) | (apply setEntry_kept) | (apply railsOff_kept) | (fail_if_no_progress apply kept_mk)

theorem execInputBelow44v_kept {x0} {s1 : State} (h1 : Kept p k s1) :
    KeptN p k (execInputBelow44v x0 s1) := by
  unfold execInputBelow44v
  try dsimp only
  with_reducible repeat' first
    | assumption | (intro _; try dsimp only) | (apply setEntry_kept) | (apply inputFloor_kept) | (apply withdrawn_kept) | (apply keptN_next)
    | (apply kept_ite) | (fail_if_no_progress apply kept_mk) | split

theorem fatalRailsOff_kept {x0} {x1} {x2} {s3 : State} (h3 : Kept p k s3) :
    Kept p k (fatalRailsOff x0 x1 x2 s3) := by
  unfold fatalRailsOff
  try dsimp only
  with_reducible repeat' first
    | assumption | (intro _; try dsimp only) | (apply fatalStart_kept) | (apply railsOff_kept) | (apply kept_ite) | split

theorem execInputLossPark_kept {s0 : State} (h0 : Kept p k s0) :
    KeptN p k (execInputLossPark s0) := by
  unfold execInputLossPark
  try dsimp only
  with_reducible repeat' first
    | assumption | (intro _; try dsimp only) | (apply parkFields_kept) | (apply setEntry_kept) | (apply fatalRailsOff_kept) | (apply keptN_next)
    | (apply kept_ite) | (fail_if_no_progress apply kept_mk) | split

theorem execInputReturn_kept {x0} {s1 : State} (h1 : Kept p k s1) :
    KeptN p k (execInputReturn x0 s1) := by
  unfold execInputReturn
  try dsimp only
  with_reducible repeat' first
    | assumption | (intro _; try dsimp only) | (apply setGov_kept) | (apply setEntry_kept) | (apply inputAboveAux_kept) | (apply keptN_next)
    | (apply kept_ite) | (fail_if_no_progress apply kept_mk) | split

theorem execInputAbove62v_kept {s0 : State} (h0 : Kept p k s0) :
    KeptN p k (execInputAbove62v s0) := by
  unfold execInputAbove62v
  try dsimp only
  with_reducible repeat' first
    | assumption | (intro _; try dsimp only) | (apply setEntry_kept) | (apply latchPrecharge_kept) | (apply fatalRailsOff_kept) | (apply keptN_next)
    | (apply kept_ite) | (fail_if_no_progress apply kept_mk) | split

theorem execThermalTrip_kept {x0} {s1 : State} (h1 : Kept p k s1) :
    KeptN p k (execThermalTrip x0 s1) := by
  unfold execThermalTrip
  try dsimp only
  with_reducible repeat' first
    | assumption | (intro _; try dsimp only) | (apply powerEvent_kept) | (apply setEntry_kept) | (apply fatalRailsOff_kept) | (apply keptN_next)
    | (apply kept_ite) | (fail_if_no_progress apply kept_mk) | split

end Sys2Proof.Machine
end

