-- ==== Sys2Proof/Laws/KeptSetup.lean ====
section
/-!
SUPPORT. Every operation and every meaning of boot, SPDM, setup and sparing keeps a sound state sound, the queue and the tick (Laws/Kept.lean).
-/

namespace Sys2Proof.Machine

variable {p : List Instr} {k : Base} {n : Nat}

/-! ### Machine/Boot.lean -/

theorem setBoot_kept {s0 : State} {x1} (h0 : Kept p k s0) :
    Kept p k (setBoot s0 x1) := by
  unfold setBoot
  try dsimp only
  with_reducible repeat' first
    | assumption | (intro _; try dsimp only) | (fail_if_no_progress apply kept_mk)

theorem fwResult_kept {x0} {x1} {x2} {s3 : State} (h3 : Kept p k s3) :
    Kept p k (fwResult x0 x1 x2 s3) := by
  unfold fwResult
  try dsimp only
  with_reducible repeat' first
    | assumption | (intro _; try dsimp only) | (apply mctpSend_kept)

theorem fwRead_kept {x0} {x1} {x2} {s3 : State} (h3 : Kept p k s3) :
    Kept p k (fwRead x0 x1 x2 s3) := by
  unfold fwRead
  try dsimp only
  with_reducible repeat' first
    | assumption | (intro _; try dsimp only) | (apply mctpSend_kept)

theorem endDownload_kept {x0} {x1} {x2} {s3 : State} (h3 : Kept p k s3) :
    Kept p k (endDownload x0 x1 x2 s3) := by
  unfold endDownload
  try dsimp only
  with_reducible repeat' first
    | assumption | (intro _; try dsimp only) | (apply mboxEnd_kept) | (apply setBoot_kept) | (apply fwResult_kept) | (apply kept_ite)
    | (fail_if_no_progress apply kept_mk) | split

theorem takeBundle_kept {x0} {x1} {s2 : State} (h2 : Kept p k s2) :
    Kept p k (takeBundle x0 x1 s2) := by
  unfold takeBundle
  try dsimp only
  with_reducible repeat' first
    | assumption | (intro _; try dsimp only) | (apply setBoot_kept) | (apply endDownload_kept) | (fail_if_no_progress apply kept_mk) | split

theorem execDownload_kept {x0} {s1 : State} (h1 : Kept p k s1) :
    KeptN p k (execDownload x0 s1) := by
  unfold execDownload
  try dsimp only
  with_reducible repeat' first
    | assumption | (intro _; try dsimp only) | (apply setHost_kept) | (apply mboxEnd_kept) | (apply setBoot_kept) | (apply takeBundle_kept)
    | (apply keptN_next) | (apply kept_ite) | (fail_if_no_progress apply kept_mk) | split

theorem execFwOffer_kept {x0} {x1} {s2 : State} (h2 : Kept p k s2) :
    KeptN p k (execFwOffer x0 x1 s2) := by
  unfold execFwOffer
  try dsimp only
  with_reducible repeat' first
    | assumption | (intro _; try dsimp only) | (apply setBoot_kept) | (apply fwResult_kept) | (apply fwRead_kept) | (apply keptN_next)
    | (apply kept_ite) | (fail_if_no_progress apply kept_mk) | split

theorem execFwData_kept {x0} {x1} {x2} {g3} {s4 : State} (h4 : Kept p k s4) :
    KeptN p k (execFwData x0 x1 x2 g3 s4) := by
  unfold execFwData
  try dsimp only
  with_reducible repeat' first
    | assumption | (intro _; try dsimp only) | (apply setBoot_kept) | (apply fwRead_kept) | (apply takeBundle_kept) | (apply keptN_next)
    | (apply kept_ite) | (fail_if_no_progress apply kept_mk) | split

theorem execFwReadTimeout_kept {s0 : State} (h0 : Kept p k s0) :
    KeptN p k (execFwReadTimeout s0) := by
  unfold execFwReadTimeout
  try dsimp only
  with_reducible repeat' first
    | assumption | (intro _; try dsimp only) | (apply setBoot_kept) | (apply endDownload_kept) | (apply keptN_next) | (apply kept_ite)
    | (fail_if_no_progress apply kept_mk) | split

theorem discardTier2_kept {s0 : State} (h0 : Kept p k s0) :
    Kept p k (discardTier2 s0) := by
  unfold discardTier2
  try dsimp only
  with_reducible repeat' first
    | assumption | (intro _; try dsimp only) | (apply dropPages_kept) | (apply kept_foldl) | (fail_if_no_progress apply kept_mk) | split
    | (fail_if_no_progress apply memOk_mk) | (refine Kept.mem (p := p) (k := k) ?_) | (apply kept_mkm) | (apply memOk_mk3) | (apply memWf_mwrites)
    | (apply memWf_mwrite) | (apply memWf_mclear) | (exact memWf_nil) | (refine Kept.tier1 (p := p) (k := k) ?_)
    | (refine Kept.tier2 (p := p) (k := k) ?_) | (refine Kept.host (p := p) (k := k) ?_)

theorem discardTier1_kept {s0 : State} (h0 : Kept p k s0) :
    Kept p k (discardTier1 s0) := by
  unfold discardTier1
  try dsimp only
  with_reducible repeat' first
    | assumption | (intro _; try dsimp only) | (fail_if_no_progress apply kept_mk) | (fail_if_no_progress apply memOk_mk)
    | (refine Kept.mem (p := p) (k := k) ?_) | (apply kept_mkm) | (apply memOk_mk3) | (apply memWf_mwrites) | (apply memWf_mwrite)
    | (apply memWf_mclear) | (exact memWf_nil) | (refine Kept.tier1 (p := p) (k := k) ?_) | (refine Kept.tier2 (p := p) (k := k) ?_)
    | (refine Kept.host (p := p) (k := k) ?_)

theorem layTiers_kept {s0 : State} (h0 : Kept p k s0) :
    Kept p k (layTiers s0) := by
  unfold layTiers
  try dsimp only
  with_reducible repeat' first
    | assumption | (intro _; try dsimp only) | (apply discardTier2_kept) | (apply discardTier1_kept) | (apply kept_ite)
    | (fail_if_no_progress apply kept_mk) | split | (fail_if_no_progress apply memOk_mk) | (refine Kept.mem (p := p) (k := k) ?_) | (apply kept_mkm)

theorem applyRepairs_kept {x0} {x1} {s2 : State} (h2 : Kept p k s2) :
    Kept p k (applyRepairs x0 x1 s2) := by
  unfold applyRepairs
  try dsimp only
  with_reducible repeat' first
    | assumption | (intro _; try dsimp only) | (apply kept_ite) | (fail_if_no_progress apply kept_mk) | split | (fail_if_no_progress apply memOk_mk)
    | (refine Kept.mem (p := p) (k := k) ?_) | (apply kept_mkm)
    | (apply kept_mks) | (refine Kept.store (p := p) (k := k) ?_)
    | (apply kept_mka) | (fail_if_no_progress apply memOk_mk) | (refine Kept.mem (p := p) (k := k) ?_)
    | (fail_if_no_progress apply seqOk_mk) | (refine Kept.seq (p := p) (k := k) ?_) | (refine Kept.meterUp (p := p) (k := k) ?_)

theorem compareDimm_kept {x0} {x1} {s2 : State} (h2 : Kept p k s2) :
    Kept p k (compareDimm x0 x1 s2) := by
  unfold compareDimm
  try dsimp only
  with_reducible repeat' first
    | assumption | (intro _; try dsimp only) | (apply kept_ite) | (fail_if_no_progress apply kept_mk) | split | (fail_if_no_progress apply memOk_mk)
    | (refine Kept.mem (p := p) (k := k) ?_) | (apply kept_mkm)
    | (apply kept_mks) | (refine Kept.store (p := p) (k := k) ?_)
    | (apply kept_mka) | (fail_if_no_progress apply memOk_mk) | (refine Kept.mem (p := p) (k := k) ?_)
    | (fail_if_no_progress apply seqOk_mk) | (refine Kept.seq (p := p) (k := k) ?_) | (refine Kept.meterUp (p := p) (k := k) ?_)

theorem trainingFails_kept {x0} {x1} {s2 : State} (h2 : Kept p k s2) :
    Kept p k (trainingFails x0 x1 s2) := by
  unfold trainingFails
  try dsimp only
  with_reducible repeat' first
    | assumption | (intro _; try dsimp only) | (apply logClass1_kept) | (apply kept_ite) | split

theorem stackTrained_kept {x0} {x1} {s2 : State} (h2 : Kept p k s2) :
    Kept p k (stackTrained x0 x1 s2) := by
  unfold stackTrained
  try dsimp only
  with_reducible repeat' first
    | assumption | (intro _; try dsimp only) | (apply place_kept) | (apply noteLift_kept) | (apply applyRepairs_kept) | (apply kept_ite)
    | (fail_if_no_progress apply kept_mk) | split | (fail_if_no_progress apply seqOk_mk) | (refine Kept.seq (p := p) (k := k) ?_) | (apply kept_mkf)
    | (apply kept_mks) | (refine Kept.store (p := p) (k := k) ?_)
    | (apply kept_mka) | (fail_if_no_progress apply memOk_mk) | (refine Kept.mem (p := p) (k := k) ?_)
    | (fail_if_no_progress apply seqOk_mk) | (refine Kept.seq (p := p) (k := k) ?_) | (refine Kept.meterUp (p := p) (k := k) ?_)

theorem trainStack_kept {x0} {s1 : State} {x2} (h1 : Kept p k s1) :
    Kept p k (trainStack x0 s1 x2) := by
  unfold trainStack
  try dsimp only
  with_reducible repeat' first
    | assumption | (intro _; try dsimp only) | (apply fenceStack_kept) | (apply trainingFails_kept) | (apply stackTrained_kept) | (apply kept_ite)
    | (fail_if_no_progress apply kept_mk) | split | (fail_if_no_progress apply seqOk_mk) | (refine Kept.seq (p := p) (k := k) ?_) | (apply kept_mkf)

theorem trainChannel_kept {x0} {s1 : State} {x2} (h1 : Kept p k s1) :
    Kept p k (trainChannel x0 s1 x2) := by
  unfold trainChannel
  try dsimp only
  with_reducible repeat' first
    | assumption | (intro _; try dsimp only) | (apply fenceChannel_kept) | (apply noteLift_kept) | (apply applyRepairs_kept) | (apply compareDimm_kept)
    | (apply trainingFails_kept) | (apply kept_ite) | (fail_if_no_progress apply kept_mk) | split | (fail_if_no_progress apply seqOk_mk)
    | (refine Kept.seq (p := p) (k := k) ?_) | (apply kept_mkf)

theorem formSets_kept {x0} {s1 : State} (h1 : Kept p k s1) :
    Kept p k (formSets x0 s1) := by
  unfold formSets
  try dsimp only
  with_reducible repeat' first
    | assumption | (intro _; try dsimp only) | (apply kept_foldl) | (apply kept_ite) | (fail_if_no_progress apply kept_mk) | split
    | (fail_if_no_progress apply memOk_mk) | (refine Kept.mem (p := p) (k := k) ?_) | (apply kept_mkm)

theorem removeField_kept {x0} {s1 : State} (h1 : Kept p k s1) :
    Kept p k (removeField x0 s1) := by
  unfold removeField
  try dsimp only
  with_reducible repeat' first
    | assumption | (intro _; try dsimp only) | (fail_if_no_progress apply kept_mk) | split | (fail_if_no_progress apply memOk_mk)
    | (refine Kept.mem (p := p) (k := k) ?_) | (apply kept_mkm)

theorem formFields_kept {x0} {x1} {s2 : State} (h2 : Kept p k s2) :
    Kept p k (formFields x0 x1 s2) := by
  unfold formFields
  try dsimp only
  with_reducible repeat' first
    | assumption | (intro _; try dsimp only) | (apply setField_kept) | (apply removeField_kept) | (apply kept_foldl) | (apply kept_foldl_pair)
    | (apply kept_ite) | (fail_if_no_progress apply kept_mk) | split

theorem unuseBand_kept {x0} {s1 : State} (h1 : Kept p k s1) :
    Kept p k (unuseBand x0 s1) := by
  unfold unuseBand
  exact formFields_kept h1

theorem testBand_kept {x0} {s1 : State} {x2} (h1 : Kept p k s1) :
    Kept p k (testBand x0 s1 x2) := by
  unfold testBand
  try dsimp only
  with_reducible repeat' first
    | (apply unuseBand_kept) | assumption | (intro _; try dsimp only) | (apply noteFence_kept) | (apply kept_ite) | (fail_if_no_progress apply kept_mk) | split | (fail_if_no_progress apply seqOk_mk)
    | (refine Kept.seq (p := p) (k := k) ?_) | (apply kept_mkf)
    | (apply kept_mks) | (refine Kept.store (p := p) (k := k) ?_)
    | (apply kept_mka) | (fail_if_no_progress apply memOk_mk) | (refine Kept.mem (p := p) (k := k) ?_)
    | (fail_if_no_progress apply seqOk_mk) | (refine Kept.seq (p := p) (k := k) ?_) | (refine Kept.meterUp (p := p) (k := k) ?_)

theorem liftUnits_kept {s0 : State} (h0 : Kept p k s0) :
    Kept p k (liftUnits s0) := by
  unfold liftUnits
  try dsimp only
  with_reducible repeat' first
    | assumption | (intro _; try dsimp only) | (apply noteLift_kept) | (apply kept_foldl) | (fail_if_no_progress apply kept_mk)
    | (fail_if_no_progress apply seqOk_mk) | (refine Kept.seq (p := p) (k := k) ?_) | (apply kept_mkf)

theorem bringLinks_kept {x0} {s1 : State} (h1 : Kept p k s1) :
    Kept p k (bringLinks x0 s1) := by
  unfold bringLinks
  try dsimp only
  with_reducible repeat' first
    | assumption | (intro _; try dsimp only) | (apply startTraining_kept) | (apply kept_foldl) | (apply kept_ite) | split

theorem finishBringup_kept {x0} {s1 : State} (h1 : Kept p k s1) :
    Kept p k (finishBringup x0 s1) := by
  unfold finishBringup
  try dsimp only
  with_reducible repeat' first
    | assumption | (intro _; try dsimp only) | (apply powerEvent_kept) | (apply setBoot_kept) | (apply layTiers_kept) | (apply testBand_kept)
    | (apply liftUnits_kept) | (apply bringLinks_kept) | (apply kept_foldl) | (apply kept_ite) | (fail_if_no_progress apply kept_mk) | split

theorem trainAll_kept {x0} {s1 : State} (h1 : Kept p k s1) :
    Kept p k (trainAll x0 s1) := by
  unfold trainAll
  extract_lets m0 v0 s1 s2 s3 m1 s4
  have h1 : Kept p k s1 := ⟨⟨h1.host, memWf_nil, memWf_nil⟩, h1.seq, h1.pending, h1.base⟩
  have h2 : Kept p k s2 := kept_foldl (fun u e hu => trainStack_kept hu) h1
  have h3 : Kept p k s3 := formSets_kept (kept_foldl (fun u e hu => trainChannel_kept hu) h2)
  have h4 : Kept p k s4 := ⟨h3.mem, h3.seq, h3.pending, h3.base⟩
  exact kept_ite (fun _ => mgmtReport_kept h4) (fun _ => h4)

theorem failBringup_kept {x0} {x1} {x2} {s3 : State} (h3 : Kept p k s3) :
    Kept p k (failBringup x0 x1 x2 s3) := by
  unfold failBringup
  try dsimp only
  with_reducible repeat' first
    | assumption | (intro _; try dsimp only) | (apply endDownload_kept) | (fail_if_no_progress apply kept_mk) | (fail_if_no_progress apply memOk_mk)
    | (refine Kept.mem (p := p) (k := k) ?_) | (apply kept_mkm) | (apply memOk_mk3) | (apply memWf_mwrites) | (apply memWf_mwrite)
    | (apply memWf_mclear) | (exact memWf_nil) | (refine Kept.tier1 (p := p) (k := k) ?_) | (refine Kept.tier2 (p := p) (k := k) ?_)
    | (refine Kept.host (p := p) (k := k) ?_)

theorem execBringupReady_kept {x0} {s1 : State} (h1 : Kept p k s1) (hk : ∀ a b n r, k.store a b → k.store (max a n) (b ||| r)) :
    KeptN p k (execBringupReady x0 s1) := by
  unfold execBringupReady
  try dsimp only
  with_reducible repeat' first
    | assumption | (intro _; try dsimp only) | (apply setBoot_kept) | (apply endDownload_kept) | (apply finishBringup_kept) | (apply trainAll_kept)
    | (apply failBringup_kept) | (apply keptN_next) | (apply kept_ite) | (fail_if_no_progress apply kept_mk) | split
    | (apply hk) | (apply kept_mks) | (refine Kept.store (p := p) (k := k) ?_)
    | (apply kept_mka) | (fail_if_no_progress apply memOk_mk) | (refine Kept.mem (p := p) (k := k) ?_)
    | (fail_if_no_progress apply seqOk_mk) | (refine Kept.seq (p := p) (k := k) ?_) | (refine Kept.meterUp (p := p) (k := k) ?_)

theorem readFatalCopy_kept {s0 : State} (h0 : Kept p k s0) : Kept p k (readFatalCopy s0) :=
  ⟨h0.mem, h0.seq, h0.pending, h0.base.1, h0.base.2.1, h0.base.2.2⟩

theorem warmReset_kept {x0} {x1} {s2 : State} (h2 : Kept p k s2) :
    Kept p k (warmReset x0 x1 s2) := by
  unfold warmReset
  try dsimp only
  with_reducible repeat' first
    | assumption | (intro _; try dsimp only) | (apply powerEvent_kept) | (apply warmState_kept) | (apply readFatalCopy_kept) | (apply setBoot_kept) | (apply kept_ite)
    | (fail_if_no_progress apply kept_mk) | split

theorem execBootResetWarm_kept {x0} {s1 : State} (h1 : Kept p k s1) :
    KeptN p k (execBootResetWarm x0 s1) := by
  unfold execBootResetWarm
  try dsimp only
  with_reducible repeat' first
    | assumption | (intro _; try dsimp only) | (apply warmReset_kept) | (apply keptN_next) | (apply kept_ite) | split

theorem execWarmReset_kept {x0} {x1} {s2 : State} (h2 : Kept p k s2) :
    KeptN p k (execWarmReset x0 x1 s2) := by
  unfold execWarmReset
  try dsimp only
  with_reducible repeat' first
    | assumption | (intro _; try dsimp only) | (apply mctpRespond_kept) | (apply takeMessage_kept) | (apply warmReset_kept) | (apply keptN_next)
    | (apply kept_ite) | split

theorem loseStack_kept {x0} {s1 : State} (h1 : Kept p k s1) :
    Kept p k (loseStack x0 s1) := by
  unfold loseStack
  try dsimp only
  with_reducible repeat' first
    | assumption | (intro _; try dsimp only) | (apply fenceStack_kept) | (apply trainingFails_kept) | (fail_if_no_progress apply kept_mk) | split
    | (fail_if_no_progress apply memOk_mk) | (refine Kept.mem (p := p) (k := k) ?_) | (fail_if_no_progress apply seqOk_mk)
    | (refine Kept.seq (p := p) (k := k) ?_) | (apply kept_mkm) | (apply kept_mkf) | (apply kept_mkmf) | (apply memOk_mk3) | (apply memWf_mwrites)
    | (apply memWf_mwrite) | (apply memWf_mclear) | (exact memWf_nil) | (refine Kept.tier1 (p := p) (k := k) ?_)
    | (refine Kept.tier2 (p := p) (k := k) ?_) | (refine Kept.host (p := p) (k := k) ?_)

theorem keepStack_kept {x0} {s1 : State} {x2} (h1 : Kept p k s1) :
    Kept p k (keepStack x0 s1 x2) := by
  unfold keepStack
  try dsimp only
  with_reducible repeat' first
    | assumption | (intro _; try dsimp only) | (apply loseStack_kept) | (apply kept_ite) | split

theorem execWarmResetReady_kept {x0} {s1 : State} (h1 : Kept p k s1) :
    KeptN p k (execWarmResetReady x0 s1) := by
  unfold execWarmResetReady
  try dsimp only
  with_reducible repeat' first
    | assumption | (intro _; try dsimp only) | (apply trainStack_kept) | (apply finishBringup_kept) | (apply keepStack_kept) | (apply keptN_next)
    | (apply kept_foldl) | (apply kept_ite) | (fail_if_no_progress apply kept_mk) | split | (fail_if_no_progress apply memOk_mk)
    | (refine Kept.mem (p := p) (k := k) ?_) | (apply kept_mkm)

theorem execPerstAssert_kept {s0 : State} (h0 : Kept p k s0) :
    KeptN p k (execPerstAssert s0) := by
  unfold execPerstAssert
  try dsimp only
  with_reducible repeat' first
    | assumption | (intro _; try dsimp only) | (apply coldState_kept) | (apply setEntry_kept) | (apply keptN_next) | (apply kept_ite)
    | (fail_if_no_progress apply kept_mk) | split

/-- Reading the record store leaves the version floor and the mask. -/
theorem mendStore_floor (c : Store) : (mendStore c).floor = c.floor ∧ (mendStore c).revoked = c.revoked := by
  unfold mendStore
  cases h1 : c.repairValid <;> cases h2 : c.fatalValid <;> cases h3 : c.enduranceValid <;> simp [h2, h3]

theorem readStore_kept {s0 : State} (h0 : Kept p k s0) : Kept p k (readStore s0) := by
  have hf := mendStore_floor s0.store
  refine ⟨h0.mem, h0.seq, h0.pending, h0.base.1, h0.base.2.1, ?_⟩
  show k.store (mendStore s0.store).floor (mendStore s0.store).revoked
  rw [hf.1, hf.2]
  exact h0.base.2.2

theorem execPerstRelease_kept {x0} {s1 : State} (h1 : Kept p k s1) :
    KeptN p k (execPerstRelease x0 s1) := by
  unfold execPerstRelease
  try dsimp only
  with_reducible repeat' first
    | assumption | (apply readStore_kept) | (intro _; try dsimp only) | (apply mgmtReport_kept) | (apply setEntry_kept) | (apply setBoot_kept) | (apply keptN_next)
    | (apply kept_ite) | (fail_if_no_progress apply kept_mk) | split

theorem execFlr_kept {s0 : State} (h0 : Kept p k s0) :
    KeptN p k (execFlr s0) := by
  unfold execFlr
  try dsimp only
  with_reducible repeat' first
    | assumption | (intro _; try dsimp only) | (apply flrState_kept) | (apply keptN_next) | (apply kept_ite) | split

theorem loseArray_kept {s0 : State} (h0 : Kept p k s0) :
    Kept p k (loseArray s0) := by
  unfold loseArray
  try dsimp only
  with_reducible repeat' first
    | assumption | (intro _; try dsimp only) | (apply step_kept) | (fail_if_no_progress apply kept_mk) | split | (fail_if_no_progress apply memOk_mk)
    | (refine Kept.mem (p := p) (k := k) ?_) | (apply kept_mkm) | (apply memOk_mk3) | (apply memWf_mwrites) | (apply memWf_mwrite)
    | (apply memWf_mclear) | (exact memWf_nil) | (refine Kept.tier1 (p := p) (k := k) ?_) | (refine Kept.tier2 (p := p) (k := k) ?_)
    | (refine Kept.host (p := p) (k := k) ?_)

theorem execD3hotEntry_kept {s0 : State} (h0 : Kept p k s0) :
    KeptN p k (execD3hotEntry s0) := by
  unfold execD3hotEntry
  try dsimp only
  with_reducible repeat' first
    | assumption | (intro _; try dsimp only) | (apply setHost_kept) | (apply abortField_kept) | (apply retainRequests_kept) | (apply dropWork_kept)
    | (apply loseArray_kept) | (apply keptN_next) | (apply kept_foldl) | (apply kept_ite) | (fail_if_no_progress apply kept_mk) | split

theorem execD0Entry_kept {s0 : State} (h0 : Kept p k s0) :
    KeptN p k (execD0Entry s0) := by
  unfold execD0Entry
  try dsimp only
  with_reducible repeat' first
    | assumption | (intro _; try dsimp only) | (apply setHost_kept) | (apply keptN_next) | (apply kept_ite) | (fail_if_no_progress apply kept_mk)
    | split

/-! ### Machine/Spdm.lean -/

theorem setConn_kept {x0} {x1} {s2 : State} (h2 : Kept p k s2) :
    Kept p k (setConn x0 x1 s2) := by
  unfold setConn
  try dsimp only
  with_reducible repeat' first
    | assumption | (intro _; try dsimp only) | (fail_if_no_progress apply kept_mk)

theorem spdmSend_kept {x0} {x1} {x2} {s3 : State} (h3 : Kept p k s3) :
    Kept p k (spdmSend x0 x1 x2 s3) := by
  unfold spdmSend
  try dsimp only
  with_reducible repeat' first
    | assumption | (intro _; try dsimp only) | (apply setConn_kept) | (fail_if_no_progress apply kept_mk)

theorem spdmError_kept {x0} {x1} {s2 : State} (h2 : Kept p k s2) :
    Kept p k (spdmError x0 x1 s2) := by
  unfold spdmError
  try dsimp only
  with_reducible repeat' first
    | assumption | (intro _; try dsimp only) | (fail_if_no_progress apply kept_mk)

theorem spdmAgreed_kept {x0} {g1} {s2 : State} (h1 : ∀ u0, Kept p k u0 → Kept p k (g1 u0)) (h2 : Kept p k s2) :
    Kept p k (spdmAgreed x0 g1 s2) := by
  unfold spdmAgreed
  try dsimp only
  with_reducible repeat' first
    | assumption | (intro _; try dsimp only) | (apply spdmError_kept) | (apply h1) | (apply kept_ite) | split

theorem spdmSigned_kept {x0} {x1} {x2} {x3} {s4 : State} (h4 : Kept p k s4) :
    Kept p k (spdmSigned x0 x1 x2 x3 s4) := by
  unfold spdmSigned
  try dsimp only
  with_reducible repeat' first
    | assumption | (intro _; try dsimp only) | (apply setConn_kept) | (apply spdmSend_kept) | (fail_if_no_progress apply kept_mk)

theorem execGetVersion_kept {x0} {s1 : State} (h1 : Kept p k s1) :
    KeptN p k (execGetVersion x0 s1) := by
  unfold execGetVersion
  try dsimp only
  with_reducible repeat' first
    | assumption | (intro _; try dsimp only) | (apply setConn_kept) | (apply spdmSend_kept) | (apply keptN_next) | (apply kept_ite) | split

theorem execGetCapabilities_kept {x0} {s1 : State} (h1 : Kept p k s1) :
    KeptN p k (execGetCapabilities x0 s1) := by
  unfold execGetCapabilities
  try dsimp only
  with_reducible repeat' first
    | assumption | (intro _; try dsimp only) | (apply setConn_kept) | (apply spdmSend_kept) | (apply spdmError_kept) | (apply keptN_next)
    | (apply kept_ite) | (fail_if_no_progress apply kept_mk) | split

theorem execNegotiateAlgorithms_kept {x0} {x1} {x2} {x3} {x4} {s5 : State} (h5 : Kept p k s5) :
    KeptN p k (execNegotiateAlgorithms x0 x1 x2 x3 x4 s5) := by
  unfold execNegotiateAlgorithms
  try dsimp only
  with_reducible repeat' first
    | assumption | (intro _; try dsimp only) | (apply setConn_kept) | (apply spdmSend_kept) | (apply spdmError_kept) | (apply keptN_next)
    | (apply kept_ite) | (fail_if_no_progress apply kept_mk) | split

theorem execGetDigests_kept {x0} {s1 : State} (h1 : Kept p k s1) :
    KeptN p k (execGetDigests x0 s1) := by
  unfold execGetDigests
  try dsimp only
  with_reducible repeat' first
    | assumption | (intro _; try dsimp only) | (apply spdmSend_kept) | (apply spdmAgreed_kept) | (apply keptN_next)

theorem execGetCertificate_kept {x0} {x1} {x2} {x3} {s4 : State} (h4 : Kept p k s4) :
    KeptN p k (execGetCertificate x0 x1 x2 x3 s4) := by
  unfold execGetCertificate
  try dsimp only
  with_reducible repeat' first
    | assumption | (intro _; try dsimp only) | (apply spdmSend_kept) | (apply spdmError_kept) | (apply spdmAgreed_kept) | (apply keptN_next)
    | (apply kept_ite) | split

theorem execChallenge_kept {x0} {x1} {x2} {s3 : State} (h3 : Kept p k s3) :
    KeptN p k (execChallenge x0 x1 x2 s3) := by
  unfold execChallenge
  try dsimp only
  with_reducible repeat' first
    | assumption | (intro _; try dsimp only) | (apply spdmError_kept) | (apply spdmAgreed_kept) | (apply spdmSigned_kept) | (apply keptN_next)
    | (apply kept_ite) | split

theorem execGetMeasurements_kept {x0} {x1} {x2} {x3} {s4 : State} (h4 : Kept p k s4) :
    KeptN p k (execGetMeasurements x0 x1 x2 x3 s4) := by
  unfold execGetMeasurements
  try dsimp only
  with_reducible repeat' first
    | assumption | (intro _; try dsimp only) | (apply spdmSend_kept) | (apply spdmError_kept) | (apply spdmAgreed_kept) | (apply spdmSigned_kept)
    | (apply keptN_next) | (apply kept_ite) | split

theorem execKeyExchange_kept {x0} {x1} {x2} {s3 : State} (h3 : Kept p k s3) :
    KeptN p k (execKeyExchange x0 x1 x2 s3) := by
  unfold execKeyExchange
  try dsimp only
  with_reducible repeat' first
    | assumption | (intro _; try dsimp only) | (apply spdmError_kept) | (apply spdmAgreed_kept) | (apply spdmSigned_kept) | (apply keptN_next)
    | (apply kept_ite) | (fail_if_no_progress apply kept_mk) | split

theorem modSession_kept {x0} {x1} {x2} {s3 : State} (h3 : Kept p k s3) :
    Kept p k (modSession x0 x1 x2 s3) := by
  unfold modSession
  try dsimp only
  with_reducible repeat' first
    | assumption | (intro _; try dsimp only) | (fail_if_no_progress apply kept_mk)

theorem dropSession_kept {x0} {x1} {s2 : State} (h2 : Kept p k s2) :
    Kept p k (dropSession x0 x1 s2) := by
  unfold dropSession
  try dsimp only
  with_reducible repeat' first
    | assumption | (intro _; try dsimp only) | (fail_if_no_progress apply kept_mk)

theorem inSession_kept {x0} {x1} {g2} {s3 : State} (h2 : ∀ u0, Kept p k u0 → Kept p k (g2 u0)) (h3 : Kept p k s3) :
    Kept p k (inSession x0 x1 g2 s3) := by
  unfold inSession
  try dsimp only
  with_reducible repeat' first
    | assumption | (intro _; try dsimp only) | (apply spdmError_kept) | (apply h2) | (apply kept_ite) | split

theorem execFinish_kept {x0} {x1} {x2} {s3 : State} (h3 : Kept p k s3) :
    KeptN p k (execFinish x0 x1 x2 s3) := by
  unfold execFinish
  try dsimp only
  with_reducible repeat' first
    | assumption | (intro _; try dsimp only) | (apply spdmSend_kept) | (apply spdmError_kept) | (apply modSession_kept) | (apply dropSession_kept)
    | (apply keptN_next) | (apply kept_ite) | (fail_if_no_progress apply kept_mk) | split

theorem execSpdmHeartbeat_kept {x0} {x1} {s2 : State} (h2 : Kept p k s2) :
    KeptN p k (execSpdmHeartbeat x0 x1 s2) := by
  unfold execSpdmHeartbeat
  try dsimp only
  with_reducible repeat' first
    | assumption | (intro _; try dsimp only) | (apply spdmSend_kept) | (apply inSession_kept) | (apply keptN_next)

theorem execKeyUpdate_kept {x0} {x1} {x2} {s3 : State} (h3 : Kept p k s3) :
    KeptN p k (execKeyUpdate x0 x1 x2 s3) := by
  unfold execKeyUpdate
  try dsimp only
  with_reducible repeat' first
    | assumption | (intro _; try dsimp only) | (apply spdmSend_kept) | (apply spdmError_kept) | (apply modSession_kept) | (apply inSession_kept)
    | (apply keptN_next) | (apply kept_ite) | (fail_if_no_progress apply kept_mk) | split

theorem execEndSession_kept {x0} {x1} {s2 : State} (h2 : Kept p k s2) :
    KeptN p k (execEndSession x0 x1 s2) := by
  unfold execEndSession
  try dsimp only
  with_reducible repeat' first
    | assumption | (intro _; try dsimp only) | (apply spdmSend_kept) | (apply dropSession_kept) | (apply inSession_kept) | (apply keptN_next)

theorem execChunkSend_kept {x0} {x1} {x2} {x3} {x4} {s5 : State} (h5 : Kept p k s5) :
    KeptN p k (execChunkSend x0 x1 x2 x3 x4 s5) := by
  unfold execChunkSend
  try dsimp only
  with_reducible repeat' first
    | assumption | (intro _; try dsimp only) | (apply setConn_kept) | (apply spdmSend_kept) | (apply spdmError_kept) | (apply spdmAgreed_kept)
    | (apply keptN_next) | (apply kept_ite) | (fail_if_no_progress apply kept_mk) | split

theorem execChunkGet_kept {x0} {x1} {x2} {s3 : State} (h3 : Kept p k s3) :
    KeptN p k (execChunkGet x0 x1 x2 s3) := by
  unfold execChunkGet
  try dsimp only
  with_reducible repeat' first
    | assumption | (intro _; try dsimp only) | (apply spdmError_kept) | (apply spdmAgreed_kept) | (apply keptN_next) | (apply kept_ite)
    | (fail_if_no_progress apply kept_mk) | split

theorem execCosign_kept {x0} {x1} {s2 : State} (h2 : Kept p k s2) :
    KeptN p k (execCosign x0 x1 s2) := by
  unfold execCosign
  try dsimp only
  with_reducible repeat' first
    | assumption | (intro _; try dsimp only) | (apply spdmSend_kept) | (apply spdmError_kept) | (apply spdmAgreed_kept) | (apply keptN_next) | split

theorem execGetChain_kept {x0} {x1} {x2} {s3 : State} (h3 : Kept p k s3) :
    KeptN p k (execGetChain x0 x1 x2 s3) := by
  unfold execGetChain
  try dsimp only
  with_reducible repeat' first
    | assumption | (intro _; try dsimp only) | (apply spdmSend_kept) | (apply spdmError_kept) | (apply spdmAgreed_kept) | (apply keptN_next)
    | (apply kept_ite) | split

/-! ### Machine/Setup.lean -/

theorem afterOf_kept {s0 : State} {o : Host.Outcome State Fault Refusal} (h0 : Kept p k s0) (h1 : KeptN p k o) : Kept p k (afterOf s0 o) :=
  kept_afterOf h1 h0

theorem execSetupDone_kept {s0 : State} (h0 : Kept p k s0) :
    KeptN p k (execSetupDone s0) := by
  unfold execSetupDone
  try dsimp only
  with_reducible repeat' first
    | assumption | (intro _; try dsimp only) | (apply setBoot_kept) | (apply layTiers_kept) | (apply keptN_next) | (apply kept_ite)
    | (fail_if_no_progress apply kept_mk) | split

theorem execTraceEnable_kept {x0} {s1 : State} (h1 : Kept p k s1) :
    KeptN p k (execTraceEnable x0 s1) := by
  unfold execTraceEnable
  try dsimp only
  with_reducible repeat' first
    | assumption | (intro _; try dsimp only) | (apply keptN_next) | (apply kept_ite) | (fail_if_no_progress apply kept_mk) | split
    | (fail_if_no_progress apply seqOk_mk) | (refine Kept.seq (p := p) (k := k) ?_) | (apply kept_mkf)

theorem losePool_kept {x0} {s1 : State} (h1 : Kept p k s1) :
    Kept p k (losePool x0 s1) := by
  unfold losePool
  try dsimp only
  with_reducible repeat' first
    | assumption | (intro _; try dsimp only) | (apply kept_ite) | (fail_if_no_progress apply kept_mk) | split

theorem clockFence_kept {x0} {s1 : State} (h1 : Kept p k s1) :
    Kept p k (clockFence x0 s1) := by
  unfold clockFence
  try dsimp only
  with_reducible repeat' first
    | assumption | (intro _; try dsimp only) | (apply downLink_kept) | (apply fenceStack_kept) | (apply fenceChannel_kept) | (apply fenceBand_kept) | (apply modLink_kept) | (apply losePool_kept) | (apply kept_ite)
    | (fail_if_no_progress apply kept_mk) | split | (fail_if_no_progress apply seqOk_mk) | (refine Kept.seq (p := p) (k := k) ?_) | (apply kept_mkf)

theorem fireIndication_kept {x0} {s1 : State} (h1 : Kept p k s1) :
    Kept p k (fireIndication x0 s1) := by
  unfold fireIndication
  try dsimp only
  with_reducible repeat' first
    | assumption | (intro _; try dsimp only) | (apply injFire_kept) | (apply logClass1_kept) | (apply fatalStart_kept) | (apply clockFence_kept)
    | (apply kept_ite) | (fail_if_no_progress apply kept_mk) | split | (fail_if_no_progress apply seqOk_mk) | (refine Kept.seq (p := p) (k := k) ?_)
    | (apply kept_mkf)

theorem execInjectionArm_kept {x0} {x1} {s2 : State} (h2 : Kept p k s2) :
    KeptN p k (execInjectionArm x0 x1 s2) := by
  unfold execInjectionArm
  try dsimp only
  with_reducible repeat' first
    | assumption | (intro _; try dsimp only) | (apply noteService_kept) | (apply fireIndication_kept) | (apply keptN_next) | (apply kept_ite)
    | (fail_if_no_progress apply kept_mk) | split | (fail_if_no_progress apply seqOk_mk) | (refine Kept.seq (p := p) (k := k) ?_) | (apply kept_mkf)

theorem execTestNonce_kept {x0} {s1 : State} (h1 : Kept p k s1) :
    KeptN p k (execTestNonce x0 s1) := by
  unfold execTestNonce
  try dsimp only
  with_reducible repeat' first
    | assumption | (intro _; try dsimp only) | (apply mboxEnd_kept) | (apply mailbox_kept) | (apply setBoot_kept) | (apply keptN_next)
    | (fail_if_no_progress apply kept_mk)

theorem execTestUnlock_kept {x0} {s1 : State} (h1 : Kept p k s1) :
    KeptN p k (execTestUnlock x0 s1) := by
  unfold execTestUnlock
  try dsimp only
  with_reducible repeat' first
    | assumption | (intro _; try dsimp only) | (apply logDetection_kept) | (apply mboxEnd_kept) | (apply mailbox_kept) | (apply setBoot_kept)
    | (apply keptN_next) | (fail_if_no_progress apply kept_mk) | split | (fail_if_no_progress apply seqOk_mk) | (refine Kept.seq (p := p) (k := k) ?_)
    | (apply kept_mkf)

theorem execTestLock_kept {s0 : State} (h0 : Kept p k s0) :
    KeptN p k (execTestLock s0) := by
  unfold execTestLock
  try dsimp only
  with_reducible repeat' first
    | assumption | (intro _; try dsimp only) | (apply mboxEnd_kept) | (apply mailbox_kept) | (apply endTest_kept) | (apply keptN_next)

theorem execTestModeExpiry_kept {s0 : State} (h0 : Kept p k s0) :
    KeptN p k (execTestModeExpiry s0) := by
  unfold execTestModeExpiry
  try dsimp only
  with_reducible repeat' first
    | assumption | (intro _; try dsimp only) | (apply endTest_kept) | (apply keptN_next) | (apply kept_ite) | split

theorem setTestLink_kept {x0} {x1} {s2 : State} (h2 : Kept p k s2) :
    Kept p k (setTestLink x0 x1 s2) := by
  unfold setTestLink
  try dsimp only
  with_reducible repeat' first
    | assumption | (intro _; try dsimp only) | (fail_if_no_progress apply kept_mk)

theorem execTestLinkMode_kept {x0} {x1} {s2 : State} (h2 : Kept p k s2) :
    KeptN p k (execTestLinkMode x0 x1 s2) := by
  unfold execTestLinkMode
  try dsimp only
  with_reducible repeat' first
    | assumption | (intro _; try dsimp only) | (apply modLink_kept) | (apply startTraining_kept) | (apply setTestLink_kept) | (apply keptN_next)
    | (apply kept_ite) | (fail_if_no_progress apply kept_mk) | split

theorem execTestLinkClear_kept {x0} {s1 : State} (h1 : Kept p k s1) :
    KeptN p k (execTestLinkClear x0 s1) := by
  unfold execTestLinkClear
  try dsimp only
  with_reducible repeat' first
    | assumption | (intro _; try dsimp only) | (apply setTestLink_kept) | (apply keptN_next) | (apply kept_ite) | split

theorem patternOver_kept {x0} {s1 : State} (h1 : Kept p k s1) :
    Kept p k (patternOver x0 s1) := by
  unfold patternOver
  try dsimp only
  with_reducible repeat' first
    | assumption | (intro _; try dsimp only) | (apply losePool_kept) | (apply kept_ite) | (fail_if_no_progress apply kept_mk) | split
    | (fail_if_no_progress apply memOk_mk) | (refine Kept.mem (p := p) (k := k) ?_) | (apply kept_mkm) | (apply memOk_mk3) | (apply memWf_mwrites)
    | (apply memWf_mwrite) | (apply memWf_mclear) | (exact memWf_nil) | (refine Kept.tier1 (p := p) (k := k) ?_)
    | (refine Kept.tier2 (p := p) (k := k) ?_) | (refine Kept.host (p := p) (k := k) ?_)

theorem execTestMemStart_kept {x0} {s1 : State} (h1 : Kept p k s1) :
    KeptN p k (execTestMemStart x0 s1) := by
  unfold execTestMemStart
  try dsimp only
  with_reducible repeat' first
    | assumption | (intro _; try dsimp only) | (apply patternOver_kept) | (apply keptN_next) | (apply kept_ite) | (fail_if_no_progress apply kept_mk)
    | split

theorem execTestMemDone_kept {x0} {s1 : State} (h1 : Kept p k s1) :
    KeptN p k (execTestMemDone x0 s1) := by
  unfold execTestMemDone
  try dsimp only
  with_reducible repeat' first
    | assumption | (intro _; try dsimp only) | (apply keptN_next) | (apply kept_ite) | (fail_if_no_progress apply kept_mk) | split

theorem writeQueue_kept {x0} {x1} {x2} {s3 : State} (h3 : Kept p k s3) :
    Kept p k (writeQueue x0 x1 x2 s3) := by
  unfold writeQueue
  try dsimp only
  with_reducible repeat' first
    | assumption | (intro _; try dsimp only) | (apply setQueue_kept) | (apply execQueueEnable_kept) | (apply execQueueDisable_kept)
    | (apply execQcfgErrClear_kept) | (apply afterOf_kept) | (apply kept_ite) | (fail_if_no_progress apply kept_mk) | split

theorem writeMsix_kept {x0} {x1} {x2} {s3 : State} (h3 : Kept p k s3) :
    Kept p k (writeMsix x0 x1 x2 s3) := by
  unfold writeMsix
  try dsimp only
  with_reducible repeat' first
    | assumption | (intro _; try dsimp only) | (apply setHost_kept) | (apply execMsixUnmask_kept) | (apply afterOf_kept) | (apply kept_ite)
    | (fail_if_no_progress apply kept_mk) | split

theorem writeTiers_kept {x0} {x1} {s2 : State} (h2 : Kept p k s2) :
    Kept p k (writeTiers x0 x1 s2) := by
  unfold writeTiers
  try dsimp only
  with_reducible repeat' first
    | assumption | (intro _; try dsimp only) | (apply kept_ite) | (fail_if_no_progress apply kept_mk) | split | (fail_if_no_progress apply memOk_mk)
    | (refine Kept.mem (p := p) (k := k) ?_) | (apply kept_mkm)

theorem writeFabric_kept {x0} {x1} {s2 : State} (h2 : Kept p k s2) :
    Kept p k (writeFabric x0 x1 s2) := by
  unfold writeFabric
  try dsimp only
  with_reducible repeat' first
    | assumption | (intro _; try dsimp only) | (apply execCommit_kept) | (apply startTraining_kept) | (apply writeLinkEnable_kept)
    | (apply execNodeId_kept) | (apply afterOf_kept) | (apply kept_ite) | (fail_if_no_progress apply kept_mk) | split

theorem writeArb_kept {x0} {x1} {s2 : State} (h2 : Kept p k s2) :
    Kept p k (writeArb x0 x1 s2) := by
  unfold writeArb
  try dsimp only
  with_reducible repeat' first
    | assumption | (intro _; try dsimp only) | (apply kept_ite) | (fail_if_no_progress apply kept_mk) | split

theorem writeInj_kept {x0} {x1} {x2} {s3 : State} (h3 : Kept p k s3) :
    Kept p k (writeInj x0 x1 x2 s3) := by
  unfold writeInj
  try dsimp only
  with_reducible repeat' first
    | assumption | (intro _; try dsimp only) | (apply afterOf_kept) | (apply execInjectionArm_kept) | (apply kept_ite)
    | (fail_if_no_progress apply kept_mk) | split | (fail_if_no_progress apply seqOk_mk) | (refine Kept.seq (p := p) (k := k) ?_) | (apply kept_mkf)

theorem writeFault_kept {x0} {x1} {s2 : State} (h2 : Kept p k s2) :
    Kept p k (writeFault x0 x1 s2) := by
  unfold writeFault
  try dsimp only
  with_reducible repeat' first
    | assumption | (intro _; try dsimp only) | (apply afterOf_kept) | (apply execTraceEnable_kept) | (apply execTestLinkMode_kept)
    | (apply execTestMemStart_kept) | (apply writeInj_kept) | (apply kept_ite) | (fail_if_no_progress apply kept_mk) | split
    | (fail_if_no_progress apply seqOk_mk) | (refine Kept.seq (p := p) (k := k) ?_) | (apply kept_mkf)

theorem write4_kept {x0} {x1} {s2 : State} (h2 : Kept p k s2) :
    Kept p k (write4 x0 x1 s2) := by
  unfold write4
  try dsimp only
  with_reducible repeat' first
    | (apply execBootResetWarm_kept) | assumption | (intro _; try dsimp only) | (apply setHost_kept) | (apply execReplayGo_kept) | (apply setAcct_kept) | (apply execTake_kept)
    | (apply execClear_kept) | (apply afterOf_kept) | (apply execSetupDone_kept) | (apply writeQueue_kept) | (apply writeMsix_kept)
    | (apply writeTiers_kept) | (apply writeFabric_kept) | (apply writeArb_kept) | (apply writeFault_kept) | (apply kept_ite)
    | (fail_if_no_progress apply kept_mk) | split

theorem execRegisterWrite_kept {x0} {x1} {x2} {s3 : State} (h3 : Kept p k s3) :
    KeptN p k (execRegisterWrite x0 x1 x2 s3) := by
  unfold execRegisterWrite
  try dsimp only
  with_reducible repeat' first
    | assumption | (intro _; try dsimp only) | (apply write4_kept) | (apply keptN_next) | (apply kept_ite) | split

/-! ### Machine/Sparing.lean -/

theorem execFieldLayout_kept {x0} {x1} {s2 : State} (h2 : Kept p k s2) :
    KeptN p k (execFieldLayout x0 x1 s2) := by
  unfold execFieldLayout
  try dsimp only
  with_reducible repeat' first
    | assumption | (intro _; try dsimp only) | (apply mboxEnd_kept) | (apply mailbox_kept) | (apply formFields_kept) | (apply keptN_next)
    | (apply kept_ite) | split

theorem execFieldWake_kept {x0} {s1 : State} (h1 : Kept p k s1) :
    KeptN p k (execFieldWake x0 s1) := by
  unfold execFieldWake
  try dsimp only
  with_reducible repeat' first
    | assumption | (intro _; try dsimp only) | (apply mboxEnd_kept) | (apply mailbox_kept) | (apply wakeField_kept) | (apply keptN_next) | split

theorem execFieldSleep_kept {x0} {s1 : State} (h1 : Kept p k s1) :
    KeptN p k (execFieldSleep x0 s1) := by
  unfold execFieldSleep
  try dsimp only
  with_reducible repeat' first
    | assumption | (intro _; try dsimp only) | (apply mboxEnd_kept) | (apply mailbox_kept) | (apply setField_kept) | (apply keptN_next)
    | (apply kept_ite) | (fail_if_no_progress apply kept_mk) | split

theorem execFieldReset_kept {x0} {s1 : State} (h1 : Kept p k s1) :
    KeptN p k (execFieldReset x0 s1) := by
  unfold execFieldReset
  try dsimp only
  with_reducible repeat' first
    | assumption | (intro _; try dsimp only) | (apply mboxEnd_kept) | (apply mailbox_kept) | (apply resetField_kept) | (apply keptN_next)
    | (apply kept_ite) | split

theorem dropFills_kept {x0} {s1 : State} (h1 : Kept p k s1) :
    Kept p k (dropFills x0 s1) := by
  unfold dropFills
  try dsimp only
  with_reducible repeat' first
    | assumption | (intro _; try dsimp only) | (apply finish_kept) | (apply kept_foldl) | (fail_if_no_progress apply kept_mk) | split

theorem endField_kept {x0} {s1 : State} (h1 : Kept p k s1) :
    Kept p k (endField x0 s1) := by
  unfold endField
  try dsimp only
  with_reducible repeat' first
    | assumption | (intro _; try dsimp only) | (apply closeReq_kept) | (apply resetField_kept) | (apply removeField_kept) | (apply dropFills_kept)
    | (apply kept_foldl) | (apply kept_foldl_pair) | split

theorem fenceForGood_kept {x0} {s1 : State} (h1 : Kept p k s1) :
    Kept p k (fenceForGood x0 s1) := by
  unfold fenceForGood
  try dsimp only
  with_reducible repeat' first
    | (apply unuseBand_kept) | assumption | (intro _; try dsimp only) | (apply fenceBand_kept) | (apply formFields_kept) | (apply endField_kept) | (apply kept_ite)
    | (fail_if_no_progress apply kept_mk) | split
    | (apply kept_mks) | (refine Kept.store (p := p) (k := k) ?_)
    | (apply kept_mka) | (fail_if_no_progress apply memOk_mk) | (refine Kept.mem (p := p) (k := k) ?_)
    | (fail_if_no_progress apply seqOk_mk) | (refine Kept.seq (p := p) (k := k) ?_) | (refine Kept.meterUp (p := p) (k := k) ?_)

theorem retirePair_kept {x0} {x1} {s2 : State} (h2 : Kept p k s2) :
    Kept p k (retirePair x0 x1 s2) := by
  unfold retirePair
  try dsimp only
  with_reducible repeat' first
    | assumption | (intro _; try dsimp only) | (apply modField_kept) | (apply fenceUnit_kept) | (apply fenceForGood_kept) | (apply kept_foldl)
    | (apply kept_ite) | (fail_if_no_progress apply kept_mk) | split
    | (apply kept_mks) | (refine Kept.store (p := p) (k := k) ?_)
    | (apply kept_mka) | (fail_if_no_progress apply memOk_mk) | (refine Kept.mem (p := p) (k := k) ?_)
    | (fail_if_no_progress apply seqOk_mk) | (refine Kept.seq (p := p) (k := k) ?_) | (refine Kept.meterUp (p := p) (k := k) ?_)

theorem execUnitTest_kept {x0} {x1} {s2 : State} (h2 : Kept p k s2) :
    KeptN p k (execUnitTest x0 x1 s2) := by
  unfold execUnitTest
  try dsimp only
  with_reducible repeat' first
    | assumption | (intro _; try dsimp only) | (apply setUnit_kept) | (apply noteLift_kept) | (apply noteService_kept) | (apply retirePair_kept)
    | (apply keptN_next) | (apply kept_ite) | (fail_if_no_progress apply kept_mk) | split | (fail_if_no_progress apply seqOk_mk)
    | (refine Kept.seq (p := p) (k := k) ?_) | (apply kept_mkf)

theorem remapUnits_kept {x0} {x1} {s2 : State} (h2 : Kept p k s2) :
    Kept p k (remapUnits x0 x1 s2) := by
  unfold remapUnits
  try dsimp only
  with_reducible repeat' first
    | assumption | (intro _; try dsimp only) | (apply kept_foldl) | (apply kept_foldl_pair) | (fail_if_no_progress apply kept_mk) | split
    | (fail_if_no_progress apply seqOk_mk) | (refine Kept.seq (p := p) (k := k) ?_) | (apply kept_mkf)

theorem refillSlot_kept {x0} {s1 : State} {g2} (h1 : Kept p k s1) :
    Kept p k (refillSlot x0 s1 g2) := by
  unfold refillSlot
  try dsimp only
  with_reducible repeat' first
    | assumption | (intro _; try dsimp only) | (apply modField_kept) | (apply fillSlot_kept) | (apply kept_ite) | (fail_if_no_progress apply kept_mk)
    | split

theorem releaseField_kept {x0} {s1 : State} (h1 : Kept p k s1) :
    Kept p k (releaseField x0 s1) := by
  unfold releaseField
  try dsimp only
  with_reducible repeat' first
    | assumption | (intro _; try dsimp only) | (apply modField_kept) | (apply pullWaiting_kept) | (apply closeSection_kept) | (apply kept_foldl)
    | (fail_if_no_progress apply kept_mk) | split

theorem applyMap_kept {x0} {s1 : State} (h1 : Kept p k s1) :
    Kept p k (applyMap x0 s1) := by
  unfold applyMap
  try dsimp only
  with_reducible repeat' first
    | assumption | (intro _; try dsimp only) | (apply remapUnits_kept) | (fail_if_no_progress apply kept_mk)

theorem execColumnMapApply_kept {x0} {s1 : State} (h1 : Kept p k s1) :
    KeptN p k (execColumnMapApply x0 s1) := by
  unfold execColumnMapApply
  try dsimp only
  with_reducible repeat' first
    | assumption | (intro _; try dsimp only) | (apply wakeField_kept) | (apply clearUnits_kept) | (apply applyMap_kept) | (apply refillSlot_kept)
    | (apply releaseField_kept) | (apply keptN_next) | (apply kept_foldl) | (apply kept_ite) | (fail_if_no_progress apply kept_mk) | split

theorem execSelfTest_kept {x0} {x1} {x2} {s3 : State} (h3 : Kept p k s3) :
    KeptN p k (execSelfTest x0 x1 x2 s3) := by
  unfold execSelfTest
  try dsimp only
  with_reducible repeat' first
    | assumption | (intro _; try dsimp only) | (apply hostWrite_kept) | (apply mboxEnd_kept) | (apply mailbox_kept) | (apply noteService_kept)
    | (apply resetField_kept) | (apply retirePair_kept) | (apply keptN_next) | (apply kept_foldl) | (apply kept_foldl_pair) | (apply kept_ite)
    | split

end Sys2Proof.Machine
end

