-- ==== Sys2Proof/Laws/KeptEvents.lean ====
section
/-!
SUPPORT. Every operation and every meaning of events, arbitration, fencing and the tick keeps a sound state sound, the queue and the tick (Laws/Kept.lean).
-/

namespace Sys2Proof.Machine

variable {p : List Instr} {k : Base} {n : Nat}

/-! ### Machine/Events.lean -/

theorem settleTile_kept {x0} {s1 : State} (h1 : Kept p k s1) :
    Kept p k (settleTile x0 s1) := by
  unfold settleTile
  try dsimp only
  with_reducible repeat' first
    | assumption | (intro _; try dsimp only) | (apply settleUnit_kept) | (apply injFire_kept) | (apply unitDetection_kept) | (apply drainReports_kept)
    | split

theorem pumpAround_kept {x0} {s1 : State} (h1 : Kept p k s1) :
    Kept p k (pumpAround x0 s1) := by
  unfold pumpAround
  try dsimp only
  with_reducible repeat' first
    | assumption | (intro _; try dsimp only) | (apply pumpFeeds_kept) | split

theorem settleDrain_kept {x0} {s1 : State} (h1 : Kept p k s1) :
    Kept p k (settleDrain x0 s1) := by
  unfold settleDrain
  try dsimp only
  with_reducible repeat' first
    | assumption | (intro _; try dsimp only) | (apply settleField_kept) | (apply kept_ite) | split

theorem afterEvent_kept {x0} {s1 : State} (h1 : Kept p k s1) :
    Kept p k (afterEvent x0 s1) := by
  unfold afterEvent
  try dsimp only
  with_reducible repeat' first
    | assumption | (intro _; try dsimp only) | (apply settleTile_kept) | (apply pumpAround_kept) | (apply settleDrain_kept)

theorem unitProgress_kept {x0} {s1 : State} (h1 : Kept p k s1) :
    Kept p k (unitProgress x0 s1) := by
  unfold unitProgress
  try dsimp only
  with_reducible repeat' first
    | assumption | (intro _; try dsimp only) | (apply showProgress_kept) | split

theorem markOverflow_kept {x0} {x1} {x2} {s3 : State} {s4 : State} (h3 : Kept p k s3) (h4 : Kept p k s4) :
    KeptO p k (markOverflow x0 x1 x2 s3 s4) := by
  unfold markOverflow
  try dsimp only
  with_reducible repeat' first
    | assumption | (intro _; try dsimp only) | (refine keptO_elim (by assumption) ?_) | (apply modUnit_kept) | (exact keptO_none) | (apply keptO_some)
    | (apply keptO_mapS) | (apply keptO_mapP) | (apply keptO_map) | (apply kept_ite) | (fail_if_no_progress apply kept_mk) | split

theorem injectOverflow_kept {x0} {x1} {x2} {s3 : State} {s4 : State} (h3 : Kept p k s3) (h4 : Kept p k s4) :
    Kept p k (injectOverflow x0 x1 x2 s3 s4) := by
  unfold injectOverflow
  try dsimp only
  with_reducible repeat' first
    | assumption | (intro _; try dsimp only) | (refine keptO_elim (by assumption) ?_) | (apply modUnit_kept) | (apply injFire_kept)
    | (apply unitDetection_kept) | (apply markOverflow_kept) | (exact keptO_none) | (apply keptO_some) | (apply kept_ite)
    | (fail_if_no_progress apply kept_mk) | split

theorem matrixActivity_kept {x0} {x1} {s2 : State} (h2 : Kept p k s2) :
    Kept p k (matrixActivity x0 x1 s2) := by
  unfold matrixActivity
  try dsimp only
  with_reducible repeat' first
    | assumption | (intro _; try dsimp only) | (apply chargeSection_kept) | split

theorem unitFire_kept {x0} {x1} {x2} {s3 : State} (h3 : Kept p k s3) :
    KeptO p k (unitFire x0 x1 x2 s3) := by
  unfold unitFire
  try dsimp only
  with_reducible repeat' first
    | assumption | (intro _; try dsimp only) | (refine keptO_elim (by assumption) ?_) | (apply tryFire_kept) | (apply injFire_kept)
    | (apply logCorrected_kept) | (apply unitDetection_kept) | (apply unitProgress_kept) | (apply injectOverflow_kept) | (apply matrixActivity_kept)
    | (exact keptO_none) | (apply keptO_some) | (apply keptO_mapS) | (apply keptO_mapP) | (apply keptO_map) | (apply kept_ite) | split

theorem execUnitFire_kept {x0} {x1} {s2 : State} (h2 : Kept p k s2) :
    KeptN p k (execUnitFire x0 x1 s2) := by
  unfold execUnitFire
  try dsimp only
  with_reducible repeat' first
    | assumption | (intro _; try dsimp only) | (refine keptO_elim (by assumption) ?_) | (apply afterEvent_kept) | (apply unitFire_kept)
    | (exact keptO_none) | (apply keptO_some) | (apply keptN_next) | (apply keptO_bind) | (apply keptO_bindS) | (apply keptO_bindA) | split

theorem takeFlying_kept {x0} {x1} {s2 : State} (h2 : Kept p k s2) :
    KeptOP p k (takeFlying x0 x1 s2) := by
  unfold takeFlying
  try dsimp only
  with_reducible repeat' first
    | assumption | (intro _; try dsimp only) | (refine keptOP_elim (by assumption) ?_) | (apply setThread_kept) | (exact keptOP_none)
    | (apply keptOP_some) | (apply keptOP_mapS) | (apply keptOP_map) | (fail_if_no_progress apply kept_mk) | split

theorem exitReached_kept {x0} {x1} {x2} {x3} {s4 : State} (h4 : Kept p k s4) :
    Kept p k (exitReached x0 x1 x2 x3 s4) := by
  unfold exitReached
  try dsimp only
  with_reducible repeat' first
    | assumption | (intro _; try dsimp only) | (apply modSec_kept) | (apply kept_ite) | (fail_if_no_progress apply kept_mk) | split

theorem arriveEdge_kept {x0} {x1} {x2} {x3} {s4 : State} (h4 : Kept p k s4) :
    Kept p k (arriveEdge x0 x1 x2 x3 s4) := by
  unfold arriveEdge
  try dsimp only
  with_reducible repeat' first
    | assumption | (intro _; try dsimp only) | (apply returnCredit_kept) | (apply exitReached_kept) | split

theorem arriveUnit_kept {x0} {x1} {x2} {x3} {x4} {x5} {s6 : State} (h6 : Kept p k s6) :
    Kept p k (arriveUnit x0 x1 x2 x3 x4 x5 s6) := by
  unfold arriveUnit
  try dsimp only
  with_reducible repeat' first
    | assumption | (intro _; try dsimp only) | (apply modUnit_kept) | (apply returnCredit_kept) | (apply injFire_kept) | (apply logCorrected_kept)
    | (apply unitDetection_kept) | (apply settleTile_kept) | (apply kept_ite) | (fail_if_no_progress apply kept_mk) | split

theorem leaveArrives_kept {g0} {s1 : State} (h1 : Kept p k s1) :
    Kept p k (leaveArrives g0 s1) := by
  unfold leaveArrives
  try dsimp only
  with_reducible repeat' first
    | assumption | (intro _; try dsimp only) | (apply exitReached_kept) | (fail_if_no_progress apply kept_mk) | split

theorem execEntryArrival_kept {x0} {x1} {s2 : State} (h2 : Kept p k s2) :
    KeptN p k (execEntryArrival x0 x1 s2) := by
  unfold execEntryArrival
  try dsimp only
  with_reducible repeat' first
    | assumption | (intro _; try dsimp only) | (refine keptOP_elim (by assumption) ?_) | (apply afterEvent_kept) | (apply takeFlying_kept)
    | (apply arriveEdge_kept) | (apply arriveUnit_kept) | (apply leaveArrives_kept) | (exact keptOP_none) | (apply keptOP_some) | (apply keptN_next)
    | (apply kept_ite) | split

theorem execCreditReturn_kept {x0} {x1} {s2 : State} (h2 : Kept p k s2) :
    KeptN p k (execCreditReturn x0 x1 s2) := by
  unfold execCreditReturn
  try dsimp only
  with_reducible repeat' first
    | assumption | (intro _; try dsimp only) | (apply setThread_kept) | (apply pumpFeeds_kept) | (apply afterEvent_kept) | (apply keptN_next)
    | (apply kept_ite) | (fail_if_no_progress apply kept_mk) | split

theorem withToken_kept {x0} {x1} {x2} {s3 : State} (h3 : Kept p k s3) :
    Kept p k (withToken x0 x1 x2 s3) := by
  unfold withToken
  try dsimp only
  with_reducible repeat' first
    | assumption | (intro _; try dsimp only) | (refine keptO_elim (by assumption) ?_) | (apply takeToken_kept) | (apply afterEvent_kept)
    | (exact keptO_none) | (apply keptO_some) | (apply kept_ite) | split

theorem execTokenStart_kept {x0} {x1} {s2 : State} (h2 : Kept p k s2) :
    KeptN p k (execTokenStart x0 x1 s2) := by
  unfold execTokenStart
  try dsimp only
  with_reducible repeat' first
    | assumption | (intro _; try dsimp only) | (apply withToken_kept) | (apply keptN_next)

theorem execTokenDone_kept {x0} {x1} {s2 : State} (h2 : Kept p k s2) :
    KeptN p k (execTokenDone x0 x1 s2) := by
  unfold execTokenDone
  try dsimp only
  with_reducible repeat' first
    | assumption | (intro _; try dsimp only) | (apply withToken_kept) | (apply keptN_next)

theorem execTokenSelect_kept {x0} {x1} {s2 : State} (h2 : Kept p k s2) :
    KeptN p k (execTokenSelect x0 x1 s2) := by
  unfold execTokenSelect
  try dsimp only
  with_reducible repeat' first
    | assumption | (intro _; try dsimp only) | (apply withToken_kept) | (apply keptN_next)

theorem execTokenEndSection_kept {x0} {x1} {s2 : State} (h2 : Kept p k s2) :
    KeptN p k (execTokenEndSection x0 x1 s2) := by
  unfold execTokenEndSection
  try dsimp only
  with_reducible repeat' first
    | assumption | (intro _; try dsimp only) | (apply withToken_kept) | (apply keptN_next)

theorem execTokenFlush_kept {x0} {x1} {s2 : State} (h2 : Kept p k s2) :
    KeptN p k (execTokenFlush x0 x1 s2) := by
  unfold execTokenFlush
  try dsimp only
  with_reducible repeat' first
    | assumption | (intro _; try dsimp only) | (apply withToken_kept) | (apply keptN_next)

theorem execTokenAbort_kept {x0} {x1} {s2 : State} (h2 : Kept p k s2) :
    KeptN p k (execTokenAbort x0 x1 s2) := by
  unfold execTokenAbort
  try dsimp only
  with_reducible repeat' first
    | assumption | (intro _; try dsimp only) | (apply withToken_kept) | (apply keptN_next)

theorem lineLost_kept {x0} {x1} {x2} {x3} {s4 : State} (h4 : Kept p k s4) :
    Kept p k (lineLost x0 x1 x2 x3 s4) := by
  unfold lineLost
  try dsimp only
  with_reducible repeat' first
    | assumption | (intro _; try dsimp only) | (apply fenceEnds_kept) | (apply retireFrame_kept) | (apply lostEntry_kept) | (apply logClass1_kept) | (apply kept_ite) | split

theorem dropRequest_kept {x0} {s1 : State} (h1 : Kept p k s1) :
    Kept p k (dropRequest x0 s1) := by
  unfold dropRequest
  try dsimp only
  with_reducible repeat' first
    | assumption | (intro _; try dsimp only) | (fail_if_no_progress apply kept_mk) | (fail_if_no_progress apply memOk_mk)
    | (refine Kept.mem (p := p) (k := k) ?_) | (apply kept_mkm)

theorem writePlaces_kept {x0} {x1} {s2 : State} (h2 : Kept p k s2) :
    KeptO p k (writePlaces x0 x1 s2) := by
  unfold writePlaces
  try dsimp only
  with_reducible repeat' first
    | assumption | (intro _; try dsimp only) | (refine keptO_elim (by assumption) ?_) | (apply writeDva_kept) | (apply noteHeaders_kept) | (apply undefine_kept)
    | (exact keptO_none) | (apply keptO_some) | (apply kept_foldl) | (apply kept_foldl_pair) | (apply keptO_foldl) | (apply keptO_bind)
    | (apply keptO_bindS) | (apply keptO_bindA) | (apply keptO_mapS) | (apply keptO_mapP) | (apply keptO_map) | split

theorem readPlaces_kept {x0} {x1} {x2} {x3} {x4} {s5 : State} (h5 : Kept p k s5) :
    KeptO p k (readPlaces x0 x1 x2 x3 x4 s5) := by
  unfold readPlaces
  try dsimp only
  with_reducible repeat' first
    | assumption | (intro _; try dsimp only) | (refine keptO_elim (by assumption) ?_) | (apply writeSram_kept) | (exact keptO_none)
    | (apply keptO_some) | (apply kept_foldl) | (apply kept_foldl_pair) | (apply keptO_foldl) | (apply keptO_bind) | (apply keptO_bindS)
    | (apply keptO_bindA) | (apply keptO_mapS) | (apply keptO_mapP) | (apply keptO_map) | split

theorem moveSpill_kept {x0} {x1} {x2} {x3} {s4 : State} (h4 : Kept p k s4) :
    KeptO p k (moveSpill x0 x1 x2 x3 s4) := by
  unfold moveSpill
  try dsimp only
  with_reducible repeat' first
    | assumption | (intro _; try dsimp only) | (refine keptO_elim (by assumption) ?_) | (apply writeSram_kept) | (apply writePlaces_kept)
    | (exact keptO_none) | (apply keptO_some) | (apply kept_foldl) | (apply kept_foldl_pair) | (apply keptO_foldl) | (apply keptO_bind)
    | (apply keptO_bindS) | (apply keptO_bindA) | (apply keptO_mapS) | (apply keptO_mapP) | (apply keptO_map) | (apply kept_ite) | split

theorem spillEnds_kept {x0} {x1} {x2} {s3 : State} (h3 : Kept p k s3) :
    KeptO p k (spillEnds x0 x1 x2 s3) := by
  unfold spillEnds
  try dsimp only
  with_reducible repeat' first
    | assumption | (intro _; try dsimp only) | (refine keptO_elim (by assumption) ?_) | (apply modUnit_kept) | (apply moveSpill_kept)
    | (exact keptO_none) | (apply keptO_some) | (apply keptO_bind) | (apply keptO_bindS) | (apply keptO_bindA) | (apply keptO_mapS)
    | (apply keptO_mapP) | (apply keptO_map) | (apply kept_ite) | (fail_if_no_progress apply kept_mk) | split

theorem tierEnds_kept {x0} {x1} {x2} {s3 : State} (h3 : Kept p k s3) :
    Kept p k (tierEnds x0 x1 x2 s3) := by
  unfold tierEnds
  try dsimp only
  with_reducible repeat' first
    | assumption | (intro _; try dsimp only) | (refine keptO_elim (by assumption) ?_) | (apply touchDva_kept) | (apply setStream_kept)
    | (apply streamFinish_kept) | (apply showProgress_kept) | (apply chargeSecTier_kept) | (apply afterEvent_kept) | (apply dropRequest_kept)
    | (apply writePlaces_kept) | (apply readPlaces_kept) | (apply spillEnds_kept) | (exact keptO_none) | (apply keptO_some) | (apply kept_foldl)
    | (apply keptO_foldl) | (apply kept_getD) | (apply kept_ite) | (fail_if_no_progress apply kept_mk) | split

theorem execTierRequestComplete_kept {x0} {x1} {x2} {s3 : State} (h3 : Kept p k s3) :
    KeptN p k (execTierRequestComplete x0 x1 x2 s3) := by
  unfold execTierRequestComplete
  try dsimp only
  with_reducible repeat' first
    | assumption | (intro _; try dsimp only) | (refine keptO_elim (by assumption) ?_) | (refine kept_snd (by assumption) ?_) | (apply startAbort_kept)
    | (apply injFire_kept) | (apply logCorrected_kept) | (apply unitDetection_kept) | (apply injectLines_kept) | (apply afterEvent_kept)
    | (apply lineLost_kept) | (apply dropRequest_kept) | (apply writePlaces_kept) | (apply tierEnds_kept) | (exact keptO_none) | (apply keptO_some)
    | (apply keptN_next) | (apply kept_getD) | (apply keptO_bind) | (apply keptO_bindS) | (apply keptO_bindA) | (apply keptO_mapS)
    | (apply keptO_mapP) | (apply keptO_map) | (apply kept_ite) | split

theorem execIslandClockStop_kept {x0} {x1} {s2 : State} (h2 : Kept p k s2) :
    KeptN p k (execIslandClockStop x0 x1 s2) := by
  unfold execIslandClockStop
  try dsimp only
  with_reducible repeat' first
    | assumption | (intro _; try dsimp only) | (apply keptN_next) | (apply kept_ite) | (fail_if_no_progress apply kept_mk) | split

/-! ### Machine/Arbitration.lean -/

theorem bankBeat_kept {x0} {x1} {g2} {s3 : State} (h3 : Kept p k s3) :
    Kept p k (bankBeat x0 x1 g2 s3) := by
  unfold bankBeat
  try dsimp only
  with_reducible repeat' first
    | assumption | (intro _; try dsimp only) | (refine keptO_elim (by assumption) ?_) | (apply afterEvent_kept) | (apply unitFire_kept)
    | (exact keptO_none) | (apply keptO_some) | (apply keptO_bind) | (apply keptO_bindS) | (apply keptO_bindA) | split

theorem linkBeat_kept {x0} {g1} {s2 : State} (h2 : Kept p k s2) :
    Kept p k (linkBeat x0 g1 s2) := by
  unfold linkBeat
  try dsimp only
  with_reducible repeat' first
    | assumption | (intro _; try dsimp only) | (apply setLink_kept) | (apply modLink_kept) | (apply chargeLink_kept) | (apply putOnWire_kept)
    | (apply kept_ite) | (fail_if_no_progress apply kept_mk) | split

theorem execArbiterBeat_kept {x0} {s1 : State} (h1 : Kept p k s1) :
    KeptN p k (execArbiterBeat x0 s1) := by
  unfold execArbiterBeat
  try dsimp only
  with_reducible repeat' first
    | assumption | (intro _; try dsimp only) | (apply bankBeat_kept) | (apply linkBeat_kept) | (apply keptN_next) | (apply kept_ite)
    | (fail_if_no_progress apply kept_mk) | split

/-! ### Machine/Fencing.lean -/

theorem takeCycles_kept {x0} {x1} {s2 : State} (h2 : Kept p k s2) :
    Kept p k (takeCycles x0 x1 s2) := by
  unfold takeCycles
  try dsimp only
  with_reducible repeat' first
    | assumption | (intro _; try dsimp only) | (apply kept_ite) | (fail_if_no_progress apply kept_mk) | split

theorem tileDetection_kept {x0} {x1} {s2 : State} (h2 : Kept p k s2) :
    Kept p k (tileDetection x0 x1 s2) := by
  unfold tileDetection
  try dsimp only
  with_reducible repeat' first
    | assumption | (intro _; try dsimp only) | (apply unitDetection_kept) | (apply kept_ite) | split

theorem markDevice_kept {x0} {x1} {x2} {s3 : State} (h3 : Kept p k s3) :
    Kept p k (markDevice x0 x1 x2 s3) := by
  unfold markDevice
  extract_lets i cur t
  split
  · exact h3
  · split <;> exact ⟨h3.mem, h3.seq, h3.pending, h3.base⟩

theorem findDevice_kept {x0} {x1} {s2 : State} (h2 : Kept p k s2) :
    Kept p k (findDevice x0 x1 s2) := by
  unfold findDevice
  try dsimp only
  with_reducible repeat' first
    | assumption | (intro _; try dsimp only) | (apply markDevice_kept) | (fail_if_no_progress apply kept_mk) | split

theorem lineDetection_kept {x0} {x1} {x2} {s3 : State} (h3 : Kept p k s3) :
    Kept p k (lineDetection x0 x1 x2 s3) := by
  unfold lineDetection
  try dsimp only
  with_reducible repeat' first
    | assumption | (intro _; try dsimp only) | (apply retireFrame_kept) | (apply logClass1_kept) | (apply findDevice_kept) | (apply kept_ite)
    | split

theorem moonTranslation_kept {x0} {x1} {s2 : State} (h2 : Kept p k s2) :
    Kept p k (moonTranslation x0 x1 s2) := by
  unfold moonTranslation
  try dsimp only
  with_reducible repeat' first
    | assumption | (intro _; try dsimp only) | (apply logClass1_kept) | (apply moonFault_kept) | split

theorem callDetection_kept {x0} {x1} {s2 : State} (h2 : Kept p k s2) :
    Kept p k (callDetection x0 x1 s2) := by
  unfold callDetection
  try dsimp only
  with_reducible repeat' first
    | assumption | (intro _; try dsimp only) | (apply callFormat_kept) | split

theorem digestDetection_kept {x0} {x1} {s2 : State} (h2 : Kept p k s2) :
    Kept p k (digestDetection x0 x1 s2) := by
  unfold digestDetection
  try dsimp only
  with_reducible repeat' first
    | assumption | (intro _; try dsimp only) | (apply noteFence_kept) | (apply settleCopies_kept) | (apply logClass1_kept) | (apply setCopy_kept) | (apply quarantineEnds_kept)
    | (apply kept_ite) | (fail_if_no_progress apply kept_mk) | split

theorem fenceAction_kept {x0} {x1} {x2} {s3 : State} (h3 : Kept p k s3) :
    Kept p k (fenceAction x0 x1 x2 s3) := by
  unfold fenceAction
  try dsimp only
  with_reducible repeat' first
    | assumption | (intro _; try dsimp only) | (apply logClass1_kept) | (apply loseLink_kept) | (apply clockFence_kept) | (apply tileDetection_kept)
    | (apply lineDetection_kept) | (apply moonTranslation_kept) | (apply callDetection_kept) | (apply digestDetection_kept) | (apply kept_ite)
    | split

theorem execFenceAction_kept {x0} {s1 : State} (h1 : Kept p k s1) :
    KeptN p k (execFenceAction x0 s1) := by
  unfold execFenceAction
  try dsimp only
  with_reducible repeat' first
    | assumption | (intro _; try dsimp only) | (apply injMeet_kept) | (apply liftFences_kept) | (apply noteService_kept) | (apply takeCycles_kept) | (apply fenceAction_kept)
    | (apply keptN_next) | (apply kept_ite) | split

theorem execFatalEvent_kept {x0} {s1 : State} (h1 : Kept p k s1) :
    KeptN p k (execFatalEvent x0 s1) := by
  unfold execFatalEvent
  try dsimp only
  with_reducible repeat' first
    | assumption | (intro _; try dsimp only) | (apply fatalStart_kept) | (apply setEntry_kept) | (apply fatalRailsOff_kept)
    | (apply execThermalTrip_kept) | (apply afterOf_kept) | (apply takeCycles_kept) | (apply keptN_next) | (apply kept_ite)
    | (fail_if_no_progress apply kept_mk) | split

theorem execHeartbeatLoss_kept {x0} {x1} {s2 : State} (h2 : Kept p k s2) :
    KeptN p k (execHeartbeatLoss x0 x1 s2) := by
  unfold execHeartbeatLoss
  try dsimp only
  with_reducible repeat' first
    | assumption | (intro _; try dsimp only) | (apply fatalStart_kept) | (apply takeCycles_kept) | (apply keptN_next) | (apply kept_ite) | split

theorem fatalRequest_kept {s0 : State} {g1} (h0 : Kept p k s0) :
    Kept p k (fatalRequest s0 g1) := by
  unfold fatalRequest
  try dsimp only
  with_reducible repeat' first
    | assumption | (intro _; try dsimp only) | (apply modReq_kept) | (apply releaseReserve_kept) | (apply closeReq_kept) | (apply kept_ite)
    | (fail_if_no_progress apply kept_mk) | split

theorem execFatalParkExpiry_kept {s0 : State} (h0 : Kept p k s0) :
    KeptN p k (execFatalParkExpiry s0) := by
  unfold execFatalParkExpiry
  try dsimp only
  with_reducible repeat' first
    | assumption | (intro _; try dsimp only) | (apply finish_kept) | (apply fatalRequest_kept) | (apply keptN_next) | (apply kept_foldl)
    | (apply kept_ite) | (fail_if_no_progress apply kept_mk) | split | (fail_if_no_progress apply seqOk_mk) | (refine Kept.seq (p := p) (k := k) ?_)
    | (apply kept_mkf)

theorem execAliveToggle_kept {s0 : State} (h0 : Kept p k s0) :
    KeptN p k (execAliveToggle s0) := by
  unfold execAliveToggle
  try dsimp only
  with_reducible repeat' first
    | assumption | (intro _; try dsimp only) | (apply setEntry_kept) | (apply keptN_next) | (apply kept_ite) | (fail_if_no_progress apply kept_mk)
    | split

theorem execEnduranceWrite_kept {x0} {x1} {s2 : State} (h2 : Kept p k s2) :
    KeptN p k (execEnduranceWrite x0 x1 s2) := by
  unfold execEnduranceWrite
  try dsimp only
  with_reducible repeat' first
    | assumption | (intro _; try dsimp only) | (apply writeEndurance_kept) | (apply keptN_next) | (apply kept_ite)
    | (fail_if_no_progress apply kept_mk) | split
    | (apply kept_mks) | (refine Kept.store (p := p) (k := k) ?_)
    | (apply kept_mka) | (fail_if_no_progress apply memOk_mk) | (refine Kept.mem (p := p) (k := k) ?_)
    | (fail_if_no_progress apply seqOk_mk) | (refine Kept.seq (p := p) (k := k) ?_) | (refine Kept.meterUp (p := p) (k := k) ?_)

/-! ### Machine/Ticks.lean -/

theorem tickCycles_kept {s0 : State} (h0 : Kept p k s0) :
    Kept p k (tickCycles s0) := by
  unfold tickCycles
  try dsimp only
  with_reducible repeat' first
    | assumption | (intro _; try dsimp only) | (apply kept_foldl) | (fail_if_no_progress apply kept_mk)

theorem tickUnit_kept {s0 : State} {g1} (h0 : Kept p k s0) :
    Kept p k (tickUnit s0 g1) := by
  unfold tickUnit
  try dsimp only
  with_reducible repeat' first
    | assumption | (intro _; try dsimp only) | (apply chargeSection_kept) | (apply kept_ite) | (fail_if_no_progress apply kept_mk) | split

theorem tickInjection_kept {s0 : State} (h0 : Kept p k s0) :
    Kept p k (tickInjection s0) := by
  unfold tickInjection
  try dsimp only
  with_reducible repeat' first
    | assumption | (intro _; try dsimp only) | (apply noteService_kept) | (apply fireIndication_kept) | (apply kept_ite) | split

theorem controlTick_kept {s0 : State} (h0 : Kept p k s0) : Kept p { k with tick := k.tick + 1 } (controlTick s0) := by
  unfold controlTick
  extract_lets s1 s2 f0 f1 f2 f3 s3
  have h1 : Kept p { k with tick := k.tick + 1 } s1 := tickCycles_kept ⟨h0.mem, h0.seq, h0.pending, by simp [h0.tick], h0.base.2⟩
  have h2 : Kept p { k with tick := k.tick + 1 } s2 := kept_foldl (fun u e hu => tickUnit_kept hu) h1
  have h3 : Kept p { k with tick := k.tick + 1 } s3 := ⟨h2.mem, h2.seq, h2.pending, h2.base⟩
  exact tickInjection_kept (settleHolds_kept h3)

end Sys2Proof.Machine
end

