-- ==== Sys2Proof/Laws/KeptExec.lean ====
section
/-!
SUPPORT. Every command keeps a sound state sound, the queue and the tick; but for the meter's own commands it keeps the meter, and but for
BRINGUP_READY the version floor and the revoked-slot mask (Laws/Kept.lean).
-/

namespace Sys2Proof.Machine

set_option maxRecDepth 100000 in
/-- What a command keeps: the meter's commands where the base asks that the meter has not fallen, BRINGUP_READY where it lets the floors rise. -/
theorem exec_kept {n : Nat} {p : List Instr} {k : Base} {s : State} (c : Instr) (h : Kept p k s)
    (hm : meterCommand c = true → k.meter = MeterUp n)
    (hf : floorCommand c = true → ∀ a b n r, k.store a b → k.store (max a n) (b ||| r)) : KeptN p k (exec c s) := by
  cases c with
  | nop _ _ => exact execNop_kept h
  | fence _ _ _ => exact execFence_kept h
  | timeMark _ _ => exact execTimeMark_kept h
  | copy _ _ _ _ => exact execCopy_kept h
  | copyCollective _ _ _ => exact execCopyCollective_kept h
  | loadSkein _ _ _ _ => exact execLoadSkein_kept h
  | runSection _ _ _ _ => exact execRunSection_kept h
  | moonLoad _ _ _ _ => exact execMoonLoad_kept h
  | weightLoad _ _ _ _ => exact execWeightLoad_kept h
  | requestSubmit _ _ _ _ => exact execRequestSubmit_kept h
  | requestCancel _ _ _ _ => exact execRequestCancel_kept h
  | parkSection _ _ _ => exact execParkSection_kept h
  | parkRequest _ _ _ => exact execParkRequest_kept h
  | resumeParkRecord _ _ _ => exact execResumeParkRecord_kept h
  | resumeDiscard _ _ _ => exact execResumeDiscard_kept h
  | resumeComet _ _ _ _ => exact execResumeComet_kept h
  | kvShip _ _ _ => exact execKvShip_kept h
  | descriptorFetchBurst _ _ => exact execDescriptorFetchBurst_kept h
  | sqTail _ _ => exact execSqTail_kept h
  | cqHead _ _ => exact execCqHead_kept h
  | queueEnable _ _ => exact execQueueEnable_kept h
  | queueDisable _ => exact execQueueDisable_kept h
  | qcfgErrClear _ _ => exact execQcfgErrClear_kept h
  | irqEnClear _ => exact execIrqEnClear_kept h
  | coalTimerExpiry _ => exact execCoalTimerExpiry_kept h
  | msixUnmask _ => exact execMsixUnmask_kept h
  | cxlPortDown _ => exact execCxlPortDown_kept h
  | cxlPortUp _ _ _ _ => exact execCxlPortUp_kept h
  | cxlMemRead _ => exact execCxlMemRead_kept h
  | cxlMemWrite _ _ => exact execCxlMemWrite_kept h
  | download _ => exact execDownload_kept h
  | bringupReady _ => exact execBringupReady_kept h (hf rfl)
  | map _ => exact execMap_kept h
  | unmap _ => exact execUnmap_kept h
  | serveMode _ => exact execServeMode_kept h
  | serveConfig _ => exact execServeConfig_kept h
  | expertMap _ _ _ => exact execExpertMap_kept h
  | retainedFree _ => exact execRetainedFree_kept h
  | retainedPack _ => exact execRetainedPack_kept h
  | cometTrust _ _ => exact execCometTrust_kept h
  | modelOwners _ _ => exact execModelOwners_kept h
  | modelDrop _ => exact execModelDrop_kept h
  | collGroup _ _ _ _ _ => exact execCollGroup_kept h
  | fieldLayout _ _ => exact execFieldLayout_kept h
  | placeGroup _ _ _ => exact execPlaceGroup_kept h
  | fieldWake _ => exact execFieldWake_kept h
  | fieldSleep _ => exact execFieldSleep_kept h
  | fieldReset _ => exact execFieldReset_kept h
  | testNonce _ => exact execTestNonce_kept h
  | testUnlock _ => exact execTestUnlock_kept h
  | testLock => exact execTestLock_kept h
  | selfTest _ _ _ => exact execSelfTest_kept h
  | setupDone => exact execSetupDone_kept h
  | bootResetWarm _ => exact execBootResetWarm_kept h
  | commit => exact execCommit_kept h
  | routingBankSwap => exact execRoutingBankSwap_kept h
  | linkEnable _ _ => exact execLinkEnable_kept h
  | retrain _ => exact execRetrain_kept h
  | nodeId _ => exact execNodeId_kept h
  | replayGo _ => exact execReplayGo_kept h
  | take => exact execTake_kept h
  | clear => exact execClear_kept h
  | testLinkMode _ _ => exact execTestLinkMode_kept h
  | testLinkClear _ => exact execTestLinkClear_kept h
  | testMemStart _ => exact execTestMemStart_kept h
  | testMemDone _ => exact execTestMemDone_kept h
  | traceEnable _ => exact execTraceEnable_kept h
  | injectionArm _ _ => exact execInjectionArm_kept h
  | registerWrite _ _ _ => exact execRegisterWrite_kept h
  | heartbeat _ _ => exact execHeartbeat_kept h
  | setCap _ _ => exact execSetCap_kept h
  | setOrphanCap _ _ => exact execSetOrphanCap_kept h
  | getStatus _ => exact execGetStatus_kept h
  | meterMark _ _ => exact execMeterMark_kept (hm rfl) h
  | warmReset _ _ => exact execWarmReset_kept h
  | fwOffer _ _ => exact execFwOffer_kept h
  | fwData _ _ _ _ => exact execFwData_kept h
  | fwReadTimeout => exact execFwReadTimeout_kept h
  | getVersion _ => exact execGetVersion_kept h
  | getCapabilities _ => exact execGetCapabilities_kept h
  | negotiateAlgorithms _ _ _ _ _ => exact execNegotiateAlgorithms_kept h
  | getDigests _ => exact execGetDigests_kept h
  | getCertificate _ _ _ _ => exact execGetCertificate_kept h
  | challenge _ _ _ => exact execChallenge_kept h
  | getMeasurements _ _ _ _ => exact execGetMeasurements_kept h
  | keyExchange _ _ _ => exact execKeyExchange_kept h
  | finish _ _ _ => exact execFinish_kept h
  | spdmHeartbeat _ _ => exact execSpdmHeartbeat_kept h
  | keyUpdate _ _ _ => exact execKeyUpdate_kept h
  | endSession _ _ => exact execEndSession_kept h
  | chunkSend _ _ _ _ _ => exact execChunkSend_kept h
  | chunkGet _ _ _ => exact execChunkGet_kept h
  | cosign _ _ => exact execCosign_kept h
  | getChain _ _ _ => exact execGetChain_kept h
  | p56vContact => exact execP56vContact_kept h
  | prechargeComplete => exact execPrechargeComplete_kept h
  | prechargeTimeout _ => exact execPrechargeTimeout_kept h
  | pwrEnRise => exact execPwrEnRise_kept h
  | pwrEnFall => exact execPwrEnFall_kept h
  | removeOkRelease => exact execRemoveOkRelease_kept h
  | attnN => exact execAttnN_kept h
  | flowOkFall => exact execFlowOkFall_kept h
  | flowOkRise => exact execFlowOkRise_kept h
  | flowCapLift => exact execFlowCapLift_kept h
  | inputBelow50v _ => exact execInputBelow50v_kept h
  | inputCapLift => exact execInputCapLift_kept h
  | inputBelow44v _ => exact execInputBelow44v_kept h
  | inputLossPark => exact execInputLossPark_kept h
  | inputAbove62v => exact execInputAbove62v_kept h
  | periodicPowerReport => exact execPeriodicPowerReport_kept h
  | managersSilent => exact execManagersSilent_kept h
  | governorCheck _ _ => exact execGovernorCheck_kept h
  | governorUnpark _ => exact execGovernorUnpark_kept h
  | lagEpisodeStart => exact execLagEpisodeStart_kept h
  | lagReport => exact execLagReport_kept h
  | lagEpisodeEnd => exact execLagEpisodeEnd_kept h
  | thermalHot _ _ => exact execThermalHot_kept h
  | thermalCapStep _ => exact execThermalCapStep_kept h
  | thermalPark _ => exact execThermalPark_kept h
  | thermalUnpark _ => exact execThermalUnpark_kept h
  | thermalTrip _ => exact execThermalTrip_kept h
  | perstAssert => exact execPerstAssert_kept h
  | perstRelease _ => exact execPerstRelease_kept h
  | flr => exact execFlr_kept h
  | d3hotEntry => exact execD3hotEntry_kept h
  | d0Entry => exact execD0Entry_kept h
  | islandClockStop _ _ => exact execIslandClockStop_kept h
  | sectionDispatch _ => exact execSectionDispatch_kept h
  | slotFill _ _ => exact execSlotFill_kept h
  | unitFire _ _ => exact execUnitFire_kept h
  | entryArrival _ _ => exact execEntryArrival_kept h
  | creditReturn _ _ => exact execCreditReturn_kept h
  | tokenStart _ _ => exact execTokenStart_kept h
  | tokenDone _ _ => exact execTokenDone_kept h
  | tokenSelect _ _ => exact execTokenSelect_kept h
  | tokenEndSection _ _ => exact execTokenEndSection_kept h
  | tokenFlush _ _ => exact execTokenFlush_kept h
  | tokenAbort _ _ => exact execTokenAbort_kept h
  | unitSwap _ => exact execUnitSwap_kept h
  | sectionComplete _ => exact execSectionComplete_kept h
  | runEmptyDrainDone _ => exact execRunEmptyDrainDone_kept h
  | abortDrainTimeout _ => exact execAbortDrainTimeout_kept h
  | scanSettleExpiry _ => exact execScanSettleExpiry_kept h
  | tierRequestComplete _ _ _ => exact execTierRequestComplete_kept h
  | arbiterBeat _ => exact execArbiterBeat_kept h
  | watchdogExpiry _ => exact execWatchdogExpiry_kept h
  | inputPark _ => exact execInputPark_kept h
  | copyBatchClose => exact execCopyBatchClose_kept h
  | copyTransferDone _ _ => exact execCopyTransferDone_kept h
  | shardHashed _ => exact execShardHashed_kept h
  | pageMoveDone => exact execPageMoveDone_kept h
  | scrubPass _ _ => exact execScrubPass_kept h
  | moonCall _ _ => exact execMoonCall_kept h
  | moonCallPartDone _ => exact execMoonCallPartDone_kept h
  | moonPartialCombine _ => exact execMoonPartialCombine_kept h
  | moonCallComplete _ _ _ => exact execMoonCallComplete_kept h
  | moonResultFetch _ _ _ _ => exact execMoonResultFetch_kept h
  | moonServiceStep _ => exact execMoonServiceStep_kept h
  | rehashPass _ _ _ _ _ => exact execRehashPass_kept h
  | stepBoundary _ => exact execStepBoundary_kept h
  | tokenSample _ => exact execTokenSample_kept h
  | stepCommit _ _ => exact execStepCommit_kept h
  | deadlineExpiry _ => exact execDeadlineExpiry_kept h
  | requestIdlePark _ => exact execRequestIdlePark_kept h
  | entryAllocate => exact execEntryAllocate_kept h
  | cometWritten _ _ => exact execCometWritten_kept h
  | flitReceive _ _ => exact execFlitReceive_kept h
  | retryExhausted _ _ => exact execRetryExhausted_kept h
  | laneLossOfLock _ _ => exact execLaneLossOfLock_kept h
  | fastRetrainDone _ _ => exact execFastRetrainDone_kept h
  | linkTrainingDone _ _ => exact execLinkTrainingDone_kept h
  | packetHop _ _ _ _ => exact execPacketHop_kept h
  | packetDeliver _ _ => exact execPacketDeliver_kept h
  | ackReceive _ _ _ _ => exact execAckReceive_kept h
  | dropReceive _ _ _ => exact execDropReceive_kept h
  | ackSendTimer _ _ => exact execAckSendTimer_kept h
  | resendTimeout _ => exact execResendTimeout_kept h
  | transferWindowExpiry _ => exact execTransferWindowExpiry_kept h
  | packetStallTimeout _ _ => exact execPacketStallTimeout_kept h
  | collSetupPacket _ _ _ _ => exact execCollSetupPacket_kept h
  | collSegmentReceive _ _ _ _ => exact execCollSegmentReceive_kept h
  | joinWaitExpiry _ => exact execJoinWaitExpiry_kept h
  | fenceAction _ => exact execFenceAction_kept h
  | unitTest _ _ => exact execUnitTest_kept h
  | columnMapApply _ => exact execColumnMapApply_kept h
  | fatalEvent _ => exact execFatalEvent_kept h
  | fatalParkExpiry => exact execFatalParkExpiry_kept h
  | heartbeatLoss _ _ => exact execHeartbeatLoss_kept h
  | testModeExpiry => exact execTestModeExpiry_kept h
  | aliveToggle => exact execAliveToggle_kept h
  | energyApportionment => exact execEnergyApportionment_kept h
  | enduranceWrite _ _ => exact execEnduranceWrite_kept h
  | meterIntervalEnd => exact execMeterIntervalEnd_kept (hm rfl) h
  | meterSelfCheck _ _ => exact execMeterSelfCheck_kept (hm rfl) h
  | meterPowerLoss => exact execMeterPowerLoss_kept (hm rfl) h
  | meterPowerUp _ => exact execMeterPowerUp_kept (hm rfl) h
  | meterRestart => exact execMeterRestart_kept (hm rfl) h
  | sealEvent _ => exact execSealEvent_kept (hm rfl) h
  | meterStatusFrame => exact execMeterStatusFrame_kept h
  | p100Window _ _ => exact execP100Window_kept h
  | inputReturn _ => exact execInputReturn_kept h
  | pwrEnHoldExpiry => exact execPwrEnHoldExpiry_kept h
  | moonCallForward _ => exact execMoonCallForward_kept h
  | imageChecked _ _ _ => exact execImageChecked_kept h
  | scanShiftDone _ => exact execScanShiftDone_kept h
  | warmResetReady _ => exact execWarmResetReady_kept h
  | dynamicAddressAssignment _ _ => exact execDynamicAddressAssignment_kept h
  | meterLinkTimeout => exact execMeterLinkTimeout_kept h
  | meterSample _ _ => exact execMeterSample_kept (hm rfl) h

end Sys2Proof.Machine
end

