-- ==== Sys2Proof/Laws/State.lean ====
section
/-!
SUPPORT. What each setter of State gives every field: the one it writes, and every other one as it was.
-/

namespace Sys2Proof.Machine

variable (s : State)

/-! ### setHost -/

@[simp] theorem setHost_entry (h : HostIf) : (setHost s h).entry = s.entry := rfl
@[simp] theorem setHost_boot (h : HostIf) : (setHost s h).boot = s.boot := rfl
@[simp] theorem setHost_store (h : HostIf) : (setHost s h).store = s.store := rfl
@[simp] theorem setHost_spdm (h : HostIf) : (setHost s h).spdm = s.spdm := rfl
@[simp] theorem setHost_host (h : HostIf) : (setHost s h).host = h := rfl
@[simp] theorem setHost_gov (h : HostIf) : (setHost s h).gov = s.gov := rfl
@[simp] theorem setHost_faults (h : HostIf) : (setHost s h).faults = s.faults := rfl
@[simp] theorem setHost_testLinks (h : HostIf) : (setHost s h).testLinks = s.testLinks := rfl
@[simp] theorem setHost_testMem (h : HostIf) : (setHost s h).testMem = s.testMem := rfl
@[simp] theorem setHost_meter (h : HostIf) : (setHost s h).meter = s.meter := rfl
@[simp] theorem setHost_window (h : HostIf) : (setHost s h).window = s.window := rfl
@[simp] theorem setHost_acct (h : HostIf) : (setHost s h).acct = s.acct := rfl
@[simp] theorem setHost_fld (h : HostIf) : (setHost s h).fld = s.fld := rfl
@[simp] theorem setHost_grid (h : HostIf) : (setHost s h).grid = s.grid := rfl
@[simp] theorem setHost_mem (h : HostIf) : (setHost s h).mem = s.mem := rfl
@[simp] theorem setHost_moons (h : HostIf) : (setHost s h).moons = s.moons := rfl
@[simp] theorem setHost_serv (h : HostIf) : (setHost s h).serv = s.serv := rfl
@[simp] theorem setHost_models (h : HostIf) : (setHost s h).models = s.models := rfl
@[simp] theorem setHost_fab (h : HostIf) : (setHost s h).fab = s.fab := rfl
@[simp] theorem setHost_arbs (h : HostIf) : (setHost s h).arbs = s.arbs := rfl
@[simp] theorem setHost_tick (h : HostIf) : (setHost s h).tick = s.tick := rfl
@[simp] theorem setHost_fresh (h : HostIf) : (setHost s h).fresh = s.fresh := rfl
@[simp] theorem setHost_pending (h : HostIf) : (setHost s h).pending = s.pending := rfl

/-! ### setQueue -/

@[simp] theorem setQueue_entry (q : Nat) (v : Queue) : (setQueue s q v).entry = s.entry := rfl
@[simp] theorem setQueue_boot (q : Nat) (v : Queue) : (setQueue s q v).boot = s.boot := rfl
@[simp] theorem setQueue_store (q : Nat) (v : Queue) : (setQueue s q v).store = s.store := rfl
@[simp] theorem setQueue_spdm (q : Nat) (v : Queue) : (setQueue s q v).spdm = s.spdm := rfl
@[simp] theorem setQueue_host (q : Nat) (v : Queue) : (setQueue s q v).host = { s.host with queues := tset ({} : Queue) q v s.host.queues } := rfl
@[simp] theorem setQueue_gov (q : Nat) (v : Queue) : (setQueue s q v).gov = s.gov := rfl
@[simp] theorem setQueue_faults (q : Nat) (v : Queue) : (setQueue s q v).faults = s.faults := rfl
@[simp] theorem setQueue_testLinks (q : Nat) (v : Queue) : (setQueue s q v).testLinks = s.testLinks := rfl
@[simp] theorem setQueue_testMem (q : Nat) (v : Queue) : (setQueue s q v).testMem = s.testMem := rfl
@[simp] theorem setQueue_meter (q : Nat) (v : Queue) : (setQueue s q v).meter = s.meter := rfl
@[simp] theorem setQueue_window (q : Nat) (v : Queue) : (setQueue s q v).window = s.window := rfl
@[simp] theorem setQueue_acct (q : Nat) (v : Queue) : (setQueue s q v).acct = s.acct := rfl
@[simp] theorem setQueue_fld (q : Nat) (v : Queue) : (setQueue s q v).fld = s.fld := rfl
@[simp] theorem setQueue_grid (q : Nat) (v : Queue) : (setQueue s q v).grid = s.grid := rfl
@[simp] theorem setQueue_mem (q : Nat) (v : Queue) : (setQueue s q v).mem = s.mem := rfl
@[simp] theorem setQueue_moons (q : Nat) (v : Queue) : (setQueue s q v).moons = s.moons := rfl
@[simp] theorem setQueue_serv (q : Nat) (v : Queue) : (setQueue s q v).serv = s.serv := rfl
@[simp] theorem setQueue_models (q : Nat) (v : Queue) : (setQueue s q v).models = s.models := rfl
@[simp] theorem setQueue_fab (q : Nat) (v : Queue) : (setQueue s q v).fab = s.fab := rfl
@[simp] theorem setQueue_arbs (q : Nat) (v : Queue) : (setQueue s q v).arbs = s.arbs := rfl
@[simp] theorem setQueue_tick (q : Nat) (v : Queue) : (setQueue s q v).tick = s.tick := rfl
@[simp] theorem setQueue_fresh (q : Nat) (v : Queue) : (setQueue s q v).fresh = s.fresh := rfl
@[simp] theorem setQueue_pending (q : Nat) (v : Queue) : (setQueue s q v).pending = s.pending := rfl

/-! ### setOpens -/

@[simp] theorem setOpens_entry (o : Tab OpenDesc) : (setOpens s o).entry = s.entry := rfl
@[simp] theorem setOpens_boot (o : Tab OpenDesc) : (setOpens s o).boot = s.boot := rfl
@[simp] theorem setOpens_store (o : Tab OpenDesc) : (setOpens s o).store = s.store := rfl
@[simp] theorem setOpens_spdm (o : Tab OpenDesc) : (setOpens s o).spdm = s.spdm := rfl
@[simp] theorem setOpens_host (o : Tab OpenDesc) : (setOpens s o).host = { s.host with opens := o } := rfl
@[simp] theorem setOpens_gov (o : Tab OpenDesc) : (setOpens s o).gov = s.gov := rfl
@[simp] theorem setOpens_faults (o : Tab OpenDesc) : (setOpens s o).faults = s.faults := rfl
@[simp] theorem setOpens_testLinks (o : Tab OpenDesc) : (setOpens s o).testLinks = s.testLinks := rfl
@[simp] theorem setOpens_testMem (o : Tab OpenDesc) : (setOpens s o).testMem = s.testMem := rfl
@[simp] theorem setOpens_meter (o : Tab OpenDesc) : (setOpens s o).meter = s.meter := rfl
@[simp] theorem setOpens_window (o : Tab OpenDesc) : (setOpens s o).window = s.window := rfl
@[simp] theorem setOpens_acct (o : Tab OpenDesc) : (setOpens s o).acct = s.acct := rfl
@[simp] theorem setOpens_fld (o : Tab OpenDesc) : (setOpens s o).fld = s.fld := rfl
@[simp] theorem setOpens_grid (o : Tab OpenDesc) : (setOpens s o).grid = s.grid := rfl
@[simp] theorem setOpens_mem (o : Tab OpenDesc) : (setOpens s o).mem = s.mem := rfl
@[simp] theorem setOpens_moons (o : Tab OpenDesc) : (setOpens s o).moons = s.moons := rfl
@[simp] theorem setOpens_serv (o : Tab OpenDesc) : (setOpens s o).serv = s.serv := rfl
@[simp] theorem setOpens_models (o : Tab OpenDesc) : (setOpens s o).models = s.models := rfl
@[simp] theorem setOpens_fab (o : Tab OpenDesc) : (setOpens s o).fab = s.fab := rfl
@[simp] theorem setOpens_arbs (o : Tab OpenDesc) : (setOpens s o).arbs = s.arbs := rfl
@[simp] theorem setOpens_tick (o : Tab OpenDesc) : (setOpens s o).tick = s.tick := rfl
@[simp] theorem setOpens_fresh (o : Tab OpenDesc) : (setOpens s o).fresh = s.fresh := rfl
@[simp] theorem setOpens_pending (o : Tab OpenDesc) : (setOpens s o).pending = s.pending := rfl

/-! ### setPhase -/

@[simp] theorem setPhase_entry (a : Nat) (d : DescPhase) : (setPhase a d s).entry = s.entry := rfl
@[simp] theorem setPhase_boot (a : Nat) (d : DescPhase) : (setPhase a d s).boot = s.boot := rfl
@[simp] theorem setPhase_store (a : Nat) (d : DescPhase) : (setPhase a d s).store = s.store := rfl
@[simp] theorem setPhase_spdm (a : Nat) (d : DescPhase) : (setPhase a d s).spdm = s.spdm := rfl
@[simp] theorem setPhase_host (a : Nat) (d : DescPhase) : (setPhase a d s).host =
    { s.host with opens := tup a (fun x => { x with phase := d }) s.host.opens } := rfl
@[simp] theorem setPhase_gov (a : Nat) (d : DescPhase) : (setPhase a d s).gov = s.gov := rfl
@[simp] theorem setPhase_faults (a : Nat) (d : DescPhase) : (setPhase a d s).faults = s.faults := rfl
@[simp] theorem setPhase_testLinks (a : Nat) (d : DescPhase) : (setPhase a d s).testLinks = s.testLinks := rfl
@[simp] theorem setPhase_testMem (a : Nat) (d : DescPhase) : (setPhase a d s).testMem = s.testMem := rfl
@[simp] theorem setPhase_meter (a : Nat) (d : DescPhase) : (setPhase a d s).meter = s.meter := rfl
@[simp] theorem setPhase_window (a : Nat) (d : DescPhase) : (setPhase a d s).window = s.window := rfl
@[simp] theorem setPhase_acct (a : Nat) (d : DescPhase) : (setPhase a d s).acct = s.acct := rfl
@[simp] theorem setPhase_fld (a : Nat) (d : DescPhase) : (setPhase a d s).fld = s.fld := rfl
@[simp] theorem setPhase_grid (a : Nat) (d : DescPhase) : (setPhase a d s).grid = s.grid := rfl
@[simp] theorem setPhase_mem (a : Nat) (d : DescPhase) : (setPhase a d s).mem = s.mem := rfl
@[simp] theorem setPhase_moons (a : Nat) (d : DescPhase) : (setPhase a d s).moons = s.moons := rfl
@[simp] theorem setPhase_serv (a : Nat) (d : DescPhase) : (setPhase a d s).serv = s.serv := rfl
@[simp] theorem setPhase_models (a : Nat) (d : DescPhase) : (setPhase a d s).models = s.models := rfl
@[simp] theorem setPhase_fab (a : Nat) (d : DescPhase) : (setPhase a d s).fab = s.fab := rfl
@[simp] theorem setPhase_arbs (a : Nat) (d : DescPhase) : (setPhase a d s).arbs = s.arbs := rfl
@[simp] theorem setPhase_tick (a : Nat) (d : DescPhase) : (setPhase a d s).tick = s.tick := rfl
@[simp] theorem setPhase_fresh (a : Nat) (d : DescPhase) : (setPhase a d s).fresh = s.fresh := rfl
@[simp] theorem setPhase_pending (a : Nat) (d : DescPhase) : (setPhase a d s).pending = s.pending := rfl

/-! ### hostWrite -/

@[simp] theorem hostWrite_entry (a : Nat) (bs : List Byte) : (hostWrite s a bs).entry = s.entry := rfl
@[simp] theorem hostWrite_boot (a : Nat) (bs : List Byte) : (hostWrite s a bs).boot = s.boot := rfl
@[simp] theorem hostWrite_store (a : Nat) (bs : List Byte) : (hostWrite s a bs).store = s.store := rfl
@[simp] theorem hostWrite_spdm (a : Nat) (bs : List Byte) : (hostWrite s a bs).spdm = s.spdm := rfl
@[simp] theorem hostWrite_host (a : Nat) (bs : List Byte) : (hostWrite s a bs).host = s.host := rfl
@[simp] theorem hostWrite_gov (a : Nat) (bs : List Byte) : (hostWrite s a bs).gov = s.gov := rfl
@[simp] theorem hostWrite_faults (a : Nat) (bs : List Byte) : (hostWrite s a bs).faults = s.faults := rfl
@[simp] theorem hostWrite_testLinks (a : Nat) (bs : List Byte) : (hostWrite s a bs).testLinks = s.testLinks := rfl
@[simp] theorem hostWrite_testMem (a : Nat) (bs : List Byte) : (hostWrite s a bs).testMem = s.testMem := rfl
@[simp] theorem hostWrite_meter (a : Nat) (bs : List Byte) : (hostWrite s a bs).meter = s.meter := rfl
@[simp] theorem hostWrite_window (a : Nat) (bs : List Byte) : (hostWrite s a bs).window = s.window := rfl
@[simp] theorem hostWrite_acct (a : Nat) (bs : List Byte) : (hostWrite s a bs).acct = s.acct := rfl
@[simp] theorem hostWrite_fld (a : Nat) (bs : List Byte) : (hostWrite s a bs).fld = s.fld := rfl
@[simp] theorem hostWrite_grid (a : Nat) (bs : List Byte) : (hostWrite s a bs).grid = s.grid := rfl
@[simp] theorem hostWrite_mem (a : Nat) (bs : List Byte) : (hostWrite s a bs).mem = { s.mem with host := mwrites s.mem.host a bs } := rfl
@[simp] theorem hostWrite_moons (a : Nat) (bs : List Byte) : (hostWrite s a bs).moons = s.moons := rfl
@[simp] theorem hostWrite_serv (a : Nat) (bs : List Byte) : (hostWrite s a bs).serv = s.serv := rfl
@[simp] theorem hostWrite_models (a : Nat) (bs : List Byte) : (hostWrite s a bs).models = s.models := rfl
@[simp] theorem hostWrite_fab (a : Nat) (bs : List Byte) : (hostWrite s a bs).fab = s.fab := rfl
@[simp] theorem hostWrite_arbs (a : Nat) (bs : List Byte) : (hostWrite s a bs).arbs = s.arbs := rfl
@[simp] theorem hostWrite_tick (a : Nat) (bs : List Byte) : (hostWrite s a bs).tick = s.tick := rfl
@[simp] theorem hostWrite_fresh (a : Nat) (bs : List Byte) : (hostWrite s a bs).fresh = s.fresh := rfl
@[simp] theorem hostWrite_pending (a : Nat) (bs : List Byte) : (hostWrite s a bs).pending = s.pending := rfl

/-! ### recordEvent -/

@[simp] theorem recordEvent_entry (n : Nat) (v : BitVec 64) : (recordEvent n v s).entry = s.entry := rfl
@[simp] theorem recordEvent_boot (n : Nat) (v : BitVec 64) : (recordEvent n v s).boot = s.boot := rfl
@[simp] theorem recordEvent_store (n : Nat) (v : BitVec 64) : (recordEvent n v s).store = s.store := rfl
@[simp] theorem recordEvent_spdm (n : Nat) (v : BitVec 64) : (recordEvent n v s).spdm = s.spdm := rfl
@[simp] theorem recordEvent_host (n : Nat) (v : BitVec 64) : (recordEvent n v s).host = s.host := rfl
@[simp] theorem recordEvent_gov (n : Nat) (v : BitVec 64) : (recordEvent n v s).gov = s.gov := rfl
@[simp] theorem recordEvent_faults (n : Nat) (v : BitVec 64) : (recordEvent n v s).faults =
    { s.faults with nextSeq := s.faults.nextSeq + 1, events := s.faults.events ++ [(s.faults.nextSeq, n, v)] } := rfl
@[simp] theorem recordEvent_testLinks (n : Nat) (v : BitVec 64) : (recordEvent n v s).testLinks = s.testLinks := rfl
@[simp] theorem recordEvent_testMem (n : Nat) (v : BitVec 64) : (recordEvent n v s).testMem = s.testMem := rfl
@[simp] theorem recordEvent_meter (n : Nat) (v : BitVec 64) : (recordEvent n v s).meter = s.meter := rfl
@[simp] theorem recordEvent_window (n : Nat) (v : BitVec 64) : (recordEvent n v s).window = s.window := rfl
@[simp] theorem recordEvent_acct (n : Nat) (v : BitVec 64) : (recordEvent n v s).acct = s.acct := rfl
@[simp] theorem recordEvent_fld (n : Nat) (v : BitVec 64) : (recordEvent n v s).fld = s.fld := rfl
@[simp] theorem recordEvent_grid (n : Nat) (v : BitVec 64) : (recordEvent n v s).grid = s.grid := rfl
@[simp] theorem recordEvent_mem (n : Nat) (v : BitVec 64) : (recordEvent n v s).mem = s.mem := rfl
@[simp] theorem recordEvent_moons (n : Nat) (v : BitVec 64) : (recordEvent n v s).moons = s.moons := rfl
@[simp] theorem recordEvent_serv (n : Nat) (v : BitVec 64) : (recordEvent n v s).serv = s.serv := rfl
@[simp] theorem recordEvent_models (n : Nat) (v : BitVec 64) : (recordEvent n v s).models = s.models := rfl
@[simp] theorem recordEvent_fab (n : Nat) (v : BitVec 64) : (recordEvent n v s).fab = s.fab := rfl
@[simp] theorem recordEvent_arbs (n : Nat) (v : BitVec 64) : (recordEvent n v s).arbs = s.arbs := rfl
@[simp] theorem recordEvent_tick (n : Nat) (v : BitVec 64) : (recordEvent n v s).tick = s.tick := rfl
@[simp] theorem recordEvent_fresh (n : Nat) (v : BitVec 64) : (recordEvent n v s).fresh = s.fresh := rfl
@[simp] theorem recordEvent_pending (n : Nat) (v : BitVec 64) : (recordEvent n v s).pending = s.pending := rfl

/-! ### mctpSend -/

@[simp] theorem mctpSend_entry (m : MctpMsg) : (mctpSend m s).entry = s.entry := rfl
@[simp] theorem mctpSend_boot (m : MctpMsg) : (mctpSend m s).boot = s.boot := rfl
@[simp] theorem mctpSend_store (m : MctpMsg) : (mctpSend m s).store = s.store := rfl
@[simp] theorem mctpSend_spdm (m : MctpMsg) : (mctpSend m s).spdm = s.spdm := rfl
@[simp] theorem mctpSend_host (m : MctpMsg) : (mctpSend m s).host = s.host := rfl
@[simp] theorem mctpSend_gov (m : MctpMsg) : (mctpSend m s).gov = govSend m s.gov := rfl
@[simp] theorem mctpSend_faults (m : MctpMsg) : (mctpSend m s).faults = s.faults := rfl
@[simp] theorem mctpSend_testLinks (m : MctpMsg) : (mctpSend m s).testLinks = s.testLinks := rfl
@[simp] theorem mctpSend_testMem (m : MctpMsg) : (mctpSend m s).testMem = s.testMem := rfl
@[simp] theorem mctpSend_meter (m : MctpMsg) : (mctpSend m s).meter = s.meter := rfl
@[simp] theorem mctpSend_window (m : MctpMsg) : (mctpSend m s).window = s.window := rfl
@[simp] theorem mctpSend_acct (m : MctpMsg) : (mctpSend m s).acct = s.acct := rfl
@[simp] theorem mctpSend_fld (m : MctpMsg) : (mctpSend m s).fld = s.fld := rfl
@[simp] theorem mctpSend_grid (m : MctpMsg) : (mctpSend m s).grid = s.grid := rfl
@[simp] theorem mctpSend_mem (m : MctpMsg) : (mctpSend m s).mem = s.mem := rfl
@[simp] theorem mctpSend_moons (m : MctpMsg) : (mctpSend m s).moons = s.moons := rfl
@[simp] theorem mctpSend_serv (m : MctpMsg) : (mctpSend m s).serv = s.serv := rfl
@[simp] theorem mctpSend_models (m : MctpMsg) : (mctpSend m s).models = s.models := rfl
@[simp] theorem mctpSend_fab (m : MctpMsg) : (mctpSend m s).fab = s.fab := rfl
@[simp] theorem mctpSend_arbs (m : MctpMsg) : (mctpSend m s).arbs = s.arbs := rfl
@[simp] theorem mctpSend_tick (m : MctpMsg) : (mctpSend m s).tick = s.tick := rfl
@[simp] theorem mctpSend_fresh (m : MctpMsg) : (mctpSend m s).fresh = s.fresh := rfl
@[simp] theorem mctpSend_pending (m : MctpMsg) : (mctpSend m s).pending = s.pending := rfl

/-! ### powerEvent -/

@[simp] theorem powerEvent_entry (n : Nat) : (powerEvent n s).entry = s.entry := rfl
@[simp] theorem powerEvent_boot (n : Nat) : (powerEvent n s).boot = s.boot := rfl
@[simp] theorem powerEvent_store (n : Nat) : (powerEvent n s).store = s.store := rfl
@[simp] theorem powerEvent_spdm (n : Nat) : (powerEvent n s).spdm = s.spdm := rfl
@[simp] theorem powerEvent_host (n : Nat) : (powerEvent n s).host = s.host := rfl
@[simp] theorem powerEvent_gov (n : Nat) : (powerEvent n s).gov =
    govSend { bus := .b, command := 0x83, value := BitVec.ofNat 16 n, extra := [] } (govSend { bus := .a, command := 0x83, value := BitVec.ofNat 16 n, extra := [] } s.gov) := rfl
@[simp] theorem powerEvent_faults (n : Nat) : (powerEvent n s).faults = s.faults := rfl
@[simp] theorem powerEvent_testLinks (n : Nat) : (powerEvent n s).testLinks = s.testLinks := rfl
@[simp] theorem powerEvent_testMem (n : Nat) : (powerEvent n s).testMem = s.testMem := rfl
@[simp] theorem powerEvent_meter (n : Nat) : (powerEvent n s).meter = s.meter := rfl
@[simp] theorem powerEvent_window (n : Nat) : (powerEvent n s).window = s.window := rfl
@[simp] theorem powerEvent_acct (n : Nat) : (powerEvent n s).acct = s.acct := rfl
@[simp] theorem powerEvent_fld (n : Nat) : (powerEvent n s).fld = s.fld := rfl
@[simp] theorem powerEvent_grid (n : Nat) : (powerEvent n s).grid = s.grid := rfl
@[simp] theorem powerEvent_mem (n : Nat) : (powerEvent n s).mem = s.mem := rfl
@[simp] theorem powerEvent_moons (n : Nat) : (powerEvent n s).moons = s.moons := rfl
@[simp] theorem powerEvent_serv (n : Nat) : (powerEvent n s).serv = s.serv := rfl
@[simp] theorem powerEvent_models (n : Nat) : (powerEvent n s).models = s.models := rfl
@[simp] theorem powerEvent_fab (n : Nat) : (powerEvent n s).fab = s.fab := rfl
@[simp] theorem powerEvent_arbs (n : Nat) : (powerEvent n s).arbs = s.arbs := rfl
@[simp] theorem powerEvent_tick (n : Nat) : (powerEvent n s).tick = s.tick := rfl
@[simp] theorem powerEvent_fresh (n : Nat) : (powerEvent n s).fresh = s.fresh := rfl
@[simp] theorem powerEvent_pending (n : Nat) : (powerEvent n s).pending = s.pending := rfl

/-! ### setBoot -/

@[simp] theorem setBoot_entry (b : Boot) : (setBoot s b).entry = s.entry := rfl
@[simp] theorem setBoot_boot (b : Boot) : (setBoot s b).boot = b := rfl
@[simp] theorem setBoot_store (b : Boot) : (setBoot s b).store = s.store := rfl
@[simp] theorem setBoot_spdm (b : Boot) : (setBoot s b).spdm = s.spdm := rfl
@[simp] theorem setBoot_host (b : Boot) : (setBoot s b).host = s.host := rfl
@[simp] theorem setBoot_gov (b : Boot) : (setBoot s b).gov = s.gov := rfl
@[simp] theorem setBoot_faults (b : Boot) : (setBoot s b).faults = s.faults := rfl
@[simp] theorem setBoot_testLinks (b : Boot) : (setBoot s b).testLinks = s.testLinks := rfl
@[simp] theorem setBoot_testMem (b : Boot) : (setBoot s b).testMem = s.testMem := rfl
@[simp] theorem setBoot_meter (b : Boot) : (setBoot s b).meter = s.meter := rfl
@[simp] theorem setBoot_window (b : Boot) : (setBoot s b).window = s.window := rfl
@[simp] theorem setBoot_acct (b : Boot) : (setBoot s b).acct = s.acct := rfl
@[simp] theorem setBoot_fld (b : Boot) : (setBoot s b).fld = s.fld := rfl
@[simp] theorem setBoot_grid (b : Boot) : (setBoot s b).grid = s.grid := rfl
@[simp] theorem setBoot_mem (b : Boot) : (setBoot s b).mem = s.mem := rfl
@[simp] theorem setBoot_moons (b : Boot) : (setBoot s b).moons = s.moons := rfl
@[simp] theorem setBoot_serv (b : Boot) : (setBoot s b).serv = s.serv := rfl
@[simp] theorem setBoot_models (b : Boot) : (setBoot s b).models = s.models := rfl
@[simp] theorem setBoot_fab (b : Boot) : (setBoot s b).fab = s.fab := rfl
@[simp] theorem setBoot_arbs (b : Boot) : (setBoot s b).arbs = s.arbs := rfl
@[simp] theorem setBoot_tick (b : Boot) : (setBoot s b).tick = s.tick := rfl
@[simp] theorem setBoot_fresh (b : Boot) : (setBoot s b).fresh = s.fresh := rfl
@[simp] theorem setBoot_pending (b : Boot) : (setBoot s b).pending = s.pending := rfl

/-! ### setEntry -/

@[simp] theorem setEntry_entry (e : Entry) : (setEntry s e).entry = e := rfl
@[simp] theorem setEntry_boot (e : Entry) : (setEntry s e).boot = s.boot := rfl
@[simp] theorem setEntry_store (e : Entry) : (setEntry s e).store = s.store := rfl
@[simp] theorem setEntry_spdm (e : Entry) : (setEntry s e).spdm = s.spdm := rfl
@[simp] theorem setEntry_host (e : Entry) : (setEntry s e).host = s.host := rfl
@[simp] theorem setEntry_gov (e : Entry) : (setEntry s e).gov = s.gov := rfl
@[simp] theorem setEntry_faults (e : Entry) : (setEntry s e).faults = s.faults := rfl
@[simp] theorem setEntry_testLinks (e : Entry) : (setEntry s e).testLinks = s.testLinks := rfl
@[simp] theorem setEntry_testMem (e : Entry) : (setEntry s e).testMem = s.testMem := rfl
@[simp] theorem setEntry_meter (e : Entry) : (setEntry s e).meter = s.meter := rfl
@[simp] theorem setEntry_window (e : Entry) : (setEntry s e).window = s.window := rfl
@[simp] theorem setEntry_acct (e : Entry) : (setEntry s e).acct = s.acct := rfl
@[simp] theorem setEntry_fld (e : Entry) : (setEntry s e).fld = s.fld := rfl
@[simp] theorem setEntry_grid (e : Entry) : (setEntry s e).grid = s.grid := rfl
@[simp] theorem setEntry_mem (e : Entry) : (setEntry s e).mem = s.mem := rfl
@[simp] theorem setEntry_moons (e : Entry) : (setEntry s e).moons = s.moons := rfl
@[simp] theorem setEntry_serv (e : Entry) : (setEntry s e).serv = s.serv := rfl
@[simp] theorem setEntry_models (e : Entry) : (setEntry s e).models = s.models := rfl
@[simp] theorem setEntry_fab (e : Entry) : (setEntry s e).fab = s.fab := rfl
@[simp] theorem setEntry_arbs (e : Entry) : (setEntry s e).arbs = s.arbs := rfl
@[simp] theorem setEntry_tick (e : Entry) : (setEntry s e).tick = s.tick := rfl
@[simp] theorem setEntry_fresh (e : Entry) : (setEntry s e).fresh = s.fresh := rfl
@[simp] theorem setEntry_pending (e : Entry) : (setEntry s e).pending = s.pending := rfl

/-! ### setGov -/

@[simp] theorem setGov_entry (g : Gov) : (setGov s g).entry = s.entry := rfl
@[simp] theorem setGov_boot (g : Gov) : (setGov s g).boot = s.boot := rfl
@[simp] theorem setGov_store (g : Gov) : (setGov s g).store = s.store := rfl
@[simp] theorem setGov_spdm (g : Gov) : (setGov s g).spdm = s.spdm := rfl
@[simp] theorem setGov_host (g : Gov) : (setGov s g).host = s.host := rfl
@[simp] theorem setGov_gov (g : Gov) : (setGov s g).gov = g := rfl
@[simp] theorem setGov_faults (g : Gov) : (setGov s g).faults = s.faults := rfl
@[simp] theorem setGov_testLinks (g : Gov) : (setGov s g).testLinks = s.testLinks := rfl
@[simp] theorem setGov_testMem (g : Gov) : (setGov s g).testMem = s.testMem := rfl
@[simp] theorem setGov_meter (g : Gov) : (setGov s g).meter = s.meter := rfl
@[simp] theorem setGov_window (g : Gov) : (setGov s g).window = s.window := rfl
@[simp] theorem setGov_acct (g : Gov) : (setGov s g).acct = s.acct := rfl
@[simp] theorem setGov_fld (g : Gov) : (setGov s g).fld = s.fld := rfl
@[simp] theorem setGov_grid (g : Gov) : (setGov s g).grid = s.grid := rfl
@[simp] theorem setGov_mem (g : Gov) : (setGov s g).mem = s.mem := rfl
@[simp] theorem setGov_moons (g : Gov) : (setGov s g).moons = s.moons := rfl
@[simp] theorem setGov_serv (g : Gov) : (setGov s g).serv = s.serv := rfl
@[simp] theorem setGov_models (g : Gov) : (setGov s g).models = s.models := rfl
@[simp] theorem setGov_fab (g : Gov) : (setGov s g).fab = s.fab := rfl
@[simp] theorem setGov_arbs (g : Gov) : (setGov s g).arbs = s.arbs := rfl
@[simp] theorem setGov_tick (g : Gov) : (setGov s g).tick = s.tick := rfl
@[simp] theorem setGov_fresh (g : Gov) : (setGov s g).fresh = s.fresh := rfl
@[simp] theorem setGov_pending (g : Gov) : (setGov s g).pending = s.pending := rfl

/-! ### setMeter -/

@[simp] theorem setMeter_entry (m : Meter) : (setMeter s m).entry = s.entry := rfl
@[simp] theorem setMeter_boot (m : Meter) : (setMeter s m).boot = s.boot := rfl
@[simp] theorem setMeter_store (m : Meter) : (setMeter s m).store = s.store := rfl
@[simp] theorem setMeter_spdm (m : Meter) : (setMeter s m).spdm = s.spdm := rfl
@[simp] theorem setMeter_host (m : Meter) : (setMeter s m).host = s.host := rfl
@[simp] theorem setMeter_gov (m : Meter) : (setMeter s m).gov = s.gov := rfl
@[simp] theorem setMeter_faults (m : Meter) : (setMeter s m).faults = s.faults := rfl
@[simp] theorem setMeter_testLinks (m : Meter) : (setMeter s m).testLinks = s.testLinks := rfl
@[simp] theorem setMeter_testMem (m : Meter) : (setMeter s m).testMem = s.testMem := rfl
@[simp] theorem setMeter_meter (m : Meter) : (setMeter s m).meter = m := rfl
@[simp] theorem setMeter_window (m : Meter) : (setMeter s m).window = s.window := rfl
@[simp] theorem setMeter_acct (m : Meter) : (setMeter s m).acct = s.acct := rfl
@[simp] theorem setMeter_fld (m : Meter) : (setMeter s m).fld = s.fld := rfl
@[simp] theorem setMeter_grid (m : Meter) : (setMeter s m).grid = s.grid := rfl
@[simp] theorem setMeter_mem (m : Meter) : (setMeter s m).mem = s.mem := rfl
@[simp] theorem setMeter_moons (m : Meter) : (setMeter s m).moons = s.moons := rfl
@[simp] theorem setMeter_serv (m : Meter) : (setMeter s m).serv = s.serv := rfl
@[simp] theorem setMeter_models (m : Meter) : (setMeter s m).models = s.models := rfl
@[simp] theorem setMeter_fab (m : Meter) : (setMeter s m).fab = s.fab := rfl
@[simp] theorem setMeter_arbs (m : Meter) : (setMeter s m).arbs = s.arbs := rfl
@[simp] theorem setMeter_tick (m : Meter) : (setMeter s m).tick = s.tick := rfl
@[simp] theorem setMeter_fresh (m : Meter) : (setMeter s m).fresh = s.fresh := rfl
@[simp] theorem setMeter_pending (m : Meter) : (setMeter s m).pending = s.pending := rfl

/-! ### setAcct -/

@[simp] theorem setAcct_entry (a : Acct) : (setAcct s a).entry = s.entry := rfl
@[simp] theorem setAcct_boot (a : Acct) : (setAcct s a).boot = s.boot := rfl
@[simp] theorem setAcct_store (a : Acct) : (setAcct s a).store = s.store := rfl
@[simp] theorem setAcct_spdm (a : Acct) : (setAcct s a).spdm = s.spdm := rfl
@[simp] theorem setAcct_host (a : Acct) : (setAcct s a).host = s.host := rfl
@[simp] theorem setAcct_gov (a : Acct) : (setAcct s a).gov = s.gov := rfl
@[simp] theorem setAcct_faults (a : Acct) : (setAcct s a).faults = s.faults := rfl
@[simp] theorem setAcct_testLinks (a : Acct) : (setAcct s a).testLinks = s.testLinks := rfl
@[simp] theorem setAcct_testMem (a : Acct) : (setAcct s a).testMem = s.testMem := rfl
@[simp] theorem setAcct_meter (a : Acct) : (setAcct s a).meter = s.meter := rfl
@[simp] theorem setAcct_window (a : Acct) : (setAcct s a).window = s.window := rfl
@[simp] theorem setAcct_acct (a : Acct) : (setAcct s a).acct = a := rfl
@[simp] theorem setAcct_fld (a : Acct) : (setAcct s a).fld = s.fld := rfl
@[simp] theorem setAcct_grid (a : Acct) : (setAcct s a).grid = s.grid := rfl
@[simp] theorem setAcct_mem (a : Acct) : (setAcct s a).mem = s.mem := rfl
@[simp] theorem setAcct_moons (a : Acct) : (setAcct s a).moons = s.moons := rfl
@[simp] theorem setAcct_serv (a : Acct) : (setAcct s a).serv = s.serv := rfl
@[simp] theorem setAcct_models (a : Acct) : (setAcct s a).models = s.models := rfl
@[simp] theorem setAcct_fab (a : Acct) : (setAcct s a).fab = s.fab := rfl
@[simp] theorem setAcct_arbs (a : Acct) : (setAcct s a).arbs = s.arbs := rfl
@[simp] theorem setAcct_tick (a : Acct) : (setAcct s a).tick = s.tick := rfl
@[simp] theorem setAcct_fresh (a : Acct) : (setAcct s a).fresh = s.fresh := rfl
@[simp] theorem setAcct_pending (a : Acct) : (setAcct s a).pending = s.pending := rfl

/-! ### setLink -/

@[simp] theorem setLink_entry (l : Nat) (x : Link) : (setLink s l x).entry = s.entry := rfl
@[simp] theorem setLink_boot (l : Nat) (x : Link) : (setLink s l x).boot = s.boot := rfl
@[simp] theorem setLink_store (l : Nat) (x : Link) : (setLink s l x).store = s.store := rfl
@[simp] theorem setLink_spdm (l : Nat) (x : Link) : (setLink s l x).spdm = s.spdm := rfl
@[simp] theorem setLink_host (l : Nat) (x : Link) : (setLink s l x).host = s.host := rfl
@[simp] theorem setLink_gov (l : Nat) (x : Link) : (setLink s l x).gov = s.gov := rfl
@[simp] theorem setLink_faults (l : Nat) (x : Link) : (setLink s l x).faults = s.faults := rfl
@[simp] theorem setLink_testLinks (l : Nat) (x : Link) : (setLink s l x).testLinks = s.testLinks := rfl
@[simp] theorem setLink_testMem (l : Nat) (x : Link) : (setLink s l x).testMem = s.testMem := rfl
@[simp] theorem setLink_meter (l : Nat) (x : Link) : (setLink s l x).meter = s.meter := rfl
@[simp] theorem setLink_window (l : Nat) (x : Link) : (setLink s l x).window = s.window := rfl
@[simp] theorem setLink_acct (l : Nat) (x : Link) : (setLink s l x).acct = s.acct := rfl
@[simp] theorem setLink_fld (l : Nat) (x : Link) : (setLink s l x).fld = s.fld := rfl
@[simp] theorem setLink_grid (l : Nat) (x : Link) : (setLink s l x).grid = s.grid := rfl
@[simp] theorem setLink_mem (l : Nat) (x : Link) : (setLink s l x).mem = s.mem := rfl
@[simp] theorem setLink_moons (l : Nat) (x : Link) : (setLink s l x).moons = s.moons := rfl
@[simp] theorem setLink_serv (l : Nat) (x : Link) : (setLink s l x).serv = s.serv := rfl
@[simp] theorem setLink_models (l : Nat) (x : Link) : (setLink s l x).models = s.models := rfl
@[simp] theorem setLink_fab (l : Nat) (x : Link) : (setLink s l x).fab = { s.fab with links := tset {} l x s.fab.links } := rfl
@[simp] theorem setLink_arbs (l : Nat) (x : Link) : (setLink s l x).arbs = s.arbs := rfl
@[simp] theorem setLink_tick (l : Nat) (x : Link) : (setLink s l x).tick = s.tick := rfl
@[simp] theorem setLink_fresh (l : Nat) (x : Link) : (setLink s l x).fresh = s.fresh := rfl
@[simp] theorem setLink_pending (l : Nat) (x : Link) : (setLink s l x).pending = s.pending := rfl

/-! ### setUnit -/

@[simp] theorem setUnit_entry (t : Nat) (u : TileUnit) : (setUnit s t u).entry = s.entry := rfl
@[simp] theorem setUnit_boot (t : Nat) (u : TileUnit) : (setUnit s t u).boot = s.boot := rfl
@[simp] theorem setUnit_store (t : Nat) (u : TileUnit) : (setUnit s t u).store = s.store := rfl
@[simp] theorem setUnit_spdm (t : Nat) (u : TileUnit) : (setUnit s t u).spdm = s.spdm := rfl
@[simp] theorem setUnit_host (t : Nat) (u : TileUnit) : (setUnit s t u).host = s.host := rfl
@[simp] theorem setUnit_gov (t : Nat) (u : TileUnit) : (setUnit s t u).gov = s.gov := rfl
@[simp] theorem setUnit_faults (t : Nat) (u : TileUnit) : (setUnit s t u).faults = s.faults := rfl
@[simp] theorem setUnit_testLinks (t : Nat) (u : TileUnit) : (setUnit s t u).testLinks = s.testLinks := rfl
@[simp] theorem setUnit_testMem (t : Nat) (u : TileUnit) : (setUnit s t u).testMem = s.testMem := rfl
@[simp] theorem setUnit_meter (t : Nat) (u : TileUnit) : (setUnit s t u).meter = s.meter := rfl
@[simp] theorem setUnit_window (t : Nat) (u : TileUnit) : (setUnit s t u).window = s.window := rfl
@[simp] theorem setUnit_acct (t : Nat) (u : TileUnit) : (setUnit s t u).acct = s.acct := rfl
@[simp] theorem setUnit_fld (t : Nat) (u : TileUnit) : (setUnit s t u).fld = s.fld := rfl
@[simp] theorem setUnit_grid (t : Nat) (u : TileUnit) : (setUnit s t u).grid = { s.grid with units := tset {} t u s.grid.units } := rfl
@[simp] theorem setUnit_mem (t : Nat) (u : TileUnit) : (setUnit s t u).mem = s.mem := rfl
@[simp] theorem setUnit_moons (t : Nat) (u : TileUnit) : (setUnit s t u).moons = s.moons := rfl
@[simp] theorem setUnit_serv (t : Nat) (u : TileUnit) : (setUnit s t u).serv = s.serv := rfl
@[simp] theorem setUnit_models (t : Nat) (u : TileUnit) : (setUnit s t u).models = s.models := rfl
@[simp] theorem setUnit_fab (t : Nat) (u : TileUnit) : (setUnit s t u).fab = s.fab := rfl
@[simp] theorem setUnit_arbs (t : Nat) (u : TileUnit) : (setUnit s t u).arbs = s.arbs := rfl
@[simp] theorem setUnit_tick (t : Nat) (u : TileUnit) : (setUnit s t u).tick = s.tick := rfl
@[simp] theorem setUnit_fresh (t : Nat) (u : TileUnit) : (setUnit s t u).fresh = s.fresh := rfl
@[simp] theorem setUnit_pending (t : Nat) (u : TileUnit) : (setUnit s t u).pending = s.pending := rfl

/-! ### setThread -/

@[simp] theorem setThread_entry (i : Nat) (v : Thread) : (setThread s i v).entry = s.entry := rfl
@[simp] theorem setThread_boot (i : Nat) (v : Thread) : (setThread s i v).boot = s.boot := rfl
@[simp] theorem setThread_store (i : Nat) (v : Thread) : (setThread s i v).store = s.store := rfl
@[simp] theorem setThread_spdm (i : Nat) (v : Thread) : (setThread s i v).spdm = s.spdm := rfl
@[simp] theorem setThread_host (i : Nat) (v : Thread) : (setThread s i v).host = s.host := rfl
@[simp] theorem setThread_gov (i : Nat) (v : Thread) : (setThread s i v).gov = s.gov := rfl
@[simp] theorem setThread_faults (i : Nat) (v : Thread) : (setThread s i v).faults = s.faults := rfl
@[simp] theorem setThread_testLinks (i : Nat) (v : Thread) : (setThread s i v).testLinks = s.testLinks := rfl
@[simp] theorem setThread_testMem (i : Nat) (v : Thread) : (setThread s i v).testMem = s.testMem := rfl
@[simp] theorem setThread_meter (i : Nat) (v : Thread) : (setThread s i v).meter = s.meter := rfl
@[simp] theorem setThread_window (i : Nat) (v : Thread) : (setThread s i v).window = s.window := rfl
@[simp] theorem setThread_acct (i : Nat) (v : Thread) : (setThread s i v).acct = s.acct := rfl
@[simp] theorem setThread_fld (i : Nat) (v : Thread) : (setThread s i v).fld = s.fld := rfl
@[simp] theorem setThread_grid (i : Nat) (v : Thread) : (setThread s i v).grid = { s.grid with threads := tset {} i v s.grid.threads } := rfl
@[simp] theorem setThread_mem (i : Nat) (v : Thread) : (setThread s i v).mem = s.mem := rfl
@[simp] theorem setThread_moons (i : Nat) (v : Thread) : (setThread s i v).moons = s.moons := rfl
@[simp] theorem setThread_serv (i : Nat) (v : Thread) : (setThread s i v).serv = s.serv := rfl
@[simp] theorem setThread_models (i : Nat) (v : Thread) : (setThread s i v).models = s.models := rfl
@[simp] theorem setThread_fab (i : Nat) (v : Thread) : (setThread s i v).fab = s.fab := rfl
@[simp] theorem setThread_arbs (i : Nat) (v : Thread) : (setThread s i v).arbs = s.arbs := rfl
@[simp] theorem setThread_tick (i : Nat) (v : Thread) : (setThread s i v).tick = s.tick := rfl
@[simp] theorem setThread_fresh (i : Nat) (v : Thread) : (setThread s i v).fresh = s.fresh := rfl
@[simp] theorem setThread_pending (i : Nat) (v : Thread) : (setThread s i v).pending = s.pending := rfl

/-! ### setField -/

@[simp] theorem setField_entry (f : Nat) (v : Field) : (setField s f v).entry = s.entry := rfl
@[simp] theorem setField_boot (f : Nat) (v : Field) : (setField s f v).boot = s.boot := rfl
@[simp] theorem setField_store (f : Nat) (v : Field) : (setField s f v).store = s.store := rfl
@[simp] theorem setField_spdm (f : Nat) (v : Field) : (setField s f v).spdm = s.spdm := rfl
@[simp] theorem setField_host (f : Nat) (v : Field) : (setField s f v).host = s.host := rfl
@[simp] theorem setField_gov (f : Nat) (v : Field) : (setField s f v).gov = s.gov := rfl
@[simp] theorem setField_faults (f : Nat) (v : Field) : (setField s f v).faults = s.faults := rfl
@[simp] theorem setField_testLinks (f : Nat) (v : Field) : (setField s f v).testLinks = s.testLinks := rfl
@[simp] theorem setField_testMem (f : Nat) (v : Field) : (setField s f v).testMem = s.testMem := rfl
@[simp] theorem setField_meter (f : Nat) (v : Field) : (setField s f v).meter = s.meter := rfl
@[simp] theorem setField_window (f : Nat) (v : Field) : (setField s f v).window = s.window := rfl
@[simp] theorem setField_acct (f : Nat) (v : Field) : (setField s f v).acct = s.acct := rfl
@[simp] theorem setField_fld (f : Nat) (v : Field) : (setField s f v).fld = { s.fld with fields := tput f v s.fld.fields } := rfl
@[simp] theorem setField_grid (f : Nat) (v : Field) : (setField s f v).grid = s.grid := rfl
@[simp] theorem setField_mem (f : Nat) (v : Field) : (setField s f v).mem = s.mem := rfl
@[simp] theorem setField_moons (f : Nat) (v : Field) : (setField s f v).moons = s.moons := rfl
@[simp] theorem setField_serv (f : Nat) (v : Field) : (setField s f v).serv = s.serv := rfl
@[simp] theorem setField_models (f : Nat) (v : Field) : (setField s f v).models = s.models := rfl
@[simp] theorem setField_fab (f : Nat) (v : Field) : (setField s f v).fab = s.fab := rfl
@[simp] theorem setField_arbs (f : Nat) (v : Field) : (setField s f v).arbs = s.arbs := rfl
@[simp] theorem setField_tick (f : Nat) (v : Field) : (setField s f v).tick = s.tick := rfl
@[simp] theorem setField_fresh (f : Nat) (v : Field) : (setField s f v).fresh = s.fresh := rfl
@[simp] theorem setField_pending (f : Nat) (v : Field) : (setField s f v).pending = s.pending := rfl

/-! ### modField -/

@[simp] theorem modField_entry (f : Nat) (g : Field → Field) : (modField f g s).entry = s.entry := rfl
@[simp] theorem modField_boot (f : Nat) (g : Field → Field) : (modField f g s).boot = s.boot := rfl
@[simp] theorem modField_store (f : Nat) (g : Field → Field) : (modField f g s).store = s.store := rfl
@[simp] theorem modField_spdm (f : Nat) (g : Field → Field) : (modField f g s).spdm = s.spdm := rfl
@[simp] theorem modField_host (f : Nat) (g : Field → Field) : (modField f g s).host = s.host := rfl
@[simp] theorem modField_gov (f : Nat) (g : Field → Field) : (modField f g s).gov = s.gov := rfl
@[simp] theorem modField_faults (f : Nat) (g : Field → Field) : (modField f g s).faults = s.faults := rfl
@[simp] theorem modField_testLinks (f : Nat) (g : Field → Field) : (modField f g s).testLinks = s.testLinks := rfl
@[simp] theorem modField_testMem (f : Nat) (g : Field → Field) : (modField f g s).testMem = s.testMem := rfl
@[simp] theorem modField_meter (f : Nat) (g : Field → Field) : (modField f g s).meter = s.meter := rfl
@[simp] theorem modField_window (f : Nat) (g : Field → Field) : (modField f g s).window = s.window := rfl
@[simp] theorem modField_acct (f : Nat) (g : Field → Field) : (modField f g s).acct = s.acct := rfl
@[simp] theorem modField_fld (f : Nat) (g : Field → Field) : (modField f g s).fld = { s.fld with fields := tup f g s.fld.fields } := rfl
@[simp] theorem modField_grid (f : Nat) (g : Field → Field) : (modField f g s).grid = s.grid := rfl
@[simp] theorem modField_mem (f : Nat) (g : Field → Field) : (modField f g s).mem = s.mem := rfl
@[simp] theorem modField_moons (f : Nat) (g : Field → Field) : (modField f g s).moons = s.moons := rfl
@[simp] theorem modField_serv (f : Nat) (g : Field → Field) : (modField f g s).serv = s.serv := rfl
@[simp] theorem modField_models (f : Nat) (g : Field → Field) : (modField f g s).models = s.models := rfl
@[simp] theorem modField_fab (f : Nat) (g : Field → Field) : (modField f g s).fab = s.fab := rfl
@[simp] theorem modField_arbs (f : Nat) (g : Field → Field) : (modField f g s).arbs = s.arbs := rfl
@[simp] theorem modField_tick (f : Nat) (g : Field → Field) : (modField f g s).tick = s.tick := rfl
@[simp] theorem modField_fresh (f : Nat) (g : Field → Field) : (modField f g s).fresh = s.fresh := rfl
@[simp] theorem modField_pending (f : Nat) (g : Field → Field) : (modField f g s).pending = s.pending := rfl

/-! ### setReq -/

@[simp] theorem setReq_entry (r : Nat) (v : Request) : (setReq s r v).entry = s.entry := rfl
@[simp] theorem setReq_boot (r : Nat) (v : Request) : (setReq s r v).boot = s.boot := rfl
@[simp] theorem setReq_store (r : Nat) (v : Request) : (setReq s r v).store = s.store := rfl
@[simp] theorem setReq_spdm (r : Nat) (v : Request) : (setReq s r v).spdm = s.spdm := rfl
@[simp] theorem setReq_host (r : Nat) (v : Request) : (setReq s r v).host = s.host := rfl
@[simp] theorem setReq_gov (r : Nat) (v : Request) : (setReq s r v).gov = s.gov := rfl
@[simp] theorem setReq_faults (r : Nat) (v : Request) : (setReq s r v).faults = s.faults := rfl
@[simp] theorem setReq_testLinks (r : Nat) (v : Request) : (setReq s r v).testLinks = s.testLinks := rfl
@[simp] theorem setReq_testMem (r : Nat) (v : Request) : (setReq s r v).testMem = s.testMem := rfl
@[simp] theorem setReq_meter (r : Nat) (v : Request) : (setReq s r v).meter = s.meter := rfl
@[simp] theorem setReq_window (r : Nat) (v : Request) : (setReq s r v).window = s.window := rfl
@[simp] theorem setReq_acct (r : Nat) (v : Request) : (setReq s r v).acct = s.acct := rfl
@[simp] theorem setReq_fld (r : Nat) (v : Request) : (setReq s r v).fld = s.fld := rfl
@[simp] theorem setReq_grid (r : Nat) (v : Request) : (setReq s r v).grid = s.grid := rfl
@[simp] theorem setReq_mem (r : Nat) (v : Request) : (setReq s r v).mem = s.mem := rfl
@[simp] theorem setReq_moons (r : Nat) (v : Request) : (setReq s r v).moons = s.moons := rfl
@[simp] theorem setReq_serv (r : Nat) (v : Request) : (setReq s r v).serv = { s.serv with reqs := tput r v s.serv.reqs } := rfl
@[simp] theorem setReq_models (r : Nat) (v : Request) : (setReq s r v).models = s.models := rfl
@[simp] theorem setReq_fab (r : Nat) (v : Request) : (setReq s r v).fab = s.fab := rfl
@[simp] theorem setReq_arbs (r : Nat) (v : Request) : (setReq s r v).arbs = s.arbs := rfl
@[simp] theorem setReq_tick (r : Nat) (v : Request) : (setReq s r v).tick = s.tick := rfl
@[simp] theorem setReq_fresh (r : Nat) (v : Request) : (setReq s r v).fresh = s.fresh := rfl
@[simp] theorem setReq_pending (r : Nat) (v : Request) : (setReq s r v).pending = s.pending := rfl

/-! ### modReq -/

@[simp] theorem modReq_entry (r : Nat) (g : Request → Request) : (modReq r g s).entry = s.entry := rfl
@[simp] theorem modReq_boot (r : Nat) (g : Request → Request) : (modReq r g s).boot = s.boot := rfl
@[simp] theorem modReq_store (r : Nat) (g : Request → Request) : (modReq r g s).store = s.store := rfl
@[simp] theorem modReq_spdm (r : Nat) (g : Request → Request) : (modReq r g s).spdm = s.spdm := rfl
@[simp] theorem modReq_host (r : Nat) (g : Request → Request) : (modReq r g s).host = s.host := rfl
@[simp] theorem modReq_gov (r : Nat) (g : Request → Request) : (modReq r g s).gov = s.gov := rfl
@[simp] theorem modReq_faults (r : Nat) (g : Request → Request) : (modReq r g s).faults = s.faults := rfl
@[simp] theorem modReq_testLinks (r : Nat) (g : Request → Request) : (modReq r g s).testLinks = s.testLinks := rfl
@[simp] theorem modReq_testMem (r : Nat) (g : Request → Request) : (modReq r g s).testMem = s.testMem := rfl
@[simp] theorem modReq_meter (r : Nat) (g : Request → Request) : (modReq r g s).meter = s.meter := rfl
@[simp] theorem modReq_window (r : Nat) (g : Request → Request) : (modReq r g s).window = s.window := rfl
@[simp] theorem modReq_acct (r : Nat) (g : Request → Request) : (modReq r g s).acct = s.acct := rfl
@[simp] theorem modReq_fld (r : Nat) (g : Request → Request) : (modReq r g s).fld = s.fld := rfl
@[simp] theorem modReq_grid (r : Nat) (g : Request → Request) : (modReq r g s).grid = s.grid := rfl
@[simp] theorem modReq_mem (r : Nat) (g : Request → Request) : (modReq r g s).mem = s.mem := rfl
@[simp] theorem modReq_moons (r : Nat) (g : Request → Request) : (modReq r g s).moons = s.moons := rfl
@[simp] theorem modReq_serv (r : Nat) (g : Request → Request) : (modReq r g s).serv = { s.serv with reqs := tup r g s.serv.reqs } := rfl
@[simp] theorem modReq_models (r : Nat) (g : Request → Request) : (modReq r g s).models = s.models := rfl
@[simp] theorem modReq_fab (r : Nat) (g : Request → Request) : (modReq r g s).fab = s.fab := rfl
@[simp] theorem modReq_arbs (r : Nat) (g : Request → Request) : (modReq r g s).arbs = s.arbs := rfl
@[simp] theorem modReq_tick (r : Nat) (g : Request → Request) : (modReq r g s).tick = s.tick := rfl
@[simp] theorem modReq_fresh (r : Nat) (g : Request → Request) : (modReq r g s).fresh = s.fresh := rfl
@[simp] theorem modReq_pending (r : Nat) (g : Request → Request) : (modReq r g s).pending = s.pending := rfl

/-! ### setConn -/

@[simp] theorem setConn_entry (c : SpdmConn) (v : SpdmConnState) : (setConn c v s).entry = s.entry := rfl
@[simp] theorem setConn_boot (c : SpdmConn) (v : SpdmConnState) : (setConn c v s).boot = s.boot := rfl
@[simp] theorem setConn_store (c : SpdmConn) (v : SpdmConnState) : (setConn c v s).store = s.store := rfl
@[simp] theorem setConn_spdm (c : SpdmConn) (v : SpdmConnState) : (setConn c v s).spdm =
    { s.spdm with conns := tset {} (connNo c) v s.spdm.conns } := rfl
@[simp] theorem setConn_host (c : SpdmConn) (v : SpdmConnState) : (setConn c v s).host = s.host := rfl
@[simp] theorem setConn_gov (c : SpdmConn) (v : SpdmConnState) : (setConn c v s).gov = s.gov := rfl
@[simp] theorem setConn_faults (c : SpdmConn) (v : SpdmConnState) : (setConn c v s).faults = s.faults := rfl
@[simp] theorem setConn_testLinks (c : SpdmConn) (v : SpdmConnState) : (setConn c v s).testLinks = s.testLinks := rfl
@[simp] theorem setConn_testMem (c : SpdmConn) (v : SpdmConnState) : (setConn c v s).testMem = s.testMem := rfl
@[simp] theorem setConn_meter (c : SpdmConn) (v : SpdmConnState) : (setConn c v s).meter = s.meter := rfl
@[simp] theorem setConn_window (c : SpdmConn) (v : SpdmConnState) : (setConn c v s).window = s.window := rfl
@[simp] theorem setConn_acct (c : SpdmConn) (v : SpdmConnState) : (setConn c v s).acct = s.acct := rfl
@[simp] theorem setConn_fld (c : SpdmConn) (v : SpdmConnState) : (setConn c v s).fld = s.fld := rfl
@[simp] theorem setConn_grid (c : SpdmConn) (v : SpdmConnState) : (setConn c v s).grid = s.grid := rfl
@[simp] theorem setConn_mem (c : SpdmConn) (v : SpdmConnState) : (setConn c v s).mem = s.mem := rfl
@[simp] theorem setConn_moons (c : SpdmConn) (v : SpdmConnState) : (setConn c v s).moons = s.moons := rfl
@[simp] theorem setConn_serv (c : SpdmConn) (v : SpdmConnState) : (setConn c v s).serv = s.serv := rfl
@[simp] theorem setConn_models (c : SpdmConn) (v : SpdmConnState) : (setConn c v s).models = s.models := rfl
@[simp] theorem setConn_fab (c : SpdmConn) (v : SpdmConnState) : (setConn c v s).fab = s.fab := rfl
@[simp] theorem setConn_arbs (c : SpdmConn) (v : SpdmConnState) : (setConn c v s).arbs = s.arbs := rfl
@[simp] theorem setConn_tick (c : SpdmConn) (v : SpdmConnState) : (setConn c v s).tick = s.tick := rfl
@[simp] theorem setConn_fresh (c : SpdmConn) (v : SpdmConnState) : (setConn c v s).fresh = s.fresh := rfl
@[simp] theorem setConn_pending (c : SpdmConn) (v : SpdmConnState) : (setConn c v s).pending = s.pending := rfl

/-! ### setTestLink -/

@[simp] theorem setTestLink_entry (l : Nat) (x : TestLink) : (setTestLink l x s).entry = s.entry := rfl
@[simp] theorem setTestLink_boot (l : Nat) (x : TestLink) : (setTestLink l x s).boot = s.boot := rfl
@[simp] theorem setTestLink_store (l : Nat) (x : TestLink) : (setTestLink l x s).store = s.store := rfl
@[simp] theorem setTestLink_spdm (l : Nat) (x : TestLink) : (setTestLink l x s).spdm = s.spdm := rfl
@[simp] theorem setTestLink_host (l : Nat) (x : TestLink) : (setTestLink l x s).host = s.host := rfl
@[simp] theorem setTestLink_gov (l : Nat) (x : TestLink) : (setTestLink l x s).gov = s.gov := rfl
@[simp] theorem setTestLink_faults (l : Nat) (x : TestLink) : (setTestLink l x s).faults = s.faults := rfl
@[simp] theorem setTestLink_testLinks (l : Nat) (x : TestLink) : (setTestLink l x s).testLinks = tset {} l x s.testLinks := rfl
@[simp] theorem setTestLink_testMem (l : Nat) (x : TestLink) : (setTestLink l x s).testMem = s.testMem := rfl
@[simp] theorem setTestLink_meter (l : Nat) (x : TestLink) : (setTestLink l x s).meter = s.meter := rfl
@[simp] theorem setTestLink_window (l : Nat) (x : TestLink) : (setTestLink l x s).window = s.window := rfl
@[simp] theorem setTestLink_acct (l : Nat) (x : TestLink) : (setTestLink l x s).acct = s.acct := rfl
@[simp] theorem setTestLink_fld (l : Nat) (x : TestLink) : (setTestLink l x s).fld = s.fld := rfl
@[simp] theorem setTestLink_grid (l : Nat) (x : TestLink) : (setTestLink l x s).grid = s.grid := rfl
@[simp] theorem setTestLink_mem (l : Nat) (x : TestLink) : (setTestLink l x s).mem = s.mem := rfl
@[simp] theorem setTestLink_moons (l : Nat) (x : TestLink) : (setTestLink l x s).moons = s.moons := rfl
@[simp] theorem setTestLink_serv (l : Nat) (x : TestLink) : (setTestLink l x s).serv = s.serv := rfl
@[simp] theorem setTestLink_models (l : Nat) (x : TestLink) : (setTestLink l x s).models = s.models := rfl
@[simp] theorem setTestLink_fab (l : Nat) (x : TestLink) : (setTestLink l x s).fab = s.fab := rfl
@[simp] theorem setTestLink_arbs (l : Nat) (x : TestLink) : (setTestLink l x s).arbs = s.arbs := rfl
@[simp] theorem setTestLink_tick (l : Nat) (x : TestLink) : (setTestLink l x s).tick = s.tick := rfl
@[simp] theorem setTestLink_fresh (l : Nat) (x : TestLink) : (setTestLink l x s).fresh = s.fresh := rfl
@[simp] theorem setTestLink_pending (l : Nat) (x : TestLink) : (setTestLink l x s).pending = s.pending := rfl

/-! ### govSend -/

@[simp] theorem govSend_activeA (m : MctpMsg) (g : Gov) : (govSend m g).activeA = g.activeA := rfl
@[simp] theorem govSend_activeB (m : MctpMsg) (g : Gov) : (govSend m g).activeB = g.activeB := rfl
@[simp] theorem govSend_addrA (m : MctpMsg) (g : Gov) : (govSend m g).addrA = g.addrA := rfl
@[simp] theorem govSend_addrB (m : MctpMsg) (g : Gov) : (govSend m g).addrB = g.addrB := rfl
@[simp] theorem govSend_batch (m : MctpMsg) (g : Gov) : (govSend m g).batch = g.batch := rfl
@[simp] theorem govSend_batchMove (m : MctpMsg) (g : Gov) : (govSend m g).batchMove = g.batchMove := rfl
@[simp] theorem govSend_capA (m : MctpMsg) (g : Gov) : (govSend m g).capA = g.capA := rfl
@[simp] theorem govSend_capB (m : MctpMsg) (g : Gov) : (govSend m g).capB = g.capB := rfl
@[simp] theorem govSend_capLast (m : MctpMsg) (g : Gov) : (govSend m g).capLast = g.capLast := rfl
@[simp] theorem govSend_clock (m : MctpMsg) (g : Gov) : (govSend m g).clock = g.clock := rfl
@[simp] theorem govSend_flowCap (m : MctpMsg) (g : Gov) : (govSend m g).flowCap = g.flowCap := rfl
@[simp] theorem govSend_heardA (m : MctpMsg) (g : Gov) : (govSend m g).heardA = g.heardA := rfl
@[simp] theorem govSend_heardAt (m : MctpMsg) (g : Gov) : (govSend m g).heardAt = g.heardAt := rfl
@[simp] theorem govSend_heardB (m : MctpMsg) (g : Gov) : (govSend m g).heardB = g.heardB := rfl
@[simp] theorem govSend_hotIsland (m : MctpMsg) (g : Gov) : (govSend m g).hotIsland = g.hotIsland := rfl
@[simp] theorem govSend_ibis (m : MctpMsg) (g : Gov) : (govSend m g).ibis = if interrupts g m then g.ibis ++ [m.bus] else g.ibis := rfl
@[simp] theorem govSend_inletC (m : MctpMsg) (g : Gov) : (govSend m g).inletC = g.inletC := rfl
@[simp] theorem govSend_inputCap (m : MctpMsg) (g : Gov) : (govSend m g).inputCap = g.inputCap := rfl
@[simp] theorem govSend_inputLow (m : MctpMsg) (g : Gov) : (govSend m g).inputLow = g.inputLow := rfl
@[simp] theorem govSend_lag (m : MctpMsg) (g : Gov) : (govSend m g).lag = g.lag := rfl
@[simp] theorem govSend_lagStart (m : MctpMsg) (g : Gov) : (govSend m g).lagStart = g.lagStart := rfl
@[simp] theorem govSend_maxC (m : MctpMsg) (g : Gov) : (govSend m g).maxC = g.maxC := rfl
@[simp] theorem govSend_orphan (m : MctpMsg) (g : Gov) : (govSend m g).orphan = g.orphan := rfl
@[simp] theorem govSend_orphanCap (m : MctpMsg) (g : Gov) : (govSend m g).orphanCap = g.orphanCap := rfl
@[simp] theorem govSend_out (m : MctpMsg) (g : Gov) : (govSend m g).out = g.out ++ [m] := rfl
@[simp] theorem govSend_p100 (m : MctpMsg) (g : Gov) : (govSend m g).p100 = g.p100 := rfl
@[simp] theorem govSend_parkOrder (m : MctpMsg) (g : Gov) : (govSend m g).parkOrder = g.parkOrder := rfl
@[simp] theorem govSend_parked (m : MctpMsg) (g : Gov) : (govSend m g).parked = g.parked := rfl
@[simp] theorem govSend_pauseAsked (m : MctpMsg) (g : Gov) : (govSend m g).pauseAsked = g.pauseAsked := rfl
@[simp] theorem govSend_peak (m : MctpMsg) (g : Gov) : (govSend m g).peak = g.peak := rfl
@[simp] theorem govSend_promptPause (m : MctpMsg) (g : Gov) : (govSend m g).promptPause = g.promptPause := rfl
@[simp] theorem govSend_sinceLower (m : MctpMsg) (g : Gov) : (govSend m g).sinceLower = g.sinceLower := rfl
@[simp] theorem govSend_sincePeak (m : MctpMsg) (g : Gov) : (govSend m g).sincePeak = g.sincePeak := rfl
@[simp] theorem govSend_targetMhz (m : MctpMsg) (g : Gov) : (govSend m g).targetMhz = g.targetMhz := rfl
@[simp] theorem govSend_thermalCap (m : MctpMsg) (g : Gov) : (govSend m g).thermalCap = g.thermalCap := rfl
@[simp] theorem govSend_thermalParked (m : MctpMsg) (g : Gov) : (govSend m g).thermalParked = g.thermalParked := rfl

end Sys2Proof.Machine
end

