-- ==== Sys2Proof/Laws/Reads.lean ====
section
/-!
SUPPORT. Reading what a setter has set: queues, links, units, threads, fields, requests, open descriptors, host bytes.
-/

namespace Sys2Proof.Machine

@[simp] theorem queueAt_setQueue_same (s : State) (q : Nat) (v : Queue) : queueAt (setQueue s q v) q = v := by simp [queueAt]

theorem queueAt_setQueue_other (s : State) {q r : Nat} (h : r ≠ q) (v : Queue) : queueAt (setQueue s q v) r = queueAt s r := by
  simp [queueAt, tget_tset_other _ h]

@[simp] theorem linkAt_setLink_same (s : State) (l : Nat) (x : Link) : linkAt (setLink s l x) l = x := by simp [linkAt]

theorem linkAt_setLink_other (s : State) {l m : Nat} (h : m ≠ l) (x : Link) : linkAt (setLink s l x) m = linkAt s m := by
  simp [linkAt, tget_tset_other _ h]

@[simp] theorem unitAt_setUnit_same (s : State) (t : Nat) (u : TileUnit) : unitAt (setUnit s t u) t = u := by simp [unitAt]

theorem unitAt_setUnit_other (s : State) {t r : Nat} (h : r ≠ t) (u : TileUnit) : unitAt (setUnit s t u) r = unitAt s r := by
  simp [unitAt, tget_tset_other _ h]

@[simp] theorem fieldAt_setField_same (s : State) (f : Nat) (v : Field) : fieldAt (setField s f v) f = some v := by simp [fieldAt]

theorem fieldAt_setField_other (s : State) {f g : Nat} (h : g ≠ f) (v : Field) : fieldAt (setField s f v) g = fieldAt s g := by
  simp [fieldAt, tfind_tput_other h]

@[simp] theorem reqAt_setReq_same (s : State) (r : Nat) (v : Request) : reqAt (setReq s r v) r = some v := by simp [reqAt]

theorem reqAt_setReq_other (s : State) {r x : Nat} (h : x ≠ r) (v : Request) : reqAt (setReq s r v) x = reqAt s x := by
  simp [reqAt, tfind_tput_other h]

/-- Writing host bytes leaves every byte outside the run alone. -/
theorem mread_hostWrite_other (s : State) {a c : Nat} {bs : List Byte} (h : c < a ∨ a + bs.length ≤ c) :
    mread (hostWrite s a bs).mem.host c = mread s.mem.host c := mread_mwrites_other _ h

end Sys2Proof.Machine
end

