-- ==== Sys2Proof/Laws/Ops.lean ====
section
/-!
SUPPORT. What the shared operations do: taking up a descriptor, the mailbox, vectors, posting a completion.
-/

namespace Sys2Proof.Machine

@[simp] theorem closeBatches_host (q : Nat) (s : State) : (closeBatches q s).host = s.host := rfl
@[simp] theorem closeBatches_boot (q : Nat) (s : State) : (closeBatches q s).boot = s.boot := rfl

/-- A descriptor that is found starts its work (R277). -/
theorem withDesc_taken {s : State} {q : QId} {op : Opcode} {h : DescHdr} {b : Bool} {acc : Nat} {work : Nat → State → State}
    (ht : Taken s q op h acc) (hop : op ≠ .copy) : withDesc q op h b work s = work acc (started s q acc) := by
  obtain ⟨h1, h2, h3⟩ := ht
  have h4 : acceptedDesc (closeBatches q s) q (opcodeCode op) h.seq = some acc := h2
  have h5 : fenceBefore (closeBatches q s) q acc = false := h3
  simp [withDesc, h1, hop, h4, h5, started]

/-- A COPY that is found starts its work; its queue's open batch stays open (R240, R277). -/
theorem withDesc_copy {s : State} {q : QId} {h : DescHdr} {b : Bool} {acc : Nat} {work : Nat → State → State}
    (ht : Taken s q .copy h acc) : withDesc q .copy h b work s = work acc (setPhase acc .running s) := by
  obtain ⟨h1, h2, h3⟩ := ht
  simp [withDesc, h1, h2, h3]

/-- No command starts where firmware does not run (R435, R474). -/
theorem withDesc_stopped {s : State} {q : QId} {op : Opcode} {h : DescHdr} {b : Bool} {work : Nat → State → State}
    (hr : running s = false) : withDesc q op h b work s = s := by simp [withDesc, hr]

/-- A mailbox command that can run does its work (R261). -/
theorem mailbox_free {s : State} {code : Nat} {work : State → State} (h : MailboxFree s) : mailbox code work s = work s := by
  obtain ⟨h1, h2, h3⟩ := h
  simp [mailbox, h1, h2, h3]

/-- A mailbox command is ignored while BAR0 does not answer or another one runs (R261). -/
theorem mailbox_busy {s : State} {code : Nat} {work : State → State} (h : barOpen s = false ∨ s.host.mboxRun.isSome = true) :
    mailbox code work s = s := by
  rcases h with h | h <;> simp [mailbox, h]

/-- A vector that is not masked is sent while the link is up (R268). -/
theorem raiseVector_sent {s : State} {v : Nat} (h1 : (tget ({} : MsixEntry) v s.host.msix).masked = false) (h2 : linkUp s = true) :
    raiseVector v s = setHost s { s.host with irqs := s.host.irqs ++ [v] } := by
  unfold raiseVector; dsimp only; rw [h1, h2]; rfl

/-- A masked vector, or one of a link that is down, sets its pending bit (R268; log 11). -/
theorem raiseVector_held {s : State} {v : Nat} (h : (tget ({} : MsixEntry) v s.host.msix).masked = true ∨ linkUp s = false) :
    raiseVector v s = setHost s { s.host with
      msix := tset {} v { tget ({} : MsixEntry) v s.host.msix with pending := true } s.host.msix } := by
  unfold raiseVector; dsimp only; rcases h with h | h <;> rw [h]
  · rfl
  · cases (tget ({} : MsixEntry) v s.host.msix).masked <;> rfl

/-- An informational entry that cannot be written at once is lost and counted (R267). -/
theorem post_info_lost {s : State} {q : Nat} {c : Completion} (hi : c.info = true)
    (h : (queueAt s q).held ≠ [] ∨ queueLink s (queueAt s q) = false ∨ ringFull (queueAt s q) = true) :
    post q c s = setQueue s q { queueAt s q with infoLost := satAdd (queueAt s q).infoLost 1 } := by simp [post, hi, h]

/-- A completion is held behind held ones or while its port is down (R259, R267). -/
theorem post_held {s : State} {q : Nat} {c : Completion} (hi : c.info = false)
    (h : (queueAt s q).held ≠ [] ∨ queueLink s (queueAt s q) = false) :
    post q c s = setQueue s q { queueAt s q with held := (queueAt s q).held ++ [c] } := by simp [post, hi, h]

/-- A completion that finds its ring full under OVERFLOW_STALL is held (R267). -/
theorem post_stalled {s : State} {q : Nat} {c : Completion} (hi : c.info = false) (h1 : (queueAt s q).held = [])
    (h2 : queueLink s (queueAt s q) = true) (h3 : ringFull (queueAt s q) = true) (h4 : (queueAt s q).overflowStall = true) :
    post q c s = setQueue s q { queueAt s q with held := [c] } := by simp [post, hi, h1, h2, h3, h4]

/-- A completion that finds its ring full without OVERFLOW_STALL is dropped, with CQ_OVF and vector 1,024 (R267). -/
theorem post_dropped {s : State} {q : Nat} {c : Completion} (hi : c.info = false) (h1 : (queueAt s q).held = [])
    (h2 : queueLink s (queueAt s q) = true) (h3 : ringFull (queueAt s q) = true) (h4 : (queueAt s q).overflowStall = false) :
    post q c s = raiseVector 1024 (setQueue s q { queueAt s q with cqOvf := true }) := by simp [post, hi, h1, h2, h3, h4]

/-- A completion that finds room is written (R266). -/
theorem post_written {s : State} {q : Nat} {c : Completion} (h1 : (queueAt s q).held = []) (h2 : queueLink s (queueAt s q) = true)
    (h3 : ringFull (queueAt s q) = false) : post q c s = writeCompletion q c s := by
  by_cases hi : c.info <;> simp [post, hi, h1, h2, h3]

/-! ### Posting leaves the open descriptors alone -/

@[simp] theorem raiseVector_opens (v : Nat) (s : State) : (raiseVector v s).host.opens = s.host.opens := by
  unfold raiseVector; dsimp only; split <;> rfl
@[simp] theorem setQueue_opens (q : Nat) (v : Queue) (s : State) : (setQueue s q v).host.opens = s.host.opens := rfl
@[simp] theorem countCompletion_opens (q : Nat) (b : Bool) (s : State) : (countCompletion q b s).host.opens = s.host.opens := by
  unfold countCompletion; dsimp only; split
  · rfl
  · split
    · unfold sendQueueIrq; dsimp only; rw [raiseVector_opens]; rfl
    · rfl
@[simp] theorem writeShadow_opens (q : Nat) (s : State) : (writeShadow q s).host.opens = s.host.opens := by
  unfold writeShadow; dsimp only; split <;> rfl
@[simp] theorem writeCompletion_opens (q : Nat) (c : Completion) (s : State) : (writeCompletion q c s).host.opens = s.host.opens := by
  unfold writeCompletion; dsimp only; rw [countCompletion_opens, writeShadow_opens]; rfl
/-- Posting opens and closes no descriptor. -/
@[simp] theorem post_opens (q : Nat) (c : Completion) (s : State) : (post q c s).host.opens = s.host.opens := by
  unfold post; dsimp only
  split
  · split
    · exact setQueue_opens _ _ _
    · exact writeCompletion_opens _ _ _
  · split
    · exact setQueue_opens _ _ _
    · split
      · split
        · exact setQueue_opens _ _ _
        · rw [raiseVector_opens, setQueue_opens]
      · exact writeCompletion_opens _ _ _

/-! ### Reads of lines with test mode off (R479) -/

/-- Writing a history entry takes no time. -/
@[simp] theorem pushHistory_tick (e : HistEntry) (s : State) : (pushHistory e s).tick = s.tick := by
  unfold pushHistory traceEntry; dsimp only; repeat first | rfl | split
@[simp] theorem logDetection_tick (i d : BitVec 8) (c : BitVec 2) (b : Bool) (k : BitVec 8) (y l : BitVec 64) (st : BitVec 16) (s : State) :
    (logDetection i d c b k y l st s).tick = s.tick := by
  unfold logDetection; dsimp only
  split <;> split <;> (try split) <;> simp
@[simp] theorem logScoped_tick (k : BitVec 8) (d i l : Nat) (b : Bool) (st : BitVec 16) (s : State) : (logScoped k d i l b st s).tick = s.tick := by
  simp [logScoped]
@[simp] theorem logClass1_tick (d i l : Nat) (b : Bool) (st : BitVec 16) (s : State) : (logClass1 d i l b st s).tick = s.tick := by
  simp [logClass1]
/-- No slot matches while test mode is off. -/
theorem injSlot_off {s : State} (h : s.faults.test = false) (d i l : Nat) : injSlot s d i l = none := by simp [injSlot, h]
theorem injMeet_off {s : State} (h : s.faults.test = false) (d i l : Nat) : injMeet d i l s = s := by simp [injMeet, injSlot_off h]
theorem lineSlot_off {s : State} (h : s.faults.test = false) (c : CellAt) : lineSlot s c = none := by simp [lineSlot, injSlot_off h]
theorem injectLine_off {s : State} (h : s.faults.test = false) (st : BitVec 16) (c : CellAt) : injectLine st c s = (true, s) := by
  simp [injectLine, lineSlot_off h]
/-- Reads of lines change nothing while test mode is off. -/
theorem meetLines_off {s : State} (h : s.faults.test = false) (st : BitVec 16) (l : List CellAt) : meetLines st l s = (true, s) := by
  simp [meetLines, h]

theorem meetPlaced_off {s : State} (h : s.faults.test = false) (r : Except Status State) (l : List CellAt) : meetPlaced r l s = (true, s) := by
  cases r with
  | error _ => rfl
  | ok _ => exact meetLines_off h _ _

end Sys2Proof.Machine
end

