-- ==== Sys2Proof/WellFormed.lean ====
section
/-!
DEFINITION. When a command is well formed: the lists it carries have the lengths its own fields name, as the hardware would read them. What a
field's value may be is checked by the command's meaning, with the status the manual gives.
-/

namespace Sys2Proof

/-- Words of the section block that a RUN_SECTION reads: scalars 8 to 15 (R272). -/
def blockWords (d : RunDesc) : Nat := if 8 < d.nscalars.toNat ∧ d.nscalars.toNat ≤ 16 ∧ d.blockAddr ≠ 0 then d.nscalars.toNat - 8 else 0

/-- A read of n bytes: it names no byte past them (a byte it does not name is 0). -/
def readWithin (n : Nat) (m : ReadBytes) : Bool := m.all fun e => decide (e.1 < n)

/-- The command is well formed. -/
def Instr.wf : Instr → Bool
  | .nop _ _ => true
  | .fence _ _ _ => true
  | .timeMark _ _ => true
  | .copy _ _ d data => decide (data.length = (if d.srcPlace = 0 then d.length.toNat else 0))
  | .copyCollective _ _ _ => true
  | .loadSkein _ _ d img => readWithin d.imageBytes.toNat img
  | .runSection _ _ d block => decide (d.scalars.length = min d.nscalars.toNat 8 ∧ block.length = blockWords d)
  | .moonLoad _ _ d img => readWithin d.imageBytes.toNat img
  | .weightLoad _ _ d m => readWithin d.manifestBytes.toNat m.bytes
  | .requestSubmit _ _ d prompt => decide (prompt.length = d.promptTokens.toNat)
  | .requestCancel _ _ _ _ => true
  | .parkSection _ _ _ => true
  | .parkRequest _ _ _ => true
  | .resumeParkRecord _ _ _ => true
  | .resumeDiscard _ _ _ => true
  | .resumeComet _ _ d c => readWithin d.sourceBytes.toNat c.bytes
  | .kvShip _ _ _ => true
  | .descriptorFetchBurst _ descs => decide (1 ≤ descs.length ∧ descs.length ≤ 16) && descs.all fun x => decide (x.length = 64)
  | .sqTail _ _ => true
  | .cqHead _ _ => true
  | .queueEnable _ _ => true
  | .queueDisable _ => true
  | .qcfgErrClear _ _ => true
  | .irqEnClear _ => true
  | .coalTimerExpiry _ => true
  | .msixUnmask _ => true
  | .cxlPortDown _ => true
  | .cxlPortUp _ lanes _ two => decide (lanes = 4 ∨ lanes = 8 ∨ (lanes = 16 ∧ two = false))
  | .cxlMemRead _ => true
  | .cxlMemWrite _ _ => true
  | .download r => readWithin r.blockBytes r.bytes
  | .bringupReady _ => true
  | .map _ => true
  | .unmap _ => true
  | .serveMode _ => true
  | .serveConfig _ => true
  | .expertMap _ count entries => decide (entries.length = count.toNat)
  | .retainedFree _ => true
  | .retainedPack _ => true
  | .cometTrust count digests => decide (digests.length = (if count.toNat ≤ 1024 then count.toNat else 0))
  | .modelOwners count blocks => readWithin (2048 * (if count.toNat ≤ 64 then count.toNat else 0)) blocks
  | .modelDrop _ => true
  | .collGroup _ _ p nodes _ => decide (nodes.length = (if p.toNat ≤ 4096 then p.toNat else 0))
  | .fieldLayout _ _ => true
  | .placeGroup _ count members => decide (members.length = (if count.toNat ≤ 4 then count.toNat else 0))
  | .fieldWake _ => true
  | .fieldSleep _ => true
  | .fieldReset _ => true
  | .testNonce _ => true
  | .testUnlock r => readWithin r.tokenBytes.toNat r.bytes
  | .testLock => true
  | .selfTest _ _ _ => true
  | .setupDone => true
  | .bootResetWarm _ => true
  | .commit => true
  | .routingBankSwap => true
  | .linkEnable _ _ => true
  | .retrain _ => true
  | .nodeId _ => true
  | .replayGo _ => true
  | .take => true
  | .clear => true
  | .testLinkMode _ _ => true
  | .testLinkClear _ => true
  | .testMemStart _ => true
  | .testMemDone _ => true
  | .traceEnable _ => true
  | .injectionArm _ _ => true
  | .registerWrite _ size _ => decide (size ≤ 8)
  | .heartbeat _ _ => true
  | .setCap _ _ => true
  | .setOrphanCap _ _ => true
  | .getStatus _ => true
  | .meterMark _ _ => true
  | .warmReset _ _ => true
  | .fwOffer _ _ => true
  | .fwData _ _ _ _ => true
  | .fwReadTimeout => true
  | .getVersion _ => true
  | .getCapabilities _ => true
  | .negotiateAlgorithms _ _ _ _ _ => true
  | .getDigests _ => true
  | .getCertificate _ _ _ _ => true
  | .challenge _ _ _ => true
  | .getMeasurements _ _ _ _ => true
  | .keyExchange _ _ _ => true
  | .finish _ _ _ => true
  | .spdmHeartbeat _ _ => true
  | .keyUpdate _ _ _ => true
  | .endSession _ _ => true
  | .chunkSend _ _ _ _ _ => true
  | .chunkGet _ _ _ => true
  | .cosign _ _ => true
  | .getChain _ _ _ => true
  | .p56vContact => true
  | .prechargeComplete => true
  | .prechargeTimeout _ => true
  | .pwrEnRise => true
  | .pwrEnFall => true
  | .removeOkRelease => true
  | .attnN => true
  | .flowOkFall => true
  | .flowOkRise => true
  | .flowCapLift => true
  | .inputBelow50v _ => true
  | .inputCapLift => true
  | .inputBelow44v _ => true
  | .inputLossPark => true
  | .inputAbove62v => true
  | .periodicPowerReport => true
  | .managersSilent => true
  | .governorCheck _ _ => true
  | .governorUnpark _ => true
  | .lagEpisodeStart => true
  | .lagReport => true
  | .lagEpisodeEnd => true
  | .thermalHot _ _ => true
  | .thermalCapStep _ => true
  | .thermalPark _ => true
  | .thermalUnpark _ => true
  | .thermalTrip _ => true
  | .perstAssert => true
  | .perstRelease _ => true
  | .flr => true
  | .d3hotEntry => true
  | .d0Entry => true
  | .islandClockStop _ _ => true
  | .sectionDispatch _ => true
  | .slotFill _ _ => true
  | .unitFire _ _ => true
  | .entryArrival _ _ => true
  | .creditReturn _ _ => true
  | .tokenStart _ _ => true
  | .tokenDone _ _ => true
  | .tokenSelect _ _ => true
  | .tokenEndSection _ _ => true
  | .tokenFlush _ _ => true
  | .tokenAbort _ _ => true
  | .unitSwap _ => true
  | .sectionComplete _ => true
  | .runEmptyDrainDone _ => true
  | .abortDrainTimeout _ => true
  | .scanSettleExpiry _ => true
  | .tierRequestComplete _ _ _ => true
  | .arbiterBeat _ => true
  | .watchdogExpiry _ => true
  | .inputPark _ => true
  | .copyBatchClose => true
  | .copyTransferDone _ _ => true
  | .shardHashed _ => true
  | .pageMoveDone => true
  | .scrubPass _ _ => true
  | .moonCall _ _ => true
  | .moonCallPartDone _ => true
  | .moonPartialCombine _ => true
  | .moonCallComplete _ _ _ => true
  | .moonResultFetch _ _ _ _ => true
  | .moonServiceStep _ => true
  | .rehashPass _ _ _ _ _ => true
  | .stepBoundary _ => true
  | .tokenSample _ => true
  | .stepCommit _ _ => true
  | .deadlineExpiry _ => true
  | .requestIdlePark _ => true
  | .entryAllocate => true
  | .cometWritten _ _ => true
  | .flitReceive _ _ => true
  | .retryExhausted _ _ => true
  | .laneLossOfLock _ _ => true
  | .fastRetrainDone _ _ => true
  | .linkTrainingDone _ _ => true
  | .packetHop _ _ _ _ => true
  | .packetDeliver _ _ => true
  | .ackReceive _ _ _ _ => true
  | .dropReceive _ _ _ => true
  | .ackSendTimer _ _ => true
  | .resendTimeout _ => true
  | .transferWindowExpiry _ => true
  | .packetStallTimeout _ _ => true
  | .collSetupPacket _ _ _ _ => true
  | .collSegmentReceive _ _ _ _ => true
  | .joinWaitExpiry _ => true
  | .fenceAction _ => true
  | .unitTest _ _ => true
  | .columnMapApply _ => true
  | .fatalEvent _ => true
  | .fatalParkExpiry => true
  | .heartbeatLoss _ _ => true
  | .testModeExpiry => true
  | .aliveToggle => true
  | .energyApportionment => true
  | .enduranceWrite _ _ => true
  | .meterIntervalEnd => true
  | .meterSelfCheck _ _ => true
  | .meterPowerLoss => true
  | .meterPowerUp _ => true
  | .meterRestart => true
  | .sealEvent _ => true
  | .meterStatusFrame => true
  | .p100Window _ _ => true
  | .inputReturn _ => true
  | .pwrEnHoldExpiry => true
  | .moonCallForward _ => true
  | .imageChecked _ _ _ => true
  | .scanShiftDone _ => true
  | .warmResetReady _ => true
  | .dynamicAddressAssignment _ _ => true
  | .meterLinkTimeout => true
  | .meterSample _ _ => true

end Sys2Proof
end

