-- ==== Sys2Proof/Tests/Slice0.lean ====
section
/-!
SUPPORT. Tests of the model: ill-formed commands that Instr.wf refuses, steps on small states with results taken from the manual, and for every
obligation with hypotheses a theorem that shows concrete states and operands meeting them, clause by clause.
-/

open Sys2Proof Sys2Proof.Machine
set_option Elab.async false

namespace Sys2Proof.Tests

/-! ### Small states and operands -/

/-- A module at READY with both rails on, its link up and its meter powered; no field is formed. -/
def up : State := { State.reset with
  entry := { p56v := true, precharge := .done, aux := true, main := true, inputSwitch := true, pwrEn := true, pwrGood := true, removeLow := true, flowOk := true, perst := false }
  host := { up0 := true, width0 := 16 }
  boot := { stage := .ready, identity := true, setupDone := true, laidOut := true, trained := true }
  meter := { powered := true }
  window := { linkOk := true } }

/-- The same with queue 1,023 enabled on rings of 16. -/
def upQ : State := setQueue up 1023 { enable := true, sqSize := 16, cqSize := 16 }

/-- A descriptor header: SEQ 7, TAG 3, class 1. -/
def hd : DescHdr := ⟨false, 7, 3, 1, 0⟩

/-- A state with one open descriptor of an opcode, accepted under number 5 on queue 0. -/
def accepted (op : Opcode) (s : State) : State :=
  { s with host := { s.host with opens := [(5, ⟨0, opcodeCode op, 7, 3, 1, 0, false, false, .accepted, 0, 0⟩)], nextAcc := 6 } }

/-- Field 0 of band 0, with nothing loaded. -/
def fld0 : Field := ⟨[0], [0, 1, 2, 3], [0, 1, 2, 3], [], [], [], [], false, false, none, [], []⟩

/-- A state with field 0 as given. -/
def withField (fl : Field) (s : State) : State := { s with fld := { s.fld with use := 1, fields := [(0, fl)] } }

/-- The module with field 0 formed. -/
def upF : State := withField fld0 up

/-- A bundle of one 4,096-byte boot part, with its tables in place. -/
def bundle0 : Bundle where
  blockAddr := 0
  blockBytes := 15680
  magic := 0x4C444E42
  format := 1
  headerBytes := 256
  bundleBytes := 15680
  version := 2
  floor := 1
  steppings := 7
  keySlot := 0
  revoke := 2
  partOff := 2304
  skeinKeysOff := 2368
  tableDigest := 5
  sigOff := 12288
  parts := [⟨1, 8192, 4096, 6, 6⟩]
  skeinKeys := [9]
  headerHash := 7
  keyHash := Config.romKeyHash 0
  tableHash := 5
  sig := ⟨true, true⟩

/-- A host read of bytes from an address on. -/
def hostAt (a : Nat) (l : List Byte) : ReadBytes := (l.zipIdx a).map fun e => (e.2, e.1)
def hostRead (l : List Byte) : ReadBytes := hostAt 0 l

/-- The part entry of a bundle whose boot part is 64 zero bytes, and a host read of that bundle: version 2, floor 1, no key, every stepping. -/
def bootEntry : List Byte := leBytes 4 1 ++ leBytes 4 4096 ++ leBytes 8 64 ++ leBytes 48 (sha384 (zeros 64)).toNat
def bundleRead (magic : Nat) : BundleRead := ⟨0, 7552, hostAt 0 (leBytes 4 magic ++ leBytes 2 1 ++ leBytes 2 256 ++ leBytes 4 7552 ++ leBytes 4 2 ++ leBytes 4 1 ++
  [7, 0, 2, 0] ++ leBytes 4 1 ++ leBytes 4 2304 ++ leBytes 4 0 ++ leBytes 4 2368 ++ leBytes 48 (sha384 bootEntry).toNat ++ leBytes 4 4160) ++ hostAt 2304 bootEntry,
  ⟨Config.romKeyHash 0, ⟨true, true⟩⟩⟩
/-- The bundle that the read spells. -/
def bundleOf (magic : Nat) : Bundle := parseBundle (hostBytes (bundleRead magic).bytes) 0 7552 (bundleRead magic).found

/-- An idle unit's record (R98). -/
def idleUnit (row col kind : Nat) : UnitCfg := ⟨row, col, kind, 256, 0, 0, [], ⟨false, [0, 0, 0, 0], [0, 0, 0, 0], [15, 15, 15, 15], []⟩, [], ⟨[], [], 0, 0, 0, 0, 0, 0, []⟩, [], 0⟩

/-- A skein image whose units are all idle, for a field of one full band, signed by key 9. -/
def skein0 : SkeinImage where
  hdr := ⟨0x4E494B53, 3, 256, Config.member, 1, false, [40, 0, 0, 0], 3648, 0, 1, 0, 0, 0, 0, 0, 0, 0, 0, 0, 0, 0, 0, 256, 9, 4⟩
  units := (fieldTiles [List.range 40]).map fun e => idleUnit e.1 e.2 0
  threads := []
  moons := []
  recs := []
  preloads := []
  tablesEnd := true
  head := [11]
  headerHash := 11
  bodyHash := 4

/-- The bytes of a skein image with empty tables: its header ends at byte 256, where its signature block of 3,392 bytes begins. -/
def skeinBytes : ReadBytes := hostRead (leBytes 4 0x4E494B53 ++ leBytes 2 3 ++ leBytes 2 256 ++ leBytes 2 0x0800 ++ [1, 0, 40, 0, 0, 0] ++ leBytes 4 3648 ++ zeros 60 ++ leBytes 4 256)

/-- The bytes of a table program of one 64-byte row with 64 bytes of code, 3,712 bytes long. -/
def moonBytes : ReadBytes := hostRead (leBytes 4 0x4E4F4F4D ++ leBytes 2 1 ++ leBytes 2 3 ++ leBytes 2 64 ++ zeros 6 ++ leBytes 8 9 ++ zeros 8 ++ leBytes 4 1 ++ [6])

/-- The entry of a manifest's 64-byte shard, and the bytes of that manifest, whose owner is key 8. -/
def shardEntry0 : List Byte := leBytes 4 64 ++ zeros 12 ++ leBytes 48 6
def manifestBytes : ReadBytes := hostRead (leBytes 4 0x54464E4D ++ leBytes 2 1 ++ leBytes 2 256 ++ leBytes 4 1 ++ leBytes 4 64 ++ leBytes 8 64 ++ leBytes 8 8 ++ leBytes 4 320 ++
  zeros 4 ++ leBytes 48 (sha384 shardEntry0).toNat ++ zeros 168 ++ shardEntry0)

/-- A table program of one 64-byte row, signed by key 9. -/
def moon0 : MoonImage := ⟨0x4E4F4F4D, 1, 3, 64, 3712, 9, .table 0 1 6, 12⟩

/-- A manifest of one 64-byte shard. -/
def manifest0 : Manifest := ⟨0x54464E4D, 1, 256, 1, 64, 64, 8, 320, 5, [⟨64, 0, 0, 6⟩], 5, 13, ⟨true, true⟩⟩

/-- LOAD_SKEIN and MOON_LOAD fields. -/
def ld (place : BitVec 2) (bytes : BitVec 32) (mask : BitVec 16) : LoadDesc := ⟨0, bytes, place, 0, 0, 0, 0, mask, false⟩

/-- A load at work with its image. -/
def load0 (s : Option SkeinImage) (m : Option MoonImage) : LoadRun := ⟨5, 0, 0, 0, false, s, m, ⟨[], [], [], []⟩, 1, 0, false⟩

/-- Field 0 with skein0 in slot 0, and the module that runs bundle0. -/
def fldS : Field := { fld0 with slots := [(0, { skein := some skein0 })] }
def upS : State := { withField fldS up with boot := { up.boot with bundle := some bundle0 } }

/-- Room for a module pool: one channel and 1 GiB of it. -/
def upP : State := { upF with mem := { upF.mem with poolList := [0], chanSet := 1, moduleGib := 1, shareGib := 64 } }

/-- A section of slot 0 with a number and a phase. -/
def sec0 (id : Nat) (ph : SecPhase) : Section :=
  { id, acc := some 5, slot := 0, image := none, scalars := [], empty := false, phase := ph, why := none, watchdog := 10, wdCount := 0, progress := false
    idleEn := false, idleLimit := 1000, idle := 0, fed := false, feeds := [], blockAddr := 0, bound := 0, outOfRange := 0, exits := [], serves := []
    isPrefill := false, config := none, calls := 0, tag := some 3, counts := {}, restored := false, restore := [] }

/-- SERVE_CONFIG of configuration 0 on field 0. -/
def cfgBlock : ServeConfigBlock := ⟨0, true, 0, 0, 0, 256, 1, 16, 0, 0, 2, 1, 0, 0, 1, [], 13⟩

/-- The module with serving configuration 0. -/
def upC : State := { upF with serv := { upF.serv with configs := [(0, ⟨cfgBlock, 7, 0, 4096, []⟩)] } }

/-- A request in a state: configuration 0, field 0, two prompt tokens, descriptor 5. -/
def req0 (st : ReqState) : Request :=
  ⟨st, false, false, false, true, false, 1, false, 3, 0, 2, 2, 4, 1, 0, 0, 0, 100, 50, 50, 0, some 5, 5, 0, 0, [1, 1], [], false, none, none, .queued, [], 0, 0⟩

/-- The module with request 0. -/
def upR (q : Request) : State := { upC with serv := { upC.serv with reqs := [(0, q)] }, tick := 100 }

/-- REQUEST_SUBMIT of two tokens with a MAX_NEW. -/
def sub0 (n : BitVec 32) : SubmitDesc := ⟨0, 2, n, 0, 0, 100, 50, 0, false, true, false, false, false⟩

/-- PARK fields: target queue 0 and SEQ, place, SCAN, RELEASE. -/
def park0 (seq : BitVec 16) (place : BitVec 2) (scan release : Bool) : ParkDesc := ⟨0, seq, 0, 0, place, 0, scan, release⟩

/-- A second open descriptor, number 4 with SEQ 6, the target of cancels and parks. -/
def withTarget (op : BitVec 8) (s : State) : State :=
  { s with host := { s.host with opens := (4, ⟨0, op, 6, 3, 1, 0, false, false, .placed, 0, 0⟩) :: s.host.opens } }

/-- A run-empty or scan park record of field 0's slot 0. -/
def rec0 (form : Nat) (valid : Bool) : ParkRec :=
  let p : ParkRec :=
    { handle := 1, field := 0, form, reason := 1, slot := 0, bands := 1, headerHash := 11, profile := [40], digest := 0, units := [], feeds := [], exits := []
      scalars := [], empty := false, idleEn := false, idleLimit := 0, watchdog := 10, outOfRange := 0, sectionId := 0, origin := (0, 7), valid }
  { p with digest := recordDigest skein0 p }

/-- RESUME fields: SRC_PLACE, source, its bytes. -/
def res0 (place : Bool) (src bytes : BitVec 64) : ResumeDesc := ⟨0, place, src, bytes, 0, 0, 100, 50, false, true, false⟩

/-- A comet of request 0 before its first token, made elsewhere. -/
def comet0 : Comet := ⟨⟨0, false, false, 2, 4, 2, 0, 0, 0, 0, 0, 0, 0, 7, 13, 0, 0, 4096, 0, 1⟩, 21, [1, 1], [], 0⟩

/-- KV_SHIP of a page count. -/
def ship0 (n : BitVec 32) : ShipDesc := ⟨0, 6, 0, n, 77, 0, 9, false⟩

/-- Training results with the given channels in service: 64 GiB DIMMs, all stacks good. -/
def training0 (chans : BitVec 16) : Training := ⟨0xFFFF, 0, chans, 0, List.replicate 16 64, List.replicate 16 1, [0, 0, 0, 0], 0x3F, true⟩

/-! ### Witnesses: host interface -/

/-- What `Taken` asks of a state holds for every opcode in `accepted`. -/
theorem taken_accepted (op : Opcode) (s : State) (h : running s = true) : Taken (accepted op s) 0 op hd 5 := by
  refine ⟨h, ?_, ?_⟩ <;> cases op <;> rfl

theorem running_up : running up = true ∧ running upF = true := by decide

theorem witness_StepRunsTheFront : Sound up ∧ up.pending = [] ∧ { up with pending := [.take, .clear] }.pending = .take :: [.clear] := by
  unfold Sound MemOk SeqOk MeterOk; decide

theorem sound_up : Sound State.reset ∧ Sound up ∧ Sound { up with meter := { powered := true, accum := 1999, cum := 1 } } := by
  unfold Sound MemOk SeqOk MeterOk; decide

theorem witness_CommandsCompleteAndKeepTheQueue : Sound State.reset ∧ Sound up ∧ Sound { up with meter := { powered := true, accum := 1999, cum := 1 } } := sound_up

theorem witness_StepKeepsSound : Sound up ∧ step up = .next (controlTick up) := ⟨sound_up.2.1, rfl⟩

/-- Power loss, restart and power-up each have a sound state in which they act. -/
theorem witness_MeterNeverGoesBack : Sound up ∧ up.meter.powered = true ∧ Sound { State.reset with entry := { p56v := true } } ∧ State.reset.meter.powered = false :=
  ⟨sound_up.2.1, rfl, sound_up.1, rfl⟩

theorem witness_NothingElseReachesTheMeter : Sound up ∧ meterCommand .flr = false ∧ up.meter.powered = true := ⟨sound_up.2.1, rfl, rfl⟩

theorem witness_FloorsNeverDecrease :
    let s := { up with boot := { up.boot with stage := .bringup, download := some .host, bundle := some bundle0 } }
    Sound s ∧ s.boot.download = some .host ∧ s.boot.bundle = some bundle0 ∧ s.boot.stage = .bringup ∧ s.entry.main = true ∧ s.boot.warmBusy = false ∧
    floorCommand .flr = false ∧ meterCommand .flr = false ∧ (trainAll (training0 0xFFFF) s).mem.poolList ≠ [] ∧ (trainAll (training0 0) s).mem.poolList = [] :=
  ⟨sound_up.2.1, rfl, rfl, rfl, rfl, rfl, rfl, rfl, by decide +kernel, by decide +kernel⟩

theorem witness_NoIdentityRefusesFirmware :
    let r := { up with boot := {} }
    let s := { up with boot := { stage := .noIdentity } }
    (r.entry.main = true ∧ r.boot.stage = .rom) ∧ s.boot.stage = .noIdentity ∧ barOpen s = true ∧ s.host.mboxRun = none ∧ s.entry.aux = true := by decide

theorem witness_ReadsFollowSizeAndAlignment :
    ((0x10004 : BitVec 24).toNat % 8 ≠ 0) ∧ (0xFFFFF8 : BitVec 24).toNat % 8 = 0 ∧ barOpen State.reset = false ∧ State.reset.boot.warmBusy = false ∧ barOpen up = true ∧
    (let s := { up with boot := { up.boot with warmBusy := true } }; s.boot.warmBusy = true ∧ s.entry.main = true ∧ s.entry.perst = false ∧ linkUp s = true) := by decide

theorem witness_DoorbellsAndQueueEnable_doorbells :
    (barOpen upQ = true ∧ (queueAt upQ 1023).enable = true ∧ (0xFFFF000F#32).toNat % 65536 < (queueAt upQ 1023).sqSize.toNat) ∧
    ((queueAt upQ 1023).sqSize.toNat ≤ (16#32).toNat % 65536) ∧ ((15#32).toNat % 65536 < (queueAt upQ 1023).cqSize.toNat ∧ (queueAt upQ 1023).held = []) ∧
    ((queueAt upQ 1023).cqSize.toNat ≤ (16#32).toNat % 65536) ∧ (queueAt up 1023).enable = false := by decide

/-- The four branches of enabling: ENTRIES zero, 16 to 65,536 with COAL_COUNT 1, COAL_COUNT 0, and 17 entries. -/
theorem witness_DoorbellsAndQueueEnable_enable :
    let x := fun sq cq c => (ctrlFields (queueAt (setQueue up 0 { sqSize := sq, cqSize := cq }) 0) c)
    (barOpen up = true ∧ (queueAt up 0).enable = false ∧ (x 0 16 0x100).sqSize = 0) ∧
    ((x 16 65536 0x100).sqSize = 2 ^ 4 ∧ (x 16 65536 0x100).cqSize = 2 ^ 16 ∧ (x 16 65536 0x100).coalCount ≠ 0) ∧
    ((x 16 16 0).sqSize ≠ 0 ∧ (x 16 16 0).coalCount = 0) ∧ (x 17 16 0x100).sqSize ≠ 0 ∧ ¬∃ k ≤ 16, 4 ≤ k ∧ (x 17 16 0x100).sqSize.toNat = 2 ^ k := by decide

theorem witness_QueueErrorsAndInterrupts :
    (let s := setQueue up 0 { irqEn := true, coalTicks := 100, coalStart := some 0 }
     (queueAt { s with tick := 100 } 0).coalStart = some 0 ∧ (queueAt s 0).irqEn = true ∧ 0 + (queueAt s 0).coalTicks.toNat ≤ { s with tick := 100 }.tick) ∧
    (let s := setHost up { up.host with msix := [(1027, { pending := true })] }; (tget ({} : MsixEntry) 1027 s.host.msix).pending = true) ∧
    (tget ({} : MsixEntry) 1027 up.host.msix).pending = false ∧ barOpen up = true ∧ (queueAt up 0).enable = false := by decide

theorem witness_CxlPortsAndWindow : up.entry.main = true ∧ up.faults.test = false ∧ up.entry.perst = false ∧ linkUp up = true ∧ (∀ e ∈ up.host.queues, e.2.held = []) ∧
    (writeWindow up 0 (zeros 64)).isSome = true ∧
    writeWindow { up with mem := { up.mem with effWindow := 1, poolList := [0], undef := [] }, faults := { fencedChannels := 1 } } 0 (zeros 64) = none ∧ State.reset.boot.laidOut = false := by decide

/-- Posting: room in the ring, full with and without OVERFLOW_STALL, behind held entries, without a link. -/
theorem witness_CompletionsArePosted (c : Completion) :
    let q : Queue := { enable := true, sqSize := 16, cqSize := 16, cqTail := 14 }
    (q.held = [] ∧ queueLink up q = true ∧ ringFull q = false ∧ q.irqEn = false ∧ q.shadow = 0) ∧
    (ringFull { q with cqHead := 15, overflowStall := true } = true ∧ ringFull { q with cqTail := 15 } = true ∧ { q with cqTail := 15 }.overflowStall = false) ∧
    { q with held := [{ c with info := false }] }.held ≠ [] ∧ queueLink State.reset q = false := by
  refine ⟨by decide, by decide, by simp, by decide⟩

theorem witness_NopFenceAndFetch : Taken (accepted .nop up) 0 .nop hd 5 ∧ Taken (accepted .timeMark up) 0 .timeMark hd 5 ∧ Taken (accepted .fence up) 0 .fence hd 5 ∧
    readyFence (accepted .nop up).host.opens = none ∧ upQ.fld.copies = [] ∧ upQ.fld.fields = [] ∧
    (let s := setQueue upQ 1023 { queueAt upQ 1023 with sqTail := 1 }; fetchOpen s 1023 = true ∧ burstRoom (queueAt s 1023) = 1 ∧ (queueAt s 1023).shadow = 0) ∧
    opcodeKnown (byteAt (zeros 64) 0) = true := by
  refine ⟨taken_accepted _ _ (by decide), taken_accepted _ _ (by decide), taken_accepted _ _ (by decide), by decide, by decide, by decide, by decide, by decide⟩

theorem witness_DescriptorEndsByOneCompletion : (tfind 5 (accepted .nop up).host.opens).isSome = true ∧ readyFence (tdel 5 (accepted .nop up).host.opens) = none := by decide

/-- COPY fields: places, destination address and length as given. -/
def cp (sp dp : BitVec 2) (dst : BitVec 64) (len : BitVec 48) : CopyDesc := ⟨0, dst, len, sp, dp, 0, 0, 9, 0, 0, false, 0, 0, 0⟩

theorem witness_CopiesAreTakenUp : Taken (accepted .copy up) 0 .copy hd 5 ∧ (cp 3 0 0 64).srcPlace = 3 ∧
    (∀ d ∈ [cp 3 0 0 64, cp 0 0 0 0, cp 0 3 0 65, cp 0 1 1 64, cp 2 1 64 64], copyWaits (accepted .copy up) 0 hd d = false) ∧
    (let t := accepted .copy up
     let s := setHost t { t.host with opens := (4, ⟨0, 0x11, 6, 3, 1, 0, false, false, .accepted, 0, 0⟩) :: t.host.opens }; copyWaits s 0 hd (cp 0 3 0 64) = (opcodeCode .copy == 0x11#8)) ∧
    ((cp 0 0 0 0).srcPlace ≠ 3 ∧ (cp 0 0 0 0).length = 0) ∧ ((cp 0 3 0 65).dstPlace = 3 ∧ (cp 0 3 0 65).length.toNat % 64 ≠ 0) ∧
    ((cp 0 1 1 64).dstPlace = 1 ∧ (cp 0 1 1 64).dstAddr.toNat % 64 ≠ 0) ∧ ((cp 2 1 64 64).length.toNat % 64 = 0 ∧ (cp 2 1 64 64).dstAddr.toNat % 64 = 0) := by
  refine ⟨taken_accepted _ _ (by decide), by decide⟩

/-! ### Witnesses: descriptors -/

theorem witness_ImageLoads : Taken (accepted .loadSkein upS) 0 .loadSkein hd 5 ∧ Taken (accepted .moonLoad upS) 0 .moonLoad hd 5 ∧
    (ld 3 3648 0).srcPlace = 3 ∧
    (let s := accepted .loadSkein upS; let rd := sourceByte s 0 0 0 skeinBytes; let img := parseSkein rd
     headerBad (ld 0 3647 0) img = true ∧ headerBad (ld 0 3648 0) img = false ∧ cachedHead s img = none ∧ (hubRead 0 0 0 3648 s).1 = true ∧
     (cachedHead { s with fld := { s.fld with cache := [(0, ⟨img, 0⟩)] } } img).isSome = true ∧ hostLost s 5 true = false ∧
     hostLost (setHost s { s.host with up0 := false }) 5 true = true) ∧
    loadFormBad (ld 0 0 0) = true ∧ loadFormBad (ld 1 3648 0) = false ∧ moonFormBad (ld 0 0 1) = true ∧ moonFormBad (ld 0 3712 1) = false ∧
    hubLost (accepted .loadSkein upS) 0 0 0 3648 = none ∧ hubLost (accepted .loadSkein upS) 1 0 0 3648 = some 0 ∧
    dvaCell (accepted .loadSkein upS) 0 0 = none ∧ (accepted .loadSkein upS).faults.test = false ∧ (accepted .loadSkein upS).fld.cache.length + reserved (accepted .loadSkein upS) < 1024 ∧
    (let m := parseMoon (sourceByte up 0 0 0 moonBytes) 3712; moonHeaderBad (ld 0 3712 1) m = false ∧ moonHeaderBad (ld 0 3711 1) m = true ∧ m.params = .table 0 1 6) ∧
    (ld 0 3712 0).stackMask = 0 := by
  refine ⟨taken_accepted _ _ (by decide), taken_accepted _ _ (by decide), by decide +kernel⟩

/-- A full cache whose images are all resident has nothing to evict: here by 1,024 loads that hold their room. -/
theorem witness_ImageLoads_full_cache : let s := { upS with fld := { upS.fld with loads := List.replicate 1024 (load0 (some skein0) none) } }
    1024 ≤ s.fld.cache.length + reserved s ∧ evictable s = none := by decide +kernel

theorem witness_ImagesAreDecided :
    (let s := { upS with fld := { upS.fld with loads := [load0 none (some moon0)] } }
     (s.fld.loads.find? fun l => l.acc == 5 && !l.checked) = some (load0 none (some moon0)) ∧ signerKnown s moon0.signerId = true ∧ moonParamsBad moon0 = false ∧
     moonParamsBad { moon0 with params := .table 0 1 5 } = true ∧ ∀ k ∈ maskStacks 1, moonSlotLocked s moon0 0 k = false) ∧
    (let s := { upS with fld := { upS.fld with loads := [load0 (some skein0) none] } }
     firstLoad s (load0 (some skein0) none) = true ∧ cachedHead s skein0 = none ∧ (5 : Digest) ≠ skein0.hdr.bodyDigest ∧ signerKnown s skein0.hdr.signerId = true ∧ (4 : Digest) = skein0.hdr.bodyDigest ∧
     checkLoad s 0 0 skein0 = none ∧ checkLoad up 0 0 skein0 = some (.profileMismatch, 4)) ∧
    (let w : FillWait := ⟨0, 0, some 5, skein0, 0⟩; let s := { upF with fld := { upF.fld with fills := [w] } }
     fieldAt s 0 = some fld0 ∧ firstFill s 0 0 = some w ∧ slotBusy s fld0 0 = false ∧ (fieldAt (fillSlot 0 0 skein0 s) 0).isSome = true ∧ w.acc = some 5 ∧
     hostLost s 5 true = false ∧ hostLost (setHost s { s.host with up0 := false }) 5 true = true ∧ { w with report := 64 }.report ≠ 0 ∧ w.report = 0 ∧
     firstFill { s with fld := { s.fld with fills := [{ w with acc := none }] } } 0 0 = some { w with acc := none }) := by decide +kernel

/-- WEIGHT_LOAD fields: SRC_PLACE, to a field or to the store. -/
def wd (place : BitVec 2) (dest : Bool) : WeightDesc := ⟨0, 3712, place, dest, 0, 0, 0, 1⟩
/-- A WEIGHT_LOAD of manifest0 at work. -/
def weight0 (dest : Option Nat) : WeightRun := ⟨5, manifest0, dest, 0, 0, 0, 3, 0, 1, 0⟩

theorem witness_WeightLoads : let s := { accepted .weightLoad upP with models := { owners := [8] } }
    Taken s 0 .weightLoad hd 5 ∧ (wd 3 true).srcPlace = 3 ∧ (wd 0 false).dest = false ∧ State.reset.boot.laidOut = false ∧ s.boot.laidOut = true ∧
    (hubRead 0 0 0 3712 s).1 = true ∧ (hubRead 1 0 0 3712 s).1 = false ∧ hostLost s 5 true = false ∧ hostLost (setHost s { s.host with up0 := false }) 5 true = true ∧
    (let m := parseManifest (sourceByte s 0 0 0 manifestBytes) ⟨true, true⟩
     checkWeights s (wd 0 true) m = none ∧ checkWeights s (wd 0 false) m = none ∧ checkWeights upP (wd 0 true) m = some .signatureFail) ∧
    (let t := { s with models := { s.models with loads := [weight0 none] } }
     manifest0.shards[0]? = some ⟨64, 0, 0, 6⟩ ∧ running t = true ∧ hostLost t 5 true = false ∧ hostLost t 5 false = false ∧
     shardSource t { weight0 none with srcPlace := 1 } ⟨64, 0, 0, 6⟩ ⟨zeros 64, 6, false⟩ = none ∧
     (match shardRoom t (weight0 none) ⟨64, 0, 0, 6⟩ with | .ok _ => true | .error _ => false) = true ∧
     (match shardRoom up (weight0 none) ⟨64, 0, 0, 6⟩ with | .ok _ => false | .error st => decide (st = .noPlacement)) = true ∧
     (shardSource t (weight0 none) ⟨64, 0, 0, 6⟩ ⟨zeros 64, 6, false⟩).isSome = true ∧ t.faults.test = false) := by
  refine ⟨⟨by decide, by decide, by decide⟩, by decide +kernel⟩

/-- RUN_SECTION fields with a watchdog. -/
def run0 (wd : BitVec 16) : RunDesc := ⟨0, 0, false, 0, wd, 0, 0, []⟩

theorem witness_SectionsAreSubmitted : Taken (accepted .runSection upS) 0 .runSection hd 5 ∧ Taken (accepted .runSection up) 0 .runSection hd 5 ∧
    fieldAt (accepted .runSection up) 0 = none ∧ fieldAt upF 0 = some fld0 ∧ (tget ({} : Slot) 0 fld0.slots).skein = none ∧ (tget ({} : Slot) 0 fld0.slots).refillFail = none ∧
    (let s := accepted .runSection upS
     fieldAt s 0 = some fldS ∧ (tget ({} : Slot) 0 fldS.slots).skein = some skein0 ∧ runCodesBad (run0 0) skein0 = true ∧ runCodesBad (run0 1) skein0 = false ∧
     checkRun s 0 fldS skein0 [] = none ∧ checkRun s 0 { fldS with bands := [0, 1] } skein0 [] = some .profileMismatch) := by
  refine ⟨taken_accepted _ _ (by decide), taken_accepted _ _ (by decide), by decide +kernel⟩

theorem witness_SectionsAreSubmitted_links : hostLost (accepted .runSection upS) 5 true = false ∧
    hostLost (setHost (accepted .runSection upS) { (accepted .runSection upS).host with up0 := false }) 5 true = true ∧ 8 < { run0 1 with nscalars := 9, blockAddr := 64 }.nscalars.toNat := by
  decide +kernel

theorem witness_RequestsAndCancels_submit : let s := accepted .requestSubmit upC
    Taken s 0 .requestSubmit hd 5 ∧ ([1, 1] : List (BitVec 32)).length = (sub0 4).promptTokens.toNat ∧ submitCheck s (sub0 4) [1, 1] = none ∧
    submitCheck s (sub0 4) [2, 1] = some .countMismatch ∧ submitCheck s (sub0 255) [1, 1] = some .shapeExceedsPlan ∧ (sub0 0).maxNew = 0 ∧ (sub0 0).promptTokens ≠ 0 ∧
    (sub0 0).deadline ≠ 0 ∧ (sub0 0).parkLimit ≠ 0 ∧ placeMember s 0 = some 0 ∧ placeMember { s with serv := { s.serv with groups := [(0, [0, 1])], configs := [] } } 0 = none ∧
    (configAt s 0).isSome = true ∧ manifestHeld s 0 13 = false ∧
    (let c : ShardCopy := ⟨0, 64, 0, 6, 0, true, 0⟩; manifestHeld { s with models := { s.models with tier1 := [(0, [⟨13, manifest0, [c]⟩])] } } 0 13 = true) := by
  refine ⟨taken_accepted _ _ (by decide), by decide +kernel⟩

theorem witness_RequestsAndCancels_cancel_park :
    (let s := withTarget 0x40 (accepted .requestCancel upC)
     Taken s 0 .requestCancel hd 5 ∧ targetDesc s 0 8 = none ∧ (targetDesc s 0 6).map (fun e => (e.1, e.2.op)) = some (4, 0x40)) ∧
    (let s := withTarget 0x20 (accepted .requestCancel upC); (targetDesc s 0 6).map (fun e => (e.1, e.2.op)) = some (4, 0x20)) ∧
    (let s := withTarget 0x43 (accepted .park upC)
     Taken s 0 .park hd 5 ∧ (park0 6 3 false false).destPlace = 3 ∧ ((park0 6 0 true true).scan = true ∧ (park0 6 0 true true).release = true) ∧
     ((park0 6 0 true false).destPlace ≠ 3 ∧ (park0 6 0 true false).release = false) ∧ targetDesc s 0 8 = none) ∧
    (let x := { sec0 2 .dispatched with acc := some 4 }
     let s := { withTarget 0x21 (accepted .park (withField { fldS with seq := [x] } up)) with grid := { up.grid with units := [(0, { active := 0, sectionId := some 2 })] } }
     Taken s 0 .park hd 5 ∧ (s.fld.fields.findSome? (fun e => ((sectionsOf e.2).find? fun x => x.acc == some 4).map fun x => (e.1, e.2, x))).isSome = true ∧
     x.phase = .dispatched ∧ x.why = none ∧ activeIn s { fldS with seq := [x] } 2 = true) := by
  refine ⟨⟨⟨by decide, by decide, by decide⟩, by decide⟩, by decide, ⟨⟨by decide, by decide, by decide⟩, by decide⟩, ⟨⟨by decide, by decide, by decide⟩, by decide +kernel⟩⟩

/-- A PARK of the section of descriptor 4, with the section as given and active in a unit of the field or not. -/
def upPrk (x : Section) (active : Bool) : State :=
  let x := { x with acc := some 4 }
  { withTarget 0x21 (accepted .park (withField { fldS with seq := [x] } up)) with grid := { up.grid with units := if active then [(0, { sectionId := some x.id })] else [] } }

theorem witness_RequestsAndCancels_sections :
    (∀ st ∈ [(SecPhase.dispatched, (none : Option EndCause), false), (.dispatched, none, true), (.draining, some .inputPark, true), (.settled, some .inputPark, true),
        (.draining, some .governor, true), (.parkedInPlace, some .governor, true)],
      let x := { sec0 2 st.1 with acc := some 4, why := st.2.1 }; let fl := { fldS with seq := [x] }
      (targetDesc (upPrk x st.2.2) 0 6).map (·.1) = some 4 ∧ activeIn (upPrk x st.2.2) fl 2 = st.2.2 ∧
      ((upPrk x st.2.2).fld.fields.findSome? fun e => ((sectionsOf e.2).find? fun x => x.acc == some 4).map fun x => (e.1, e.2, x)) = some (0, fl, x)) ∧
    (∀ op ∈ [0x21#8, 0x43#8, 0x20#8], let s := withTarget op (accepted .park upC)
      (s.fld.fields.findSome? fun e => ((sectionsOf e.2).find? fun x => x.acc == some 4).map fun x => (e.1, e.2, x)) = none ∧
      (targetDesc s 0 6).map (fun e => (e.1, e.2.op, e.2.phase)) = some (4, op, .placed)) ∧
    (let s := accepted .park upC; let s := setHost s { s.host with opens := (4, ⟨0, 0x43, 6, 3, 1, 0, false, false, .accepted, 0, 0⟩) :: s.host.opens }
     (targetDesc s 0 6).map (fun e => (e.1, e.2.op, e.2.phase)) = some (4, 0x43, .accepted)) ∧
    hostDma (accepted .requestSubmit upC) 5 = true ∧ hostDma (setHost (accepted .requestSubmit upC) { upC.host with up0 := false }) 5 = false ∧ submitZero (sub0 4) = none := by
  decide +kernel

/-- The module with a park record and skein0 cached and in its slot. -/
def upPark (r : ParkRec) : State :=
  { accepted .resume upS with fld := { upS.fld with parks := [r], cache := [(0, ⟨skein0, 0⟩)] } }

/-- The pool with a comet as comet 1, made on another module; a RESUME of upC with that pool and identity 21 trusted; verdicts on a source. -/
def upComet (x : Comet) (signed : Bool) : State :=
  { accepted .resume upC with serv := { upC.serv with trust := [21], comets := [(1, ⟨x, 3648, 0, 1, 21, signed, true⟩)] } }
def sourceError (s : State) (d : ResumeDesc) (c : CometRead) : Option Status := match resumeSource s d c with | .error st => some st | .ok _ => none
def sourceOk (s : State) (d : ResumeDesc) (c : CometRead) : Option (Bool × Bool) := match resumeSource s d c with | .ok x => some (x.2.2.1, x.2.2.2.1) | .error _ => none
/-- Host reads: nothing, and a comet's header without the rest. -/
def cometRead (ed : Bool) (b : ReadBytes) : CometRead := ⟨b, ⟨ed, true⟩⟩

theorem witness_ResumesReturnWork :
    (let s := upPark (rec0 1 true)
     Taken s 0 .resume hd 5 ∧ parkAt s 2 = none ∧ parkAt s 1 = some (rec0 1 true) ∧ resumeCheck s 0 (rec0 1 true) = .inr skein0 ∧
     resumeCheck s 0 (rec0 1 false) = .inl (statusCode .fencedUnit) ∧ parkAt (upPark (rec0 0 true)) 1 = some (rec0 0 true) ∧
     resumeCheck (upPark (rec0 0 true)) 0 (rec0 0 true) = .inr skein0 ∧ (rec0 0 true).form ≠ 1 ∧ fieldAt s 0 = some fldS ∧
     (slotSkein fldS 0).map (·.headerHash) = some (rec0 1 true).headerHash) ∧
    resumeZero (res0 true 0 0) = some .badAlignment ∧ resumeZero (res0 true 0 64) = none ∧ resumeZero (res0 false 1 0) = none := by
  refine ⟨⟨⟨by decide, by decide, by decide⟩, by decide +kernel⟩, by decide +kernel⟩

theorem witness_ResumesReturnWork_comets :
    (let s := upComet comet0 true; let t := upComet comet0 false
     sourceError s (res0 false 2 0) (cometRead true []) = some .countMismatch ∧ sourceError s (res0 true 0 3648) (cometRead true []) = some .badAlignment ∧
     (sourceOk s (res0 true 0 (BitVec.ofNat 64 (cometLength comet0))) (cometRead true (hostRead (headerBytes comet0.hdr)))).isSome = true ∧
     sourceOk s (res0 false 1 0) (cometRead false []) = some (true, true) ∧ sourceOk t (res0 false 1 0) (cometRead false []) = some (false, true) ∧
     sourceOk (upComet { comet0 with bodyFound := 1 } false) (res0 false 1 0) (cometRead true []) = some (true, false) ∧ hostLost s 5 true = false ∧ hostLost (setHost s { s.host with up0 := false }) 5 true = true ∧
     s.serv.trust.contains comet0.identity = true ∧ upC.serv.trust.contains comet0.identity = false ∧ configAt s 0 ≠ none ∧ comet0.hdr.awaitKv = false ∧ comet0.hdr.prefillOnly = false ∧
     placeMember s 0 = some 0 ∧ (configAt s 0).map (fun k => (k.record, k.block.manifestDigest)) = some (comet0.hdr.skeinDigest, comet0.hdr.manifestDigest) ∧
     comet0.hdr.promptTokens + comet0.hdr.maxNew ≤ cfgBlock.maxContext.toNat ∧ manifestHeld s 0 13 = false) := by
  decide +kernel

/-- A route of every class to all nodes, out of link 0 (EGRESS 1) or to this module (EGRESS 0). -/
def route0 (eg : BitVec 3) : Route := ⟨0, 0xFFFFE, eg, 0, false, true, 15⟩

/-- The module with its link 0 up, request 0 and a route. -/
def upL (eg : BitVec 3) : State :=
  { upR { req0 .prefill with prefillOnly := true, acc := some 4 } with fab := { upC.fab with links := [(0, { state := .up })], active := [(0, route0 eg)], nodeId := 9 } }

theorem witness_ShipmentsAndCollectivesStart_ships :
    (let s := withTarget 0x40 (accepted .kvShip upC)
     Taken s 0 .kvShip hd 5 ∧ (ship0 0).pageCount = 0 ∧ (ship0 1).pageCount ≠ 0 ∧ s.serv.firmware = false ∧
     { s with serv := { s.serv with firmware := true } }.serv.firmware = true ∧ shipSource s (ship0 1) = none) ∧
    (let pg : Page := ⟨Config.firmwareDva, 4096, .tier1, 0, true, true, false, 0, .kv 0 0 false⟩
     let t := withTarget 0x40 (accepted .kvShip (upL 1))
     let s := { t with serv := { t.serv with firmware := true }, fld := { t.fld with fields := [(0, { fld0 with pages := [pg] })] } }
     (shipSource s (ship0 1)).isSome = true ∧ (fieldAt s 0).isSome = true ∧ (configAt s 0).isSome = true ∧ s.faults.test = false ∧ routeOpen s 77 2 = true ∧
     routeOpen { s with fab := { s.fab with active := [] } } 77 2 = false ∧
     (let c : ServConfig := ⟨cfgBlock, 7, 0, 64, []⟩; let fl := { fld0 with pages := [pg] }
      (shipBytes s fl 0 (req0 .prefill) c 0 1).isSome = true ∧ shipBytes { s with faults := { s.faults with fencedStacks := 15 } } fl 0 (req0 .prefill) c 0 1 = none)) := by
  refine ⟨⟨⟨by decide, by decide, by decide⟩, by decide +kernel⟩, by decide +kernel⟩

theorem witness_ShipmentsAndCollectivesStart_collectives :
    let s := { accepted .copy upF with fab := { up.fab with groups := [(4, ⟨[9], 1000, []⟩)], nodeId := 9 } }
    Taken s 0 .copy hd 5 ∧ (cp 0 1 0 64).srcPlace ≠ 1 ∧ (cp 1 1 0 65).length.toNat % 64 ≠ 0 ∧ ((cp 1 1 0 64).inFmt ≠ 3 ∧ (cp 1 1 0 64).length.toNat % 64 = 0) ∧
    tfind 0 s.fab.groups = none ∧ (tfind 4 s.fab.groups).isSome = true := by
  refine ⟨⟨by decide, by decide, by decide⟩, by decide⟩

/-- A host to host COPY of four bytes, and a feed that has moved its 64. -/
def copyRun (dst : Nat) : CopyRun := ⟨5, 3, 0, dst, 0, (0, 9), none, 0, 0, 4096, 4, [1, 2, 3, 4], if dst = 3 then 4 else 0, false, true, none⟩

theorem witness_CopiesEnd : ∀ dst ∈ [0, 3], let s := { accepted .copy up with fld := { up.fld with copies := [copyRun dst] } }
    copyAt s 0 7 = some (copyRun dst) ∧ batchWaits s 0 (copyRun dst) = false ∧ s.faults.fatalPhase = .none ∧ copyLink s (copyRun dst) = true ∧
    (copyRun dst).data.length = (copyRun dst).length ∧ (dst = 3 → (copyRun dst).moved = (copyRun dst).length) ∧ (settleCopies s).fld.copies = s.fld.copies ∧
    copyAt (settleCopies s) 0 7 = some (copyRun dst) ∧ (copyRun dst).started = true ∧ { copyRun dst with fault := some (statusCode .linkDown) }.fault = some (statusCode .linkDown) ∧
    { copyRun dst with fault := some (statusCode .fencedUnit) }.fault ≠ some (statusCode .linkDown) ∧ copyLink (setHost s { s.host with up0 := false }) (copyRun dst) = false ∧
    (settleCopies s).faults.fatalPhase = .none ∧ headerHeld s 0 0 4 = false := by decide

/-! ### Witnesses: mailbox, boot and registers -/

theorem free_up : MailboxFree up ∧ MailboxFree upF ∧ MailboxFree upP ∧ MailboxFree upC := by unfold MailboxFree; decide

theorem witness_MailboxTakesOneCommand : barOpen State.reset = false ∧ { up.host with mboxRun := some .download }.mboxRun.isSome = true := by decide

/-- MAP of field 0: page size, place, DVA, bytes. -/
def map0 (pg pl : BitVec 2) (dva : BitVec 52) (n : BitVec 64) : MapBlock := ⟨0, pg, pl, true, true, dva, n, 0⟩

theorem witness_MapAndUnmap : let s := { upF with mem := { upF.mem with stackSet := 0xFFFF } }
    MailboxFree up ∧ fieldAt up 0 = none ∧ fieldAt s 0 = some fld0 ∧ (map0 3 0 0 0).page = 3 ∧ ((map0 0 0 0 0).page ≠ 3 ∧ (map0 0 0 0 0).bytes = 0) ∧
    mapMisfit s fld0 (map0 0 0 1 4096) = true ∧ mapMisfit s fld0 (map0 0 0 4096 4096) = false ∧ (mapPages (map0 0 0 0 4096) 1 0 s).isSome = true ∧
    mapPages (map0 0 2 0 4096) 1 0 s = none ∧
    (let fl := { fld0 with pages := [⟨4096, 4096, .tier1, 0, true, false, false, 0, .host⟩] }
     cutsPage fl 4097 = true ∧ cutsPage fl 4096 = false ∧ cutsPage fl 8192 = false ∧ cutsPage fl 8191 = true) := by
  refine ⟨free_up.1, by decide +kernel⟩

/-- SERVE_MODE with RIDE_CHUNK and SLICE_MODULES. -/
def mode0 (fw : Bool) (chunk : BitVec 16) (n : BitVec 32) : ServeModeBlock := ⟨fw, 0xF, chunk, 4096, n⟩

theorem witness_ServingIsConfigured :
    (MailboxFree up ∧ MailboxFree upC ∧ MailboxFree (upR (req0 .queued))) ∧ (512 < (mode0 false 513 1).rideChunk.toNat ∧ (mode0 false 0 1).rideChunk.toNat < 1) ∧
    (262144 < (mode0 true 1 262145).sliceModules.toNat ∧ 512 < (mode0 false 1 513).sliceModules.toNat ∧ (upR (req0 .queued)).serv.reqs ≠ []) ∧
    (let b := mode0 true 512 262144; weight 64 b.rideMask.toNat = 4 ∧ ¬b.rideChunk.toNat < 1 ∧ ¬512 < b.rideChunk.toNat ∧ ¬4096 < b.rideRows.toNat ∧ ¬262144 < b.sliceModules.toNat ∧ up.serv.reqs = []) ∧
    (configUsed (upR (req0 .queued)) 0 = true ∧ configUsed upC 0 = false ∧ cfgBlock.valid = true ∧ { cfgBlock with valid := false }.valid = false) ∧
    (upC.serv.firmware = false ∧ { upC.serv with firmware := true }.firmware = true ∧ (configAt upC 0).isSome = true) ∧
    (63 < (64#8).toNat ∧ (63#8).toNat ≤ 63 ∧ 4 < (5#8).toNat ∧ groupOk upC 63 [0] = true ∧ groupOk upC 63 [0, 1] = false) := by
  unfold MailboxFree; decide +kernel

theorem witness_MailboxLists :
    (MailboxFree up ∧ 1024 < (1025#32).toNat ∧ (1024#32).toNat ≤ 1024 ∧ 64 < (65#32).toNat ∧ (64#32).toNat ≤ 64) ∧
    (modelIn up.models.store 13 = none ∧ (upC.serv.configs.any (fun e => e.2.block.manifestDigest == 13)) = true ∧
     (let s := { up with models := { up.models with store := [⟨13, manifest0, []⟩] } }
      MailboxFree s ∧ (modelIn s.models.store 13).isSome = true ∧ s.serv.configs.any (fun e => e.2.block.manifestDigest == 13) = false ∧ readsModel s 13 = false ∧
      readsModel { s with models := { s.models with loads := [weight0 (some 0)] } } 13 = true)) ∧
    (let s := upR { req0 .parked with retained := true }
     MailboxFree s ∧ retainedAt up 0 = none ∧ (retainedAt s 0).isSome = true ∧ (configAt s 0).isSome = true ∧ reservePool 8192 s = none ∧ (reservePool 8192 { s with mem := upP.mem }).isSome = true) ∧
    (up.fab.runs.any fun r => r.group == 4) = false ∧ ((List.replicate 4096 (0xFFFFF#20)).take 1).filter (· == up.fab.nodeId) = [0xFFFFF#20] ∧ 4096 < (4097#32).toNat := by
  unfold MailboxFree; decide +kernel

theorem witness_FieldsAreFormedAndSlept :
    (MailboxFree { up with boot := { up.boot with laidOut := false } } ∧ checkLayout up 8 1 = some .countMismatch ∧ checkLayout up 7 15 = none ∧ checkLayout up 1 1 = some .countMismatch) ∧
    (fieldAt up 3 = none ∧ fieldServes (upR (req0 .queued)) 0 = true ∧ fieldServes upF 0 = false ∧ sectionsOf fld0 = [] ∧ fieldCalls upF fld0 = false ∧ sectionsOf { fld0 with seq := [sec0 0 .queued] } ≠ []) := by
  unfold MailboxFree; decide +kernel

/-- Bytes spell the number they were cut from. -/
theorem leNat_leBytes (n k : Nat) : leNat (leBytes n k) = k % 256 ^ n := by
  induction n generalizing k with
  | zero => simp [leBytes, leNat, Nat.mod_one]
  | succ n ih =>
    have h : (BitVec.ofNat 8 k).toNat = k % 256 := by simp
    have e : 256 ^ (n + 1) = 256 * 256 ^ n := Nat.pow_succ'
    rw [leBytes, leNat, ih, h, e, Nat.mod_mul]

/-- A token of a scope that lasts a second, for the module of a digest, with nonce 3. -/
def token0 (scope : Byte) (id : Digest) : TokenRead := ⟨5696, 0, hostRead (leBytes 4 0x54534554 ++ leBytes 2 1 ++ leBytes 2 256 ++ [0, scope, 0, 0] ++ leBytes 4 1000000 ++
  leBytes 48 id.toNat ++ leBytes 32 3), Config.romKeyHash 0, ⟨true, true⟩⟩

/-- A number stands where its bytes were put. -/
theorem rdN_leBytes (b : ReadBytes) (off n k : Nat) (h : (List.range n).map (fun i => hostBytes b (off + i)) = leBytes n k) : rdN (hostBytes b) off n = k % 256 ^ n := by
  rw [rdN, h, leNat_leBytes]

theorem token0_fields (x : Digest) : (parseToken (token0 7 x)).magic = 0x54534554 ∧ (parseToken (token0 7 x)).duration = 1000000 ∧ (parseToken (token0 7 x)).nonce = 3 ∧
    (parseToken (token0 7 x)).identity = x := by
  refine ⟨?_, ?_, ?_, ?_⟩
  · exact congrArg (BitVec.ofNat 32) (rdN_leBytes (token0 7 x).bytes 0 4 0x54534554 rfl)
  · exact congrArg (BitVec.ofNat 32) (rdN_leBytes (token0 7 x).bytes 12 4 1000000 rfl)
  · exact congrArg (BitVec.ofNat 256) (rdN_leBytes (token0 7 x).bytes 64 32 3 rfl)
  · have e := congrArg (BitVec.ofNat 384) (rdN_leBytes (token0 7 x).bytes 16 48 x.toNat rfl)
    rw [Nat.mod_eq_of_lt (by have := x.isLt; omega), BitVec.ofNat_toNat, BitVec.setWidth_eq] at e
    exact e

theorem witness_TestAccessAndRegisters_access : MailboxFree up ∧ checkToken up (parseToken (token0 0 0)) = some .countMismatch ∧
    checkToken { up with boot := { up.boot with nonce := some 3 } } (parseToken (token0 7 (sha384 Config.identityBlock))) = none ∧ fieldAt up 0 = none ∧ fieldServes (upR (req0 .queued)) 0 = true ∧
    (∀ b ∈ fld0.bands, failingPairs upF b [] = []) ∧ ((1#64).toNat % 64 ≠ 0 ∧ (64#64).toNat % 64 = 0) ∧ ({ up.faults with test := true }.test = true ∧ up.faults.remain = 0) := by
  refine ⟨free_up.1, by decide +kernel, ?_, by decide, by decide, by decide, by decide, by decide⟩
  obtain ⟨a, b, c, d⟩ := token0_fields (sha384 Config.identityBlock)
  generalize hx : sha384 Config.identityBlock = x at a b c d
  have e : (parseToken (token0 7 x)).tokenBytes = 5696 ∧ (parseToken (token0 7 x)).tokenAddr = 0 ∧ (parseToken (token0 7 x)).format = 1 ∧
      (parseToken (token0 7 x)).headerBytes = 256 ∧ (parseToken (token0 7 x)).scope = 7 ∧ (parseToken (token0 7 x)).keySlot = 0 ∧
      (parseToken (token0 7 x)).sig = ⟨true, true⟩ ∧ (parseToken (token0 7 x)).keyHash = Config.romKeyHash 0 := ⟨rfl, rfl, rfl, rfl, rfl, rfl, rfl, rfl⟩
  obtain ⟨e1, e2, e3, e4, e5, e6, e7, e8⟩ := e
  unfold checkToken
  rw [a, b, c, d, e1, e2, e3, e4, e5, e6, e7, e8, hx]
  simp [aligned, up, State.reset]

theorem witness_TestAccessAndRegisters_registers : let s := { upF with faults := { upF.faults with test := true } }
    barOpen s = true ∧ s.faults.test = true ∧ (tget ({} : TestLink) 5 s.testLinks).mode = 0 ∧ (2#32).setWidth 2 ≠ 0#2 ∧
    (let t := { s with testLinks := [(5, { mode := 2 })] }; (tget ({} : TestLink) 5 t.testLinks).mode ≠ 0 ∧ (linkAt t 5).enable = true) ∧
    s.testMem.busy = false ∧ ((0xC0#32).getLsbD 7 = true ∧ bits (0xC0#32).toNat 5 2 = 2) ∧ targetIdle s 0 = false ∧ targetIdle s 4 = true ∧
    { s.testMem with busy := true }.busy = true := by decide

theorem steppings_all (i : Fin 3) : (7#3).getLsbD i = true := by revert i; decide

theorem witness_FirmwareIsDownloaded_checks : let s := { up with boot := { stage := .await, identity := true } }
    barOpen s = true ∧ s.host.mboxRun = none ∧ s.boot.stage = .await ∧ s.boot.download = none ∧ s.entry.aux = true ∧ s.entry.main = true ∧ checkBundle s true (bundleOf 0x4C444E42) = none ∧
    checkBundle s true (bundleOf 0) = some (.badAlignment, 1) ∧ checkBundle { s with store := { floor := 3 } } true (bundleOf 0x4C444E42) = some (.signatureFail, 3) := by
  have h : bundleForm true (bundleOf 0x4C444E42) = true := by decide +kernel
  have hk : (bundleOf 0x4C444E42).keyHash = Config.romKeyHash (bundleOf 0x4C444E42).keySlot := by rfl
  have hs : (bundleOf 0x4C444E42).keySlot = 0 ∧ (bundleOf 0x4C444E42).sig = ⟨true, true⟩ ∧ (bundleOf 0x4C444E42).tableHash = (bundleOf 0x4C444E42).tableDigest ∧
      (bundleOf 0x4C444E42).steppings = 7 ∧ bootDigestOk (bundleOf 0x4C444E42) = true ∧ (bundleOf 0x4C444E42).version = 2 := by decide +kernel
  have h2 : ∀ t : Store, t.revoked = 0 → bundleSigned t (bundleOf 0x4C444E42) = true := by intro t ht; simp [bundleSigned, hk, hs, ht]
  refine ⟨by decide, by decide, by decide, by decide, by decide, by decide, ?_, ?_, ?_⟩
  · unfold checkBundle
    rw [h, h2 _ rfl, hs.2.2.1, hs.2.2.2.1, hs.2.2.2.2.1, hs.2.2.2.2.2]
    simp [up, State.reset, steppings_all Config.stepping]
  · have : bundleForm true (bundleOf 0) = false := by decide +kernel
    unfold checkBundle
    rw [this]; rfl
  · unfold checkBundle
    rw [h, h2 _ rfl, hs.2.2.2.2.2]; rfl

theorem witness_FirmwareIsDownloaded : let s := { up with boot := { stage := .await, identity := true, download := some (.bus .a 1040 1024) } }
    up.boot.stage ≠ .await ∧ up.boot.stage ≠ .noIdentity ∧ (100663296 < (100663297#32).toNat ∧ (100663296#32).toNat ≤ 100663296) ∧
    s.entry.aux = true ∧ s.boot.download = some (.bus .a 1040 1024) ∧ (1024#32).toNat = 1024 ∧ (zeros 16).length ≤ min 1024 (1040 - 1024) ∧ 1024 + 16 = 1040 ∧ 1024 + 15 < 1040 ∧
    (let b := { up with boot := { up.boot with stage := .bringup, download := some .host, bundle := some bundle0 } }
     (training0 0xFFFF).partsOk = true ∧ (trainAll (training0 0xFFFF) b).mem.poolList ≠ [] ∧ (trainAll (training0 0) b).mem.poolList = []) := by
  refine ⟨by decide, by decide, by decide, by decide, by rfl, by decide, by decide, rfl, by decide, by decide +kernel⟩

theorem witness_SetupAndWarmReset :
    (barOpen up = true ∧ up.boot.setupDone = true ∧ { up.boot with setupDone := false }.setupDone = false) ∧ (up.entry.aux = true ∧ isActive up.gov .a = false) ∧
    (let u := mctpRespond .b .ok [] (takeMessage .b id { up with gov := { up.gov with activeB := true } })
     isActive { up.gov with activeB := true } .b = true ∧ u.entry.main = true ∧ u.entry.perst = false ∧ u.boot.warmBusy = false) ∧
    (up.boot.identity = true ∧ bundleStands upS = true) ∧
    (let s := { up with boot := { up.boot with warmBusy := true, stage := .bringup } }; s.boot.warmBusy = true ∧ s.boot.stage = .bringup ∧ s.entry.main = true) := by decide +kernel

theorem witness_LinksRoutingSnapshotAndWindow_links : let s := { up with fab := { up.fab with busy := true, staging := [(0, { valid := true, tcMask := 1 })] } }
    (barOpen up = true ∧ up.fab.busy = false ∧ s.fab.busy = true ∧ running s = true) ∧ firstBad up up.fab.staging = none ∧
    (firstBad { s with fab := { s.fab with staging := [(2047, { lo := 1, hi := 0, valid := true, tcMask := 1 })] } } [(2047, { lo := 1, hi := 0, valid := true, tcMask := 1 })]).isSome = true ∧
    ((linkAt up 5).enable = true ∧ inLoopback up 5 = false ∧ (linkAt { up with fab := { up.fab with links := [(5, { enable := false })] } } 5).enable = false) ∧
    ({ up.boot with setupDone := false }.setupDone = false ∧ ∀ l < 6, (linkAt up l).state = .down) := by decide +kernel

theorem witness_LinksRoutingSnapshotAndWindow_window : barOpen up = true ∧ up.meter.powered = true ∧ up.entry.aux = true ∧ up.window.linkOk = true ∧
    ((0xC0#32).getLsbD 7 = true ∧ 1 ≤ bits (0xC0#32).toNat 0 7 ∧ bits (0xC0#32).toNat 0 7 ≤ 64) := by decide

theorem witness_RegisterWritesTakeEffect : let s := { up with faults := { up.faults with test := true, testScope := 7 } }
    (barOpen up = true ∧ up.faults.traceEn = false ∧ (0x101#32).getLsbD 0 = true ∧ entriesValid (bits (0x101#32).toNat 4 17) = true ∧ { up.faults with traceBase := 1 }.traceBase ≠ 0) ∧
    (up.faults.test = false ∧ s.faults.test = true ∧ barOpen s = true) ∧ (bits (0x1301#32).toNat 8 8 = 0x13 ∧ bits (0x101#32).toNat 8 8 = 1 ∧ indicationOnly 0x0D = false ∧ indicationOnly 0x13 = true) ∧
    ((0x10004#24).toNat % 8 ≠ 0 ∧ (0xFFFFF8#24).toNat % 8 = 0) ∧ (up.boot.setupDone = true ∧ 4096 < (4097#64).toNat % 8192 ∧ (4096#64).toNat % 8192 ≤ 4096) := by decide

/-! ### Witnesses: power, governor, SPDM -/

theorem witness_PowerMessages : mgmtOn up = true ∧ isActive up.gov .a = false ∧ isActive { up.gov with activeA := true } .a = true ∧
    (70 ≤ (70#16).toNat ∧ (200#16).toNat ≤ 200 ∧ (69#16).toNat < 70 ∧ 200 < (201#16).toNat) := by decide

theorem witness_GovernorActs :
    (mgmtOn up = true ∧ up.gov.orphan = false ∧ up.gov.heardAt + 30000000 ≤ { up with tick := 30000000 }.tick ∧ { up with tick := 29999999 }.tick < up.gov.heardAt + 30000000) ∧
    (up.entry.inputMv.toNat ≤ 59000 ∧ up.gov.inletC ≤ 45 ∧ up.gov.inputLow = false ∧ flowMissing up = false ∧ flowMissing { up with entry := { up.entry with flowOk := false } } = true) ∧
    (governs up = true ∧ effectiveCap up.gov = 1200 ∧ governs State.reset = false ∧ nextUnpark { up.gov with parkOrder := [(0, 100)] } = some (0, 100) ∧ 105 * 100 ≤ 100 * 105 ∧ 100 * 104 < 105 * 100) ∧
    ((countWindow 1200 up.gov).peak = none ∧ (countWindow 1201 up.gov).peak.isSome = true ∧ (countWindow 1601 up.gov).peak = none ∧
     peakAllowed { up.gov with p100 := 1601, sinceLower := min 1000 (up.gov.sinceLower + 1) } 1601 = false) := by decide

/-- The main rails off. -/
def upOff : State := { up with entry := { up.entry with main := false, pwrGood := false } }

/-- A window below, at and above the cap, with the input below and above 50 V, and with the rails off. -/
theorem witness_GovernorActs_windows :
    (governs (inputStep 49999 up) = true ∧ governs (inputStep 55000 up) = true ∧ governs (inputStep 49999 upOff) = false ∧ up.entry.aux = true) ∧
    effectiveCap (inputStep 49999 up).gov = 700 ∧ effectiveCap (inputStep 55000 up).gov = 1200 ∧
    (countWindow 650 (inputStep 49999 up).gov).peak = none ∧ (countWindow 700 (inputStep 49999 up).gov).peak = none ∧ (countWindow 1200 (inputStep 55000 up).gov).peak = none ∧
    (countWindow 1601 (inputStep 55000 up).gov).peak = none ∧ (countWindow 1201 (inputStep 55000 up).gov).peak.isSome = true := by decide +kernel

theorem witness_LeversInOrder :
    let low := { upF with gov := { upF.gov with targetMhz := 600, pauseAsked := true } }
    (targetLimit upF < upF.gov.targetMhz) ∧ (low.gov.targetMhz ≤ targetLimit low ∧ { low.gov with pauseAsked := false }.pauseAsked = false ∧ low.gov.pauseAsked = true) ∧
    (batchAtLimit low = true ∧ parkCandidates low = [0]) ∧
    (batchAtLimit (withField { fld0 with step := some ⟨0, [], [], none, [], 0, false⟩ } low) = false ∧ (withField { fld0 with step := some ⟨0, [], [], none, [], 0, false⟩ } low).gov.targetMhz ≤ targetLimit low) ∧
    (low.gov.parkOrder = [] ∧ low.gov.batch = [] ∧ low.gov.targetMhz < 1750) ∧ { low.gov with batch := [(0, 1)] }.batch ≠ [] ∧ { low.gov with parkOrder := [(0, 1)] }.parkOrder ≠ [] := by decide

theorem witness_LagAndThermalLadder_lag : let g := { up.gov with capLast := 690 }
    mgmtOn up = true ∧ up.gov.lag = false ∧ capClamped g = true ∧ (effectiveCap up.gov < { up.gov with p100 := 1201 }.p100 ∧ up.gov.peak = none ∧ 2 ≤ up.gov.sinceLower) ∧
    (capClamped up.gov = false ∧ up.gov.p100 ≤ effectiveCap up.gov ∧ { up.gov with lag := true }.lag = true) ∧ ∀ e ∈ up.host.queues, e.2.infoEn = false := by decide

theorem witness_LagAndThermalLadder_thermal : governs up = true ∧ up.gov.thermalCap = none ∧ { up.gov with thermalCap := some 1990 }.thermalCap = some 1990 ∧
    sensorFields up 0 = [] ∧ sensorFields upF 0 = [0] ∧ up.entry.main = true ∧ State.reset.entry.main = false := by decide

/-- SPDM connections: fresh, agreed, and with an established session. -/
def ready0 : SpdmConnState := { version := true, capabilities := true, algs := some ⟨true, true, true, true⟩, signed := [(0, 1)], request := some (1, 1, [1]), response := [1, 2] }
def upM (x : SpdmConnState) (l : List Session) : State := { up with spdm := { conns := [(0, x), (1, x), (2, x)], sessions := l } }

theorem witness_SpdmIdentifies : ∀ c ∈ [SpdmConn.doe, .bus .a, .bus .b], spdmOn up c = true ∧ (connAt up c).version = false ∧ (connAt up c).capabilities = false ∧ connReady (connAt up c) = false ∧
    (let s := upM ready0 []; spdmOn s c = true ∧ (connAt s c).version = true ∧ (connAt s c).capabilities = true ∧ connReady (connAt s c) = true) := by decide

theorem witness_SpdmIdentifies_offsets : 0 ≤ Config.deviceChain.length ∧ Config.deviceChain.length < Config.deviceChain.length + 1 := ⟨Nat.zero_le _, Nat.lt_succ_self _⟩

theorem witness_SpdmSessions : let four := [⟨.doe, 1, false, 0⟩, ⟨.doe, 2, true, 0⟩, ⟨.bus .a, 1, true, 0⟩, ⟨.bus .b, 1, true, 0⟩]
    spdmOn (upM ready0 four) .doe = true ∧ connReady (connAt (upM ready0 four) .doe) = true ∧ (connAt (upM ready0 four) .doe).algs = some ⟨true, true, true, true⟩ ∧
    (upM ready0 four).spdm.sessions.any (fun x => x.conn == SpdmConn.doe && x.id == 3) = false ∧ 4 ≤ (upM ready0 four).spdm.sessions.length ∧ (upM ready0 (four.take 3)).spdm.sessions.length < 4 ∧
    sessionAt (upM ready0 four) .doe 1 = some ⟨.doe, 1, false, 0⟩ ∧ sessionAt (upM ready0 four) .doe 2 = some ⟨.doe, 2, true, 0⟩ := by decide

theorem witness_SpdmChunksAndCosigning : spdmOn (upM ready0 []) .doe = true ∧ connReady (connAt (upM ready0 []) .doe) = true ∧
    (connAt (upM ready0 []) .doe).request = some (1, 0 + 1, [1]) ∧ (connAt (upM { ready0 with request := none } []) .doe).request = none ∧
    0 * max 1 Config.spdmChunk < (connAt (upM ready0 []) .doe).response.length ∧ (connAt (upM { ready0 with response := [] } []) .doe).response.length ≤ 0 * max 1 Config.spdmChunk ∧
    (tfind (0#8).toNat (connAt (upM ready0 []) .doe).signed).isSome = true ∧ tfind (2#8).toNat (connAt (upM ready0 []) .doe).signed = none ∧
    (4096#32).toNat ≤ 4096 ∧ 4096 < (4097#32).toNat := by
  refine ⟨by decide, by decide, by decide, by decide, ?_, ?_, by decide, by decide, by decide, by decide⟩ <;> (rw [Nat.zero_mul]; decide)

/-- Power entry with the rails off, PWR_EN low and a precharge state. -/
def offEntry (p : Precharge) : Entry := { up.entry with main := false, pwrEn := false, removeLow := false, inputSwitch := false, precharge := p }

theorem witness_InsertionAndRemoval : let e := up.entry; let off := offEntry .done; let ch := offEntry .charging; let r := State.reset
    (r.entry.p56v = false ∧ r.entry.precharge = .absent) ∧
    ({ r.entry with precharge := .faulted }.precharge = .faulted ∧ r.tick < r.entry.absentAt + 1000000 ∧ r.entry.absentAt + 1000000 ≤ { r with tick := 1000000 }.tick) ∧
    (e.p56v = true ∧ e.precharge ≠ .absent ∧ e.precharge ≠ .charging) ∧
    (ch.precharge = .charging ∧ { ch with belowAux := true }.belowAux = true ∧ ch.belowAux = false ∧ ch.pwrEn = false ∧ ch.main = false) ∧
    ({ ch with pwrEn := true }.pwrEn = true ∧ ch.flowOk = true ∧ ch.inputFault = false ∧ ch.tripLatch = false) ∧ (off.pwrEn = false ∧ mayPower { off with pwrEn := true } = true) ∧
    (off.aux = true ∧ off.precharge = .done ∧ off.inputFault = false ∧ off.tripLatch = false ∧ { off with flowOk := false }.flowOk = false) ∧ (e.pwrEn = true ∧ e.main = true) ∧
    ({ e with removeHold := true }.removeHold = true ∧ { off with removeHold := true }.pwrEn = false) ∧ (off.inputSwitch = false ∧ { off with removeLow := true }.removeLow = true) := by decide

/-- The four cases of ATTN_N: main and auxiliary domain on or off. -/
theorem witness_InsertionAndRemoval_attention : let off := { up with entry := offEntry .done }
    (up.entry.main = true ∧ up.entry.aux = true) ∧ ({ up.entry with aux := false }.main = true ∧ { up.entry with aux := false }.aux = false) ∧
    (off.entry.main = false ∧ off.entry.aux = true) ∧ (State.reset.entry.main = false ∧ State.reset.entry.aux = false) := by decide

theorem witness_CoolantAndInput : let e := up.entry; let off := offEntry .done
    (e.main = true ∧ e.aux = true ∧ e.pwrEn = true ∧ { e with aux := false }.aux = false ∧ { e with main := false }.main = false ∧ off.pwrEn = false ∧ e.flowOk = true ∧ { e with flowOk := false }.flowOk = false) ∧
    ((49999#16).toNat < 50000 ∧ (43999#16).toNat < 44000 ∧ 44000 ≤ (44000#16).toNat ∧ 50000 ≤ (50000#16).toNat ∧ 20000 ≤ (20000#16).toNat ∧ (19999#16).toNat < 20000) ∧
    (State.reset.entry.aux = false ∧ State.reset.entry.main = false ∧ State.reset.entry.precharge ≠ .done ∧ { off with aux := false }.belowAux = false) ∧
    (e.inputLoss = .none ∧ { e with inputLoss := .riding }.inputLoss = .riding ∧ { e with inputLoss := .parked }.inputLoss ≠ .riding ∧ { e with inputLoss := .parked }.inputLoss ≠ .none ∧
      50500 ≤ { e with inputMv := 50500 }.inputMv.toNat ∧ { e with inputMv := 50499 }.inputMv.toNat < 50500) ∧
    ({ off with aux := false, belowAux := true }.belowAux = true ∧ { off with aux := false, belowAux := true }.precharge = .done ∧ { off with aux := false, belowAux := true }.aux = false ∧ e.belowAux = false) ∧
    ((offEntry .charging).precharge = .charging ∧ e.precharge ≠ .charging ∧ State.reset.entry.precharge ≠ .charging) := by decide

theorem witness_ResetsAndPowerStates :
    (up.entry.main = true ∧ State.reset.entry.main = false ∧ { up.boot with stage := .rom }.stage = .rom ∧ up.boot.stage ≠ .rom) ∧
    (up.entry.perst = false ∧ linkUp up = true ∧ up.boot.warmBusy = false ∧ up.host.d3hot = false ∧ { up.boot with warmBusy := true }.warmBusy = true) ∧
    (let c := { up.store with repairValid := false, fatalValid := false, enduranceValid := false }; up.store.repairValid = true ∧ up.store.fatalValid = true ∧ up.store.enduranceValid = true ∧ c.repairValid = false ∧ c.fatalValid = false ∧ c.enduranceValid = false) ∧
    (islandBusy upF 0 = false ∧ islandBusy (withField { fld0 with seq := [sec0 0 .queued] } up) 0 = true) := by decide

/-! ### Witnesses: the array -/

/-- A context with loop counter 0 that waits for START and advances on DONE at control input 1; SELECT takes scalar input 0. -/
def ctx0 (kind : Nat) : UnitCfg := { idleUnit 0 0 kind with
  ctl := ⟨true, [1, 1, 1, 1], [0, 0, 0, 0], [15, 15, 15, 15], []⟩
  counters := [⟨true, 0, 0, 4, 0, 1, 2, 1, 0, 4⟩]
  streams := [⟨1, 0, 0, 0, 0, 0, 4, 1, 1, 0, 1, 0, 0, 0, 0, 64, 8, false, 0, 0⟩] }

/-- Tile 0's unit at work on section 2 in a context of a kind, with a token at control input 1 and a word at scalar input 0. -/
def unit0 (kind : Nat) (tok : Vec) : TileUnit :=
  { slots := [(0, ctx0 kind)], active := 0, sectionId := some 2, fifos := [(4, [⟨0, 1⟩]), (9, [⟨0, tok⟩])], matrix := { tile := 1 } }

/-- The module whose field 0 runs section 2, with a unit in tile 0. -/
def upU (x : Section) (u : TileUnit) : State :=
  let s := withField { fldS with seq := [x] } up
  { s with grid := { s.grid with units := [(0, u)] } }

/-- Tile 0. -/
def t0 : Tile := ⟨0, 0⟩

theorem witness_SectionsRunAndComplete :
    (let s := withField { fldS with seq := [sec0 0 .queued] } up; let fl := { fldS with seq := [sec0 0 .queued] }
     fieldAt s 0 = some fl ∧ (fl.seq.find? fun x => x.phase == .queued) = some (sec0 0 .queued) ∧ (slotSkein fl 0).isSome = true ∧ dispatchOpen s 0 fl = true ∧ heldInPlace s 0 = false ∧
     secSkein fl (sec0 0 .queued) = some skein0 ∧ sendReady s 0 (sec0 0 .queued) skein0 = true ∧ { sec0 0 .queued with restored := true }.restored = true ∧ firstFill s 0 0 = none ∧
     (firstFill { s with fld := { s.fld with fills := [⟨0, 0, some 5, skein0, 0⟩] } } 0 0).isSome = true ∧ heldInPlace { s with fld := { s.fld with parks := [rec0 0 true] } } 0 = true ∧ dispatchOpen { s with gov := { s.gov with parked := 1 } } 0 fl = false) ∧
    (let s := upU (sec0 2 .dispatched) {}; let fl := { fldS with seq := [sec0 2 .dispatched] }
     (fieldOfTile s (tileIx t0)).isSome = true ∧ unitFenced s 0 = false ∧ (moduleTiles s fl).contains 0 = true ∧ s.fld.stopped.getLsbD (tileIsland s 0) = false ∧ drainingField fl = false ∧
     (unitAt s 0).sectionId = none ∧ (nextFor fl (unitAt s 0)).isSome = true) ∧
    (let s := upU (sec0 2 .dispatched) (unit0 1 0); let fl := { fldS with seq := [sec0 2 .dispatched] }
     (unitAt s 0).pendingSwap = false ∧ (unitAt s 0).sectionId = some 2 ∧ sec0 2 .dispatched ∈ fl.seq ∧ swapReady s 0 = false ∧
     swapReady (upU (sec0 2 .dispatched) { unit0 1 0 with active := 1 }) 0 = true ∧ nextFor fl { unit0 1 0 with active := 1 } = none ∧
     nextFor { fl with seq := [sec0 2 .dispatched, sec0 3 .dispatched] } { unit0 1 0 with active := 1 } = some (sec0 3 .dispatched) ∧ heldInPlace s 0 = false) ∧
    (let s := upU (sec0 2 .dispatched) (unit0 1 0); let fl := { fldS with seq := [sec0 2 .dispatched] }
     sectionOver s fl (sec0 2 .dispatched) = false ∧
     (let t := { s with grid := { s.grid with units := ((List.range 400).map fun i => (i, { sectionId := some 2, pendingSwap := true })) } }
      (fl.seq.find? fun x => sectionOver t fl x) = some (sec0 2 .dispatched))) := by decide +kernel

/-- An image of one vector thread from tile 0 to an edge port (fed by lane 0) and to tile 1. -/
def thread0 (src : Nat) : ThreadCfg := ⟨0, src, src, 0, 0, 0xFF, 2, 0, 64, [⟨63, 63, 0⟩, ⟨0, 1, 0⟩], [], []⟩
/-- The module with one entry of that thread on its way to each destination. -/
def upT (src : Nat) : State :=
  let s := withField { fld0 with slots := [(0, { skein := some { skein0 with threads := [thread0 src] } })] } up
  { s with grid := { s.grid with threads := [(0, { flying := [⟨0, ⟨0, 1⟩⟩, ⟨1, ⟨0, 1⟩⟩], returning := [(1, 1)] })] } }

theorem witness_UnitsFireAndEntriesMove :
    (let s := upU (sec0 2 .dispatched) (unit0 1 0)
     s.faults.test = false ∧ unitCfg (unitAt s 0) = some (ctx0 1) ∧ mayFire s 0 = true ∧ tryFire 0 (ctx0 1) .drainRow s = none ∧
     (tryFire 0 (ctx0 2) (.stream 0) (upU (sec0 2 .dispatched) (unit0 2 0))).isSome = true ∧ mayFire (upU (sec0 2 .dispatched) (unit0 2 0)) 0 = true ∧
     unitCfg (unitAt (upU (sec0 2 .dispatched) (unit0 2 0)) 0) = some (ctx0 2) ∧ mayFire (upU (sec0 2 .dispatched) { unit0 1 0 with stopped := true }) 0 = false ∧ unitCfg (unitAt up 0) = none) ∧
    (let s := upT 0; threadKey 0 0 (0 % 65536) = 0 ∧ (threadCfgAt s 0).isSome = true ∧ (takeFlying 0 0 s).isSome = true ∧ (takeFlying 0 1 s).isSome = true ∧ takeFlying 0 2 s = none ∧
     (fieldAt s 0).isSome = true ∧ (thread0 0).dests[0]? = some ⟨63, 63, 0⟩ ∧ (thread0 0).dests[1]? = some ⟨0, 1, 0⟩ ∧
     tget 0 0 (threadAt s 0).returning = 0 ∧ tget 0 1 (threadAt s 0).returning ≠ 0 ∧ edgeSourced (thread0 63) = true ∧ edgeSourced (thread0 0) = false ∧ (unitAt s 1).aborted = false ∧
     (s.grid.leaving.find? fun y => y.2.1 == 0 && y.2.2.1 == 0) = none ∧
     ({ s with grid := { s.grid with leaving := [(2, 0, 0, true)] } }.grid.leaving.find? fun y => y.2.1 == 0 && y.2.2.1 == 0) = some (2, 0, 0, true) ∧
     tokenBad (tfind 0 (unitAt (upU (sec0 2 .dispatched) (unit0 1 0)) 0).slots) 0 ⟨0, 64⟩ = false ∧ (unitAt (upU (sec0 2 .dispatched) { unit0 1 0 with aborted := true }) 0).active ≠ 1) := by
  decide +kernel

theorem witness_TokensTakeEffect :
    (∀ k ∈ [1, 2, 3, 4, 5, 6], let s := upU (sec0 2 .dispatched) (unit0 1 (BitVec.ofNat 512 (32 * k)))
     TokenAt s t0 1 k ⟨0, BitVec.ofNat 512 (32 * k)⟩ (ctx0 1)) ∧
    (let s := upU (sec0 2 .dispatched) (unit0 1 32); let u := popPort 0 2 1 s
     outermost (ctx0 1) = some 0 ∧ (ctx0 1).ctl.startWait = true ∧ (unitAt u 0).emptyRun = false ∧ (unitAt u 0).aborted = false ∧ outermost (idleUnit 0 0 1) = none ∧
     (counterCfg (ctx0 1) (tokLevel ⟨0, 64⟩)).isSome = true ∧ headOf u 0 1 (selSi (ctx0 1) 1 - 1) = some ⟨0, 1⟩ ∧
     headOf (upU (sec0 2 .dispatched) { unit0 1 96 with fifos := [(9, [⟨0, 96⟩])] }) 0 1 (selSi (ctx0 1) 1 - 1) = none ∧
     (unitAt (popPort 0 2 1 (upU (sec0 2 .dispatched) { unit0 1 192 with aborted := true })) 0).aborted = true ∧ headOf up 0 2 0 = none) := by
  unfold TokenAt; decide +kernel

/-- A context whose stage 0 passes on its previous result to VO0: what it sends leaves at DONE. -/
def lateCtx : UnitCfg := { ctx0 1 with cu := { (ctx0 1).cu with stages := [BitVec.ofNat 64 (11 * 2 ^ 12 + 2 * 2 ^ 28)] } }
/-- A DONE of level 0 at such a unit, whose output thread has as many credits for each destination as said. -/
def upDone (run : Bool) (credits : Nat) : State :=
  let fl := { fld0 with slots := [(0, { skein := some { skein0 with threads := [thread0 0] } })], seq := [sec0 2 .dispatched] }
  let u : TileUnit := { unit0 1 64 with slots := [(0, lateCtx)], counters := [(0, { bound := 4, running := run })] }
  let s := withField fl up
  { s with grid := { s.grid with units := [(0, u)], threads := [(0, { credits := [(0, credits), (1, credits)], owner := some 2 })] } }

theorem witness_TokensTakeEffect_done :
    (∀ n ∈ [0, 9], let s := upDone true n; let u := popPort 0 2 1 s
     TokenAt s t0 1 2 ⟨0, 64⟩ lateCtx ∧ doneCounts lateCtx 1 0 = true ∧ (counterAt (unitAt u 0) 0).running = true ∧ doneIterates lateCtx = true ∧
     stageRoom u 0 lateCtx [true] = decide (n = 9)) ∧
    (counterAt (unitAt (popPort 0 2 1 (upDone false 9)) 0) 0).running = false ∧ doneCounts lateCtx 2 0 = false ∧ doneCounts lateCtx 1 1 = false ∧
    (let c := { ctx0 1 with counters := [⟨true, 0, 0, 4, 0, 1, 1, 1, 0, 4⟩, ⟨true, 0, 0, 4, 0, 1, 2, 1, 0, 4⟩] }
     let s := upU (sec0 2 .dispatched) { unit0 1 66 with slots := [(0, c)], counters := [(1, { bound := 4, running := true })], fifos := [(9, [⟨0, BitVec.ofNat 512 (64 + 4)⟩])] }
     TokenAt s t0 1 2 ⟨0, BitVec.ofNat 512 (64 + 4)⟩ c ∧ tokLevel ⟨0, BitVec.ofNat 512 (64 + 4)⟩ = 1 ∧ doneCounts c 1 1 = true ∧ (counterAt (unitAt (popPort 0 2 1 s) 0) 1).running = true) ∧
    (let s := upU (sec0 2 .dispatched) { unit0 1 0 with fifos := [(8, [⟨0, 192⟩]), (9, [⟨0, 32⟩])] }
     headOf s 0 2 1 = some ⟨0, 32⟩ ∧ tokenBehind s 0 (ctx0 1) 1 ⟨0, 32⟩ = true ∧ takeToken 0 1 s = none) := by
  unfold TokenAt; decide +kernel

theorem witness_SectionsParkAndStop :
    (let x := { sec0 2 .draining with why := some .inputPark }; let fl := { fldS with seq := [x] }; let s := withField fl up
     fieldAt s 0 = some fl ∧ drainDone s 0 fl = true ∧ (∀ e ∈ causes s 0, wantsScan e.2 = false) ∧ drainDone (withField { fl with seq := [sec0 2 .dispatched] } up) 0 { fl with seq := [sec0 2 .dispatched] } = false) ∧
    (let x := { sec0 2 .draining with why := some (.abort 0x0303) }; let s := withField { fldS with seq := [x] } up
     causes s 0 = [(2, .abort 0x0303)] ∧ causes (deliverAbort 0 2 0x0303 s) 0 = []) ∧
    (let x := { sec0 2 .settled with why := some (.park 6 false true) }; let fl := { fldS with seq := [x] }; fl.seq = [x] ∧ x.phase = .settled ∧ secAt (withField fl up) 0 x.id = some x) ∧
    (let x := { sec0 2 .dispatched with idleEn := true, idle := 1000 }; let s := upU x (unit0 1 0); let fl := { fldS with seq := [x] }
     (fl.seq.find? fun x => x.phase == .dispatched && x.idleEn && decide (x.idleLimit ≤ x.idle) && activeIn s fl x.id) = some x ∧ { x with idle := 999 }.idle < x.idleLimit) ∧
    (let x := { sec0 2 .dispatched with wdCount := 10 }; up.faults.test = false ∧ x.phase = .dispatched ∧ x.watchdog ≤ x.wdCount ∧ { x with wdCount := 9 }.wdCount < x.watchdog) := by decide +kernel

/-! ### Witnesses: memory, moons, models -/

/-- A tier-1 page of field 0 at DVA 0. -/
def page0 (w : Bool) (o : PageOwner) : Page := ⟨0, 4096, .tier1, 0, w, true, false, 0, o⟩
/-- A request of context 0 of tile 0 for the line at an address. -/
def tier0 (w : Bool) (a : Nat) : TierReq := ⟨0, 0, 0, [a], 0, 1, w, [], false⟩
/-- The module with that request at work in an MU. -/
def upReq (w : Bool) (a : Nat) : State :=
  let s := upU (sec0 2 .dispatched) (unit0 2 0)
  { s with fld := { s.fld with fields := [(0, { fldS with seq := [sec0 2 .dispatched], pages := [page0 false .host] })] }, mem := { s.mem with requests := [tier0 w a] } }

theorem witness_MemoryTrafficCompletes_requests :
    (∀ a ∈ [0, 4095], let s := upReq false a; (s.mem.requests.find? fun q => q.tile == tileIx t0 && q.ctx == 0) = some (tier0 false a) ∧ moonWaits s (tier0 false a) = false ∧
     unitCfg (unitAt s 0) = some (ctx0 2) ∧ (streamCfg (ctx0 2) 0).isSome = true ∧ requestLive s 0 = true ∧ [a].any (inQuarantine s 0) = false ∧ s.faults.test = false ∧
     untranslated s (tier0 false a) = none ∧ lostPlace s (tier0 false a) = none ∧ ((tier0 false a).places.head?.bind fun a => dvaCell s 0 a).isSome = true ∧ (tier0 false a).write = false) ∧
    (untranslated (upReq false 4096) (tier0 false 4096) = some 4096 ∧ untranslated (upReq true 0) (tier0 true 0) = some 0 ∧ (tier0 true 0).write = true) ∧
    (up.mem.requests.find? fun q => q.tile == tileIx t0 && q.ctx == 0) = none ∧
    (let a := Config.moonDva + 0x20000; moonWaits (upReq false a) (tier0 false a) = true) := by decide +kernel

theorem witness_MemoryTrafficCompletes_rest :
    (let s := { up with fab := { up.fab with links := [(5, { state := .up })] } }
     s.entry.main = true ∧ s.boot.warmBusy = false ∧ islandOn s (arbIsland s (.link 5)) = true ∧ ctrlTurn s (.link 5) = false ∧ islandOn up (arbIsland up (.link 5)) = false ∧ islandOn up (arbIsland up .hash) = true ∧
     ctrlTurn { up with fab := { up.fab with links := [(5, { state := .up, toReturn := [(0, 1)] })] } } (.link 5) = true ∧
     islandOn upF (arbIsland upF (.muBank t0 1)) = true ∧ ArbId.hash ≠ .link 5 ∧ ArbId.hash ≠ .muBank t0 1) ∧
    (let m : PageMove := ⟨0, 0, false, 9⟩; let s := { (upReq false 0) with mem := { up.mem with moves := [m] } }
     s.mem.moves = m :: [] ∧ ((fieldAt s m.field).bind fun fl => fl.pages.find? fun p => p.dva == m.dva && p.demoted != !m.promote).isSome = true ∧
     (let p := page0 false .host; fieldAt s 0 = some { fldS with seq := [sec0 2 .dispatched], pages := [p] } ∧ pageHeld s { fldS with pages := [p] } p = false ∧
      (let x := { sec0 2 .dispatched with serves := [(0, 0)] }; pageHeld s { fldS with seq := [x] } { p with owner := .kv 0 0 false } = true)) ∧
     ((fieldAt up m.field).bind fun fl => fl.pages.find? fun p => p.dva == m.dva && p.demoted != !m.promote) = none ∧ up.mem.moves = []) ∧
    (scrubRuns up (.hbm 15 805306367) = true ∧ scrubRuns up (.hbm 15 805306368) = false ∧ cellLost up (false, 15 * Config.stackBytes + 64 * 805306367) = false ∧
     scrubRuns up (.sram t0 131071) = true ∧ scrubRuns up (.sram t0 131072) = false ∧ up.faults.test = false) := by decide +kernel

/-- A table call of channel 63 of stack 0 with a count, and the module in which its header stands. -/
def call0 (n : Nat) : MoonCallRun := ⟨0, 63, 0, false, 0, 64, 0, n, 0, zeros 64, [], 0, [], false, [], 0, 0⟩
/-- A header as it was written, on channel 63 of stack 0 from no section: ARG_BYTES 64 at byte 4, COUNT at byte 16, and 64 argument bytes of zero. -/
def header0 (n : Byte) : MoonHeader := ⟨0, 63, 0, none, padTo 128 (zeros 4 ++ [64] ++ zeros 11 ++ [n])⟩
def upMoon : State := { upF with moons := { upF.moons with progs := [(0, some moon0)], headers := [header0 0] } }

theorem witness_MoonCallsBegin :
    (∀ n ∈ [0, 1], let s := { upMoon with moons := { upMoon.moons with headers := [header0 n] } }; let c := headerCall (header0 n) (callers s fld0 none) (callDraft s 0 (callers s fld0 none))
     (s.moons.headers.find? fun h => h.lead == 0 && h.channel == 63) = some (header0 n) ∧ (fieldAt s 0).isSome = true ∧ moonRuns s 0 = true ∧ s.faults.test = false ∧
     callBad { s with moons := { s.moons with headers := [] } } fld0 c = false ∧ c.count = n.toNat ∧ callBad { s with moons := { s.moons with headers := [] } } fld0 { c with mask := 1 } = true) ∧
    (up.moons.headers.find? fun e => e.lead == 0 && e.channel == 63) = none ∧
    (let s := { upF with moons := { upF.moons with forwards := [(3, 1, 5), (3, 0, 63), (3, 1, 4)] } }; arriving 3 s = [(3, 1, 5), (3, 0, 63)] ∧ moonRuns s 3 = true ∧ arriving 2 s = [] ∧
     ∀ e ∈ s.moons.forwards, e.1 ≠ 2) ∧ moonRuns up 0 = false := by decide +kernel

/-- An attention program of four heads. -/
def attend0 : MoonImage := { moon0 with cls := 1, params := .attend 0 7 4 1 1 0x3F800000 0 }

theorem witness_MoonCallsEnd :
    (∀ m ∈ [moon0, attend0], let s := { upF with moons := { upF.moons with progs := [(0, some m)], calls := [call0 1], queues := [(0, [(0, 63)])] } }
     let u := modCall 0 63 (fun x => { x with ended := insertN 0 x.ended }) (popCall 0 s)
     moonRuns s 0 = true ∧ s.faults.fencedStacks.getLsbD 0 = false ∧ headCall s 0 = some (call0 1) ∧ (fieldAt u 0).isSome = true ∧ callProg u (call0 1) = some m) ∧
    (kvParams moon0 = none ∧ (kvParams attend0).isSome = true) ∧
    (let s := { upF with moons := { upF.moons with partials := [⟨0, 63, 1, []⟩], calls := [call0 1] } }
     (s.moons.partials.find? fun p => p.lead == 0) = some ⟨0, 63, 1, []⟩ ∧ callOver s (call0 1) = false ∧ callOver s { call0 1 with ended := [0] } = false ∧
     callOver { s with moons := { s.moons with partials := [] } } { call0 1 with ended := [0] } = true ∧ ((maskStacks 0 ++ [0]).any fun j => s.faults.fencedStacks.getLsbD j) = false ∧
     (s.moons.calls.find? fun c => c.lead == 0 && c.channel == 63) = some (call0 1)) ∧
    (let a := Config.moonDva + 0x20000; let s := upReq false a
     resultArea s 0 a = some (chanKey 0 0) ∧ s.moons.answers.contains (chanKey 0 0, tileIx t0, 0) = false ∧ s.moons.fetches.contains (0, 0, tileIx t0, 0) = false ∧ callPending s 0 0 = false ∧
     callPending { s with moons := { s.moons with headers := [⟨0, 0, 0, none, []⟩] } } 0 0 = true) ∧
    (let v : MoonService := ⟨false, none, [(0, 64, 64)], none⟩; let s := { upF with moons := { upF.moons with services := [(0, [v])] } }
     tget [] 0 s.moons.services = v :: [] ∧ (tget [] 0 s.moons.queues).isEmpty = true ∧ (tget [] 0 [(0, [(0, 63)])]).isEmpty = false ∧
     (serviceStep serviceBytes v.copies s).1 = none ∧ (serviceStep serviceBytes v.copies { s with faults := { s.faults with fencedStacks := 15 } }).1.isSome = true ∧
     v.req = none ∧ { v with req := some 0 }.req = some 0) := by decide +kernel

/-- A resident copy of manifest0's shard. -/
def shard0 : ShardCopy := ⟨0, 64, 0, 6, 0, false, 0⟩
/-- The module with that copy in a field and in the store, when 6 hours have passed. -/
def upModel : State :=
  { withField { fld0 with pages := [⟨0, 2097152, .tier1, 0, false, true, false, 0, .shard 13 0⟩] } upP with
    models := { store := [⟨13, manifest0, [shard0]⟩], tier1 := [(0, [⟨13, manifest0, [shard0]⟩])] }, tick := 21600000000 }

theorem witness_RehashAndColumnMaps :
    (copyIn (fieldModels upModel 0) 13 0 = some shard0 ∧ passDue upModel (some 0) shard0 = true ∧ passDue { upModel with tick := 1799999999 } (some 0) shard0 = false ∧ upModel.faults.test = false ∧
     rangeLost upModel 0 0 64 = false ∧ (6 : Digest) = shard0.digest) ∧
    (copyIn upModel.models.store 13 0 = some shard0 ∧ passDue upModel none shard0 = true ∧ passDue { upModel with tick := 21599999999 } none shard0 = false ∧ storeLost upModel shard0 = false) ∧
    (let s := { upF with fld := { upF.fld with pendingPairs := [(0, 1)] } }
     tget 0 1 s.fld.pendingPairs = 0 ∧ tget 0 0 s.fld.pendingPairs ≠ 0 ∧ s.entry.main = true ∧ s.faults.fatal = false ∧ fieldOfBand s 0 = some 0 ∧ fieldAt s 0 = some fld0 ∧ mapReady s 0 fld0 = true ∧
     mapReady s 0 { fld0 with seq := [sec0 0 .queued] } = false ∧ fieldOfBand up 0 = none) := by decide +kernel

/-! ### Witnesses: serving, fabric, faults, meter -/

/-- A step of configuration 0 with one decode row, request 0. -/
def step0 (depth : Option Nat) (ended : Bool) : StepRun := ⟨0, [(0, 5)], [], depth, [[]], 0, ended⟩
/-- The module that decodes request 0 in that step, with its logits range mapped. -/
def upD (st : Option StepRun) : State :=
  let fl := { fld0 with pages := [⟨Config.firmwareDva, 2097152, .tier1, 0, true, false, false, 0, .logits 0⟩], step := st }
  let s := upR (req0 .decode)
  { s with fld := { s.fld with fields := [(0, fl)] } }
/-- The same with a tree of two nodes whose draft is configuration 1. -/
def upTree : State :=
  let s := upD (some (step0 (some 1) true))
  let fl := { fld0 with pages := [⟨Config.firmwareDva + Config.logitsStride, 2097152, .tier1, 0, true, false, false, 0, .logits 1⟩], step := some (step0 (some 1) true) }
  { s with serv := { s.serv with configs := [(0, ⟨{ cfgBlock with draftConfig := 1, branch := [2] }, 7, 2, 4096, []⟩), (1, ⟨{ cfgBlock with index := 1 }, 7, 0, 4096, []⟩)] }, fld := { s.fld with fields := [(0, fl)] } }
/-- One token of request 0. -/
def commit0 : Commit := ⟨0, [1], []⟩

theorem witness_StepsRunAndCommit_boundary :
    ((fieldAt (upD none) 0).isSome = true ∧ running (upD none) = true ∧ ((fieldAt (upD none) 0).bind (·.step)).isNone = true ∧ ((upD none).serv.samples.any fun e => e.1 == 0) = false ∧ running State.reset = false) ∧
    (let u := actuateBatch 0 ((rankedReqs (upD none) 0).foldl (fun s e => tryPark e.1 s) (upD none))
     fieldParked u 0 = false ∧ fieldParked { u with gov := { u.gov with parked := 1 } } 0 = true ∧ drainingField fld0 = false ∧ fld0.held = false ∧ { fld0 with held := true }.held = true ∧
     (fieldAt (dispatchStep 0 (rankedReqs u 0) u) 0).isSome = true) := by decide +kernel

theorem witness_StepsRunAndCommit :
    (let s := upD (some (step0 none true)); (fieldAt s 0).bind (·.step) = some (step0 none true) ∧ running s = true ∧ (configAt s 0).isSome = true ∧ (step0 none false).ended = false ∧
     (reqAt s 0) = some (req0 .decode) ∧ (req0 .decode).order = 5 ∧ (sampleRow s 0 ⟨cfgBlock, 7, 0, 4096, []⟩ 0 0 0 (req0 .decode) []).isSome = true ∧
     sampleRow { s with faults := { s.faults with fencedStacks := 15 } } 0 ⟨cfgBlock, 7, 0, 4096, []⟩ 0 0 0 (req0 .decode) [] = none) ∧
    (let c : ServConfig := ⟨{ cfgBlock with draftConfig := 1, branch := [2] }, 7, 2, 4096, []⟩
     configAt upTree 0 = some c ∧ (draftOf upTree c).isSome = true ∧ (draftChildren upTree 0 c ⟨{ cfgBlock with index := 1 }, 7, 0, 4096, []⟩ 1 0).isSome = true ∧ 1 ≤ (treeBranches (branches c)).length) ∧
    (let s := { upD none with serv := { (upD none).serv with samples := [(0, 5, commit0)] } }
     (s.serv.samples.find? fun e => e.1 == 0 && e.2.2 == commit0) = some (0, 5, commit0) ∧ (up.serv.samples.find? fun e => e.1 == 0 && e.2.2 == commit0) = none ∧ reqAt s 0 = some (req0 .decode) ∧
     s.faults.fatalPhase = .none ∧ hostDma s 5 = true ∧ finalCommit 0 (req0 .decode) [1] = false ∧ finalCommit 1 (req0 .decode) [1] = true ∧ finalCommit 0 { req0 .decode with maxNew := 1 } [1] = true) := by decide +kernel

theorem witness_RequestsMoveOn :
    (let s := { upC with serv := { upC.serv with waiters := [⟨5, req0 .queued, none⟩] } }
     freeEntry s = some 0 ∧ s.serv.waiters = ⟨5, req0 .queued, none⟩ :: [] ∧ running s = true ∧ up.serv.waiters = []) ∧
    (let s := upR (req0 .queued)
     reqAt s 0 = some (req0 .queued) ∧ openState (req0 .queued).state = true ∧ (req0 .queued).noDeadline = false ∧ (req0 .queued).park = none ∧ (req0 .queued).due ≤ s.tick ∧
     { s with tick := 99 }.tick < (req0 .queued).due ∧ (req0 .queued).parkEn = true ∧ (req0 .queued).parkLimit ≤ (req0 .queued).idle ∧ { req0 .queued with idle := 49 }.idle < (req0 .queued).parkLimit) ∧
    (∀ d ∈ [CometDest.pool 0 1, .host 4096, .peer 77], let q := { req0 .parked with kvDone := 0, park := some (.idle, some d) }; let s := upR q
     reqAt s 0 = some q ∧ q.park = some (.idle, some d) ∧ q.state = .parked ∧ running s = true ∧ (s.fab.tx.any fun t => t.use == .comet 0) = false ∧ parkLink s .idle = true) := by decide +kernel

/-- A comet without KV pages can be built; one whose KV program is missing cannot. -/
theorem witness_RequestsMoveOn_comet : let q := { req0 .parked with kvDone := 0, park := some (.idle, some (.host 4096)) }
    (buildComet (upR q) 0 q).isSome = true ∧ buildComet (upR { q with kvDone := 1 }) 0 { q with kvDone := 1 } = none ∧ (upR q).faults.test = false := by
  refine ⟨?_, by rfl, by rfl⟩
  unfold buildComet; rfl

/-- A flit with a SEQ. -/
def flit0 (seq : BitVec 12) (good : Bool) : Flit := ⟨seq, 4095, 0, false, false, false, true, [], zeros 64, false, good⟩
/-- The module with link 5 as given. -/
def upLink (x : Link) : State := { up with fab := { up.fab with links := [(5, x)] } }

theorem witness_LinksCarryFlits :
    (let s := upLink { state := .up }; fabricOn s = true ∧ linkLive s 5 = true ∧ (linkAt s 5).fast = false ∧ (linkAt s 5).injLeft = 0 ∧ (linkAt s 5).rxBad = false ∧ (flit0 0 true).seq = (linkAt s 5).rxSeq + 1 ∧
     (flit0 1 true).seq ≠ (linkAt s 5).rxSeq + 1 ∧ (flit0 0 false).good = false ∧ { flit0 0 true with ctrl := true }.ctrl = true ∧ (flit0 0 true).corrected = false ∧ (flit0 0 true).good = true) ∧
    (let s := upLink { state := .up, rxBad := true, resends := 16 }; (linkAt s 5).rxBad = true ∧ 16 ≤ (linkAt s 5).resends ∧ (linkAt (upLink { rxBad := true, resends := 15 }) 5).resends < 16) ∧
    ((linkAt up 5).spared = 31 ∧ (linkAt (upLink { spared := 3 }) 5).spared ≠ 31) ∧
    (let s := upLink { state := .up, fast := true, swapLane := 3 }; (linkAt s 5).fast = true ∧ inLoopback s 5 = false ∧ (linkAt s 5).swapLane ≠ 16) ∧
    (let s := upLink { state := .training }; (linkAt s 5).state = .training ∧ (linkAt s 5).enable = true ∧ up.fab.nodeId = 0xFFFFF ∧ (7 : BitVec 20) ≠ s.fab.nodeId ∧ (7 : BitVec 20) ≠ Config.unassignedNode ∧
     tget 31 5 s.store.spareLane = 31 ∧ (linkAt s 5).fenced = false ∧ (linkAt up 5).state ≠ .training) := by decide

/-- A feed packet from node 3 with a number of hops and an OFFSET. -/
def pkt0 (hops off : Nat) : Packet := ⟨77, 3, 2, 0, hops, 3, false, 1, off, 0, 0, 0, 0, zeros 64⟩
/-- The transfer's state at its receiver and source. -/
def rx0 (unacked : Nat) : RxRun := ⟨3, 1, 2, 64, unacked, [], false, 3, none, 0⟩
def tx0 (acked : Nat) : TxRun := ⟨1, 77, 3, .kvShip 5, zeros 100, acked, 100, 64, [(0, 100, 200)], 3, 0, 0, 0, 0⟩
/-- The module with link 0 up, a route and both transfers. -/
def upPkt (eg : BitVec 3) : State :=
  { up with fab := { up.fab with links := [(0, { state := .up })], active := [(0, route0 eg)], accept := [(0, ⟨0, 9, true⟩)], rx := [rx0 1], tx := [tx0 0], nodeId := 9 }, tick := 163 }

theorem witness_PacketsServeTransfers_route :
    (fabricOn (upPkt 1) = true ∧ (upPkt 1).fab.arrived.contains (0, 0, false, pkt0 0 0) = false ∧ hopOf (upPkt 1) (pkt0 61 0) 0 = .forward 0 (route0 1) ∧ hopOf (upPkt 1) (pkt0 62 0) 0 = .drop 7 ∧
     hopOf (upPkt 0) (pkt0 0 0) 0 = .deliver ∧ hopOf (upPkt 0) { pkt0 0 0 with src := 10 } 0 = .drop 8 ∧ hopOf up (pkt0 0 0) 0 = .drop 1) ∧
    (routeFor up 77 0 = none ∧ routeFor (upPkt 1) 77 0 = some (route0 1) ∧ (route0 0).egress = 0 ∧ 1 ≤ (route0 1).egress.toNat ∧ (route0 6).egress.toNat ≤ 6 ∧ linkLive (upPkt 1) 0 = true ∧ routeFor (upPkt 7) 77 0 = some (route0 7) ∧ (route0 7).egress = 7 ∧
     routeFor (upPkt 2) 77 0 = some (route0 2) ∧ linkLive (upPkt 2) 1 = false ∧ fabricOn (setHost (upPkt 0) { (upPkt 0).host with d3hot := true }) = true) ∧
    (∀ off ∈ [63, 64, 65], 2 ≤ (pkt0 0 off).kind ∧ (pkt0 0 off).kind ≤ 6 ∧ rxRunAt (upPkt 0) (pkt0 0 off).src (pkt0 0 off).transfer.toNat = some (rx0 1) ∧ (rx0 1).accepted = 64 ∧ (rx0 1).finished = false) ∧
    ((match acceptPacket (rx0 1) (pkt0 0 64) (upPkt 0) with | .error _ => true | .ok _ => false) = true ∧
     (match acceptPacket { rx0 1 with kind := 4, room := some (.pool 0 1) } { pkt0 0 64 with kind := 4 } (upPkt 0) with | .error _ => false | .ok _ => true) = true) := by decide +kernel

theorem witness_PacketsServeTransfers_timers :
    ((rx0 1).unacked ≠ 0 ∧ (rx0 0).unacked = 0 ∧ txAt (upPkt 1) (1#32).toNat = some (tx0 0)) ∧ (max (tx0 0).acked (min 99 (tx0 0).sent) < txLength (tx0 0) ∧ txLength (tx0 0) ≤ max (tx0 0).acked (min 100 (tx0 0).sent)) ∧
    ((tx0 0).times.any fun e => decide (txLength (tx0 0) ≤ e.1 * 4096 + 4096)) = true ∧ (tx0 0).use = .kvShip 5 ∧
    (oldestSend (tx0 0) = some (100, 200) ∧ 100 + (tx0 0).window ≤ 164 ∧ (upPkt 1).tick < 100 + (tx0 0).window ∧ 200 + (tx0 0).window / 2 ≤ 232) ∧
    (let b := zeros 64; let s := { upLink { state := .up, rx := [(0, b)], rxAt := [(0, 100)] } with tick := 150 }
     ((linkAt s 5).rx.find? fun e => decide (32 ≤ e.2.length) && natAt e.2 3 3 == 0 && natAt e.2 12 4 == 0 && natAt e.2 16 8 == 0 && decide (tget 0 e.1 (linkAt s 5).rxAt + 50 ≤ s.tick)) = some (0, b) ∧ (linkAt up 5).rx = []) := by decide +kernel

/-- A collective of two members, of which this module, node 9, is the second, in a phase. -/
def upColl (ph : CollPhase) : State :=
  { up with fab := { up.fab with nodeId := 9, groups := [(4, ⟨[3, 9], 1000, []⟩)], runs := [⟨4, 5, cp 1 1 0 64, ph, [], []⟩] } }

theorem witness_CollectivesGoOn :
    (∀ ph ∈ [CollPhase.setup 0, .setup 1, .reduce 0, .delivery 0], running (upColl ph) = true ∧ runningColl (upColl ph) (4#8).toNat = some (⟨4, 5, cp 1 1 0 64, ph, [], []⟩, ⟨[3, 9], 1000, []⟩, 1)) ∧
    ((cp 1 1 0 64).length ≠ 0 ∧ (cp 1 1 0 0).length = 0 ∧ (1 + 2 * 2 - 1 - 0 % 2) % 2 = 0 ∧ (1 + 2 * 2 - 0 % 2) % 2 = 1 ∧ 2 ≤ 0 + 2 ∧ ¬(0 + 2 < 2) ∧ 0 + 2 < 3) ∧ runningColl up (4#8).toNat = none := by decide

/-- A detection. -/
def det0 (d i : BitVec 8) : Detection := ⟨d, i, 0, 0⟩

theorem witness_FaultsAreHandled :
    (up.entry.main = true ∧ up.faults.test = false ∧ fatalDetector (det0 0x05 0x4F).detector.toNat (det0 0x05 0x4F).island.toNat = false ∧ islandKnown 0x4F = true ∧ islandKnown 0x50 = false ∧ islandKnown 0x14 = false ∧
     fatalDetector (det0 0x0F 0x10).detector.toNat 0x10 = true ∧ fatalDetector 0x0E 0x10 = true ∧ fatalDetector 0x0E 0x14 = false ∧ State.reset.entry.main = false ∧
     fatalDetector 0x11 0x10 = true ∧ fatalDetector 0x12 0x10 = true ∧ fatalDetector 0x13 0x10 = true ∧ cyclesPerTick State.reset 0 = 0 ∧ cyclesPerTick up 0x10 ≠ 0 ∧ 0 ≤ islandCycles up 0x10 ∧
     0 < islandCycles { up with grid := { up.grid with cycles := [(0x10, 1)] } } 0x10) ∧
    (let s := { up with faults := { up.faults with fencedUnits := [0] } }
     s.faults.fatal = false ∧ s.faults.fencedUnits.contains (tileIx t0) = true ∧ (tget 0 (tileBand 0) s.fld.pendingPairs).getLsbD (tilePair s 0) = false ∧ fieldOfTile s (tileIx t0) = none ∧
     twoEvents (setUnit s 0 {}) 0 = false ∧ up.faults.fencedUnits.contains (tileIx t0) = false) ∧
    ({ up.faults with fatal := true }.fatal = true ∧ { up.faults with fatalPhase := .stopped }.fatalPhase = .stopped ∧ up.faults.fatalPhase ≠ .stopped) := by decide +kernel

theorem witness_MeterRecords :
    (up.meter.powered = true ∧ State.reset.meter.powered = false ∧ 500 ≤ 500 ∧ 500 < 501 ∧ 1000 ≤ 1000 ∧ 1000 < 1001 ∧ up.entry.aux = true ∧ up.window.linkOk = true ∧ State.reset.window.linkOk = false) ∧
    (let s := { State.reset with entry := { p56v := true } }; s.meter.powered = false ∧ s.entry.p56v = true ∧ s.meter.unpoweredOpening = false ∧ State.reset.entry.p56v = false) := by decide

theorem witness_PeriodicDuties : aliveRuns up = true ∧ State.reset.entry.main = false ∧ mgmtOn up = true ∧ up.entry.main = true ∧ up.window.linkOk = true ∧ State.reset.window.linkOk = false := by decide

/-! ### Ill-formed commands that Instr.wf refuses, each beside a well-formed neighbour -/

theorem wf_copy : (Instr.copy 0 hd (cp 0 0 0 2) [1]).wf = false ∧ (Instr.copy 0 hd (cp 0 0 0 2) [1, 2]).wf = true ∧ (Instr.copy 0 hd (cp 1 0 0 2) [1, 2]).wf = false := by decide
theorem wf_runSection : (Instr.runSection 0 hd { run0 1 with nscalars := 1 } []).wf = false ∧ (Instr.runSection 0 hd { run0 1 with nscalars := 1, scalars := [5] } []).wf = true ∧
    (Instr.runSection 0 hd { run0 1 with nscalars := 9, scalars := List.replicate 8 0, blockAddr := 64 } []).wf = false := by decide
theorem wf_requestSubmit : (Instr.requestSubmit 0 hd (sub0 4) [1]).wf = false ∧ (Instr.requestSubmit 0 hd (sub0 4) [1, 1]).wf = true := by decide
theorem wf_descriptorFetchBurst : (Instr.descriptorFetchBurst 0 []).wf = false ∧ (Instr.descriptorFetchBurst 0 [zeros 63]).wf = false ∧
    (Instr.descriptorFetchBurst 0 (List.replicate 17 (zeros 64))).wf = false ∧ (Instr.descriptorFetchBurst 0 [zeros 64]).wf = true := by decide +kernel
theorem wf_cxlPortUp : (Instr.cxlPortUp 0 16 false true).wf = false ∧ (Instr.cxlPortUp 0 2 false false).wf = false ∧ (Instr.cxlPortUp 0 16 false false).wf = true := by decide
theorem wf_expertMap : (Instr.expertMap 0 1 []).wf = false ∧ (Instr.expertMap 0 0 []).wf = true := by decide
theorem wf_cometTrust : (Instr.cometTrust 1 []).wf = false ∧ (Instr.cometTrust 1025 [1]).wf = false ∧ (Instr.cometTrust 1 [1]).wf = true := by decide
theorem wf_modelOwners : (Instr.modelOwners 1 [(2048, 1)]).wf = false ∧ (Instr.modelOwners 65 [(0, 1)]).wf = false ∧ (Instr.modelOwners 1 [(2047, 1)]).wf = true := by decide
theorem wf_loadSkein : (Instr.loadSkein 0 hd (ld 0 64 0) [(64, 1)]).wf = false ∧ (Instr.loadSkein 0 hd (ld 0 64 0) [(63, 1)]).wf = true := by decide
theorem wf_moonLoad : (Instr.moonLoad 0 hd (ld 0 64 0) [(64, 1)]).wf = false ∧ (Instr.moonLoad 0 hd (ld 0 64 0) [(63, 1)]).wf = true := by decide
theorem wf_weightLoad : (Instr.weightLoad 0 hd (wd 0 true) ⟨[(3712, 1)], ⟨true, true⟩⟩).wf = false ∧ (Instr.weightLoad 0 hd (wd 0 true) ⟨manifestBytes, ⟨true, true⟩⟩).wf = true := by decide +kernel
theorem wf_resumeComet : (Instr.resumeComet 0 hd (res0 true 0 64) (cometRead true [(64, 1)])).wf = false ∧ (Instr.resumeComet 0 hd (res0 true 0 64) (cometRead true [(63, 1)])).wf = true := by decide
theorem wf_download : (Instr.download { bundleRead 0 with bytes := [(7552, 1)] }).wf = false ∧ (Instr.download { bundleRead 0 with bytes := [(7551, 1)] }).wf = true := by decide
theorem wf_testUnlock : (Instr.testUnlock { token0 0 0 with bytes := [(5696, 1)] }).wf = false ∧ (Instr.testUnlock { token0 0 0 with bytes := [(5695, 1)] }).wf = true := by decide
theorem wf_collGroup : (Instr.collGroup 0 true 2 [1] 5).wf = false ∧ (Instr.collGroup 0 true 4097 [1] 5).wf = false ∧ (Instr.collGroup 0 true 1 [1] 5).wf = true := by decide
theorem wf_placeGroup : (Instr.placeGroup 0 2 [1]).wf = false ∧ (Instr.placeGroup 0 5 [1]).wf = false ∧ (Instr.placeGroup 0 1 [1]).wf = true := by decide
theorem wf_registerWrite : (Instr.registerWrite 0 9 0).wf = false ∧ (Instr.registerWrite 0 8 0).wf = true := by decide

/-- No row of the table gives bits, so a word spells no command and leaves the queue as it is. -/
theorem test_no_words : decodeTableWord 64 0 = none ∧ (up.withFetchWord 64 0) = up := by refine ⟨rfl, rfl⟩

/-! ### Results taken from the manual's worked examples and tables -/

/-- The state a command leads to. -/
def after (c : Instr) (s : State) : State := match exec c s with
  | .next t => t
  | _ => s

/-- R189's example: byte 0x56A40 of a field on stacks 8 to 12, 14 and 15 lies at 0xCA40 of stack 10. -/
theorem test_interleave : interleave [8, 9, 10, 11, 12, 14, 15] 0x56A40 = some (10, 0xCA40) := by decide

/-- R190's example: sixteen 256 GiB MRDIMMs, a 1,024 GiB window and the defaults give F = 16 and M = 172 GiB. -/
theorem test_layout : let s := after .setupDone { up with boot := { up.boot with setupDone := false, laidOut := false }, mem := { up.mem with shareGib := 256, poolList := List.range 16, windowGib := 1024 } }
    s.mem.effWindow = 1024 ∧ s.mem.effField = 16 ∧ s.mem.moduleGib = 172 ∧ s.boot.laidOut = true := by decide +kernel

/-- R148's example: 2^24, 1.03125 and -2^24 in a cell of sixteenths leave 16 in either order, which reads as 1.0. -/
theorem test_grid :
    let add := fun (c : GridCell) (v : FVal) => (gridAdd (-4) c v).1
    let a := FVal.fin false 16777216 0
    let b := FVal.fin false 33 (-5)
    let m := FVal.fin true 16777216 0
    cellG (add (add (mkCell 0 false) a) b) = 268435472 ∧ add (add (add (mkCell 0 false) a) b) m = mkCell 16 false ∧ add (add (add (mkCell 0 false) a) m) b = mkCell 16 false ∧
    gridRead fp32 (-4) (mkCell 16 false) = 0x3F800000 := by decide +kernel

/-- R269's example: the entry at index 15 of a 16-entry ring turns the phase over, and three completions at a COAL_COUNT of 4 send no message. -/
theorem test_ring : let q : Queue := { enable := true, sqSize := 16, cqSize := 16, cqTail := 15, cqHead := 14, irqEn := true, coalCount := 4, coalTicks := 20, pendCount := 1, coalStart := some 100 }
    let s := setQueue (accepted .nop { up with tick := 103 }) 0 q
    let t := after (.nop 0 hd) s
    (queueAt t 0).cqTail = 0 ∧ (queueAt t 0).phase = false ∧ (queueAt t 0).pendCount = 2 ∧ (queueAt t 0).coalStart = some 100 ∧ t.host.irqs = [] := by decide +kernel

/-- The same example at tick 120: the timer sends the message. -/
theorem test_coalescing : let q : Queue := { enable := true, irqEn := true, vector := 7, coalTicks := 20, pendCount := 3, coalStart := some 100 }
    let s := setQueue { up with tick := 120, host := { up.host with msix := [(7, { masked := false })] } } 0 q
    (after (.coalTimerExpiry 0) s).host.irqs = [7] ∧ (queueAt (after (.coalTimerExpiry 0) s) 0).pendCount = 0 := by decide +kernel

/-- R299's example: the parents of a tree with BRANCH1 = BRANCH2 = 2. -/
theorem test_tree : treeParents [2, 2, 0, 0] = [255, 255, 0, 0, 1, 1] := by decide

/-- R354's example: module (1, 1, 0) turns from X to Y, and HOP_LIMIT is 6 at an 8 microsecond window. -/
theorem test_hop : let e : Route := ⟨0x1080, 0x113F, 3, 1, false, true, 15⟩
    let s := { up with fab := { up.fab with links := [(2, { state := .up })], active := [(0, e)], windowUs := 8 } }
    hopOf s { pkt0 5 0 with dest := 0x10C0 } 0 = .forward 2 e ∧ hopOf s { pkt0 6 0 with dest := 0x10C0 } 0 = .drop 7 ∧ (forwarded { pkt0 3 0 with routeDim := 0 } true e).2 = false := by decide +kernel

/-- R392's example: 528 mWh over 1,000 ms at a base of 700 W, split over tags 3, 9 and 40. -/
theorem test_apportionment : let c : TagCounters := { activity := 5 }
    let s := { up with window := { linkOk := true, cum := 528 }, acct := { up.acct with baseW := 700, live := { up.acct.live with tags := [(3, c), (9, c), (40, c)] } } }
    let t := after .energyApportionment s
    (t.acct.live.tags.map fun e => e.2.energy.toNat) = [111185, 111185, 111185] ∧ t.acct.live.unattributed = 194445 ∧ t.acct.lastMeter = 528 := by decide +kernel

/-- R488's example: the column map of band 2 before, after pair 7 and after pairs 7 and 3 retire, and the profile after a third. -/
theorem test_columns : ([5, 7, 15, 21, 39].map fun c => (bandColumns 0)[c]?) = [some 5, some 7, some 15, some 21, some 39] ∧
    ([5, 7, 15, 21, 39].map fun c => (bandColumns 0x80)[c]?) = [some 5, some 7, some 17, some 23, some 41] ∧
    ([5, 7, 15, 21, 39].map fun c => (bandColumns 0x88)[c]?) = [some 5, some 9, some 19, some 25, some 43] ∧ bandProfile 0x89 = 38 := by decide +kernel

/-- R416: 900 W for one sample of 4 microseconds is 1 microwatt hour, and half of it is carried. -/
theorem test_sample : let s := { up with meter := { powered := true } }
    (after (.meterSample 50000 18000) s).meter.accum = 1 ∧ (after (.meterSample 50000 18000) s).meter.rest = 0 ∧
    (after (.meterSample 50000 9000) s).meter.accum = 0 ∧ (after (.meterSample 50000 9000) (after (.meterSample 50000 9000) s)).meter.accum = 1 := by decide +kernel

/-- R396, R408 and R414: 49,999 mV holds the module at 700 W and 600 MHz. -/
theorem test_input_low : effectiveCap (after (.inputBelow50v 49999) up).gov = 700 ∧ (after (.inputBelow50v 49999) up).gov.targetMhz = 600 ∧ effectiveCap up.gov = 1200 := by decide +kernel

/-- R454: BOOT.STATUS reads READY, stage 4. -/
theorem test_boot_status : readBar up 0x10000 4 = 4 ∧ readBar up 0x10000 3 = 0 ∧ readBar up 0x10002 4 = 0 := by decide +kernel

/-- R21: TIME_MARK takes number 1 first after reset, returns it and records its MARK; R278: its completion stands in the ring. -/
theorem test_timeMark : let s := setQueue (accepted .timeMark up) 0 { enable := true, sqSize := 16, cqSize := 16 }
    let t := after (.timeMark 0 hd) s
    t.faults.nextSeq = 2 ∧ t.faults.events = [(1, 5, 0)] ∧ (queueAt t 0).cqTail = 1 ∧ t.host.opens = [] := by decide +kernel

/-- FIPS 180-4's example: the SHA-384 of "abc" begins with the bytes CB 00 75 3F and ends with 34 C8 25 A7. -/
theorem test_sha384 : sha384 [0x61, 0x62, 0x63] = BitVec.ofNat 384
    (leNat (leBytes 48 0xCB00753F45A35E8BB5A03D699AC65007272C32AB0EDED1631A8B605A43FF5BED8086072BA1E7CC2358BAECA134C825A7).reverse) := by decide +kernel

/-- R99's layout: a counter record with START 5 (bits 24:1), BOUND 7 (bits 51:28), STRIDE -1 (bits 78:55), ADV 2 (bits 80:79) and MAX_ITER 9 (bits 110:87). -/
theorem test_counter_record : parseCounter (hostBytes (hostRead (leBytes 16 (1 + 2 * 5 + 2 ^ 28 * 7 + 2 ^ 55 * (2 ^ 24 - 1) + 2 ^ 79 * 2 + 2 ^ 87 * 9)))) 0 =
    ⟨true, 5, 0, 7, 0, -1, 2, 0, 0, 9⟩ := by decide +kernel

/-- A step takes the command at the front, and an empty queue lets one tick pass. -/
theorem test_step : (match step { up with pending := [.pwrEnFall, .take] } with | .next t => t.pending == [.take] && !t.entry.main | _ => false) = true ∧
    (match step up with | .next t => t.tick == 1 | _ => false) = true := by decide +kernel

end Sys2Proof.Tests
end

section
/-!
PROOFS. The mailbox lists (COMET_TRUST, MODEL_OWNERS, MODEL_DROP, RETAINED, COLL_GROUP): what each command answers while the mailbox is free,
one equation per case of its checks.
-/

namespace Sys2Proof.Machine

variable {s t : State}

/-- A mailbox command's answer is its work's result while the mailbox is free (R261). -/
theorem next_mailbox_free {code : Nat} {work : State → State} (hs : MailboxFree s) (h : work s = t) :
    (.next (mailbox code work s) : Host.Outcome State Fault Refusal) = .next t := by
  rw [mailbox_free hs, h]

/-! ### COMET_TRUST (R8, R319) -/

section
variable {count : BitVec 32} {digests : List Digest}

theorem exec_cometTrust : exec (.cometTrust count digests) s = execCometTrust count digests s := rfl

theorem cometTrust_above_limit (hs : MailboxFree s) (h : 1024 < count.toNat) :
    exec (.cometTrust count digests) s = .next (mboxEnd 0x0030 .countMismatch [] s) :=
  exec_cometTrust.trans (next_mailbox_free hs (if_pos h))

theorem cometTrust_replaces (hs : MailboxFree s) (h : count.toNat ≤ 1024) (h0 : count ≠ 0) :
    exec (.cometTrust count digests) s =
      .next (mboxEnd 0x0030 .ok [] { s with serv := { s.serv with trust := digests.take count.toNat } }) :=
  exec_cometTrust.trans (next_mailbox_free hs ((if_neg h.not_gt).trans (if_neg h0)))

theorem cometTrust_zero (hs : MailboxFree s) (h : count = 0) :
    exec (.cometTrust count digests) s = .next (mboxEnd 0x0030 .okEmpty [] s) := by
  subst h
  exact exec_cometTrust.trans (next_mailbox_free hs rfl)

end

/-! ### MODEL_OWNERS (R8, R327) -/

section
variable {count : BitVec 32} {owners : ReadBytes}

theorem exec_modelOwners : exec (.modelOwners count owners) s = execModelOwners count owners s := rfl

theorem modelOwners_above_limit (hs : MailboxFree s) (h : 64 < count.toNat) :
    exec (.modelOwners count owners) s = .next (mboxEnd 0x0031 .countMismatch [] s) :=
  exec_modelOwners.trans (next_mailbox_free hs (if_pos h))

theorem modelOwners_replaces (hs : MailboxFree s) (h : count.toNat ≤ 64) (h0 : count ≠ 0) :
    exec (.modelOwners count owners) s = .next (mboxEnd 0x0031 .ok [] { s with models := { s.models with
      owners := entriesAt 0 2048 count.toNat fun o => keyId (rdBytes (hostBytes owners) o 2048) } }) :=
  exec_modelOwners.trans (next_mailbox_free hs ((if_neg h.not_gt).trans (if_neg h0)))

theorem modelOwners_zero (hs : MailboxFree s) (h : count = 0) :
    exec (.modelOwners count owners) s = .next (mboxEnd 0x0031 .okEmpty [] s) := by
  subst h
  exact exec_modelOwners.trans (next_mailbox_free hs rfl)

end

/-! ### MODEL_DROP (R329) -/

section
variable {digest : Digest}

/-- A serving configuration names the model. -/
def modelConfigured (s : State) (digest : Digest) : Bool := s.serv.configs.any fun e => e.2.block.manifestDigest == digest

/-- The state in which a MODEL_DROP holds the mailbox. -/
def dropping (digest : Digest) (s : State) : State := setHost s { s.host with mboxRun := some (.modelDrop digest) }

theorem exec_modelDrop : exec (.modelDrop digest) s = execModelDrop digest s := rfl

theorem settleDrop_dropping_read (h : readsModel (dropping digest s) digest = true) :
    settleDrop (dropping digest s) = dropping digest s := if_pos h

theorem settleDrop_dropping_unread (h : readsModel (dropping digest s) digest = false) :
    settleDrop (dropping digest s) = mboxEnd 0x0032 .ok [] (dropModel digest (dropping digest s)) :=
  if_neg (Bool.eq_false_iff.mp h)

theorem modelDrop_refused (hs : MailboxFree s) (h : modelIn s.models.store digest = none ∨ modelConfigured s digest = true) :
    exec (.modelDrop digest) s = .next (mboxEnd 0x0032 .countMismatch [] s) := by
  have hc : ((modelIn s.models.store digest).isNone || modelConfigured s digest) = true := by
    rcases h with h | h <;> simp [h]
  exact exec_modelDrop.trans (next_mailbox_free hs (if_pos hc))

theorem modelDrop_settles {m : Model} (hs : MailboxFree s) (hm : modelIn s.models.store digest = some m)
    (h : modelConfigured s digest = false) : exec (.modelDrop digest) s = .next (settleDrop (dropping digest s)) := by
  have hc : ¬ ((modelIn s.models.store digest).isNone || modelConfigured s digest) = true := by simp [hm, h]
  exact exec_modelDrop.trans (next_mailbox_free hs (if_neg hc))

theorem modelDrop_waits {m : Model} (hs : MailboxFree s) (hm : modelIn s.models.store digest = some m)
    (h : modelConfigured s digest = false) (hr : readsModel (dropping digest s) digest = true) :
    exec (.modelDrop digest) s = .next (dropping digest s) := by
  rw [modelDrop_settles hs hm h, settleDrop_dropping_read hr]

theorem modelDrop_frees {m : Model} (hs : MailboxFree s) (hm : modelIn s.models.store digest = some m)
    (h : modelConfigured s digest = false) (hr : readsModel (dropping digest s) digest = false) :
    exec (.modelDrop digest) s = .next (mboxEnd 0x0032 .ok [] (dropModel digest (dropping digest s))) := by
  rw [modelDrop_settles hs hm h, settleDrop_dropping_unread hr]

end

/-! ### RETAINED (R304) -/

section
variable {req : BitVec 16} {q : Request}

theorem exec_retainedFree : exec (.retainedFree req) s = execRetainedFree req s := rfl
theorem exec_retainedPack : exec (.retainedPack req) s = execRetainedPack req s := rfl

theorem retainedFree_unknown (hs : MailboxFree s) (h : retainedAt s req.toNat = none) :
    exec (.retainedFree req) s = .next (mboxEnd 0x0023 .countMismatch [] s) :=
  exec_retainedFree.trans (next_mailbox_free hs (by rw [h]))

theorem retainedFree_closes (hs : MailboxFree s) (h : retainedAt s req.toNat = some q) :
    exec (.retainedFree req) s = .next (mboxEnd 0x0023 .ok [] (closeReq req.toNat 0 0 s)) :=
  exec_retainedFree.trans (next_mailbox_free hs (by rw [h]))

theorem retainedPack_unknown (hs : MailboxFree s) (h : retainedAt s req.toNat = none) :
    exec (.retainedPack req) s = .next (mboxEnd 0x0023 .countMismatch [] s) :=
  exec_retainedPack.trans (next_mailbox_free hs (by rw [h]))

theorem retainedPack_configured {c : ServConfig} (hs : MailboxFree s) (h : retainedAt s req.toNat = some q)
    (hc : configAt s q.config = some c) : exec (.retainedPack req) s = .next (packRetained req.toNat q s) :=
  exec_retainedPack.trans (next_mailbox_free hs (by simp [h, hc]))

theorem retainedPack_starts {c : ServConfig} {d : CometDest} (hs : MailboxFree s) (h : retainedAt s req.toNat = some q)
    (hc : configAt s q.config = some c) (hp : reservePool (cometMax s q) s = some (d, t)) :
    exec (.retainedPack req) s = .next (setHost (modReq req.toNat (fun q => { q with park := some (.retained, some d) }) t)
      { t.host with mboxRun := some (.retainedPack req.toNat) }) := by
  rw [retainedPack_configured hs h hc, packRetained, hp]

theorem retainedPack_no_room {c : ServConfig} (hs : MailboxFree s) (h : retainedAt s req.toNat = some q)
    (hc : configAt s q.config = some c) (hp : reservePool (cometMax s q) s = none) :
    exec (.retainedPack req) s = .next (mboxEnd 0x0023 .bufferTooSmall [] s) := by
  rw [retainedPack_configured hs h hc, packRetained, hp]

end

/-! ### COLL_GROUP (R358) -/

section
variable {group : BitVec 8} {valid : Bool} {p : BitVec 32} {nodes : List (BitVec 20)} {joinWait : BitVec 32}

/-- A run of the group is open. -/
def groupOpen (s : State) (g : Nat) : Bool := s.fab.runs.any fun r => r.group == g

/-- Entries of a node list that are this module. -/
def selfEntries (s : State) (nodes : List (BitVec 20)) : Nat := (nodes.filter (· == s.fab.nodeId)).length

/-- A group that COLL_GROUP does not define: no or too many members, no JOIN_WAIT, or a list that does not name this module exactly once. -/
def groupMisfit (s : State) (p : BitVec 32) (nodes : List (BitVec 20)) (joinWait : BitVec 32) : Prop :=
  p = 0 ∨ 4096 < p.toNat ∨ joinWait = 0 ∨ selfEntries s (nodes.take p.toNat) ≠ 1

theorem exec_collGroup : exec (.collGroup group valid p nodes joinWait) s = execCollGroup group valid p nodes joinWait s := rfl

theorem groupMisfit_iff : (!decide (1 ≤ p.toNat ∧ p.toNat ≤ 4096) || joinWait == 0 || selfEntries s (nodes.take p.toNat) != 1) = true ↔
    groupMisfit s p nodes joinWait := by
  have hp : ¬ (1 ≤ p.toNat ∧ p.toNat ≤ 4096) ↔ p = 0 ∨ 4096 < p.toNat := by bv_omega
  simp only [groupMisfit, Bool.or_eq_true, Bool.not_eq_true', decide_eq_false_iff_not, hp, beq_iff_eq, bne_iff_ne, or_assoc]

theorem collGroup_open (hs : MailboxFree s) (h : groupOpen s group.toNat = true) :
    exec (.collGroup group valid p nodes joinWait) s = .next (mboxEnd 0x0040 .countMismatch [] s) :=
  exec_collGroup.trans (next_mailbox_free hs (if_pos h))

theorem not_groupMisfit (h1 : 1 ≤ p.toNat) (h2 : p.toNat ≤ 4096) (hj : joinWait ≠ 0) (hn : selfEntries s (nodes.take p.toNat) = 1) :
    ¬ groupMisfit s p nodes joinWait := by
  rintro (rfl | hp | hj' | hn')
  · exact absurd h1 (by decide)
  · exact absurd h2 hp.not_ge
  · exact hj hj'
  · exact hn' hn

theorem collGroup_removes (hs : MailboxFree s) (h : groupOpen s group.toNat = false) (hv : valid = false) :
    exec (.collGroup group valid p nodes joinWait) s =
      .next (mboxEnd 0x0040 .ok [] { s with fab := { s.fab with groups := tdel group.toNat s.fab.groups } }) := by
  subst hv
  exact exec_collGroup.trans (next_mailbox_free hs (if_neg (Bool.eq_false_iff.mp h)))

theorem collGroup_refused (hs : MailboxFree s) (h : groupOpen s group.toNat = false) (hv : valid = true)
    (hm : groupMisfit s p nodes joinWait) :
    exec (.collGroup group valid p nodes joinWait) s = .next (mboxEnd 0x0040 .countMismatch [] s) := by
  subst hv
  exact exec_collGroup.trans (next_mailbox_free hs ((if_neg (Bool.eq_false_iff.mp h)).trans (if_pos (groupMisfit_iff.mpr hm))))

theorem collGroup_defines (hs : MailboxFree s) (h : groupOpen s group.toNat = false) (hv : valid = true)
    (hm : ¬ groupMisfit s p nodes joinWait) :
    exec (.collGroup group valid p nodes joinWait) s = .next (mboxEnd 0x0040 .ok [] { s with fab := { s.fab with
      groups := tput group.toNat { nodes := nodes.take p.toNat, joinWait := joinWait.toNat, queue := [] } s.fab.groups } }) := by
  subst hv
  exact exec_collGroup.trans (next_mailbox_free hs ((if_neg (Bool.eq_false_iff.mp h)).trans (if_neg (mt groupMisfit_iff.mp hm))))

end

end Sys2Proof.Machine

open Sys2Proof Sys2Proof.Machine

/-- Settles O28: every command by its equations above, case by case. That a COUNT of zero keeps the list is the model's reading of R8 and R274
(log 47); RETAINED without room ends BUFFER_TOO_SMALL by log 107. -/
theorem mailboxLists : Obligations.MailboxLists := by
  unfold Obligations.MailboxLists
  intro s hs
  exact ⟨fun count digests => ⟨cometTrust_above_limit hs, cometTrust_replaces hs, cometTrust_zero hs⟩,
    fun count owners => ⟨modelOwners_above_limit hs, modelOwners_replaces hs, modelOwners_zero hs⟩,
    fun digest => ⟨modelDrop_refused hs, fun m hm hc => ⟨modelDrop_waits hs hm hc, modelDrop_frees hs hm hc⟩⟩,
    fun req => ⟨fun h => ⟨retainedFree_unknown hs h, retainedPack_unknown hs h⟩,
      fun q h => ⟨retainedFree_closes hs h, fun c d u => retainedPack_starts hs h, fun c => retainedPack_no_room hs h⟩⟩,
    fun group valid p nodes joinWait => ⟨collGroup_open hs, collGroup_removes hs, fun h hv =>
      ⟨fun h1 h2 hj hn => collGroup_defines hs h hv (not_groupMisfit h1 h2 hj hn), collGroup_refused hs h hv⟩⟩⟩
end

section
/-!
PROOFS. The trace, the injection slots and REGISTER_WRITE: one equation per case of their checks.
-/

namespace Sys2Proof.Machine

variable {s : State}

/-! ### Enabling the trace (R512) -/

section
variable {w : BitVec 32}

/-- ENTRIES of the trace after a write: a valid size is taken, another one leaves the old (R512). -/
def traceEntriesFrom (w : BitVec 32) (s : State) : BitVec 17 :=
  if entriesValid (bits w.toNat 4 17) then BitVec.ofNat 17 (bits w.toNat 4 17) else s.faults.traceEntries

theorem exec_traceEnable : exec (.traceEnable w) s = execTraceEnable w s := rfl

/-- The size field is writable while the trace is off. -/
theorem traceEntries_stopped (ht : s.faults.traceEn = false) :
    (if s.faults.traceEn || !entriesValid (bits w.toNat 4 17) then s.faults.traceEntries else BitVec.ofNat 17 (bits w.toNat 4 17)) =
      traceEntriesFrom w s := by
  cases hn : entriesValid (bits w.toNat 4 17) <;> simp [traceEntriesFrom, ht, hn]

theorem traceEnable_size_only (ho : barOpen s = true) (ht : s.faults.traceEn = false) (hw : w.getLsbD 0 = false) :
    exec (.traceEnable w) s = .next { s with faults := { s.faults with traceEntries := traceEntriesFrom w s } } := by
  simp only [exec_traceEnable, execTraceEnable, traceEntries_stopped ht]
  simp only [ho, hw, Bool.not_true, Bool.not_false, Bool.false_eq_true, if_false, if_true]
  rw [← ht]

theorem traceEnable_starts (ho : barOpen s = true) (ht : s.faults.traceEn = false) (hw : w.getLsbD 0 = true)
    (he : entriesValid (traceEntriesFrom w s).toNat = true) (hb : s.faults.traceBase ≠ 0) :
    exec (.traceEnable w) s = .next { s with faults := { s.faults with
      traceEn := true, traceEntries := traceEntriesFrom w s, traceTail := 0, traceLost := 0 } } := by
  simp only [exec_traceEnable, execTraceEnable, traceEntries_stopped ht]
  simp only [ho, ht, hw, he, bne_iff_ne.mpr hb]
  rfl

end

/-! ### Arming an injection slot (R479, R480) -/

section
variable {k : Fin 8} {w : BitVec 32}

/-- A slot's setting after a write of a detector code, before ARM is decided (R480). -/
def slotSetting (k : Fin 8) (w : BitVec 32) (s : State) : InjSlot :=
  { tget ({} : InjSlot) k s.faults.inj with
    rep := w.getLsbD 1, detector := BitVec.ofNat 8 (bits w.toNat 8 8), island := BitVec.ofNat 8 (bits w.toNat 16 8) }

/-- ARM takes hold only where SCOPE allows every class of a setting that has one (R479). -/
def armTakesHold (w : BitVec 32) (s : State) (classes : List Nat) : Bool :=
  w.getLsbD 0 && classes != [] && classes.all fun c => s.faults.testScope.getLsbD c

/-- The slot after the write: its setting, and ARM as SCOPE allows (R479, R480). -/
def slotWritten (k : Fin 8) (w : BitVec 32) (s : State) : InjSlot :=
  let x := slotSetting k w s
  { x with arm := armTakesHold w s (injClasses s (bits w.toNat 8 8) x.island.toNat x.loc.toNat x.pattern.toNat) }

theorem exec_injectionArm : exec (.injectionArm k w) s = execInjectionArm k w s := rfl

theorem injectionArm_test_off (h : s.faults.test = false) : exec (.injectionArm k w) s = .next s := by
  simp [exec_injectionArm, execInjectionArm, h]

theorem detectorCode_of_range {det : Nat} (h1 : 1 ≤ det) (h2 : det ≤ 0x13) : detectorCode det = true := by
  simp [detectorCode, h1, h2]

/-- A detector that corrupts data arms its slot without firing it. -/
theorem injectionArm_sets_slot (ho : barOpen s = true) (ht : s.faults.test = true) (h1 : 1 ≤ bits w.toNat 8 8)
    (h2 : bits w.toNat 8 8 ≤ 0x13) (hi : indicationOnly (bits w.toNat 8 8) = false) :
    exec (.injectionArm k w) s = .next { s with faults := { s.faults with inj := tset {} k.val (slotWritten k w s) s.faults.inj } } := by
  have hd : (BitVec.ofNat 8 (bits w.toNat 8 8)).toNat = bits w.toNat 8 8 := Nat.mod_eq_of_lt (by omega)
  simp [exec_injectionArm, execInjectionArm, ho, ht, detectorCode_of_range h1 h2, hd, hi, slotWritten, slotSetting, armTakesHold]

end

/-! ### REGISTER_WRITE (R503 to R506) -/

section
variable {a : BitVec 24} {n : Nat} {v : BitVec 64}

theorem exec_registerWrite : exec (.registerWrite a n v) s = execRegisterWrite a n v s := rfl

/-- A size other than 4 and 8, or an address off the size's grid. -/
theorem registerWrite_misfit (h : n ≠ 4 ∧ n ≠ 8 ∨ a.toNat % n ≠ 0) : exec (.registerWrite a n v) s = .next s := by
  have h4 : ¬ (n = 4 ∧ a.toNat % 4 = 0) := by rintro ⟨rfl, h4⟩; simp [h4] at h
  have h8 : ¬ (n = 8 ∧ a.toNat % 8 = 0) := by rintro ⟨rfl, h8⟩; simp [h8] at h
  simp [exec_registerWrite, execRegisterWrite, h4, h8]

theorem registerWrite_four (ho : barOpen s = true) (ha : a.toNat % 4 = 0) :
    exec (.registerWrite a 4 v) s = .next (write4 a.toNat (v.toNat % 0x100000000) s) := by
  simp [exec_registerWrite, execRegisterWrite, ho, ha]

theorem registerWrite_eight (ho : barOpen s = true) (ha : a.toNat % 8 = 0) : exec (.registerWrite a 8 v) s =
    .next (write4 (a.toNat + 4) (v.toNat / 0x100000000) (write4 a.toNat (v.toNat % 0x100000000) s)) := by
  simp [exec_registerWrite, execRegisterWrite, ho, ha]

theorem keepIn_true {w x : Nat} {old : BitVec w} : keepIn true x old = BitVec.ofNat w x := rfl
theorem keepIn_false {w x : Nat} {old : BitVec w} : keepIn false x old = old := rfl

/-- WINDOW_GIB stands at 0x100000: 13 bits, locked by SETUP_DONE, at most 4,096 (R6, R506). -/
theorem write4_windowGib (x : Nat) : write4 0x100000 x s = { s with mem := { s.mem with
    windowGib := keepIn (!s.boot.setupDone && decide (bits x 0 13 ≤ 4096)) (bits x 0 13) s.mem.windowGib } } := by
  simp [write4, writeTiers]

/-- The low word of a value has its low bits. -/
theorem bits_low_word (x : Nat) : bits (x % 0x100000000) 0 13 = x % 8192 := by
  simp only [bits, pow_zero, Nat.div_one]
  omega

theorem registerWrite_windowGib (ho : barOpen s = true) : exec (.registerWrite 0x100000 4 v) s =
    .next { s with mem := { s.mem with
      windowGib := keepIn (!s.boot.setupDone && decide (v.toNat % 8192 ≤ 4096)) (v.toNat % 8192) s.mem.windowGib } } := by
  have ha : (0x100000 : BitVec 24).toNat = 0x100000 := rfl
  rw [registerWrite_four ho rfl, ha, write4_windowGib, bits_low_word]

theorem registerWrite_windowGib_locked (ho : barOpen s = true) (h : s.boot.setupDone = true ∨ 4096 < v.toNat % 8192) :
    exec (.registerWrite 0x100000 4 v) s = .next s := by
  have hc : (!s.boot.setupDone && decide (v.toNat % 8192 ≤ 4096)) = false := by
    rcases h with h | h
    · simp [h]
    · simp [h.not_ge]
  rw [registerWrite_windowGib ho, hc, keepIn_false]

theorem registerWrite_windowGib_taken (ho : barOpen s = true) (h : s.boot.setupDone = false) (hv : v.toNat % 8192 ≤ 4096) :
    exec (.registerWrite 0x100000 4 v) s =
      .next { s with mem := { s.mem with windowGib := BitVec.ofNat 13 (v.toNat % 8192) } } := by
  have hc : (!s.boot.setupDone && decide (v.toNat % 8192 ≤ 4096)) = true := by simp [h, hv]
  rw [registerWrite_windowGib ho, hc, keepIn_true]

end

end Sys2Proof.Machine

open Sys2Proof Sys2Proof.Machine

/-- Settles O34: the trace, the slots, the sizes of a write and WINDOW_GIB, each by its equations above. -/
theorem registerWritesTakeEffect : Obligations.RegisterWritesTakeEffect := by
  unfold Obligations.RegisterWritesTakeEffect
  exact ⟨fun s w ho ht => ⟨traceEnable_size_only ho ht, traceEnable_starts ho ht⟩,
    fun s k w _ ht => injectionArm_test_off ht,
    fun s k w ho ht h1 h2 hi => injectionArm_sets_slot ho ht h1 h2 hi,
    fun s a n v ho => ⟨⟨fun h4 h8 => registerWrite_misfit (.inl ⟨h4, h8⟩), fun h => registerWrite_misfit (.inr h)⟩,
      registerWrite_eight ho⟩,
    fun s v ho => ⟨fun h => registerWrite_windowGib_locked ho (.inl h), fun _ hv => registerWrite_windowGib_locked ho (.inr hv),
      registerWrite_windowGib_taken ho⟩⟩
end

section
/-!
PROOFS. Steps and commands of a sound state: a step runs the front of the queue or one control tick, every command answers a next state, and what
Laws/KeptExec.lean keeps gives soundness, the queue and the tick; the reset state.
-/

namespace Sys2Proof.Machine

variable {s t : State}

/-! ### One step (R20, R22) -/

theorem step_cons {c : Instr} {rest : List Instr} (h : s.pending = c :: rest) : step s = exec c { s with pending := rest } := by
  simp only [step, h]

theorem step_nil (h : s.pending = []) : step s = .next (controlTick s) := by
  simp only [step, h]

/-- Soundness does not speak of the waiting commands. -/
theorem Sound.withPending (h : Sound s) (rest : List Instr) : Sound { s with pending := rest } := h

/-! ### Commands -/

/-- No meaning has another answer: each is written as a next state, its conditions inside it. -/
theorem exec_completes (c : Instr) (s : State) : ∃ t, exec c s = .next t := by
  cases c <;> exact ⟨_, rfl⟩

/-- A command on a sound state, measured against that state: the meter and the floors may have risen. -/
theorem exec_keptN (h : Sound s) (c : Instr) : KeptN s.pending s.base (exec c s) :=
  exec_kept c (kept_self h) (fun _ => rfl) fun _ _ _ _ _ => floorUp_max

theorem exec_sound {c : Instr} (h : Sound s) (e : exec c s = .next t) : Sound t := (exec_keptN h c t e).sound

/-! ### The control tick (R22) -/

/-- A control tick of a sound state keeps the meter and the queue, and counts. -/
theorem controlTick_kept_same (h : Sound s) : Kept s.pending { s.same with tick := s.tick + 1 } (controlTick s) :=
  controlTick_kept (kept_same h)

theorem controlTick_sound (h : Sound s) : Sound (controlTick s) := (controlTick_kept_same h).sound

/-! ### Reset (R454, R461) -/

theorem sound_reset : Sound State.reset := by
  unfold Sound MemOk SeqOk MeterOk
  decide

/-- Neither BAR0 nor its two registers of a warm reset answer before the main domain is on. -/
theorem readable_main_off (h : s.entry.main = false) (a : Nat) : readable s a = false := by
  simp [readable, barOpen, h]

theorem readBar_main_off (h : s.entry.main = false) (a : BitVec 24) (n : Nat) : readBar s a n = 0 := by
  have hw (x : Nat) : readWord s x = 0 := by simp [readWord, readable_main_off h]
  simp [readBar, hw]

end Sys2Proof.Machine

open Sys2Proof Sys2Proof.Machine

/-- Settles O3: a command at the front keeps soundness by `exec_sound`, the control tick of an empty queue by `controlTick_sound`. -/
theorem stepKeepsSound : Obligations.StepKeepsSound := by
  unfold Obligations.StepKeepsSound
  intro s t hs ht
  cases hp : s.pending with
  | nil =>
    rw [step_nil hp] at ht
    cases ht
    exact controlTick_sound hs
  | cons c rest =>
    rw [step_cons hp] at ht
    exact exec_sound (hs.withPending rest) ht

/-- Settles O2. That every command answers a next state is the model's choice (log 142), as is that a command takes no tick (log 1). -/
theorem commandsCompleteAndKeepTheQueue : Obligations.CommandsCompleteAndKeepTheQueue := by
  unfold Obligations.CommandsCompleteAndKeepTheQueue
  intro s c hs
  obtain ⟨t, ht⟩ := exec_completes c s
  have hk := exec_keptN hs c t ht
  exact ⟨t, ht, hk.pending, hk.tick⟩

/-- Settles O1: by the cases of the queue; what a tick keeps of a sound state is `controlTick_kept_same`. -/
theorem stepRunsTheFront : Obligations.StepRunsTheFront := by
  unfold Obligations.StepRunsTheFront
  refine fun s => ⟨fun c rest => step_cons, step_nil, fun hp hs => ?_⟩
  have hk := controlTick_kept_same hs
  exact ⟨hk.tick, hk.pending.trans hp, hk.meter⟩

/-- Settles O4: at reset the main domain is off, so that no read of BAR0 reaches a register; the other values are those of the reset state. -/
theorem resetIsSound : Obligations.ResetIsSound := by
  unfold Obligations.ResetIsSound
  exact ⟨sound_reset, rfl, rfl, rfl, rfl, by decide, rfl, readBar_main_off rfl⟩
end

section
/-!
PROOFS. NOP, TIME_MARK, FENCE and the fetch burst: what each answers once its descriptor is taken up, and what accepting one descriptor changes.
-/

namespace Sys2Proof.Machine

variable {s : State} {q : QId} {h : DescHdr} {acc : Nat}

/-! ### Descriptors without operands (R271, R274, R278) -/

theorem exec_nop_taken (ht : Taken s q .nop h acc) : exec (.nop q h) s = .next (finish acc .ok 0 0 (started s q acc)) :=
  congrArg Host.Outcome.next (withDesc_taken ht (by decide))

/-- Starting a descriptor takes no event number, so TIME_MARK returns the next one of the state it finds (R21). -/
theorem exec_timeMark_taken (ht : Taken s q .timeMark h acc) : exec (.timeMark q h) s =
    .next (finish acc .ok s.faults.nextSeq 0 (recordEvent 5 h.mark (started s q acc))) :=
  congrArg Host.Outcome.next (withDesc_taken ht (by decide))

/-- The state in which a FENCE waits: it has started and its scope is known (R278). -/
def fencing (s : State) (q : QId) (acc : Nat) (allQueues : Bool) : State :=
  setOpens (started s q acc) (tup acc (fun d => { d with allQueues := allQueues }) (started s q acc).host.opens)

theorem exec_fence_taken {b : Bool} (ht : Taken s q .fence h acc) : exec (.fence q h b) s =
    .next (settleFences (fencing s q acc b).host.opens.length (fencing s q acc b)) :=
  congrArg Host.Outcome.next (withDesc_taken ht (by decide))

theorem settleFences_none (hr : readyFence s.host.opens = none) (n : Nat) : settleFences n s = s := by
  cases n <;> simp [settleFences, hr]

theorem exec_fence_waits {b : Bool} (ht : Taken s q .fence h acc) (hr : readyFence (fencing s q acc b).host.opens = none) :
    exec (.fence q h b) s = .next (fencing s q acc b) := by
  rw [exec_fence_taken ht, settleFences_none hr]

/-! ### Accepting one descriptor (R239, R270) -/

section
variable {k : Nat} {d : OpenDesc}

theorem acceptOne_frame : acceptOne k d s = { s with host := (acceptOne k d s).host } := rfl

theorem acceptOne_nextAcc : (acceptOne k d s).host.nextAcc = s.host.nextAcc + 1 := rfl

/-- The descriptor opens under the next acceptance number, with the mark of the window writes that its doorbell covered (R278). -/
theorem acceptOne_opens : tfind s.host.nextAcc (acceptOne k d s).host.opens =
    some { d with winMark := ((queueAt s k).covers.head?.map (·.2)).getD 0 } := by
  simp [acceptOne, setHost]

/-- Of the queue's registers only SQ_HEAD advances, beside the doorbells it still covers and its entries in flight. -/
theorem acceptOne_queue : queueAt (acceptOne k d s) k = { queueAt s k with
    sqHead := BitVec.ofNat 16 (((queueAt s k).sqHead.toNat + 1) % (queueAt s k).sqSize.toNat)
    covers := (queueAt (acceptOne k d s) k).covers
    inFlight := (queueAt s k).inFlight - 1 } := by
  simp [acceptOne, queueAt, setQueue, setHost]

end

theorem acceptFetched_known {k : Nat} {bs : List Byte} (hk : opcodeKnown (byteAt bs 0) = true) :
    acceptFetched k s bs = acceptOne k (parseDesc s.tick k bs) s := if_pos hk

theorem writeShadow_off {k : Nat} (hs : (queueAt s k).shadow = 0) : writeShadow k s = s := if_pos hs

/-! ### The fetch burst (R239, R266) -/

section
variable {descs : List (List Byte)} {bs : List Byte}

/-- The state after a burst, before the copies that waited for their target go on. -/
def fetched (q : Nat) (descs : List (List Byte)) (s : State) : State := writeShadow q (descs.foldl (acceptFetched q) s)

theorem exec_fetchBurst (hf : fetchOpen s q = true) (h1 : 1 ≤ descs.length) (h2 : descs.length ≤ burstRoom (queueAt s q)) :
    exec (.descriptorFetchBurst q descs) s = .next (settleCopies (fetched q descs s)) := by
  have hc : (fetchOpen s q && decide (1 ≤ descs.length ∧ descs.length ≤ burstRoom (queueAt s q))) = true := by simp [hf, h1, h2]
  exact congrArg Host.Outcome.next (if_pos hc)

theorem fetched_one {k : Nat} (hk : opcodeKnown (byteAt bs 0) = true) (hs : (queueAt s k).shadow = 0) :
    fetched k [bs] s = acceptOne k (parseDesc s.tick k bs) s := by
  have hq : (queueAt (acceptOne k (parseDesc s.tick k bs) s) k).shadow = 0 := by rw [acceptOne_queue]; exact hs
  simp only [fetched, List.foldl_cons, List.foldl_nil, acceptFetched_known hk, writeShadow_off hq]

/-- Without copies and fields nothing waits for a target or a feed. -/
theorem settleCopies_idle (hc : s.fld.copies = []) (hf : s.fld.fields = []) : settleCopies s = s := by
  simp [settleCopies, pumpAll, resolveFeeds, hc, hf]

end

end Sys2Proof.Machine

open Sys2Proof Sys2Proof.Machine

/-- Settles O14: the three descriptors once they are taken up, and the burst; that of one known descriptor is `acceptOne` of it. -/
theorem nopFenceAndFetch : Obligations.NopFenceAndFetch := by
  unfold Obligations.NopFenceAndFetch
  refine ⟨fun s q h acc => ⟨exec_nop_taken, exec_timeMark_taken, fun b ht => ⟨exec_fence_taken ht, exec_fence_waits ht⟩⟩,
    fun s q descs hf h1 h2 => ⟨exec_fetchBurst hf h1 h2, ?_⟩⟩
  rintro bs rfl hk hs
  have he := exec_fetchBurst hf h1 h2
  rw [fetched_one hk hs] at he
  exact ⟨_, he, fun hc hfs => settleCopies_idle hc hfs, acceptOne_opens, acceptOne_nextAcc, acceptOne_queue, acceptOne_frame⟩
end

section
/-!
PROOFS. Detections: fence actions, the unit test, and the fatal events with the end of their park.
-/

namespace Sys2Proof.Machine

variable {s : State} {d : Detection} {u : Tile}

/-! ### The cycle counter that a detection carries (R20, R472; log 70) -/

theorem takeCycles_refused {i : Nat} {c : BitVec 64} (h : cyclesPerTick s i = 0 ∨ c < islandCycles s i) : takeCycles i c s = s := if_pos h

theorem takeCycles_taken {i : Nat} {c : BitVec 64} (h0 : cyclesPerTick s i ≠ 0) (h : islandCycles s i ≤ c) :
    takeCycles i c s = { s with grid := { s.grid with cycles := tset 0 i c s.grid.cycles } } :=
  if_neg (not_or.mpr ⟨h0, BitVec.not_lt.mpr h⟩)

/-- Only the counters may change. -/
theorem takeCycles_frame (i : Nat) (c : BitVec 64) : takeCycles i c s = { s with grid := (takeCycles i c s).grid } := by
  unfold takeCycles
  split <;> rfl

@[simp] theorem takeCycles_faults (i : Nat) (c : BitVec 64) : (takeCycles i c s).faults = s.faults := by rw [takeCycles_frame]
@[simp] theorem takeCycles_entry (i : Nat) (c : BitVec 64) : (takeCycles i c s).entry = s.entry := by rw [takeCycles_frame]

/-! ### FENCE_ACTION (R467 to R472) -/

/-- With test mode off no slot meets the detection (R479, R481). -/
theorem exec_fenceAction_contained (hm : s.entry.main = true) (hf : fatalDetector d.detector.toNat d.island.toNat = false)
    (hi : islandKnown d.island.toNat = true) (ht : s.faults.test = false) : exec (.fenceAction d) s =
    .next (noteService s (liftFences (fenceAction d.detector.toNat d.island.toNat d.loc.toNat (takeCycles d.island.toNat d.cycles s)))) := by
  have hmeet := injMeet_off (s := takeCycles d.island.toNat d.cycles s) (by simpa using ht) d.detector.toNat d.island.toNat d.loc.toNat
  have hc : ¬ (!s.entry.main || fatalDetector d.detector.toNat d.island.toNat || !islandKnown d.island.toNat) = true := by simp [hm, hf, hi]
  refine congrArg Host.Outcome.next ((if_neg hc).trans ?_)
  simp only [hmeet, ite_self]

theorem exec_fenceAction_ignored (h : s.entry.main = false ∨ fatalDetector d.detector.toNat d.island.toNat = true) :
    exec (.fenceAction d) s = .next s :=
  congrArg Host.Outcome.next (if_pos (by rcases h with h | h <;> simp [h]))

/-! ### The unit test (R470, R498) -/

/-- Nothing to test: the main domain is off, a fatal event has latched, the unit has no fence, or its pair waits for its new map. -/
def untestable (s : State) (u : Tile) : Bool :=
  !s.entry.main || s.faults.fatal || !s.faults.fencedUnits.contains (tileIx u) ||
    (tget 0 (tileBand (tileIx u)) s.fld.pendingPairs).getLsbD (tilePair s (tileIx u))

theorem untestable_unfenced (h : s.faults.fencedUnits.contains (tileIx u) = false) : untestable s u = true := by
  simp only [untestable, h, Bool.not_false, Bool.or_true, Bool.true_or]

theorem exec_unitTest_ignored {b : Bool} (h : untestable s u = true) : exec (.unitTest u b) s = .next s :=
  congrArg Host.Outcome.next (if_pos h)

/-- The state in which a unit is tested: its configuration and its work are gone (R498). -/
def cleared (s : State) (u : Tile) : State := setUnit s (tileIx u) {}

/-- A unit of no field is cleared for its test at once: no section uses it. -/
theorem exec_unitTest_fieldless {b : Bool} (h : untestable s u = false) (hn : fieldOfTile s (tileIx u) = none) : exec (.unitTest u b) s =
    .next (if b && !twoEvents (cleared s u) (tileIx u) then
      noteLift (tileIsland (cleared s u) (tileIx u)) (tileLoc (tileIx u)) 2 { cleared s u with
        faults := { s.faults with fencedUnits := s.faults.fencedUnits.filter fun x => x != tileIx u } }
    else noteService s (retirePair (tileBand (tileIx u)) (tilePair (cleared s u) (tileIx u)) (cleared s u))) := by
  refine congrArg Host.Outcome.next ((if_neg (Bool.eq_false_iff.mp h)).trans (if_neg ?_))
  rw [← tileIx, hn]
  exact Bool.false_ne_true

/-- A unit that passes has its fence lifted, unless it has had two events (R470). -/
theorem exec_unitTest_lifts (h : untestable s u = false) (hn : fieldOfTile s (tileIx u) = none)
    (h2 : twoEvents (cleared s u) (tileIx u) = false) : exec (.unitTest u true) s =
    .next (noteLift (tileIsland (cleared s u) (tileIx u)) (tileLoc (tileIx u)) 2 { cleared s u with
      faults := { s.faults with fencedUnits := s.faults.fencedUnits.filter fun x => x != tileIx u } }) :=
  (exec_unitTest_fieldless h hn).trans (congrArg Host.Outcome.next (if_pos (by rw [h2]; rfl)))

/-- One that fails retires its column pair (R470, R483). -/
theorem exec_unitTest_retires (h : untestable s u = false) (hn : fieldOfTile s (tileIx u) = none) : exec (.unitTest u false) s =
    .next (noteService s (retirePair (tileBand (tileIx u)) (tilePair (cleared s u) (tileIx u)) (cleared s u))) :=
  (exec_unitTest_fieldless h hn).trans (congrArg Host.Outcome.next (if_neg Bool.false_ne_true))

/-! ### Fatal events (R28, R474, R475) -/

theorem exec_fatalEvent : exec (.fatalEvent d) s = execFatalEvent d s := rfl

theorem exec_fatalEvent_ignored (h : s.entry.main = false) : exec (.fatalEvent d) s = .next s := by
  simp [exec_fatalEvent, execFatalEvent, h]

section
variable (hm : s.entry.main = true)
include hm

theorem exec_fatalEvent_starts (hf : fatalDetector d.detector.toNat d.island.toNat = true) (h1 : d.detector ≠ 0x11)
    (h2 : d.detector ≠ 0x12) (h3 : d.detector ≠ 0x13) :
    exec (.fatalEvent d) s = .next (fatalStart d.detector.toNat d.island.toNat d.loc.toNat false false (takeCycles d.island.toNat d.cycles s)) := by
  have h1 : d.detector.toNat ≠ 0x11 := by bv_omega
  have h2 : d.detector.toNat ≠ 0x12 := by bv_omega
  have h3 : d.detector.toNat ≠ 0x13 := by bv_omega
  simp [exec_fatalEvent, execFatalEvent, hm, hf, h1, h2, h3]

/-- A main rail out of regulation (R28). -/
theorem exec_fatalEvent_rail (h : d.detector = 0x11) : exec (.fatalEvent d) s =
    .next (fatalStart 0x11 d.island.toNat d.loc.toNat false false (setEntry (takeCycles d.island.toNat d.cycles s)
      { (takeCycles d.island.toNat d.cycles s).entry with pwrGood := false })) := by
  simp [exec_fatalEvent, execFatalEvent, fatalDetector, hm, h]

/-- An input out of range (R31, R409). -/
theorem exec_fatalEvent_input (h : d.detector = 0x12) : ∃ v, v = fatalRailsOff 0x12 d.island.toNat d.loc.toNat
    (takeCycles d.island.toNat d.cycles s) ∧ exec (.fatalEvent d) s = .next (setEntry v { v.entry with inputFault := true }) := by
  simp [exec_fatalEvent, execFatalEvent, fatalDetector, hm, h]

/-- A thermal trip is the command of its own (R412). -/
theorem exec_fatalEvent_trip (h : d.detector = 0x13) :
    exec (.fatalEvent d) s = exec (.thermalTrip d.island) (takeCycles d.island.toNat d.cycles s) := by
  obtain ⟨t, ht⟩ := exec_completes (.thermalTrip d.island) (takeCycles d.island.toNat d.cycles s)
  have ha : afterOf (takeCycles d.island.toNat d.cycles s) (execThermalTrip d.island (takeCycles d.island.toNat d.cycles s)) = t :=
    congrArg (afterOf _) ht
  rw [ht]
  simp [exec_fatalEvent, execFatalEvent, fatalDetector, hm, h, ha]

end

/-- The rails are off after an event that removes them, whether they were on or not. -/
theorem fatalRailsOff_main (det isl loc : Nat) : (fatalRailsOff det isl loc s).entry.main = false := by
  unfold fatalRailsOff
  extract_lets v
  split
  · rfl
  · exact Bool.eq_false_iff.mpr ‹_›

theorem exec_heartbeatLoss (hm : s.entry.main = true) (pair : Bool) (c : BitVec 64) : exec (.heartbeatLoss pair c) s =
    .next (fatalStart 0x10 0x12 (if pair then 1 else 0) false false (takeCycles 0x12 c s)) :=
  congrArg Host.Outcome.next (if_pos hm)

theorem exec_heartbeatLoss_ignored (hm : s.entry.main = false) (pair : Bool) (c : BitVec 64) : exec (.heartbeatLoss pair c) s = .next s :=
  congrArg Host.Outcome.next (if_neg (Bool.eq_false_iff.mp hm))

/-- A fatal detection that finds the latch set: ALIVE stands still, a removal of the rails is noted. -/
def fatalAgain (rails : Bool) (s : State) : State :=
  { s with faults := { s.faults with fatalRails := s.faults.fatalRails || rails }, entry := { s.entry with alive := false } }

/-- A later fatal detection is only logged (R474). -/
theorem fatalStart_latched (h : s.faults.fatal = true) (det isl loc : Nat) (inj rails : Bool) : fatalStart det isl loc inj rails s =
    logDetection (BitVec.ofNat 8 isl) (BitVec.ofNat 8 det) 2 inj 11 (islandCycles (fatalAgain rails s) isl) (BitVec.ofNat 64 loc) 0x04FF
      (fatalAgain rails s) := by
  have hs : { s with faults := { s.faults with fatal := true, fatalRails := s.faults.fatalRails || rails }, entry := { s.entry with alive := false } } =
      fatalAgain rails s := by rw [← h]; rfl
  unfold fatalStart
  rw [hs, h]
  rfl

/-! ### The end of the fatal park (R474) -/

theorem exec_fatalParkExpiry_completes (h : s.faults.fatalPhase = .stopped) :
    ∃ t, exec .fatalParkExpiry s = .next t ∧ t.faults.fatalPhase = .completed :=
  ⟨_, congrArg Host.Outcome.next (if_neg (not_not.mpr h)), rfl⟩

theorem exec_fatalParkExpiry_ignored (h : s.faults.fatalPhase ≠ .stopped) : exec .fatalParkExpiry s = .next s :=
  congrArg Host.Outcome.next (if_pos h)

end Sys2Proof.Machine

open Sys2Proof Sys2Proof.Machine

/-- Settles O58: each detection by its equation above. That an unknown island is ignored rests on log 66, the later counter value that a detection
may carry on log 70. -/
theorem faultsAreHandled : Obligations.FaultsAreHandled := by
  unfold Obligations.FaultsAreHandled
  refine ⟨fun s d => exec_fenceAction_contained, fun s d => exec_fenceAction_ignored, fun s u hm hf hc hp hn => ?_,
    fun s u b hc => exec_unitTest_ignored (untestable_unfenced hc), fun s d hm hf h2 h3 => ?_,
    fun s i c => ⟨takeCycles_refused, takeCycles_taken⟩, fun s d hm _ h => ?_, fun s d hm _ => exec_fatalEvent_trip hm,
    fun s pair c hm => exec_heartbeatLoss hm pair c, fun s d i loc a r h => ⟨fatalAgain r s, rfl, fatalStart_latched h ..⟩,
    fun s => exec_fatalParkExpiry_completes, fun s => exec_fatalParkExpiry_ignored, fun s hm => ?_⟩
  · have ht : untestable s u = false := by simp only [untestable, hm, hf, hc, hp]; rfl
    exact ⟨fun h2 => ⟨_, rfl, exec_unitTest_lifts ht hn h2⟩, exec_unitTest_retires ht hn⟩
  · exact ⟨_, rfl, fun h1 => exec_fatalEvent_starts hm hf h1 h2 h3, exec_fatalEvent_rail hm⟩
  · obtain ⟨v, rfl, he⟩ := exec_fatalEvent_input hm h
    exact ⟨_, he, fatalRailsOff_main .., rfl⟩
  · exact ⟨fun d => exec_fatalEvent_ignored hm, fun p c => exec_heartbeatLoss_ignored hm p c,
      fun u b => exec_unitTest_ignored (by simp [untestable, hm])⟩
end

section
/-!
PROOFS. The rack managers' messages: what taking one leaves in the governor, and what each command answers.
-/

namespace Sys2Proof.Machine

variable {s : State} {bus : Bus}

/-! ### Lowering of the cap in force (R397, R398) -/

/-- Noting a lowering writes the peak record only. -/
theorem noteLowering_frame (before : Nat) : noteLowering before s = setGov s { s.gov with
    sinceLower := (noteLowering before s).gov.sinceLower
    peak := (noteLowering before s).gov.peak
    sincePeak := (noteLowering before s).gov.sincePeak } := by
  unfold noteLowering
  split <;> rfl

/-- A change of the governor's conditions leaves the peak record as the one thing beside it that may change. -/
theorem changeCaps_frame (g : Gov → Gov) : changeCaps g s = setGov s { g s.gov with
    sinceLower := (changeCaps g s).gov.sinceLower
    peak := (changeCaps g s).gov.peak
    sincePeak := (changeCaps g s).gov.sincePeak } :=
  noteLowering_frame _

/-! ### A manager is heard (R401) -/

section
variable (bus : Bus) (g : Gov) (n : Nat)

@[simp] theorem heard_orphan : (heard bus g n).orphan = false := by cases bus <;> rfl
@[simp] theorem heard_heardAt : (heard bus g n).heardAt = n := by cases bus <;> rfl
@[simp] theorem heard_activeA : (heard bus g n).activeA = g.activeA := by cases bus <;> rfl
@[simp] theorem heard_activeB : (heard bus g n).activeB = g.activeB := by cases bus <;> rfl
@[simp] theorem heard_capA : (heard bus g n).capA = g.capA := by cases bus <;> rfl
@[simp] theorem heard_capB : (heard bus g n).capB = g.capB := by cases bus <;> rfl
@[simp] theorem heard_capLast : (heard bus g n).capLast = g.capLast := by cases bus <;> rfl
@[simp] theorem heard_orphanCap : (heard bus g n).orphanCap = g.orphanCap := by cases bus <;> rfl
@[simp] theorem heard_out : (heard bus g n).out = g.out := by cases bus <;> rfl

end

/-! ### Taking a message: its effect on a governor whose manager has just been heard -/

section
variable (bus : Bus) (g : Gov → Gov) (s : State)

theorem takeMessage_frame : takeMessage bus g s = setGov s { g (heard bus s.gov s.tick) with
    sinceLower := (takeMessage bus g s).gov.sinceLower
    peak := (takeMessage bus g s).gov.peak
    sincePeak := (takeMessage bus g s).gov.sincePeak } :=
  changeCaps_frame _

@[simp] theorem takeMessage_orphan : (takeMessage bus g s).gov.orphan = (g (heard bus s.gov s.tick)).orphan := by rw [takeMessage_frame]; rfl
@[simp] theorem takeMessage_heardAt : (takeMessage bus g s).gov.heardAt = (g (heard bus s.gov s.tick)).heardAt := by rw [takeMessage_frame]; rfl
@[simp] theorem takeMessage_activeA : (takeMessage bus g s).gov.activeA = (g (heard bus s.gov s.tick)).activeA := by rw [takeMessage_frame]; rfl
@[simp] theorem takeMessage_activeB : (takeMessage bus g s).gov.activeB = (g (heard bus s.gov s.tick)).activeB := by rw [takeMessage_frame]; rfl
@[simp] theorem takeMessage_capA : (takeMessage bus g s).gov.capA = (g (heard bus s.gov s.tick)).capA := by rw [takeMessage_frame]; rfl
@[simp] theorem takeMessage_capB : (takeMessage bus g s).gov.capB = (g (heard bus s.gov s.tick)).capB := by rw [takeMessage_frame]; rfl
@[simp] theorem takeMessage_capLast : (takeMessage bus g s).gov.capLast = (g (heard bus s.gov s.tick)).capLast := by rw [takeMessage_frame]; rfl
@[simp] theorem takeMessage_orphanCap : (takeMessage bus g s).gov.orphanCap = (g (heard bus s.gov s.tick)).orphanCap := by rw [takeMessage_frame]; rfl
@[simp] theorem takeMessage_out : (takeMessage bus g s).gov.out = (g (heard bus s.gov s.tick)).out := by rw [takeMessage_frame]; rfl

end

/-- Taking a message and answering it change nothing but the governor. -/
theorem mctpRespond_takeMessage_frame (bus : Bus) (st : Status) (bytes : List Byte) (g : Gov → Gov) :
    mctpRespond bus st bytes (takeMessage bus g s) = { s with gov := (mctpRespond bus st bytes (takeMessage bus g s)).gov } := by
  rw [takeMessage_frame]
  rfl

@[simp] theorem mctpRespond_gov (bus : Bus) (st : Status) (bytes : List Byte) (s : State) :
    (mctpRespond bus st bytes s).gov = govSend ⟨bus, 0x81, statusCode st, bytes, 1⟩ s.gov := rfl

/-- No mirror register shows what has been sent (R414). -/
@[simp] theorem mirrorRegs_mctpRespond (bus : Bus) (st : Status) (bytes : List Byte) (s : State) :
    mirrorRegs (mctpRespond bus st bytes s) = mirrorRegs s := rfl

/-! ### What the messages ask for (R400, R402) -/

/-- The role that a HEARTBEAT declares. -/
def declareRole (bus : Bus) (active : Bool) (g : Gov) : Gov :=
  { g with activeA := if bus = .a then active else g.activeA, activeB := if bus = .b then active else g.activeB }

/-- The cap of a SET_CAP, in watts. -/
def acceptCap (bus : Bus) (watts : Nat) (g : Gov) : Gov :=
  { g with capA := if bus = .a then some watts else g.capA, capB := if bus = .b then some watts else g.capB, capLast := watts }

/-- The cap of a SET_ORPHAN_CAP, in watts. -/
def acceptOrphanCap (watts : Nat) (g : Gov) : Gov := { g with orphanCap := watts }

section
variable (h : mgmtOn s = true)
include h

theorem mgmt_not_off : ¬ (!mgmtOn s) = true := by simp [h]

theorem exec_heartbeat (active : Bool) : exec (.heartbeat bus active) s =
    .next (mctpRespond bus .ok [] (takeMessage bus (declareRole bus active) s)) := by
  cases bus <;> exact congrArg Host.Outcome.next (if_neg (mgmt_not_off h))

theorem exec_setCap_active (value : BitVec 16) (ha : isActive s.gov bus = true) : exec (.setCap bus value) s =
    .next (mctpRespond bus .ok [] (takeMessage bus (acceptCap bus (10 * value.toNat)) s)) := by
  have ha : ¬ (!isActive s.gov bus) = true := by simp [ha]
  cases bus <;> exact congrArg Host.Outcome.next ((if_neg (mgmt_not_off h)).trans (if_neg ha))

theorem exec_setCap_inactive (value : BitVec 16) (ha : isActive s.gov bus = false) : exec (.setCap bus value) s =
    .next (mctpRespond bus .countMismatch [] (takeMessage bus id s)) :=
  congrArg Host.Outcome.next ((if_neg (mgmt_not_off h)).trans (if_pos (by simp [ha])))

theorem exec_setOrphanCap_accepted {value : BitVec 16} (ha : isActive s.gov bus = true) (h1 : 70 ≤ value.toNat) (h2 : value.toNat ≤ 200) :
    exec (.setOrphanCap bus value) s = .next (mctpRespond bus .ok [] (takeMessage bus (acceptOrphanCap (10 * value.toNat)) s)) :=
  congrArg Host.Outcome.next ((if_neg (mgmt_not_off h)).trans (if_neg (by simp [ha, h1, h2])))

theorem exec_setOrphanCap_refused {value : BitVec 16} (hr : isActive s.gov bus = false ∨ value.toNat < 70 ∨ 200 < value.toNat) :
    exec (.setOrphanCap bus value) s = .next (mctpRespond bus .countMismatch [] (takeMessage bus id s)) :=
  congrArg Host.Outcome.next ((if_neg (mgmt_not_off h)).trans (if_pos (by simpa using hr)))

theorem exec_getStatus : exec (.getStatus bus) s = .next (mctpRespond bus .ok
    (zeros 12 ++ (mirrorRegs (takeMessage bus id s)).flatMap (leBytes 4)) (takeMessage bus id s)) :=
  congrArg Host.Outcome.next (if_neg (mgmt_not_off h))

theorem exec_meterMark (m : TimeMark) : exec (.meterMark bus m) s = .next (mctpRespond bus .ok [] (acceptMark m (takeMessage bus id s))) :=
  congrArg Host.Outcome.next (if_neg (mgmt_not_off h))

theorem exec_dynamicAddressAssignment (addr : BitVec 7) : exec (.dynamicAddressAssignment bus addr) s = .next (setGov s { s.gov with
    addrA := if bus = .a then some addr else s.gov.addrA, addrB := if bus = .b then some addr else s.gov.addrB }) := by
  cases bus <;> exact congrArg Host.Outcome.next (if_neg (mgmt_not_off h))

end

/-- SET_ORPHAN_CAP is refused or accepted, and either way its manager is heard and answered (R400, R401). -/
theorem setOrphanCap_heard (h : mgmtOn s = true) (value : BitVec 16) : ∃ t, exec (.setOrphanCap bus value) s = .next t ∧
    t = { s with gov := t.gov } ∧ t.gov.orphan = false ∧
    (isActive s.gov bus = true → 70 ≤ value.toNat → value.toNat ≤ 200 → t.gov.orphanCap = 10 * value.toNat ∧
      t.gov.out = s.gov.out ++ [⟨bus, 0x81, statusCode .ok, [], 1⟩]) ∧
    ((isActive s.gov bus = false ∨ value.toNat < 70 ∨ 200 < value.toNat) → t.gov.orphanCap = s.gov.orphanCap ∧
      t.gov.out = s.gov.out ++ [⟨bus, 0x81, statusCode .countMismatch, [], 1⟩]) := by
  by_cases hr : isActive s.gov bus = false ∨ value.toNat < 70 ∨ 200 < value.toNat
  · refine ⟨_, exec_setOrphanCap_refused h hr, mctpRespond_takeMessage_frame .., by simp, fun ha h1 h2 => ?_, fun _ => by simp⟩
    rcases hr with hr | hr | hr
    · exact absurd ha (Bool.eq_false_iff.mp hr)
    · exact absurd h1 hr.not_ge
    · exact absurd h2 hr.not_ge
  · have ⟨ha, h1, h2⟩ : isActive s.gov bus = true ∧ 70 ≤ value.toNat ∧ value.toNat ≤ 200 := by simpa using hr
    exact ⟨_, exec_setOrphanCap_accepted h ha h1 h2, mctpRespond_takeMessage_frame .., by simp [acceptOrphanCap],
      fun _ _ _ => by simp [acceptOrphanCap], fun hr' => absurd hr' hr⟩

end Sys2Proof.Machine

open Sys2Proof Sys2Proof.Machine

/-- Settles O35: each message by its equation above. METER_MARK also changes the meter, and counts as a message of its manager by the model's choice
(log 79); a dynamic address is kept without an answer. -/
theorem powerMessages : Obligations.PowerMessages := by
  unfold Obligations.PowerMessages
  exact fun s bus h => ⟨fun active => ⟨_, exec_heartbeat h active, mctpRespond_takeMessage_frame .., by simp [declareRole]⟩,
    fun value ha => ⟨_, exec_setCap_active h value ha, mctpRespond_takeMessage_frame .., by simp [acceptCap]⟩,
    fun value ha => ⟨_, exec_setCap_inactive h value ha, mctpRespond_takeMessage_frame .., by simp⟩,
    setOrphanCap_heard h,
    ⟨_, exec_getStatus h, mctpRespond_takeMessage_frame .., by simp⟩,
    exec_meterMark h, exec_dynamicAddressAssignment h⟩
end

section
/-!
PROOFS. Insertion and removal: what acting on PWR_EN does, and what each event of power entry does, one equation per case of its checks.
-/

namespace Sys2Proof.Machine

variable {s : State}

/-! ### Reports (R43; log 55) -/

/-- A report goes to both managers. -/
theorem mgmtReport_out_length (s : State) : (mgmtReport s).gov.out.length = s.gov.out.length + 2 := by
  simp [mgmtReport]

@[simp] theorem raiseVector_entry (v : Nat) (s : State) : (raiseVector v s).entry = s.entry := by
  unfold raiseVector
  extract_lets e
  split <;> rfl

/-! ### Power-on and the main rails (R37, R40, R455, R461) -/

/-- The auxiliary domain has come up, after a power-on reset. -/
def auxOn (s : State) : State := setEntry (powerOnState s) { s.entry with aux := true, removeLow := false, removeHold := false }

theorem auxUp_unasked (h : s.entry.pwrEn = false) : auxUp s = auxOn s := if_neg (Bool.eq_false_iff.mp h)

theorem auxUp_asked (h : s.entry.pwrEn = true) : auxUp s = actOnPwrEn (auxOn s) := if_pos h

/-! ### Acting on PWR_EN (R35, R38, R43) -/

theorem actOnPwrEn_powers (h : mayPower s.entry = true) : actOnPwrEn s = railsOn s := if_pos h

/-- A request that the main domain, a fault or a trip does not drop is held; only a missing flow is reported. -/
theorem actOnPwrEn_holds (h : mayPower s.entry = false) (hm : s.entry.main = false) (hf : s.entry.inputFault = false)
    (ht : s.entry.tripLatch = false) : actOnPwrEn s =
      let u := setEntry s { s.entry with pwrEnHeld := true }
      if u.entry.aux && !u.entry.flowOk then powerEvent 3 u else u :=
  (if_neg (Bool.eq_false_iff.mp h)).trans (if_neg (by simp [hm, hf, ht]))

theorem mayPower_untripped {e : Entry} (h : mayPower e = true) : e.tripLatch = false := by
  refine Bool.eq_false_iff.mpr fun ht => ?_
  simp [mayPower, ht] at h

theorem mayPower_uncharged {e : Entry} (h : e.precharge ≠ .done) : mayPower e = false := by simp [mayPower, h]

theorem mayPower_flowless {e : Entry} (h : e.flowOk = false) : mayPower e = false := by simp [mayPower, h]

/-! ### Contact (R32, R36) -/

/-- The limiter charges the bulk node of a new contact. -/
def charging (e : Entry) : Entry :=
  { e with presentLow := true, p56v := true, belowAux := false, precharge := .charging, aux := false, inputSwitch := false,
           inputFault := false, inputLoss := .none }

/-- The precharge fault of the last contact still stands: P56V has not been absent 1 s. -/
def prechargeBarred (s : State) : Prop := s.entry.precharge = .faulted ∧ s.tick < s.entry.absentAt + 1000000

theorem not_again {e : Entry} (h : e.p56v = false) : ¬ (e.p56v = true ∧ e.precharge ≠ .absent) := by simp [h]

theorem exec_p56vContact_charges (h : s.entry.p56v = false) (hb : ¬ prechargeBarred s) :
    exec .p56vContact s = .next (setEntry s (charging s.entry)) :=
  congrArg Host.Outcome.next ((if_neg (not_again h)).trans (if_neg hb))

theorem exec_p56vContact_barred (h : s.entry.p56v = false) (hb : prechargeBarred s) :
    exec .p56vContact s = .next (setEntry s { s.entry with presentLow := true, p56v := true, belowAux := false }) :=
  congrArg Host.Outcome.next ((if_neg (not_again h)).trans (if_pos hb))

theorem exec_p56vContact_again (h : s.entry.p56v = true) (hp : s.entry.precharge ≠ .absent) :
    exec .p56vContact s = .next (setEntry s { s.entry with presentLow := true }) :=
  congrArg Host.Outcome.next (if_pos ⟨h, hp⟩)

/-! ### The end of precharge (R26, R32, R37) -/

/-- The bulk node has followed the input. -/
def precharged (s : State) : State := setEntry s { s.entry with precharge := .done }

section
variable (h : s.entry.precharge = .charging)
include h

theorem exec_prechargeComplete_below (hb : s.entry.belowAux = true) : exec .prechargeComplete s = .next (precharged s) :=
  congrArg Host.Outcome.next ((if_neg (not_not.mpr h)).trans (if_pos hb))

theorem exec_prechargeComplete_powers (hb : s.entry.belowAux = false) : exec .prechargeComplete s = .next (auxUp (precharged s)) :=
  congrArg Host.Outcome.next ((if_neg (not_not.mpr h)).trans (if_neg (Bool.eq_false_iff.mp hb)))

theorem exec_prechargeTimeout (b : Bool) : exec (.prechargeTimeout b) s = .next (latchPrecharge b s) :=
  congrArg Host.Outcome.next (if_neg (not_not.mpr h))

end

/-- The auxiliary domain of a bulk node at 44 V comes up to report the fault (R43). -/
theorem latchPrecharge_reported : latchPrecharge true s =
    mgmtReport (setEntry (powerOnState s) { s.entry with precharge := .faulted, aux := true }) := rfl

theorem latchPrecharge_silent : latchPrecharge false s = setEntry s { s.entry with precharge := .faulted } := rfl

/-- Without a request the auxiliary domain comes up alone. -/
theorem auxUp_precharged_unasked (hp : s.entry.pwrEn = false) : auxUp (precharged s) = auxOn (precharged s) := auxUp_unasked hp

/-- A held request turns the main rails on with the auxiliary domain (R37, R38). -/
theorem auxUp_precharged_asked (hp : s.entry.pwrEn = true) (hf : s.entry.flowOk = true) (hi : s.entry.inputFault = false)
    (ht : s.entry.tripLatch = false) (hm : s.entry.main = false) : auxUp (precharged s) = railsOn (auxOn (precharged s)) := by
  have hmay : mayPower (auxOn (precharged s)).entry = true := by simp [mayPower, auxOn, precharged, setEntry, hp, hf, hi, ht, hm]
  exact (auxUp_asked (s := precharged s) hp).trans (actOnPwrEn_powers hmay)

theorem exec_precharge_ignored (h : s.entry.precharge ≠ .charging) :
    exec .prechargeComplete s = .next s ∧ ∀ b, exec (.prechargeTimeout b) s = .next s :=
  ⟨congrArg Host.Outcome.next (if_pos h), fun _ => congrArg Host.Outcome.next (if_pos h)⟩

/-! ### PWR_EN rises (R35, R37, R38, R412) -/

/-- PWR_EN has risen; a trip is left as it stands. -/
def asked (s : State) : State := setEntry s { s.entry with pwrEn := true }

section
variable (hp : s.entry.pwrEn = false) (ht : s.entry.tripLatch = false)
include hp ht

/-- Without a trip the time for which PWR_EN was low does not count. -/
theorem exec_pwrEnRise_untripped : exec .pwrEnRise s = .next (actOnPwrEn (asked s)) := by
  have he (low : Bool) : { s.entry with pwrEn := true, tripLatch := s.entry.tripLatch && low } = (asked s).entry := by
    simp [asked, setEntry, ht]
  exact congrArg Host.Outcome.next ((if_neg (Bool.eq_false_iff.mp hp)).trans (congrArg (fun e => actOnPwrEn (setEntry s e)) (he _)))

theorem exec_pwrEnRise_holds (hmay : mayPower (asked s).entry = false) (hm : s.entry.main = false) (hf : s.entry.inputFault = false) :
    exec .pwrEnRise s = .next (let u := setEntry s { s.entry with pwrEn := true, pwrEnHeld := true }
      if u.entry.aux && !u.entry.flowOk then powerEvent 3 u else u) := by
  rw [exec_pwrEnRise_untripped hp ht, actOnPwrEn_holds hmay hm hf ht]
  rfl

theorem exec_pwrEnRise_uncharged (hc : s.entry.precharge ≠ .done) (hm : s.entry.main = false) (hf : s.entry.inputFault = false)
    (hw : s.entry.flowOk = true) : exec .pwrEnRise s = .next (setEntry s { s.entry with pwrEn := true, pwrEnHeld := true }) :=
  (exec_pwrEnRise_holds hp ht (mayPower_uncharged hc) hm hf).trans (congrArg Host.Outcome.next (if_neg (by simp [setEntry, hw])))

theorem exec_pwrEnRise_flowless (ha : s.entry.aux = true) (hm : s.entry.main = false) (hf : s.entry.inputFault = false)
    (hw : s.entry.flowOk = false) :
    exec .pwrEnRise s = .next (powerEvent 3 (setEntry s { s.entry with pwrEn := true, pwrEnHeld := true })) :=
  (exec_pwrEnRise_holds hp ht (mayPower_flowless hw) hm hf).trans (congrArg Host.Outcome.next (if_pos (by simp [setEntry, ha, hw])))

end

theorem exec_pwrEnRise_powers (hp : s.entry.pwrEn = false) (h : mayPower (asked s).entry = true) :
    exec .pwrEnRise s = .next (railsOn (asked s)) := by
  rw [exec_pwrEnRise_untripped hp (mayPower_untripped (e := (asked s).entry) h), actOnPwrEn_powers h]

/-! ### PWR_EN falls (R40, R43) -/

/-- PWR_EN is low, and with it the latched input fault has ended. -/
def requestWithdrawn (s : State) : State := setEntry s { s.entry with
  pwrEn := false, pwrEnHeld := false, pwrEnLowAt := s.tick, inputFault := false, inputLoss := .none }

/-- The state after the removal of the rails: the endurance region is written before they go off, and the switch opens after. -/
def railsRemoved (s : State) : State :=
  let u := railsOff (writeEndurance (requestWithdrawn s))
  setEntry u { u.entry with inputSwitch := false }

theorem exec_pwrEnFall (hp : s.entry.pwrEn = true) (hm : s.entry.main = true) : exec .pwrEnFall s = .next (railsRemoved s) := by
  have hd : (if (requestWithdrawn s).entry.main = true then railsOff (writeEndurance (requestWithdrawn s)) else requestWithdrawn s) =
      railsOff (writeEndurance (requestWithdrawn s)) := if_pos hm
  refine congrArg Host.Outcome.next ((if_neg (by simp [hp])).trans ?_)
  exact congrArg (fun u => setEntry u { u.entry with inputSwitch := false }) hd

theorem railsRemoved_store : (railsRemoved s).store = { s.store with enduranceWritten := some (enduranceList s.store) } := rfl

theorem railsRemoved_entry : (railsRemoved s).entry = { s.entry with
    pwrEn := false, pwrEnHeld := false, pwrEnLowAt := s.tick, inputFault := false, inputLoss := .none
    main := false, pwrGood := false, alive := false, aliveSeen := false, inputSwitch := false } := rfl

/-! ### REMOVE_OK, and the request held behind it (R40, R43) -/

theorem exec_pwrEnHoldExpiry_acts (h : s.entry.removeHold = true) (hp : s.entry.pwrEn = true) :
    exec .pwrEnHoldExpiry s = .next (actOnPwrEn (setEntry s { s.entry with removeHold := false })) :=
  congrArg Host.Outcome.next ((if_pos h).trans (if_pos hp))

theorem exec_pwrEnHoldExpiry_ends (h : s.entry.removeHold = true) (hp : s.entry.pwrEn = false) :
    exec .pwrEnHoldExpiry s = .next (setEntry s { s.entry with removeHold := false }) :=
  congrArg Host.Outcome.next ((if_pos h).trans (if_neg (Bool.eq_false_iff.mp hp)))

theorem exec_removeOkRelease (hm : s.entry.main = false) (hs : s.entry.inputSwitch = false) (hl : s.entry.removeLow = true) :
    exec .removeOkRelease s = .next (setEntry s { s.entry with removeLow := false, removeHold := s.entry.pwrEnHeld }) :=
  congrArg Host.Outcome.next (if_neg (by simp [hm, hs, hl]))

/-! ### ATTN_N (R40, R43, R509) -/

/-- The host hears of ATTN_N by the removal cause and its vector. -/
def removalRequested (s : State) : State := raiseVector 1026 (setHost s { s.host with causeRemoval := true })

theorem exec_attnN : exec .attnN s = .next
    (let u := if s.entry.main = true then removalRequested s else s
     if s.entry.aux = true then mgmtReport u else u) := by
  have hu : mgmtOn (if s.entry.main = true then removalRequested s else s) = s.entry.aux := by
    unfold mgmtOn removalRequested
    split <;> simp
  exact congrArg Host.Outcome.next (if_congr (by rw [← hu]; rfl) rfl rfl)

end Sys2Proof.Machine

open Sys2Proof Sys2Proof.Machine

/-- Settles O42: each event by its equations above. What a report says is free (log 55); LAST reads 0 until the first power-up of the rails (log 56). -/
theorem insertionAndRemoval : Obligations.InsertionAndRemoval := by
  unfold Obligations.InsertionAndRemoval
  refine ⟨fun s h hp => ⟨_, exec_p56vContact_charges h (by simp [prechargeBarred, hp]), rfl, rfl, rfl, rfl, rfl, rfl, rfl⟩,
    fun s h hp => ⟨fun ht => exec_p56vContact_barred h ⟨hp, ht⟩,
      fun ht => ⟨_, exec_p56vContact_charges h fun ⟨_, hb⟩ => absurd hb ht.not_gt, rfl, rfl, rfl, rfl⟩⟩,
    fun s => exec_p56vContact_again, fun s => exec_prechargeComplete_below, fun s hc hb hp => ?_, fun s hc hb hp hf hi ht hm => ?_,
    fun s hc => ⟨_, exec_prechargeTimeout hc true, ?_⟩,
    fun s hc => (exec_prechargeTimeout hc false).trans (congrArg _ latchPrecharge_silent), fun s => exec_precharge_ignored,
    fun s => exec_pwrEnRise_powers,
    fun s hp hc hm hf ht hw => exec_pwrEnRise_uncharged hp ht (by simp [hc]) hm hf hw,
    fun s hp ha _ hm hf ht hw => exec_pwrEnRise_flowless hp ht ha hm hf hw,
    fun s hp hm => ⟨_, exec_pwrEnFall hp hm, ?_⟩, fun s => exec_pwrEnHoldExpiry_acts, fun s => exec_pwrEnHoldExpiry_ends,
    fun s => exec_removeOkRelease, fun s hm ha => ?_, fun s hm ha => ?_, fun s hm ha => ?_, fun s hm ha => ?_⟩
  · exact ⟨_, (exec_prechargeComplete_powers hc hb).trans (congrArg _ (auxUp_precharged_unasked hp)), rfl, rfl, rfl, rfl, rfl, rfl, rfl, rfl⟩
  · exact ⟨_, (exec_prechargeComplete_powers hc hb).trans (congrArg _ (auxUp_precharged_asked hp hf hi ht hm)), rfl, rfl, rfl, rfl, rfl, rfl⟩
  · rw [latchPrecharge_reported]
    exact ⟨rfl, rfl, rfl, mgmtReport_out_length _, rfl⟩
  · rw [railsRemoved_entry, railsRemoved_store]
    exact ⟨rfl, rfl, rfl, rfl, rfl, rfl, rfl, rfl, rfl, rfl, rfl, rfl⟩
  all_goals simp [exec_attnN, hm, ha, removalRequested]
end

section
/-!
PROOFS. The periodic duties: ALIVE, the endurance region and the apportionment of energy, one equation per case of their checks.
-/

namespace Sys2Proof.Machine

variable {s : State}

/-! ### ALIVE (R39, R476) -/

theorem exec_aliveToggle_runs (h : aliveRuns s = true) :
    exec .aliveToggle s = .next (setEntry s { s.entry with alive := !s.entry.alive, aliveSeen := true }) :=
  congrArg Host.Outcome.next (if_pos h)

theorem aliveRuns_held (h : s.entry.main = false ∨ s.faults.fatal = true ∨ s.boot.warmBusy = true) : aliveRuns s = false := by
  rcases h with h | h | h <;> simp [aliveRuns, h]

theorem exec_aliveToggle_held (h : aliveRuns s = false) : exec .aliveToggle s = .next s :=
  congrArg Host.Outcome.next (if_neg (Bool.eq_false_iff.mp h))

/-! ### The endurance region (R447, R492) -/

/-- The store with the larger of old and new hours and thermal cycles. -/
def countersRaised (hours thermalCycles : Nat) (s : State) : State :=
  { s with store := { s.store with hours := max s.store.hours hours, thermalCycles := max s.store.thermalCycles thermalCycles } }

theorem exec_enduranceWrite (h : mgmtOn s = true) (hours thermalCycles : Nat) :
    exec (.enduranceWrite hours thermalCycles) s = .next (writeEndurance (countersRaised hours thermalCycles s)) :=
  congrArg Host.Outcome.next (if_neg (by simp [h]))

/-- The region takes what the store then holds: the list does not show the region itself. -/
theorem writeEndurance_written : (writeEndurance s).store.enduranceWritten = some (enduranceList (writeEndurance s).store) := rfl

/-! ### The apportionment of energy (R391, R434) -/

theorem exec_energyApportionment_counts (ha : mgmtOn s = true) (hm : s.entry.main = true) (hw : s.window.linkOk = true) :
    exec .energyApportionment s = .next (setAcct s (apportion s.window.cum s.acct)) :=
  congrArg Host.Outcome.next (if_pos (by simp [ha, hm, hw]))

theorem exec_energyApportionment_skipped (hw : s.window.linkOk = false) : exec .energyApportionment s = .next s :=
  congrArg Host.Outcome.next (if_neg (by simp [hw]))

/-- The energy of a period above its base, in µWh (R391). -/
def energyAboveBase (reading : Nat) (a : Acct) : Nat :=
  1000 * (reading - a.lastMeter) - min (1000 * (reading - a.lastMeter)) (baseEnergy a)

/-- Each tag has its counters still, with its share added to its energy. -/
theorem mem_apportion_tags {reading : Nat} {a : Acct} {e : Nat × TagCounters} (h : e ∈ (apportion reading a).live.tags) :
    ∃ x, (e.1, x) ∈ a.live.tags ∧
      e.2 = { x with energy := x.energy + BitVec.ofNat 64 (energyShare a (energyAboveBase reading a) e.1) } := by
  obtain ⟨⟨k, x⟩, hx, rfl⟩ := List.mem_map.mp h
  exact ⟨x, hx, rfl⟩

/-- What the tags are not given goes to UNATTRIBUTED. -/
theorem apportion_unattributed (reading : Nat) (a : Acct) : (apportion reading a).live.unattributed = a.live.unattributed +
    BitVec.ofNat 64 (1000 * (reading - a.lastMeter) - sumN (a.live.tags.map fun e => energyShare a (energyAboveBase reading a) e.1)) := rfl

end Sys2Proof.Machine

open Sys2Proof Sys2Proof.Machine

/-- Settles O60: each duty by its equations above. That hours and cycles never fall is the model's reading of R447 (log 67). -/
theorem periodicDuties : Obligations.PeriodicDuties := by
  unfold Obligations.PeriodicDuties
  exact ⟨fun s => exec_aliveToggle_runs, fun s h => exec_aliveToggle_held (aliveRuns_held h),
    fun s hours cycles h => ⟨_, exec_enduranceWrite h hours cycles, rfl, rfl, rfl, writeEndurance_written, rfl, rfl⟩,
    fun s ha hm hw => ⟨_, exec_energyApportionment_counts ha hm hw, rfl, rfl, rfl, apportion_unattributed .., fun e => mem_apportion_tags⟩,
    fun s => exec_energyApportionment_skipped⟩
end

section
/-!
PROOFS. Firings, arrivals and credits: what UNIT_FIRE, ENTRY_ARRIVAL and CREDIT_RETURN answer, one equation per case of their checks.
-/

namespace Sys2Proof.Machine

variable {s u : State}

/-! ### UNIT_FIRE (R65, R93) -/

section
variable {t : Nat} {c : UnitCfg} {k : Firing}

/-- No slot of an SRAM word is armed while test mode is off (R479). -/
theorem sramSlot_off (h : s.faults.test = false) : sramSlot s t c k = none := by
  cases k <;> simp [sramSlot, h]

/-- No addition is injected while test mode is off (R479). -/
theorem injectOverflow_off (h : u.faults.test = false) : injectOverflow t c k s u = u := by
  simp only [injectOverflow, injSlot_off h]

theorem unitFire_ready (h : s.faults.test = false) (hm : mayFire s t = true) (hf : tryFire t c k s = some u) :
    unitFire t c k s = some (injectOverflow t c k s (matrixActivity t k (unitProgress t u))) := by
  simp only [unitFire, hm, hf, sramSlot_off h]
  rfl

theorem unitFire_not_ready (h : mayFire s t = false ∨ tryFire t c k s = none) : unitFire t c k s = none := by
  rcases h with h | h <;> simp [unitFire, h]

end

section
variable {t : Tile} {c : UnitCfg} {k : Firing}

theorem exec_unitFire : exec (.unitFire t k) s = execUnitFire t k s := rfl

theorem exec_unitFire_fires (hc : unitCfg (unitAt s (tileIx t)) = some c) (hu : unitFire (tileIx t) c k s = some u) :
    exec (.unitFire t k) s = .next (afterEvent (tileIx t) u) := by
  simp only [exec_unitFire, execUnitFire, hc, Option.bind_some, hu]

theorem exec_unitFire_held (hc : unitCfg (unitAt s (tileIx t)) = some c) (hu : unitFire (tileIx t) c k s = none) :
    exec (.unitFire t k) s = .next s := by
  simp only [exec_unitFire, execUnitFire, hc, Option.bind_some, hu]

theorem exec_unitFire_idle (hc : unitCfg (unitAt s (tileIx t)) = none) : exec (.unitFire t k) s = .next s := by
  simp only [exec_unitFire, execUnitFire, hc, Option.bind_none]

end

/-- The key under which State keeps a thread that a command names. -/
abbrev threadOf (th : ThreadId) : Nat := threadKey th.field th.slot (th.index % 65536)

/-! ### ENTRY_ARRIVAL (R82, R110) -/

/-- The entry for a destination of a thread that has left its slot before the slot was filled again (R110). -/
abbrev leavingFor (s : State) (k d : Nat) : Option (Nat × Nat × Nat × Bool) := s.grid.leaving.find? fun y => y.2.1 == k && y.2.2.1 == d

section
variable {th : ThreadId} {d : Nat} {x : ThreadCfg} {it : Item} {fl : Field} {e : Dest}

theorem exec_entryArrival : exec (.entryArrival th d) s = execEntryArrival th d s := rfl

theorem exec_entryArrival_left {y : Nat × Nat × Nat × Bool} (hl : leavingFor s (threadOf th) d = some y) :
    exec (.entryArrival th d) s = .next (leaveArrives y s) := by
  simp only [exec_entryArrival, execEntryArrival, hl]

theorem exec_entryArrival_none (hl : leavingFor s (threadOf th) d = none) (hf : takeFlying (threadOf th) d s = none) :
    exec (.entryArrival th d) s = .next s := by
  simp only [exec_entryArrival, execEntryArrival, hl, hf]
  cases threadCfgAt s (threadOf th) <;> rfl

theorem exec_entryArrival_edge (hl : leavingFor s (threadOf th) d = none) (hx : threadCfgAt s (threadOf th) = some x)
    (hf : takeFlying (threadOf th) d s = some (it, u)) (hfl : fieldAt s th.field = some fl) (he : x.dests[d]? = some e)
    (hr : e.row = 63) (hc : e.col = 63) :
    exec (.entryArrival th d) s = .next (arriveEdge (threadOf th) d x.lane it u) := by
  simp only [exec_entryArrival, execEntryArrival, hl, hx, hf, hfl, he]
  rw [if_pos ⟨hr, hc⟩]

theorem exec_entryArrival_unit (hl : leavingFor s (threadOf th) d = none) (hx : threadCfgAt s (threadOf th) = some x)
    (hf : takeFlying (threadOf th) d s = some (it, u)) (hfl : fieldAt s th.field = some fl) (he : x.dests[d]? = some e)
    (hn : ¬(e.row = 63 ∧ e.col = 63)) :
    exec (.entryArrival th d) s = .next (afterEvent (tileAt fl e.row e.col)
      (arriveUnit (threadOf th) d x.lane e.port (tileAt fl e.row e.col) it u)) := by
  simp only [exec_entryArrival, execEntryArrival, hl, hx, hf, hfl, he]
  rw [if_neg hn]

end

/-! ### Entries at a unit (R57, R86, R87) -/

section
variable {k d lane p t : Nat} {it : Item}

/-- The entry at the end of the input FIFO that it names (R57). -/
def pushEntry (lane p t : Nat) (it : Item) (s : State) : State :=
  modUnit t (fun u => { u with fifos := tmod [] (inPort lane p) (· ++ [it]) u.fifos }) s

/-- The unit takes an entry: its section is not one that an ABORT has ended here (R86). -/
theorem abortDrops_eq_false (h : (unitAt s t).aborted = false ∨ (unitAt s t).active ≠ it.tag) :
    ((unitAt s t).aborted && atWork (unitAt s t) && (unitAt s t).active == it.tag) = false := by
  rcases h with h | h <;> simp [h]

theorem arriveUnit_data (hl : lane ≠ 2) (ht : s.faults.test = false)
    (ha : (unitAt s t).aborted = false ∨ (unitAt s t).active ≠ it.tag) : arriveUnit k d lane p t it s = pushEntry lane p t it s := by
  simp only [arriveUnit, abortDrops_eq_false ha, injSlot_off ht]
  exact if_neg hl

theorem arriveUnit_token (ht : s.faults.test = false) (ha : (unitAt s t).aborted = false ∨ (unitAt s t).active ≠ it.tag)
    (hb : tokenBad (tfind it.tag (unitAt s t).slots) p it = false) : arriveUnit k d 2 p t it s = pushEntry 2 p t it s := by
  simp only [arriveUnit, abortDrops_eq_false ha, injSlot_off ht, hb]
  rfl

end

/-! ### CREDIT_RETURN (R81, R88) -/

section
variable {th : ThreadId} {d : Nat} {x : ThreadCfg} {fl : Field}

/-- A thread after a credit of a destination is back at its source (R81). -/
def creditBack (d : Nat) (v : Thread) : Thread :=
  { v with returning := tmod 0 d (· - 1) v.returning, credits := tmod Config.fifoDepth d (· + 1) v.credits }

theorem exec_creditReturn : exec (.creditReturn th d) s = execCreditReturn th d s := rfl

theorem exec_creditReturn_none (hx : threadCfgAt s (threadOf th) = some x) (hfl : fieldAt s th.field = some fl)
    (h0 : tget 0 d (threadAt s (threadOf th)).returning = 0) : exec (.creditReturn th d) s = .next s := by
  simp only [exec_creditReturn, execCreditReturn, hx, hfl]
  rw [if_pos h0]

theorem exec_creditReturn_feed (hx : threadCfgAt s (threadOf th) = some x) (hfl : fieldAt s th.field = some fl)
    (h0 : tget 0 d (threadAt s (threadOf th)).returning ≠ 0) (he : edgeSourced x = true) :
    exec (.creditReturn th d) s =
      .next (pumpFeeds th.field feedBurst (setThread s (threadOf th) (creditBack d (threadAt s (threadOf th))))) := by
  simp only [exec_creditReturn, execCreditReturn, hx, hfl]
  rw [if_neg h0, if_pos he]
  rfl

theorem exec_creditReturn_unit (hx : threadCfgAt s (threadOf th) = some x) (hfl : fieldAt s th.field = some fl)
    (h0 : tget 0 d (threadAt s (threadOf th)).returning ≠ 0) (he : edgeSourced x = false) :
    exec (.creditReturn th d) s =
      .next (afterEvent (tileAt fl x.srcRow x.srcCol) (setThread s (threadOf th) (creditBack d (threadAt s (threadOf th))))) := by
  simp only [exec_creditReturn, execCreditReturn, hx, hfl]
  rw [if_neg h0, if_neg (Bool.eq_false_iff.mp he)]
  rfl

end

end Sys2Proof.Machine

open Sys2Proof Sys2Proof.Machine

/-- Settles O46: a firing by what `unitFire` answers, an arrival by where its destination lies, a credit by what its source is. -/
theorem unitsFireAndEntriesMove : Obligations.UnitsFireAndEntriesMove := by
  unfold Obligations.UnitsFireAndEntriesMove
  refine ⟨fun s t k c u ht hc hm hf => exec_unitFire_fires hc (unitFire_ready ht hm hf), fun t c k s u => injectOverflow_off,
    fun s t k c hc h => exec_unitFire_held hc (unitFire_not_ready h), fun s t k => exec_unitFire_idle,
    fun s th d x it u fl e hl hx hf hfl he => ⟨exec_entryArrival_edge hl hx hf hfl he, exec_entryArrival_unit hl hx hf hfl he⟩,
    fun s th d y => exec_entryArrival_left, fun s th d => exec_entryArrival_none,
    fun s k d lane p t it => arriveUnit_data, fun s k d p t it => arriveUnit_token, ?_⟩
  rintro s th d x fl k v rfl rfl hx hfl
  exact ⟨exec_creditReturn_none hx hfl, exec_creditReturn_feed hx hfl, exec_creditReturn_unit hx hfl⟩
end

section
/-!
PROOFS. Control tokens: what the token at the head of a control input does by its kind, and how the six token commands take it.
-/

namespace Sys2Proof.Machine

variable {s u : State}

/-! ### Taking a token (R86, R91) -/

section
variable {t : Tile} {ci : Fin 4} {kind : Nat} {x : Item} {c : UnitCfg}

theorem exec_tokenStart : exec (.tokenStart t ci) s = .next (withToken (tileIx t) ci 1 s) := rfl
theorem exec_tokenDone : exec (.tokenDone t ci) s = .next (withToken (tileIx t) ci 2 s) := rfl
theorem exec_tokenSelect : exec (.tokenSelect t ci) s = .next (withToken (tileIx t) ci 3 s) := rfl
theorem exec_tokenEndSection : exec (.tokenEndSection t ci) s = .next (withToken (tileIx t) ci 4 s) := rfl
theorem exec_tokenFlush : exec (.tokenFlush t ci) s = .next (withToken (tileIx t) ci 5 s) := rfl
theorem exec_tokenAbort : exec (.tokenAbort t ci) s = .next (withToken (tileIx t) ci 6 s) := rfl

/-- The state after the token at a control input of a tile has left its FIFO (R81). -/
abbrev tokenPopped (t : Tile) (ci : Fin 4) (s : State) : State := popPort (tileIx t) 2 ci s

theorem TokenAt.kind_eq (h : TokenAt s t ci kind x c) : tokKind x = kind := h.2.2.1

/-- A token that need not wait for another has the effect of its kind. -/
theorem TokenAt.takeToken_eq (h : TokenAt s t ci kind x c) :
    takeToken (tileIx t) ci s = tokenEffect (tileIx t) ci x c (tokenPopped t ci s) := by
  obtain ⟨hx, hc, -, hf, hs, hb, hi⟩ := h
  simp [takeToken, hx, hc, hf, hs, hb, hi]

theorem TokenAt.withToken_taken (h : TokenAt s t ci kind x c) (hu : tokenEffect (tileIx t) ci x c (tokenPopped t ci s) = some u) :
    withToken (tileIx t) ci kind s = afterEvent (tileIx t) u := by
  obtain ⟨hx, -⟩ := id h
  simp [withToken, hx, h.kind_eq, h.takeToken_eq, hu]

theorem TokenAt.withToken_waits (h : TokenAt s t ci kind x c) (hu : tokenEffect (tileIx t) ci x c (tokenPopped t ci s) = none) :
    withToken (tileIx t) ci kind s = s := by
  obtain ⟨hx, -⟩ := id h
  simp [withToken, hx, h.kind_eq, h.takeToken_eq, hu]

end

section
variable {t ci kind : Nat} {x : Item} {c : UnitCfg}

theorem withToken_none (h : headOf s t 2 ci = none ∨ takeToken t ci s = none) : withToken t ci kind s = s := by
  cases hx : headOf s t 2 ci with
  | none => simp only [withToken, hx]
  | some x =>
    have ht : takeToken t ci s = none := h.resolve_left (by simp [hx])
    simp only [withToken, hx, ht, ite_self]

/-- A token that stands behind another one waits (R91). -/
theorem takeToken_behind (hx : headOf s t 2 ci = some x) (hc : unitCfg (unitAt s t) = some c) (hb : tokenBehind s t c ci x = true) :
    takeToken t ci s = none := by
  simp [takeToken, hx, hc, hb]

/-! ### The effect of a token by its kind (R86) -/

theorem tokenEffect_start (h : tokKind x = 1) : tokenEffect t ci x c s = some (takeStart t c s) := by simp only [tokenEffect, h]
theorem tokenEffect_done (h : tokKind x = 2) : tokenEffect t ci x c s = takeDone t c ci (tokLevel x) s := by simp only [tokenEffect, h]
theorem tokenEffect_select (h : tokKind x = 3) : tokenEffect t ci x c s = takeSelect t c ci (tokLevel x) s := by simp only [tokenEffect, h]
theorem tokenEffect_endSection (h : tokKind x = 4) :
    tokenEffect t ci x c s = some (modUnit t (fun u => { u with ended := setBit u.ended ci true }) s) := by simp only [tokenEffect, h]
theorem tokenEffect_flush (h : tokKind x = 5) :
    tokenEffect t ci x c s = some (modUnit t (fun u => { u with flushed := setBit u.flushed ci true }) s) := by simp only [tokenEffect, h]
theorem tokenEffect_abort (h : tokKind x = 6) : tokenEffect t ci x c s = some (takeAbort t ci x.tag s) := by simp only [tokenEffect, h]

/-! ### START (R86) -/

theorem takeStart_releases {l : Nat} (hl : outermost c = some l) (hw : c.ctl.startWait = true) (hk : c.kind = 1)
    (he : (unitAt s t).emptyRun = false) : takeStart t c s =
      setCounter t l { counterAt (unitAt s t) l with released := (counterAt (unitAt s t) l).released + 1 } s := by
  simp [takeStart, hl, hw, hk, he]

theorem takeStart_not_awaited (h : outermost c = none ∨ c.ctl.startWait = false) : takeStart t c s = s := by
  cases hl : outermost c with
  | none => simp only [takeStart, hl]
  | some l =>
    have hw : c.ctl.startWait = false := h.resolve_left (by simp [hl])
    simp [takeStart, hl, hw]

/-! ### DONE (R53, R86, R93; log 161, log 164) -/

section
variable {level : Nat}

theorem doneCounts_iff {cc : CounterCfg} (h : counterCfg c level = some cc) :
    doneCounts c ci level = true ↔ c.kind = 1 ∧ cc.adv = 2 ∧ cc.advIn = ci := by
  simp [doneCounts, h, and_assoc]

theorem takeDone_dropped (h : doneCounts c ci level = false ∨ (counterAt (unitAt s t) level).running = false) :
    takeDone t c ci level s = some s := by
  rcases h with h | h <;> simp [takeDone, h]

section
variable (hc : doneCounts c ci level = true) (hr : (counterAt (unitAt s t) level).running = true)
include hc hr

theorem takeDone_advances (h : level ≠ 0 ∨ doneIterates c = false) :
    takeDone t c ci level s = some (counterAdvance t c level (doneCloses t level c s)) := by
  have hn : ¬(level = 0 ∧ doneIterates c = true) := by rcases h with h | h <;> simp [h]
  simp [takeDone, hc, hr, hn]

theorem takeDone_ends_iteration (h0 : level = 0) (hi : doneIterates c = true) (hm : stageRoom s t c [true] = true) :
    takeDone t c ci level s = some (counterAdvance t c 0 (doneCloses t 0 c (endIteration t c s))) := by
  subst h0
  simp [takeDone, hc, hr, hi, hm]

theorem takeDone_waits (h0 : level = 0) (hi : doneIterates c = true) (hm : stageRoom s t c [true] = false) :
    takeDone t c ci level s = none := by
  subst h0
  simp [takeDone, hc, hr, hi, hm]

end

/-! ### SELECT (R86, R94) -/

theorem takeSelect_sets {w : Item} (h : headOf s t 1 (selSi c ci - 1) = some w) : takeSelect t c ci level s =
    some (modUnit t (fun u => { u with predicate := some (bits w.data.toNat 0 32 != 0), predLevel := level })
      (popPort t 1 (selSi c ci - 1) s)) := by
  simp only [takeSelect, h, Option.map_some]

theorem takeSelect_waits (h : headOf s t 1 (selSi c ci - 1) = none) : takeSelect t c ci level s = none := by
  simp only [takeSelect, h, Option.map_none]

end

/-! ### ABORT (R86) -/

section
variable {tag : Nat}

theorem takeAbort_again (h : (unitAt s t).aborted = true) : takeAbort t ci tag s =
    discardTag t tag (modUnit t (fun y => { y with aborted := true, ended := setBit y.ended ci true, waits := y.waits }) s) := by
  simp [takeAbort, h]

theorem takeAbort_first (h : (unitAt s t).aborted = false)
    (hu : u = discardTag t tag (modUnit t (fun y => { y with aborted := true, ended := setBit y.ended ci true, waits := [] }) s)) :
    takeAbort t ci tag s =
      (controlOutputs u t).foldl (fun s co => emitToken t co 6 6 s) (modUnit t (fun y => { y with endEmitted := true }) u) := by
  subst hu
  simp [takeAbort, h]

end

end

end Sys2Proof.Machine

open Sys2Proof Sys2Proof.Machine

/-- Settles O47: each command by the effect of its token's kind. That a DONE at a counter whose run has not begun is dropped is the model's choice
(log 164), the end-of-iteration operations of stages log 161. -/
theorem tokensTakeEffect : Obligations.TokensTakeEffect := by
  unfold Obligations.TokensTakeEffect
  refine ⟨?start, ?startDropped, ?done, ?doneDropped, fun c ci l cc => doneCounts_iff, ?select, ?selectWaits, ?endSection, ?flush,
    ?abortAgain, ?abortFirst, ?idle, fun s t ci x c => takeToken_behind⟩
  case start =>
    intro s t ci x c l h hl hw hk he
    rw [exec_tokenStart, h.withToken_taken (tokenEffect_start h.kind_eq), takeStart_releases hl hw hk he]
  case startDropped =>
    intro s t ci x c h hn
    rw [exec_tokenStart, h.withToken_taken (tokenEffect_start h.kind_eq), takeStart_not_awaited hn]
  case done =>
    rintro s t ci x c u h rfl hc hr
    have he := tokenEffect_done (t := tileIx t) (ci := ci) (c := c) (s := tokenPopped t ci s) h.kind_eq
    rw [exec_tokenDone]
    exact ⟨fun hn => congrArg _ (h.withToken_taken (he.trans (takeDone_advances hc hr hn))),
      fun h0 hi hm => congrArg _ (h.withToken_taken (he.trans (takeDone_ends_iteration hc hr h0 hi hm))),
      fun h0 hi hm => congrArg _ (h.withToken_waits (he.trans (takeDone_waits hc hr h0 hi hm)))⟩
  case doneDropped =>
    rintro s t ci x c u h rfl hn
    rw [exec_tokenDone, h.withToken_taken ((tokenEffect_done h.kind_eq).trans (takeDone_dropped hn))]
  case select =>
    intro s t ci x c w h hw
    rw [exec_tokenSelect, h.withToken_taken ((tokenEffect_select h.kind_eq).trans (takeSelect_sets hw))]
  case selectWaits =>
    intro s t ci x c h hw
    rw [exec_tokenSelect, h.withToken_waits ((tokenEffect_select h.kind_eq).trans (takeSelect_waits hw))]
  case endSection =>
    intro s t ci x c h
    rw [exec_tokenEndSection, h.withToken_taken (tokenEffect_endSection h.kind_eq)]
  case flush =>
    intro s t ci x c h
    rw [exec_tokenFlush, h.withToken_taken (tokenEffect_flush h.kind_eq)]
  case abortAgain =>
    rintro s t ci x c u h rfl ha
    rw [exec_tokenAbort, h.withToken_taken (tokenEffect_abort h.kind_eq), takeAbort_again ha]
  case abortFirst =>
    rintro s t ci x c u w h rfl ha hw
    rw [exec_tokenAbort, h.withToken_taken (tokenEffect_abort h.kind_eq), takeAbort_first ha hw]
  case idle =>
    intro s t ci h
    have hn (kind : Nat) : Host.Outcome.next (withToken (tileIx t) ci kind s) = (.next s : Host.Outcome State Fault Refusal) :=
      congrArg _ (withToken_none h)
    exact ⟨hn 1, hn 2, hn 3, hn 4, hn 5, hn 6⟩
end

section
/-!
PROOFS. Tier requests, arbiter beats, page moves and scrub: one equation per case of each command's checks.
-/

namespace Sys2Proof.Machine

variable {s u : State}

/-! ### TIER_REQUEST_COMPLETE (R67, R193, R199, R230) -/

section
variable {t : Tile} {ctx : Fin 16} {q : TierReq} {c : UnitCfg} {x : StreamCfg} {fin : TierEnd}

/-- The oldest request of a stream context. -/
abbrev requestOf (s : State) (t : Tile) (ctx : Fin 16) : Option TierReq :=
  s.mem.requests.find? fun q => q.tile == tileIx t && q.ctx == ctx.val

/-- The cell of a request's first place. -/
abbrev firstCell (s : State) (q : TierReq) : Option CellAt := ((q.places.head?).bind fun a => dvaCell s q.field a).map (·.1)

/-- A request of a live section may complete: it waits for no moon, reads no quarantined shard, and test mode is off. -/
structure RequestAtWork (s : State) (t : Tile) (ctx : Fin 16) (q : TierReq) (c : UnitCfg) (x : StreamCfg) : Prop where
  found : requestOf s t ctx = some q
  moon : moonWaits s q = false
  unit : unitCfg (unitAt s (tileIx t)) = some c
  stream : streamCfg c ctx = some x
  live : requestLive s (tileIx t) = true
  quarantine : q.places.any (inQuarantine s q.field) = false
  test : s.faults.test = false

theorem exec_tierRequestComplete : exec (.tierRequestComplete t ctx fin) s = execTierRequestComplete t ctx fin s := rfl

theorem tierRequestComplete_none (h : requestOf s t ctx = none) : exec (.tierRequestComplete t ctx fin) s = .next s := by
  simp only [exec_tierRequestComplete, execTierRequestComplete, h]

theorem tierRequestComplete_moonWaits (h : requestOf s t ctx = some q) (hw : moonWaits s q = true) :
    exec (.tierRequestComplete t ctx fin) s = .next s := by
  simp only [exec_tierRequestComplete, execTierRequestComplete, h, hw, if_true]

section
variable (h : RequestAtWork s t ctx q c x)
include h

theorem tierRequestComplete_untranslated {a : Nat} (hu : untranslated s q = some a) :
    exec (.tierRequestComplete t ctx fin) s =
      .next (afterEvent (tileIx t) (unitDetection (tileIx t) 0x08 (65536 * (a / 4096)) false (dropRequest q s))) := by
  obtain ⟨hf, hm, hc, hx, hl, hq, ht⟩ := h
  simp [exec_tierRequestComplete, execTierRequestComplete, hf, hm, hc, hx, hl, hq, injSlot_off ht, hu]

variable (hu : untranslated s q = none) (hp : lostPlace s q = none)
include hu hp

/-- With test mode off the lines of a request meet no slot. -/
theorem tierRequestComplete_done : exec (.tierRequestComplete t ctx .done) s = .next (tierEnds q c x s) := by
  obtain ⟨hf, hm, hc, hx, hl, hq, ht⟩ := h
  simp [exec_tierRequestComplete, execTierRequestComplete, hf, hm, hc, hx, hl, hq, injSlot_off ht, hu, hp, ht, injectLines]

variable {cell : CellAt} (hc1 : firstCell s q = some cell)
include hc1

/-- An uncorrectable line fails a read; a write replaces what the line held (R199). -/
theorem tierRequestComplete_uncorrectable : exec (.tierRequestComplete t ctx .uncorrectable) s =
    .next (if q.write then tierEnds q c x s
      else afterEvent (tileIx t) (lineLost (tileIx t) cell true false (dropRequest q s))) := by
  obtain ⟨hf, hm, hc, hx, hl, hq, ht⟩ := h
  simp [exec_tierRequestComplete, execTierRequestComplete, hf, hm, hc, hx, hl, hq, injSlot_off ht, hu, hp, hc1]

theorem tierRequestComplete_write (hw : q.write = true) :
    exec (.tierRequestComplete t ctx .uncorrectable) s = .next (tierEnds q c x s) := by
  rw [tierRequestComplete_uncorrectable h hu hp hc1, if_pos hw]

theorem tierRequestComplete_lineLost (hw : q.write = false) : exec (.tierRequestComplete t ctx .uncorrectable) s =
    .next (afterEvent (tileIx t) (lineLost (tileIx t) cell true false (dropRequest q s))) := by
  rw [tierRequestComplete_uncorrectable h hu hp hc1, if_neg (Bool.eq_false_iff.mp hw)]

end

end

/-! ### ARBITER_BEAT (R343, R345, R366 to R371) -/

section
variable {a : ArbId} {w : Option Nat} {n : Arbiter}

/-- The state with an arbiter after its beat; of what it has served it keeps the requests that still stand. -/
def withArbiter (a : ArbId) (n : Arbiter) (s : State) : State :=
  { s with arbs := { s.arbs with arbs := tset {} (arbKey a) { n with served := stillServed s n.served } s.arbs.arbs } }

/-- Of what an arbiter has served, the requests that still stand. -/
abbrev servedAt (s : State) (a : ArbId) : List Nat := stillServed s (tget ({} : Arbiter) (arbKey a) s.arbs.arbs).served

/-- An arbiter as a beat finds it, before a requester of an island that is not ON is masked. -/
abbrev arbiterAt (s : State) (a : ArbId) : Arbiter := { tget ({} : Arbiter) (arbKey a) s.arbs.arbs with served := servedAt s a }

theorem exec_arbiterBeat : exec (.arbiterBeat a) s = execArbiterBeat a s := rfl

theorem arbiterBeat_off (h : islandOn s (arbIsland s a) = false) : exec (.arbiterBeat a) s = .next s := by
  simp [exec_arbiterBeat, execArbiterBeat, h]

/-- Only a link's arbiter gives a codeword to a control flit. -/
theorem ctrlTurn_eq_false (h : ∀ l, a ≠ .link l) : ctrlTurn s a = false := by
  cases a with
  | link l => exact absurd rfl (h l)
  | _ => rfl

section
variable (hm : s.entry.main = true) (hb : s.boot.warmBusy = false) (hi : islandOn s (arbIsland s a) = true)
include hm hb hi

theorem arbiterStops_eq_false : (!s.entry.main || s.boot.warmBusy || !islandOn s (arbIsland s a)) = false := by simp [hm, hb, hi]

/-- An arbiter that only chooses changes its own state alone. -/
theorem arbiterBeat_chooses (hl : ∀ l, a ≠ .link l) (hu : ∀ t b, a ≠ .muBank t b) :
    ∃ n, exec (.arbiterBeat a) s = .next (withArbiter a n s) := by
  cases a with
  | link l => exact absurd rfl (hl l)
  | muBank t b => exact absurd rfl (hu t b)
  | _ =>
    simp only [exec_arbiterBeat, execArbiterBeat, arbiterStops_eq_false hm hb hi, ctrlTurn_eq_false hl]
    exact ⟨_, rfl⟩

end

theorem arbiterBeat_link {l : LinkId} (hm : s.entry.main = true) (hb : s.boot.warmBusy = false)
    (hi : islandOn s (arbIsland s (.link l)) = true) (ht : ctrlTurn s (.link l) = false)
    (hw : arbBeat (arbKind s (.link l)) (arbiterAt s (.link l)) (arbCandidates s (servedAt s (.link l)) (.link l)) = (w, n)) :
    exec (.arbiterBeat (.link l)) s = .next (linkBeat l w (withArbiter (.link l) n s)) := by
  simp only [exec_arbiterBeat, execArbiterBeat, arbiterStops_eq_false hm hb hi, ht, hw]
  rfl

theorem arbiterBeat_ctrlFlit {l : LinkId} (hm : s.entry.main = true) (hb : s.boot.warmBusy = false)
    (hi : islandOn s (arbIsland s (.link l)) = true) (ht : ctrlTurn s (.link l) = true) :
    exec (.arbiterBeat (.link l)) s = .next (linkBeat l none s) := by
  simp only [exec_arbiterBeat, execArbiterBeat, arbiterStops_eq_false hm hb hi, ht]
  rfl

theorem arbiterBeat_muBank {t : Tile} {bank : Fin 32} (hm : s.entry.main = true) (hb : s.boot.warmBusy = false)
    (hi : islandOn s (arbIsland s (.muBank t bank)) = true)
    (hw : arbBeat (arbKind s (.muBank t bank)) (arbiterAt s (.muBank t bank)) (bankCandidates s (tileIx t) bank.val) = (w, n)) :
    exec (.arbiterBeat (.muBank t bank)) s = .next (bankBeat (tileIx t) bank.val w (withArbiter (.muBank t bank) n s)) := by
  have ht : ctrlTurn s (.muBank t bank) = false := rfl
  have hk : arbCandidates s (servedAt s (.muBank t bank)) (.muBank t bank) = bankCandidates s (tileIx t) bank.val := rfl
  simp only [exec_arbiterBeat, execArbiterBeat, arbiterStops_eq_false hm hb hi, ht, hk, hw]
  rfl

theorem withArbiter_other {b : ArbId} (h : arbKey b ≠ arbKey a) :
    tget ({} : Arbiter) (arbKey b) (withArbiter a n s).arbs.arbs = tget {} (arbKey b) s.arbs.arbs :=
  tget_tset_other _ h _ _

end

/-! ### PAGE_MOVE_DONE (R194) -/

section
variable {m : PageMove} {ms : List PageMove} {fl : Field} {p : Page}

theorem exec_pageMoveDone : exec .pageMoveDone s = execPageMoveDone s := rfl

/-- The state without its first page move. -/
abbrev moveTaken (ms : List PageMove) (s : State) : State := { s with mem := { s.mem with moves := ms } }

/-- The page that a move was begun for, where it still stands as it then did. -/
abbrev movedPage (m : PageMove) (fl : Field) : Option Page := fl.pages.find? fun p => p.dva == m.dva && p.demoted != !m.promote

theorem pageMoveDone_idle (h : s.mem.moves = []) : exec .pageMoveDone s = .next s := by
  simp only [exec_pageMoveDone, execPageMoveDone, h]

theorem pageMoveDone_moves (h : s.mem.moves = m :: ms) (hf : fieldAt s m.field = some fl) (hp : movedPage m fl = some p)
    (hh : pageHeld s fl p = false) : exec .pageMoveDone s = .next (movePage m.field p (!m.promote) m.frame (moveTaken ms s)) := by
  simp only [exec_pageMoveDone, execPageMoveDone, h, hf, hp, hh, Bool.false_eq_true, if_false]

theorem pageMoveDone_held (h : s.mem.moves = m :: ms) (hf : fieldAt s m.field = some fl) (hp : movedPage m fl = some p)
    (hh : pageHeld s fl p = true) : exec .pageMoveDone s = .next (framesFreed m.field (moveTaken ms s)) := by
  simp only [exec_pageMoveDone, execPageMoveDone, h, hf, hp, hh, if_true]

/-- A move whose field is gone, or whose page no longer stands as it did, is dropped. -/
theorem pageMoveDone_dropped (h : s.mem.moves = m :: ms) (hp : (fieldAt s m.field).bind (movedPage m) = none) :
    exec .pageMoveDone s = .next (moveTaken ms s) := by
  cases hf : fieldAt s m.field with
  | none => simp only [exec_pageMoveDone, execPageMoveDone, h, hf]
  | some fl =>
    have hn : movedPage m fl = none := by simpa only [hf, Option.bind_some] using hp
    simp only [exec_pageMoveDone, execPageMoveDone, h, hf, hn]

end

/-! ### SCRUB_PASS (R199, R201) -/

section
variable {p : ScrubPlace} {found : ScrubFind}

theorem exec_scrubPass : exec (.scrubPass p found) s = execScrubPass p found s := rfl

theorem scrubPass_off (h : scrubRuns s p = false) : exec (.scrubPass p found) s = .next s := by
  simp [exec_scrubPass, execScrubPass, h]

theorem charge_test (tag : Option Nat) (g : TagCounters → TagCounters) (n : Nat) : (charge tag g n s).faults.test = s.faults.test := by
  unfold charge
  repeat' split
  all_goals rfl

/-- Counting the bytes of a tier leaves test mode alone. -/
theorem chargeTier_test (tag : Option Nat) (tier2 : Bool) (n : Nat) : (chargeTier tag tier2 n s).faults.test = s.faults.test := by
  cases tier2 <;> exact charge_test ..

section
variable {k : StackId} {line : Nat}

/-- A scrubbed line lies in its stack. -/
theorem scrubRuns_hbm_line (h : scrubRuns s (.hbm k line) = true) : 64 * line < Config.stackBytes := by
  simp only [scrubRuns, Bool.and_eq_true, decide_eq_true_eq] at h
  exact h.2.1.2

theorem hbmCell_stack (h : 64 * line < Config.stackBytes) : (k.val * Config.stackBytes + 64 * line) / Config.stackBytes = k.val := by
  rw [Config.stackBytes] at *
  omega

theorem hbmCell_line (h : 64 * line < Config.stackBytes) : (k.val * Config.stackBytes + 64 * line) % Config.stackBytes / 64 * 64 = 64 * line := by
  rw [Config.stackBytes] at *
  omega

variable (hr : scrubRuns s (.hbm k line) = true) (ht : s.faults.test = false)
  (hl : cellLost s (false, k.val * Config.stackBytes + 64 * line) = false)
include hr ht hl

theorem scrubPass_hbm_clean : exec (.scrubPass (.hbm k line) .clean) s = .next (chargeTier none false 64 s) := by
  have ht' : (chargeTier none false 64 s).faults.test = false := (chargeTier_test ..).trans ht
  simp [exec_scrubPass, execScrubPass, hr, scrubCell, hl, injectLine_off ht']

theorem scrubPass_hbm_uncorrectable : exec (.scrubPass (.hbm k line) .uncorrectable) s = .next (retireFrame false k.val (64 * line)
    (logClass1 0x02 (0x30 + k.val) (64 * line) false 0 (chargeTier none false 64 s))) := by
  have ht' : (chargeTier none false 64 s).faults.test = false := (chargeTier_test ..).trans ht
  have hb := scrubRuns_hbm_line hr
  simp only [exec_scrubPass, execScrubPass, hr, scrubCell, hl, injMeet_off ht', Bool.false_eq_true, if_false, Bool.not_true,
    hbmCell_stack hb, hbmCell_line hb]

end

section
variable {t : Tile} {line : Nat} (hr : scrubRuns s (.sram t line) = true) (ht : s.faults.test = false)
include hr ht

theorem scrubPass_sram_clean : exec (.scrubPass (.sram t line) .clean) s = .next s := by
  simp [exec_scrubPass, execScrubPass, hr, injSlot_off ht, injMeet_off ht]

theorem scrubPass_sram_corrected : exec (.scrubPass (.sram t line) (.corrected false)) s =
    .next (logCorrected 0x01 (tileIsland s (tileIx t)) (tileLoc (tileIx t) + wordLoc line) false s) := by
  simp [exec_scrubPass, execScrubPass, hr, injMeet_off ht, tileIx]

theorem scrubPass_sram_uncorrectable : exec (.scrubPass (.sram t line) .uncorrectable) s =
    .next (unitDetection (tileIx t) 0x01 (wordLoc line) false s) := by
  simp [exec_scrubPass, execScrubPass, hr, injMeet_off ht, tileIx]

end

end

end Sys2Proof.Machine

open Sys2Proof Sys2Proof.Machine

/-- Settles O49: each command by its equations above. WHERE of an HBM line is a byte address by log 145 and of an SRAM line a word number by log 136;
that `movePage` leaves a page with a lost byte in place is log 169. -/
theorem memoryTrafficCompletes : Obligations.MemoryTrafficCompletes := by
  unfold Obligations.MemoryTrafficCompletes
  refine ⟨?ends, ?untranslated, fun s t ctx fin => tierRequestComplete_none, fun s t ctx q fin => tierRequestComplete_moonWaits,
    fun s l w n => arbiterBeat_link, fun s l => arbiterBeat_ctrlFlit, fun s t bank w n => arbiterBeat_muBank, ?chooses,
    fun s a => arbiterBeat_off, fun s m ms fl p h hf hp => ⟨pageMoveDone_moves h hf hp, pageMoveDone_held h hf hp⟩,
    fun s m ms => pageMoveDone_dropped, fun s => pageMoveDone_idle, fun s p found => scrubPass_off,
    fun s k line hr ht hl => ⟨scrubPass_hbm_clean hr ht hl, scrubPass_hbm_uncorrectable hr ht hl⟩,
    fun s t line hr ht => ⟨scrubPass_sram_clean hr ht, scrubPass_sram_corrected hr ht, scrubPass_sram_uncorrectable hr ht⟩⟩
  case ends =>
    intro s t ctx q c x cell hf hm hc hx hl hq ht hu hp h1
    have h : RequestAtWork s t ctx q c x := ⟨hf, hm, hc, hx, hl, hq, ht⟩
    exact ⟨tierRequestComplete_done h hu hp, tierRequestComplete_write h hu hp h1, tierRequestComplete_lineLost h hu hp h1⟩
  case untranslated =>
    intro s t ctx q c x a fin hf hm hc hx hl hq ht
    exact tierRequestComplete_untranslated ⟨hf, hm, hc, hx, hl, hq, ht⟩
  case chooses =>
    intro s a hm hb hi hl hu
    obtain ⟨n, hn⟩ := arbiterBeat_chooses hm hb hi hl hu
    exact ⟨_, hn, rfl, fun b => withArbiter_other⟩
end

section
/-!
PROOFS. Images: how LOAD_SKEIN and MOON_LOAD take up an image, how IMAGE_CHECKED decides it, how SLOT_FILL fills a slot.
-/

namespace Sys2Proof.Machine

variable {s t u v : State} {q : QId} {h : DescHdr} {acc : Nat}

/-- A command's answer is its work's result once its descriptor is taken up (R277). -/
theorem next_taken {op : Opcode} {b : Bool} {work : Nat → State → State} (ht : Taken s q op h acc) (hop : op ≠ .copy)
    (hw : work acc (started s q acc) = t) : (.next (withDesc q op h b work s) : Host.Outcome State Fault Refusal) = .next t := by
  rw [withDesc_taken ht hop, hw]

/-! ### Reads of the hub DMA (R193, R199, R204) -/

section
variable {place f a n x : Nat}

theorem hubRead_lost (hx : hubLost u place f a n = some x) : hubRead place f a n u = (false, placeFault place f x u) := by
  simp only [hubRead, hx]

theorem hubRead_whole (hx : hubLost u place f a n = none) (ht : u.faults.test = false) : hubRead place f a n u = (true, u) := by
  simp only [hubRead, hx, meetLines_off ht]

/-- A range begins at its own first byte: where that has no translation, the read is lost there. -/
theorem hubLost_unmapped (hn : 0 < n) (hc : dvaCell u f a = none) : hubLost u 1 f a n = some a := by
  simp [hubLost, hn.ne', hc, List.range_succ_eq_map]

theorem hubRead_unmapped (hn : 0 < n) (hc : dvaCell u f a = none) : hubRead 1 f a n u = (false, dmaFault a u) := by
  rw [hubRead_lost (hubLost_unmapped hn hc)]
  simp only [placeFault, accessFault, hc, if_true]

end

/-! ### Room in the cache (R105) -/

/-- The cache has no place left for another image. -/
abbrev cacheFull (s : State) : Prop := 1024 ≤ s.fld.cache.length + reserved s

theorem reserveRoom_free (hr : s.fld.cache.length + reserved s < 1024) : reserveRoom s = some s := if_pos hr

theorem reserveRoom_none (hr : cacheFull s) (he : evictable s = none) : reserveRoom s = none := by
  rw [reserveRoom, if_neg (show ¬ s.fld.cache.length + reserved s < Config.cacheImages from hr.not_gt), he, Option.map_none]

/-- The state with one more load whose image is copied and hashed. -/
abbrev withLoad (l : LoadRun) (s : State) : State := { s with fld := { s.fld with loads := s.fld.loads ++ [l] } }

/-! ### LOAD_SKEIN (R104 to R107, R165, R259) -/

section
variable {d : LoadDesc} {img i : SkeinImage} {signed : SignedBlock}

/-- The load that a LOAD_SKEIN of an image becomes. -/
abbrev skeinLoad (acc : Nat) (d : LoadDesc) (img : SkeinImage) (signed : SignedBlock) : LoadRun :=
  ⟨acc, d.field, d.slot, d.reportAddr, d.abort, some img, none, signed, 0, 0, false⟩

theorem loadStart_badHeader (hb : headerBad d img = true) : loadStart acc d img signed s = finish acc .badAlignment 0 1 s := if_pos hb

section
variable (hc : cachedHead s img = none) (hb : headerBad d img = false)
include hc hb

theorem loadStart_joins (hr : s.fld.cache.length + reserved s < 1024) :
    loadStart acc d img signed s = withLoad (skeinLoad acc d img signed) s := by
  have hc' : cachedHead (withLoad (skeinLoad acc d img signed) s) img = none := hc
  simp only [loadStart, hb, hc, Option.isSome_none, Bool.false_eq_true, if_false, reserveRoom_free hr]
  simp only [hc', Option.isSome_none, Bool.false_and, Bool.false_eq_true, if_false]

theorem loadStart_full (hr : cacheFull s) (he : evictable s = none) :
    loadStart acc d img signed s = finish acc .noPlacement 0 2 s := by
  simp [loadStart, hb, hc, reserveRoom_none hr he]

end

variable {host : ReadBytes}

/-- The bytes of a load's image (R104, R209). -/
abbrev imageSource (v : State) (d : LoadDesc) (host : ReadBytes) : Nat → Byte :=
  sourceByte v d.srcPlace.toNat d.field d.imageAddr.toNat host

/-- The read of a load's image. -/
abbrev imageRead (d : LoadDesc) (u : State) : Bool × State :=
  hubRead d.srcPlace.toNat d.field d.imageAddr.toNat d.imageBytes.toNat u

section
variable (ht : Taken s q .loadSkein h acc)
include ht

theorem loadSkein_reservedPlace (h3 : d.srcPlace = 3) :
    exec (.loadSkein q h d host) s = .next (finish acc .countMismatch 0 0 (wakeField d.field (started s q acc))) :=
  next_taken ht (by decide) (if_pos h3)

variable (h3 : d.srcPlace ≠ 3)
include h3

theorem loadSkein_badForm (hf : loadFormBad d = true) :
    exec (.loadSkein q h d host) s = .next (finish acc .badAlignment 0 1 (wakeField d.field (started s q acc))) :=
  next_taken ht (by decide) ((if_neg h3).trans (if_pos hf))

variable (hf : loadFormBad d = false)
include hf

theorem loadSkein_linkDown (hl : hostLost (wakeField d.field (started s q acc)) acc (d.srcPlace == 0) = true) :
    exec (.loadSkein q h d host) s = .next (finish acc .linkDown 0 0 (wakeField d.field (started s q acc))) :=
  next_taken ht (by decide) (by simp only [h3, hf, hl, if_false, if_true, Bool.false_eq_true])

variable (hl : hostLost (wakeField d.field (started s q acc)) acc (d.srcPlace == 0) = false)
include hl

theorem loadSkein_unread (hr : imageRead d (wakeField d.field (started s q acc)) = (false, v)) :
    exec (.loadSkein q h d host) s = .next (finish acc .fencedUnit 0 0 v) :=
  next_taken ht (by decide) (by simp only [h3, hf, hl, hr, if_false, if_true, Bool.false_eq_true, Bool.not_false])

/-- A readable image starts its load; where the cache holds its header, with the cached copy (R105). -/
theorem loadSkein_read (hr : imageRead d (wakeField d.field (started s q acc)) = (true, v)) (hi : img = parseSkein (imageSource v d host)) :
    exec (.loadSkein q h d host) s = .next (loadStart acc d ((cachedHead v img).getD img) (skeinSigned (imageSource v d host) img) v) := by
  subst hi
  exact next_taken ht (by decide) (by simp only [h3, hf, hl, hr, if_false, Bool.false_eq_true, Bool.not_true])

end

end

/-! ### MOON_LOAD (R209, R259) -/

section
variable {d : LoadDesc} {host : ReadBytes} {moon : MoonImage}

/-- The fields of the stacks that a MOON_LOAD names wake (R464). -/
abbrev wakeStacks (m : BitVec 16) (s : State) : State :=
  (maskStacks m).foldl (fun s k => match fieldOfBand s (bandOf k) with | some f => wakeField f s | none => s) s

/-- The load that a MOON_LOAD of an image becomes. -/
abbrev moonLoadRun (acc : Nat) (d : LoadDesc) (moon : MoonImage) (signed : SignedBlock) : LoadRun :=
  ⟨acc, d.field, 0, 0, false, none, some moon, signed, d.stackMask, d.progIndex, false⟩

/-- What a MOON_LOAD makes of an image that it has read: the header's check, room in the cache, a load (R105, R209). -/
def moonStart (acc : Nat) (d : LoadDesc) (moon : MoonImage) (signed : SignedBlock) (s : State) : State :=
  if moonHeaderBad d moon then finish acc .badAlignment 0 0 s
  else match reserveRoom s with
    | none => finish acc .noPlacement 0 0 s
    | some s => withLoad (moonLoadRun acc d moon signed) s

section
variable {signed : SignedBlock}

theorem moonStart_badHeader (hb : moonHeaderBad d moon = true) : moonStart acc d moon signed s = finish acc .badAlignment 0 0 s := if_pos hb

variable (hb : moonHeaderBad d moon = false)
include hb

theorem moonStart_joins (hr : s.fld.cache.length + reserved s < 1024) :
    moonStart acc d moon signed s = withLoad (moonLoadRun acc d moon signed) s := by
  simp only [moonStart, hb, reserveRoom_free hr, Bool.false_eq_true, if_false]

/-- A moon image takes room in the skein cache while it is loaded (log 135). -/
theorem moonStart_full (hr : cacheFull s) (he : evictable s = none) :
    moonStart acc d moon signed s = finish acc .noPlacement 0 0 s := by
  simp only [moonStart, hb, reserveRoom_none hr he, Bool.false_eq_true, if_false]

end

variable (ht : Taken s q .moonLoad h acc)
include ht

theorem moonLoad_reservedPlace (h3 : d.srcPlace = 3) :
    exec (.moonLoad q h d host) s = .next (finish acc .countMismatch 0 0 (wakeStacks d.stackMask (started s q acc))) :=
  next_taken ht (by decide) (if_pos h3)

variable (h3 : d.srcPlace ≠ 3)
include h3

theorem moonLoad_noStack (hm : d.stackMask = 0) :
    exec (.moonLoad q h d host) s = .next (finish acc .okEmpty 0 0 (wakeStacks d.stackMask (started s q acc))) :=
  next_taken ht (by decide) ((if_neg h3).trans (if_pos hm))

variable (hm : d.stackMask ≠ 0)
include hm

theorem moonLoad_badForm (hf : moonFormBad d = true) :
    exec (.moonLoad q h d host) s = .next (finish acc .badAlignment 0 0 (wakeStacks d.stackMask (started s q acc))) :=
  next_taken ht (by decide) ((if_neg h3).trans ((if_neg hm).trans (if_pos hf)))

variable (hf : moonFormBad d = false)
include hf

theorem moonLoad_linkDown (hl : hostLost (wakeStacks d.stackMask (started s q acc)) acc (d.srcPlace == 0) = true) :
    exec (.moonLoad q h d host) s = .next (finish acc .linkDown 0 0 (wakeStacks d.stackMask (started s q acc))) :=
  next_taken ht (by decide) ((if_neg h3).trans ((if_neg hm).trans ((if_neg (Bool.eq_false_iff.mp hf)).trans (if_pos hl))))

variable (hl : hostLost (wakeStacks d.stackMask (started s q acc)) acc (d.srcPlace == 0) = false)
include hl

theorem moonLoad_unread (hr : imageRead d (wakeStacks d.stackMask (started s q acc)) = (false, v)) :
    exec (.moonLoad q h d host) s = .next (finish acc .fencedUnit 0 0 v) := by
  refine next_taken ht (by decide) ?_
  extract_lets u
  replace hl : hostLost u acc (d.srcPlace == 0) = false := hl
  replace hr : imageRead d u = (false, v) := hr
  simp only [h3, hm, hf, hl, hr, if_false, if_true, Bool.false_eq_true, Bool.not_false]

theorem moonLoad_read (hr : imageRead d (wakeStacks d.stackMask (started s q acc)) = (true, v))
    (hi : moon = parseMoon (imageSource v d host) d.imageBytes.toNat) :
    exec (.moonLoad q h d host) s = .next (moonStart acc d moon (moonSigned (imageSource v d host) moon) v) := by
  refine next_taken ht (by decide) ?_
  extract_lets u
  replace hl : hostLost u acc (d.srcPlace == 0) = false := hl
  replace hr : imageRead d u = (true, v) := hr
  subst hi
  simp only [h3, hm, hf, hl, hr, if_false, Bool.false_eq_true, Bool.not_true]
  rfl

end

/-! ### IMAGE_CHECKED (R104, R106, R165, R209) -/

section
variable {bodyHash : Digest} {sig : SigCheck} {l : LoadRun} {i : SkeinImage} {m : MoonImage}

/-- The load whose copy and digest IMAGE_CHECKED ends. -/
abbrev copiedLoad (s : State) (acc : Nat) : Option LoadRun := s.fld.loads.find? fun l => l.acc == acc && !l.checked

theorem exec_imageChecked : exec (.imageChecked acc bodyHash sig) s = execImageChecked acc bodyHash sig s := rfl

theorem imageChecked_moon (hl : copiedLoad s acc = some l) (hs : l.skein = none) (hm : l.moon = some m) :
    exec (.imageChecked acc bodyHash sig) s = .next (moonChecked l m sig s) := by
  simp only [exec_imageChecked, execImageChecked, hl, hs, hm]

theorem imageChecked_skein (hl : copiedLoad s acc = some l) (hs : l.skein = some i) (hf : firstLoad s l = true) :
    exec (.imageChecked acc i.bodyHash sig) s = .next (settleCopies (skeinChecked l i sig s)) := by
  simp only [exec_imageChecked, execImageChecked, hl, hs, hf, and_self, if_true]

/-- An answer that is not the copy's digest, or that comes before the field's earlier loads are decided (R165; log 127). -/
theorem imageChecked_ignored (hl : copiedLoad s acc = some l) (hs : l.skein = some i)
    (h : bodyHash ≠ i.bodyHash ∨ firstLoad s l = false) : exec (.imageChecked acc bodyHash sig) s = .next s := by
  have hn : ¬(bodyHash = i.bodyHash ∧ firstLoad s l = true) := by rcases h with h | h <;> simp [h]
  simp only [exec_imageChecked, execImageChecked, hl, hs, if_neg hn]

/-- The signatures of an image are right, by a signer that the running bundle lists (R96, R104). -/
abbrev signatureGood (s : State) (sig : SigCheck) (id : BitVec 64) : Bool := sig.ed && sig.ml && signerKnown s id

theorem signatureGood_of (he : sig.ed = true) (hm : sig.ml = true) {id : BitVec 64} (hk : signerKnown s id = true) :
    signatureGood s sig id = true := by simp [he, hm, hk]

theorem signatureGood_eq_false (h : sig.ed = false ∨ sig.ml = false) (id : BitVec 64) : signatureGood s sig id = false := by
  rcases h with h | h <;> simp [h]

/-! ### A moon image (R209) -/

theorem moonChecked_unsigned (hs : signatureGood s sig m.signerId = false) :
    moonChecked l m sig s = finish l.acc .signatureFail 0 0 (dropLoad l.acc s) := by
  simp only [moonChecked, hs, Bool.not_false, if_true]

theorem moonChecked_badParams (hs : signatureGood s sig m.signerId = true) (hp : moonParamsBad m = true) :
    moonChecked l m sig s = finish l.acc .countMismatch 0 0 (dropLoad l.acc s) := by
  simp only [moonChecked, hs, hp, Bool.not_true, Bool.false_eq_true, if_false, if_true]

/-- A good program is installed where no call names its slots (R209, R227). -/
theorem moonChecked_settles (hs : signatureGood s sig m.signerId = true) (hp : moonParamsBad m = false)
    (hk : ∀ k ∈ maskStacks l.mask, moonSlotLocked s m l.index k = false) : moonChecked l m sig s =
      settleMoonLoads { s with fld := { s.fld with loads := mapIf (fun e => e.acc == l.acc) (fun e => { e with checked := true }) s.fld.loads } } := by
  have hk' : ((maskStacks l.mask).any fun k => moonSlotLocked s m l.index k) = false := by simpa using hk
  simp only [moonChecked, hs, hp, hk', Bool.not_true, Bool.false_eq_true, if_false]

/-! ### A skein image (R104, R106) -/

/-- What decides an image does not read the loads. -/
theorem cachedHead_dropLoad (a : Nat) (i : SkeinImage) : cachedHead (dropLoad a s) i = cachedHead s i := rfl
theorem signerKnown_dropLoad (a : Nat) (id : BitVec 64) : signerKnown (dropLoad a s) id = signerKnown s id := rfl
theorem checkLoad_dropLoad (a f slot : Nat) (i : SkeinImage) : checkLoad (dropLoad a s) f slot i = checkLoad s f slot i := rfl

section
variable (hc : cachedHead s i = none)
include hc

theorem skeinChecked_unsigned (hs : signatureGood s sig i.hdr.signerId = false) :
    skeinChecked l i sig s = finish l.acc .signatureFail 0 2 (dropLoad l.acc s) := by
  simp only [skeinChecked, cachedHead_dropLoad, signerKnown_dropLoad, hc, hs, Option.isSome_none, Option.getD_none, Bool.not_false, Bool.true_and, if_true]

variable (hs : signatureGood s sig i.hdr.signerId = true)
include hs

theorem skeinChecked_wrongBody (hb : i.bodyHash ≠ i.hdr.bodyDigest) :
    skeinChecked l i sig s = finish l.acc .digestFail 0 3 (dropLoad l.acc s) := by
  simp only [skeinChecked, cachedHead_dropLoad, signerKnown_dropLoad, hc, hs, bne_iff_ne.mpr hb, Option.isSome_none, Option.getD_none,
    Bool.not_false, Bool.not_true, Bool.true_and, Bool.false_eq_true, if_false, if_true]

variable (hb : i.bodyHash = i.hdr.bodyDigest)
include hb

theorem skeinChecked_fails {st : Status} {n : Nat} (hk : checkLoad s l.field l.slot i = some (st, n)) :
    skeinChecked l i sig s = finish l.acc st 0 n (dropLoad l.acc s) := by
  simp only [skeinChecked, cachedHead_dropLoad, signerKnown_dropLoad, checkLoad_dropLoad, hc, hs, hb, hk, bne_self_eq_false, Option.isSome_none,
    Option.getD_none, Bool.not_false, Bool.not_true, Bool.true_and, Bool.false_eq_true, if_false]

/-- A good image is cached, and its fill waits for the slot (R106 step 3, R107). -/
theorem skeinChecked_fills (hk : checkLoad s l.field l.slot i = none) (ha : l.abort = false) (hu : u = cacheImage i (dropLoad l.acc s)) :
    skeinChecked l i sig s = { u with fld := { u.fld with fills := u.fld.fills ++
      [{ field := l.field, slot := l.slot, acc := some l.acc, img := i, report := l.report }] } } := by
  subst hu
  simp only [skeinChecked, cachedHead_dropLoad, signerKnown_dropLoad, checkLoad_dropLoad, hc, hs, hb, hk, ha, bne_self_eq_false, Option.isSome_none,
    Option.getD_none, Bool.not_false, Bool.not_true, Bool.true_and, Bool.false_eq_true, if_false]

end

end

/-! ### SLOT_FILL (R106 steps 4 and 5, R107, R176, R259) -/

section
variable {f : FieldId} {slot : SlotId} {fl fl' : Field} {w : FillWait} {a : Nat}

theorem exec_slotFill : exec (.slotFill f slot) s = execSlotFill f slot s := rfl

/-- The state after a waiting fill has written its slot, before its load is told. -/
abbrev slotFilled (f slot : Nat) (w : FillWait) (s : State) : State :=
  fillSlot f slot w.img { s with fld := { s.fld with fills := s.fld.fills.erase w } }

variable (hf : fieldAt s f = some fl) (hw : firstFill s f slot = some w) (hb : slotBusy s fl slot = false)
include hf hw hb

theorem slotFill_unasked (ha : w.acc = none) : exec (.slotFill f slot) s = .next (slotFilled f slot w s) := by
  simp only [exec_slotFill, execSlotFill, hf, hw, hb, ha, Bool.false_eq_true, if_false]

variable (ha : w.acc = some a) (hf' : fieldAt (slotFilled f slot w s) f = some fl')
include ha hf'

theorem slotFill_unreported (hr : w.report = 0) : exec (.slotFill f slot) s =
    .next (finish a .ok (maxN (skeinBounds (slotFilled f slot w s) fl' w.img)) 0 (slotFilled f slot w s)) := by
  simp only [exec_slotFill, execSlotFill, hf, hw, hb, ha, hf', hr, hostLost, bne_self_eq_false, Bool.false_and, Bool.false_eq_true, if_false, if_true]

theorem slotFill_linkDown (hr : w.report ≠ 0) (hl : hostLost (slotFilled f slot w s) a true = true) :
    exec (.slotFill f slot) s = .next (finish a .linkDown 0 0 (slotFilled f slot w s)) := by
  simp only [exec_slotFill, execSlotFill, hf, hw, hb, ha, hf', bne_iff_ne.mpr hr, hl, Bool.false_eq_true, if_false, if_true]

/-- The report is in host memory before the load completes (R176). -/
theorem slotFill_reported (hr : w.report ≠ 0) (hl : hostLost (slotFilled f slot w s) a true = false)
    (hv : v = hostWrite (slotFilled f slot w s) w.report.toNat (loadReport (slotFilled f slot w s) f slot fl' w.img)) :
    exec (.slotFill f slot) s = .next (finish a .ok (maxN (skeinBounds v fl' w.img)) 0 v) := by
  subst hv
  simp only [exec_slotFill, execSlotFill, hf, hw, hb, ha, hf', bne_iff_ne.mpr hr, hl, if_neg hr, Bool.false_eq_true, if_false]

end

end Sys2Proof.Machine

open Sys2Proof Sys2Proof.Machine

/-- Settles O17: each command by its equations above, those of the read last. That the read comes before the header's check is the model's own order
(log 149); MOON_LOAD without room in the cache ends NO_PLACEMENT by log 135, and LINK_DOWN is told at the start, with RESULT1 0, by log 172. -/
theorem imageLoads : Obligations.ImageLoads := by
  unfold Obligations.ImageLoads
  refine ⟨fun s q h d host acc => ⟨?skein, ?moon⟩, fun u place f a n x => hubRead_lost, fun u place f a n => hubRead_whole,
    fun u f a n => hubRead_unmapped⟩
  case skein =>
    intro ht
    refine ⟨loadSkein_reservedPlace ht, loadSkein_badForm ht, loadSkein_linkDown ht, fun h3 hf hl met v hr => ?_⟩
    have hread (hm : met = true) := loadSkein_read (host := host) ht h3 hf hl (hm ▸ hr) rfl
    refine ⟨fun hm => loadSkein_unread ht h3 hf hl (hm ▸ hr), fun hm hc hb => ?header, fun hm hc hb hroom => ?joins,
      fun hm hc hb hfull he => ?full, fun i hm hc => ?cached⟩
    case header => rw [hread hm, hc, Option.getD_none, loadStart_badHeader hb]
    case joins => rw [hread hm, hc, Option.getD_none, loadStart_joins hc hb hroom]
    case full => rw [hread hm, hc, Option.getD_none, loadStart_full hc hb hfull he]
    case cached => rw [hread hm, hc, Option.getD_some]
  case moon =>
    intro ht
    refine ⟨moonLoad_reservedPlace ht, moonLoad_noStack ht, moonLoad_badForm ht, moonLoad_linkDown ht, fun h3 hs hf hl met v hr => ?_⟩
    have hread (hm : met = true) := moonLoad_read (host := host) ht h3 hs hf hl (hm ▸ hr) rfl
    refine ⟨fun hm => moonLoad_unread ht h3 hs hf hl (hm ▸ hr), fun hm hb => ?header, fun hm hb hroom => ?joins, fun hm hb hfull he => ?full⟩
    case header => rw [hread hm, moonStart_badHeader hb]
    case joins => rw [hread hm, moonStart_joins hb hroom]
    case full => rw [hread hm, moonStart_full hb hfull he]

/-- Settles O18: an answer is ignored, or the load is decided by `moonChecked` or `skeinChecked`; a fill by its equations above. That an answer whose
digest is not that of the copy changes nothing is the model's choice (log 127). -/
theorem imagesAreDecided : Obligations.ImagesAreDecided := by
  unfold Obligations.ImagesAreDecided
  refine ⟨fun s acc bodyHash sig l m hl hs hm => ?moon, fun s acc bodyHash sig l i hl hs => ⟨imageChecked_ignored hl hs, fun hf hc => ?skein⟩,
    fun s f slot fl w => slotFill_unasked, fun s f slot fl fl' w a hf hw hb ha hf' => ?fill⟩
  case moon =>
    rw [imageChecked_moon hl hs hm]
    refine ⟨fun hb => ?_, fun he hml hk hp => ?_, fun he hml hk hp hn => ?_⟩
    · rw [moonChecked_unsigned (signatureGood_eq_false hb _)]
    · rw [moonChecked_badParams (signatureGood_of he hml hk) hp]
    · rw [moonChecked_settles (signatureGood_of he hml hk) hp hn]
  case skein =>
    rw [imageChecked_skein hl hs hf]
    refine ⟨fun hb => ?_, fun he hml hk hb => ?_, fun st n he hml hk hb hn => ?_, fun he hml hk hb hn ha => ?_⟩
    · rw [skeinChecked_unsigned hc (signatureGood_eq_false hb _)]
    · rw [skeinChecked_wrongBody hc (signatureGood_of he hml hk) hb]
    · rw [skeinChecked_fails hc (signatureGood_of he hml hk) hb hn]
    · rw [skeinChecked_fills hc (signatureGood_of he hml hk) hb hn ha rfl]
  case fill =>
    exact ⟨slotFill_unreported hf hw hb ha hf', slotFill_linkDown hf hw hb ha hf', fun hr hl => slotFill_reported hf hw hb ha hf' hr hl rfl⟩
end

section
/-!
PROOFS. Sections enter: what RUN_SECTION and RESUME answer, one equation per case of their checks.
-/

namespace Sys2Proof.Machine

variable {s t u v : State} {q : QId} {h : DescHdr} {acc : Nat}

/-- Copies are looked at again after the work of a descriptor that may bring them their target (R234). -/
theorem next_settled_taken {op : Opcode} {b : Bool} {work : Nat → State → State} (ht : Taken s q op h acc) (hop : op ≠ .copy)
    (hw : work acc (started s q acc) = t) :
    (.next (settleCopies (withDesc q op h b work s)) : Host.Outcome State Fault Refusal) = .next (settleCopies t) := by
  rw [withDesc_taken ht hop, hw]

/-- A descriptor of a section ends without one, and with it the PARKs that waited for its section (R117). -/
abbrev endUnplaced (acc : Nat) (st : BitVec 16) (s : State) : State := dropParkWait acc .alreadyDone (finishCode acc st 0 0 s)

/-! ### RUN_SECTION (R108, R166, R259, R272) -/

section
variable {d : RunDesc} {block : List (BitVec 32)} {fl : Field} {i : SkeinImage}

/-- The slot that a RUN_SECTION names. -/
abbrev runSlot (d : RunDesc) (fl : Field) : Slot := tget ({} : Slot) d.slot fl.slots

/-- Some supplied axis of the dispatch is 0 (R167). -/
abbrev emptyDispatch (d : RunDesc) (block : List (BitVec 32)) (i : SkeinImage) : Bool :=
  (suppliedAxes i).any fun a => (runScalars d block).getD a.scalar 0 == 0

/-- The section of a RUN_SECTION that passed its checks. -/
abbrev submittedSection (u : State) (acc : Nat) (h : DescHdr) (d : RunDesc) (block : List (BitVec 32)) (fl : Field) (i : SkeinImage) : Section :=
  { newSection u d.field (some acc) d.slot (runScalars d block) with
    empty := emptyDispatch d block i, watchdog := d.watchdog.toNat, idleEn := d.idleEn, idleLimit := d.idleLimit.toNat
    feeds := feedsFor i (runScalars d block) (emptyDispatch d block i)
    blockAddr := d.blockAddr, bound := runBound u d.field fl i, tag := some h.tag.toNat }

variable (ht : Taken s q .runSection h acc) (hu : u = wakeField d.field (started s q acc))
include ht hu

theorem runSection_fieldless (hf : fieldAt u d.field = none) : exec (.runSection q h d block) s =
    .next (settleCopies (endUnplaced acc (statusCode .noPlacement) u)) := by
  subst hu
  exact next_settled_taken ht (by decide) (by simp only [hf])

variable (hf : fieldAt u d.field = some fl)
include hf

theorem runSection_emptySlot (hs : (runSlot d fl).skein = none) : exec (.runSection q h d block) s =
    .next (settleCopies (endUnplaced acc ((runSlot d fl).refillFail.getD (statusCode .noPlacement)) u)) := by
  subst hu
  exact next_settled_taken ht (by decide) (by simp only [hf, hs])

variable (hs : (runSlot d fl).skein = some i)
include hs

theorem runSection_badCodes (hc : runCodesBad d i = true) : exec (.runSection q h d block) s =
    .next (settleCopies (endUnplaced acc (statusCode .countMismatch) u)) := by
  subst hu
  exact next_settled_taken ht (by decide) (by simp only [hf, hs, hc, if_true])

variable (hc : runCodesBad d i = false)
include hc

theorem runSection_linkDown (hl : hostLost u acc (8 < d.nscalars.toNat) = true) : exec (.runSection q h d block) s =
    .next (settleCopies (endUnplaced acc (statusCode .linkDown) u)) := by
  subst hu
  exact next_settled_taken ht (by decide) (by simp only [hf, hs, hc, hl, Bool.false_eq_true, if_false, if_true])

variable (hl : hostLost u acc (8 < d.nscalars.toNat) = false)
include hl

theorem runSection_fails {st : Status} (hk : checkRun u d.field fl i (runScalars d block) = some st) : exec (.runSection q h d block) s =
    .next (settleCopies (endUnplaced acc (statusCode st) u)) := by
  subst hu
  exact next_settled_taken ht (by decide) (by simp only [hf, hs, hc, hl, hk, Bool.false_eq_true, if_false])

theorem runSection_enters (hk : checkRun u d.field fl i (runScalars d block) = none) : exec (.runSection q h d block) s =
    .next (settleCopies (enterSection d.field (submittedSection u acc h d block fl i) (countSection (setPhase acc .waiting u)))) := by
  subst hu
  exact next_settled_taken ht (by decide) (by simp only [hf, hs, hc, hl, hk, Bool.false_eq_true, if_false])

end

/-! ### RESUME of a park record (R121, R124, R237) -/

section
variable {d : ResumeDesc} {p : ParkRec} {i : SkeinImage} {fl : Field}

/-- A resumed record's skein is in its slot, or fills it, at once where no unit uses the slot (R107, R121). -/
abbrev skeinReturned (f : Nat) (p : ParkRec) (i : SkeinImage) (fl : Field) (w : State) : State :=
  if (slotSkein fl p.slot).map (·.headerHash) = some p.headerHash then w
  else if slotBusy w fl p.slot = true then { w with fld := { w.fld with fills := w.fld.fills ++
    [{ field := f, slot := p.slot, acc := none, img := i, report := 0 }] } }
  else fillSlot f p.slot i w

/-- The section of a record, before it has a number and a phase (R121). -/
abbrev recordSection (v : State) (acc : Nat) (h : DescHdr) (d : ResumeDesc) (p : ParkRec) (i : SkeinImage) (fl : Field) : Section :=
  { newSection v d.field (some acc) p.slot p.scalars with
    image := some i, empty := p.empty, watchdog := p.watchdog, idleEn := p.idleEn, idleLimit := p.idleLimit
    feeds := p.feeds.map fun (e : Feed) => { e with expects := e.expects - e.delivered, accepted := 0, delivered := 0, before := e.before + e.delivered }
    blockAddr := d.outAddr, bound := runBound v d.field fl i, tag := some h.tag.toNat, outOfRange := p.outOfRange, exits := p.exits
    restored := true, restore := p.units }

variable (ht : Taken s q .resume h acc)
include ht

section
variable (hu : u = wakeField d.field (started s q acc))
include hu

theorem resumeParkRecord_unknown (hp : parkAt u d.source.toNat = none) : exec (.resumeParkRecord q h d) s =
    .next (settleCopies (endUnplaced acc (statusCode .countMismatch) u)) := by
  subst hu
  exact next_settled_taken ht (by decide) (by simp only [hp])

variable (hp : parkAt u d.source.toNat = some p)
include hp

theorem resumeParkRecord_fails {st : BitVec 16} (hk : resumeCheck u d.field p = .inl st) : exec (.resumeParkRecord q h d) s =
    .next (settleCopies (endUnplaced acc st u)) := by
  subst hu
  exact next_settled_taken ht (by decide) (by simp only [hp, hk])

variable (hk : resumeCheck u d.field p = .inr i) (hf : fieldAt u d.field = some fl)
  (hv : v = skeinReturned d.field p i fl (cacheImage i u))
include hk hf hv

/-- A record of the release form returns at the end of the queue, under a new number. -/
theorem resumeParkRecord_enters (h1 : p.form = 1) : exec (.resumeParkRecord q h d) s =
    .next (settleCopies (enterSection d.field { recordSection v acc h d p i fl with id := v.fld.nextSection, phase := .queued }
      (countSection (dropRecord p.handle (setPhase acc .waiting v))))) := by
  subst hu hv
  have hn : (p.form != 1) = false := by simp [h1]
  exact next_settled_taken ht (by decide) (by simp only [hp, hk, hf, hn, beq_iff_eq, Bool.false_eq_true, if_false])

/-- A record held in place keeps its section's number and place (log 29). -/
theorem resumeParkRecord_returns (h1 : p.form ≠ 1) : exec (.resumeParkRecord q h d) s =
    .next (settleCopies (returnSection d.field { recordSection v acc h d p i fl with id := p.sectionId, phase := .dispatched }
      (dropRecord p.handle (setPhase acc .waiting v)))) := by
  subst hu hv
  have hn : (p.form != 1) = true := by simp [h1]
  exact next_settled_taken ht (by decide) (by simp only [hp, hk, hf, hn, beq_iff_eq, if_true])

end

theorem resumeDiscard_unknown (hp : parkAt (started s q acc) d.source.toNat = none) :
    exec (.resumeDiscard q h d) s = .next (finish acc .countMismatch 0 0 (started s q acc)) :=
  next_taken ht (by decide) (by simp only [hp])

theorem resumeDiscard_drops (hp : parkAt (started s q acc) d.source.toNat = some p) :
    exec (.resumeDiscard q h d) s = .next (finish acc .ok 0 0 (dropRecord p.handle (started s q acc))) :=
  next_taken ht (by decide) (by simp only [hp])

end

/-! ### RESUME of a comet (R318, R320, R384) -/

section
variable {d : ResumeDesc} {c : CometRead}

/-- A comet's signer is this module or one of the trust list (R318, R319). -/
abbrev signerTrusted (u : State) (x : Comet) : Bool := x.identity == ownIdentity || u.serv.trust.contains x.identity

variable (ht : Taken s q .resume h acc)
include ht

theorem resumeComet_badZero {st : Status} (hz : resumeZero d = some st) :
    exec (.resumeComet q h d c) s = .next (settleHolds (finish acc st 0 0 (started s q acc))) :=
  next_taken ht (by decide) (by simp only [hz])

variable (hz : resumeZero d = none)
include hz

theorem resumeComet_linkDown (hl : hostLost (started s q acc) acc d.srcPlace = true) :
    exec (.resumeComet q h d c) s = .next (settleHolds (finish acc .linkDown 0 0 (started s q acc))) :=
  next_taken ht (by decide) (by simp only [hz, hl, if_true])

variable (hl : hostLost (started s q acc) acc d.srcPlace = false)
include hl

theorem resumeComet_noSource {st : Status} (hr : resumeSource (started s q acc) d c = .error st) :
    exec (.resumeComet q h d c) s = .next (settleHolds (finish acc st 0 0 (started s q acc))) :=
  next_taken ht (by decide) (by simp only [hz, hl, hr, Bool.false_eq_true, if_false])

variable {x : Comet} {handle : Option Nat} {signed body pages : Bool}
  (hr : resumeSource (started s q acc) d c = .ok (x, handle, signed, body, pages))
include hr

theorem resumeComet_untrusted (hs : signed = false ∨ signerTrusted (started s q acc) x = false) :
    exec (.resumeComet q h d c) s = .next (settleHolds (finish acc .signatureFail 0 0 (started s q acc))) := by
  have hb : (!signed || !signerTrusted (started s q acc) x) = true := by rcases hs with hs | hs <;> simp [hs]
  exact next_taken ht (by decide) (by simp only [hz, hl, hr, hb, Bool.false_eq_true, if_false, if_true])

variable (hs : signed = true) (hi : signerTrusted (started s q acc) x = true)
include hs hi

theorem resumeComet_wrongBody (hb : body = false) :
    exec (.resumeComet q h d c) s = .next (settleHolds (finish acc .digestFail 0 0 (started s q acc))) :=
  next_taken ht (by decide) (by simp only [hz, hl, hr, hs, hi, hb, Bool.or_self, Bool.not_true, Bool.not_false, Bool.false_eq_true, if_false, if_true])

/-- A comet that passes checks 2 to 7 waits for an entry of the request table. -/
theorem resumeComet_waits {m : Nat} {k : ServConfig} (hb : body = true) (hc : configAt (started s q acc) d.config.toNat ≠ none)
    (hw : (started s q acc).serv.firmware = true ∨ (x.hdr.awaitKv = false ∧ x.hdr.prefillOnly = false))
    (hm : placeMember (started s q acc) d.config.toNat = some m) (hk : configAt (started s q acc) m = some k)
    (hd : x.hdr.skeinDigest = k.record) (hd' : x.hdr.manifestDigest = k.block.manifestDigest)
    (hx : x.hdr.promptTokens + x.hdr.maxNew ≤ k.block.maxContext.toNat)
    (hq : manifestHeld (started s q acc) k.block.field k.block.manifestDigest = false) :
    exec (.resumeComet q h d c) s = .next (awaitEntry
      { acc, req := resumeEntry (started s q acc) acc (acceptedAt (started s q acc) acc) h d x m k.block.field, comet := some (x, handle, pages) }
      (wakeField k.block.field (started s q acc))) := by
  have hc' : (configAt (started s q acc) d.config.toNat).isNone = false := by simpa [Option.isNone_eq_false_iff, Option.isSome_iff_ne_none] using hc
  have hw' : (!(started s q acc).serv.firmware && (x.hdr.awaitKv || x.hdr.prefillOnly)) = false := by
    rcases hw with hw | ⟨ha, hp⟩
    · simp [hw]
    · simp [ha, hp]
  have hn : ¬(x.hdr.skeinDigest ≠ k.record ∨ x.hdr.manifestDigest ≠ k.block.manifestDigest) := by simp [hd, hd']
  exact next_taken ht (by decide) (by
    simp only [hz, hl, hr, hs, hi, hb, hc', hw', hm, hk, if_neg hn, if_neg hx.not_gt, hq, Bool.or_self, Bool.not_true, Bool.false_eq_true, if_false])

end

end Sys2Proof.Machine

open Sys2Proof Sys2Proof.Machine

/-- Settles O20: the checks in order, each by its equation above. That the slot is checked before the descriptor's own codes is log 153, the status
of a slot whose refill failed log 62. -/
theorem sectionsAreSubmitted : Obligations.SectionsAreSubmitted := by
  unfold Obligations.SectionsAreSubmitted
  intro s q h d block acc ht
  refine ⟨runSection_fieldless ht rfl, fun fl hf => ⟨runSection_emptySlot ht rfl hf, fun i hs => ?_⟩⟩
  exact ⟨runSection_badCodes ht rfl hf hs, runSection_linkDown ht rfl hf hs, fun st hc hl => runSection_fails ht rfl hf hs hc hl,
    runSection_enters ht rfl hf hs⟩

/-- Settles O22: a park record, a discard and a comet by their equations above. That a section held in place keeps its number and place is log 29, that
the checks of a run are made again log 133. -/
theorem resumesReturnWork : Obligations.ResumesReturnWork := by
  unfold Obligations.ResumesReturnWork
  intro s q h d c acc ht
  refine ⟨⟨resumeParkRecord_unknown ht rfl, fun p st hp => resumeParkRecord_fails ht rfl hp, fun p i fl hp hk hf => ?record⟩,
    resumeDiscard_unknown ht, fun p => resumeDiscard_drops ht, fun st => resumeComet_badZero ht, resumeComet_linkDown ht,
    fun hz hl => ⟨fun st => resumeComet_noSource ht hz hl, fun x handle signed body pages hr => ?comet⟩⟩
  case record => exact ⟨resumeParkRecord_enters ht rfl hp hk hf rfl, resumeParkRecord_returns ht rfl hp hk hf rfl⟩
  case comet =>
    have trusted (hi : x.identity = ownIdentity ∨ (started s q acc).serv.trust.contains x.identity = true) :
        signerTrusted (started s q acc) x = true := by
      rcases hi with hi | hi <;> simp only [signerTrusted, hi, beq_self_eq_true, Bool.true_or, Bool.or_true]
    refine ⟨fun hn => resumeComet_untrusted ht hz hl hr (hn.imp_right fun ⟨h1, h2⟩ => ?_),
      fun hs hi hb => resumeComet_wrongBody ht hz hl hr hs (trusted hi) hb, fun m k hs hi => resumeComet_waits ht hz hl hr hs (trusted hi)⟩
    simp only [signerTrusted, beq_eq_false_iff_ne.mpr h1, h2, Bool.or_self]
end

section
/-!
PROOFS. Requests: REQUEST_SUBMIT, REQUEST_CANCEL and PARK, one equation per case of their checks and of what the target is.
-/

namespace Sys2Proof.Machine

variable {s u v : State} {q : QId} {h : DescHdr} {acc : Nat}

/-! ### REQUEST_SUBMIT (R259, R276, R284, R285, R384) -/

section
variable {d : SubmitDesc} {prompt : List (BitVec 32)}

/-- MAX_NEW of 0 is told once no other zero of the request is without meaning (log 43). -/
theorem submitCheck_maxNew_zero (h0 : d.maxNew = 0) (hp : d.promptTokens ≠ 0) (hd : d.noDeadline = true ∨ d.deadline ≠ 0)
    (hk : d.parkEn = false ∨ d.parkLimit ≠ 0) : submitCheck u d prompt = some .okEmpty := by
  have hz : submitZero d = some .okEmpty := by
    have hn : ¬(d.promptTokens = 0 ∨ (d.noDeadline = false ∧ d.deadline = 0) ∨ (d.parkEn = true ∧ d.parkLimit = 0)) := by
      rintro (h | ⟨h, h'⟩ | ⟨h, h'⟩)
      · exact hp h
      · simp [h, h'] at hd
      · simp [h, h'] at hk
    rw [submitZero, if_neg hn, if_pos h0]
  simp only [submitCheck, hz]

/-- A submission that passes its checks has no zero field. -/
theorem submitZero_of_submitCheck (h : submitCheck u d prompt = none) : submitZero d = none := by
  cases hz : submitZero d with
  | none => rfl
  | some st => simp [submitCheck, hz] at h

variable (ht : Taken s q .requestSubmit h acc)
include ht

theorem requestSubmit_linkDown (hz : submitZero d = none) (hl : hostDma (started s q acc) acc = false) :
    exec (.requestSubmit q h d prompt) s = .next (settleHolds (finish acc .linkDown 0 0 (started s q acc))) :=
  next_taken ht (by decide) (by simp only [hz, hl, Option.isNone_none, Bool.not_false, Bool.and_self, if_true])

variable (hp : prompt.length = d.promptTokens.toNat)
include hp

theorem requestSubmit_fails {st : Status} (hk : submitCheck (started s q acc) d prompt = some st)
    (hl : submitZero d = none → hostDma (started s q acc) acc = true) :
    exec (.requestSubmit q h d prompt) s = .next (settleHolds (finish acc st 0 0 (started s q acc))) := by
  have hb : ((submitZero d).isNone && !hostDma (started s q acc) acc) = false := by
    cases hz : submitZero d with
    | none => simp [hl hz]
    | some _ => rfl
  exact next_taken ht (by decide) (by simp only [hb, List.take_left' hp, hk, Bool.false_eq_true, if_false])

variable (hk : submitCheck (started s q acc) d prompt = none) (hl : hostDma (started s q acc) acc = true)
include hk hl

theorem requestSubmit_placeless (hm : placeMember (started s q acc) d.config.toNat = none) :
    exec (.requestSubmit q h d prompt) s = .next (settleHolds (finish acc .quarantinedShard 0 0 (started s q acc))) :=
  next_taken ht (by decide) (by simp only [hl, List.take_left' hp, hk, hm, Bool.not_true, Bool.and_false, Bool.false_eq_true, if_false])

variable {m : Nat} {c : ServConfig} (hm : placeMember (started s q acc) d.config.toNat = some m) (hc : configAt (started s q acc) m = some c)
include hm hc

theorem requestSubmit_quarantined (hq : manifestHeld (started s q acc) c.block.field c.block.manifestDigest = true) :
    exec (.requestSubmit q h d prompt) s = .next (settleHolds (finish acc .quarantinedShard 0 0 (started s q acc))) :=
  next_taken ht (by decide) (by
    simp only [hl, List.take_left' hp, hk, hm, hc, hq, Bool.not_true, Bool.and_false, Bool.false_eq_true, if_false, if_true])

theorem requestSubmit_waits (hq : manifestHeld (started s q acc) c.block.field c.block.manifestDigest = false) :
    exec (.requestSubmit q h d prompt) s = .next (awaitEntry
      { acc, req := submitEntry (started s q acc) acc (acceptedAt (started s q acc) acc) h d prompt m c.block.field, comet := none }
      (wakeField c.block.field (started s q acc))) :=
  next_taken ht (by decide) (by
    simp only [hl, List.take_left' hp, hk, hm, hc, hq, Bool.not_true, Bool.and_false, Bool.false_eq_true, if_false])

end

/-! ### A cancel or a park of a request finds its target (R272, R279, R303, R314) -/

section
variable {tq ts a : Nat} {t : OpenDesc} {park : Option ParkDesc}

theorem targetRequest_closed (h : targetDesc u tq ts = none) : targetRequest acc tq ts park u = finish acc .alreadyDone 0 0 u := by
  simp only [targetRequest, h]

theorem targetRequest_otherKind (h : targetDesc u tq ts = some (a, t)) (h0 : t.op ≠ 0x40) (h3 : t.op ≠ 0x43) :
    targetRequest acc tq ts park u = finish acc .countMismatch 0 0 u := by
  simp only [targetRequest, h, beq_eq_false_iff_ne.mpr h0, beq_eq_false_iff_ne.mpr h3, Bool.or_self, Bool.not_false, if_true]

theorem targetRequest_holds (h : targetDesc u tq ts = some (a, t)) (ho : t.op = 0x40 ∨ t.op = 0x43) :
    targetRequest acc tq ts park u =
      settleHolds (setPhase acc .waiting { u with serv := { u.serv with holds := u.serv.holds ++ [(acc, a, park)] } }) := by
  rcases ho with ho | ho <;> simp [targetRequest, h, ho]

end

theorem exec_requestCancel_taken {tq : QId} {ts : BitVec 16} (ht : Taken s q .requestCancel h acc) :
    exec (.requestCancel q h tq ts) s = .next (targetRequest acc tq ts.toNat none (started s q acc)) := next_taken ht (by decide) rfl

/-! ### The descriptor of a PARK (R272) -/

section
variable {d : ParkDesc} (ht : Taken s q .park h acc)
include ht

section
variable (hd : d.destPlace = 3 ∨ (d.scan = true ∧ d.release = true))
include hd

theorem parkSection_reserved : exec (.parkSection q h d) s = .next (finish acc .countMismatch 0 0 (started s q acc)) := by
  have hb : ((d.scan && d.release) || d.destPlace == 3) = true := by rcases hd with hd | ⟨hs, hr⟩ <;> simp [*]
  exact next_taken ht (by decide) (if_pos hb)

theorem parkRequest_reserved : exec (.parkRequest q h d) s = .next (finish acc .countMismatch 0 0 (started s q acc)) :=
  next_taken ht (by decide) (if_pos hd)

end

section
variable (hd : d.destPlace ≠ 3) (hr : d.scan = false ∨ d.release = false)
include hd hr

theorem exec_parkSection_taken : exec (.parkSection q h d) s = .next (parkTarget acc d (started s q acc)) := by
  have hb : ¬((d.scan && d.release) || d.destPlace == 3) = true := by
    rw [beq_eq_false_iff_ne.mpr hd]
    rcases hr with hr | hr <;> simp [hr]
  exact next_taken ht (by decide) (if_neg hb)

theorem exec_parkRequest_taken :
    exec (.parkRequest q h d) s = .next (targetRequest acc d.targetSq d.targetSeq.toNat (some d) (started s q acc)) := by
  have hb : ¬(d.destPlace = 3 ∨ (d.scan = true ∧ d.release = true)) :=
    not_or.mpr ⟨hd, by rcases hr with hr | hr <;> simp [hr]⟩
  exact next_taken ht (by decide) (if_neg hb)

end

end

/-! ### The section that a PARK names (R117, R191) -/

section
variable {d : ParkDesc} {a f : Nat} {t : OpenDesc} {fl : Field} {x : Section}

/-- The section that carries a descriptor, with its field. -/
abbrev carrierOf (u : State) (a : Nat) : Option (Nat × Field × Section) :=
  u.fld.fields.findSome? fun (e : Nat × Field) => ((sectionsOf e.2).find? fun x => x.acc == some a).map fun x => (e.1, e.2, x)

/-- A PARK waits until the section of a descriptor is first active (R117). -/
abbrev parkWaits (acc : Nat) (d : ParkDesc) (a : Nat) (u : State) : State :=
  { setPhase acc .waiting u with fld := { u.fld with parkWait := u.fld.parkWait ++ [(acc, a, d.release, d.scan)] } }

/-- A PARK becomes the cause of a drain that already runs. -/
abbrev parkTakesOver (acc : Nat) (d : ParkDesc) (f : Nat) (x : Section) (v : State) : State :=
  modSec f x.id (fun x => { x with why := some (.park acc d.release d.scan) }) (setPhase acc .waiting v)

/-- A PARK goes on where its records find room, and else ends NO_PLACEMENT (R191; log 132). -/
def parkWhereRoom (acc : Nat) (d : ParkDesc) (f : Nat) (ids : List Nat) (go : State → State) (u : State) : State :=
  match parkRoom d.release f ids u with
  | some v => go v
  | none => finish acc .noPlacement 0 0 (noRoom ids u)

theorem parkTarget_closed (hd : targetDesc u d.targetSq d.targetSeq.toNat = none) : parkTarget acc d u = finish acc .alreadyDone 0 0 u := by
  simp only [parkTarget, hd]

variable (hd : targetDesc u d.targetSq d.targetSeq.toNat = some (a, t))
include hd

section
variable (hc : carrierOf u a = none)
include hc

/-- A descriptor that may yet enter a field (R108, R121). -/
theorem parkTarget_unplaced (ho : t.op = 0x21 ∨ (t.op = 0x43 ∧ t.phase ≠ .placed ∧ t.phase ≠ .waiting)) :
    parkTarget acc d u = parkWaits acc d a u := by
  have hb : (t.op == 0x21 || (t.op == 0x43 && t.phase != .placed && t.phase != .waiting)) = true := by
    rcases ho with ho | ⟨ho, h1, h2⟩ <;> simp [*]
  simp only [parkTarget, hd, hc, hb, if_true]

theorem parkTarget_otherKind (h1 : t.op ≠ 0x21) (h2 : t.op ≠ 0x43 ∨ t.phase = .placed ∨ t.phase = .waiting) :
    parkTarget acc d u = finish acc .countMismatch 0 0 u := by
  have hb : (t.op == 0x21 || (t.op == 0x43 && t.phase != .placed && t.phase != .waiting)) = false := by
    rw [beq_eq_false_iff_ne.mpr h1]
    rcases h2 with h2 | h2 | h2
    · rw [beq_eq_false_iff_ne.mpr h2]; rfl
    · simp [h2]
    · simp [h2]
  simp only [parkTarget, hd, hc, hb, Bool.false_eq_true, if_false]

end

section
variable (hc : carrierOf u a = some (f, fl, x))
include hc

theorem parkTarget_inactive (hp : x.phase = .dispatched) (hw : x.why = none) (ha : activeIn u fl x.id = false) :
    parkTarget acc d u = parkWaits acc d a u := by
  simp only [parkTarget, hd, hc, hp, hw, ha, Bool.false_eq_true, if_false]

theorem parkTarget_active (hp : x.phase = .dispatched) (hw : x.why = none) (ha : activeIn u fl x.id = true) :
    parkTarget acc d u = parkWhereRoom acc d f (drainIds u fl)
      (fun v => startDrain f x.id (.park acc d.release d.scan) d.scan (setPhase acc .waiting v)) u := by
  simp only [parkTarget, hd, hc, hp, hw, ha, if_true]
  rfl

/-- A section that drains for another cause than the governor's, or along with an aborted one (log 131). -/
theorem parkTarget_draining (hp : x.phase = .draining ∨ x.phase = .settled) (hw : x.why ≠ some .governor) :
    parkTarget acc d u = finish acc .alreadyDone 0 0 u := by
  cases hy : x.why with
  | none => rcases hp with hp | hp <;> simp only [parkTarget, hd, hc, hp, hy]
  | some w =>
    cases w with
    | governor => exact absurd hy hw
    | _ => rcases hp with hp | hp <;> simp only [parkTarget, hd, hc, hp, hy]

/-- The PARK of a section that the governor drains governs (log 131). -/
theorem parkTarget_governed (hp : x.phase ≠ .parkedInPlace) (hw : x.why = some .governor) :
    parkTarget acc d u = parkWhereRoom acc d f [x.id] (parkTakesOver acc d f x) u := by
  cases hy : x.phase with
  | parkedInPlace => exact absurd hy hp
  | _ =>
    simp only [parkTarget, hd, hc, hy, hw]
    rfl

/-- The PARK of a section that the governor has parked writes its record at once. -/
theorem parkTarget_parked (hp : x.phase = .parkedInPlace) : parkTarget acc d u = parkWhereRoom acc d f [x.id]
    (fun v => parkSectionNow f x.id (b2n d.release) 0 (parkTakesOver acc d f x v)) u := by
  simp only [parkTarget, hd, hc, hp]
  rfl

end

end

end Sys2Proof.Machine

open Sys2Proof Sys2Proof.Machine

/-- Settles O21: REQUEST_SUBMIT by its checks, a cancel or park of a request by `targetRequest`, the park of a section by `parkTarget`. The order of the
zero fields is log 43; ALREADY_DONE for a section that drains along with an aborted one is log 131, the room for its record log 132. -/
theorem requestsAndCancels : Obligations.RequestsAndCancels := by
  unfold Obligations.RequestsAndCancels
  refine ⟨fun s q h d prompt acc ht hp => ?submit, fun s q h tq ts d acc => ⟨fun ht => ?cancel, fun ht => ?park⟩⟩
  case submit =>
    exact ⟨requestSubmit_linkDown ht, fun st => requestSubmit_fails ht hp, submitCheck_maxNew_zero, requestSubmit_placeless ht hp,
      fun m c hk hl hm hc => ⟨requestSubmit_quarantined ht hp hk hl hm hc, requestSubmit_waits ht hp hk hl hm hc⟩⟩
  case cancel =>
    rw [exec_requestCancel_taken ht]
    exact ⟨fun h => by rw [targetRequest_closed h], fun a t h h0 h3 => by rw [targetRequest_otherKind h h0 h3],
      fun a t h ho => by rw [targetRequest_holds h ho]⟩
  case park =>
    refine ⟨fun hd => ⟨parkSection_reserved ht hd, parkRequest_reserved ht hd⟩, fun hd hr => ?_⟩
    rw [exec_parkSection_taken ht hd hr, exec_parkRequest_taken ht hd hr]
    refine ⟨fun h => ?closed, fun a t h => ⟨fun ho => ?request, fun hc => ?carrierless, fun f fl x hc => ?carried, fun f fl x hc => ?active⟩⟩
    case closed => rw [parkTarget_closed h, targetRequest_closed h]; exact ⟨rfl, rfl⟩
    case request => rw [targetRequest_holds h ho]
    case carrierless =>
      exact ⟨fun ho => by rw [parkTarget_unplaced h hc ho], fun h1 h2 => by rw [parkTarget_otherKind h hc h1 h2]⟩
    case carried =>
      exact ⟨fun hp hw ha => by rw [parkTarget_inactive h hc hp hw ha], fun hp hw => by rw [parkTarget_draining h hc hp hw],
        fun hp hw => congrArg _ (parkTarget_governed h hc hp hw), fun hp => congrArg _ (parkTarget_parked h hc hp)⟩
    case active => exact fun hp hw ha => congrArg _ (parkTarget_active h hc hp hw ha)
end

section
/-!
PROOFS. Sections at work: dispatch, the swap of a unit, and the end of a section.
-/

namespace Sys2Proof.Machine

variable {s : State} {f : FieldId} {fl : Field} {x : Section}

/-! ### SECTION_DISPATCH (R109, R119) -/

section
variable {i : SkeinImage}

theorem exec_sectionDispatch : exec (.sectionDispatch f) s = execSectionDispatch f s := rfl

/-- The oldest section of a field that has not been sent. -/
abbrev nextQueued (fl : Field) : Option Section := fl.seq.find? fun x => x.phase == .queued

/-- A field's gates are open, and its oldest unsent section has a skein. -/
structure DispatchDue (s : State) (f : FieldId) (fl : Field) (x : Section) (i : SkeinImage) : Prop where
  field : fieldAt s f = some fl
  next : nextQueued fl = some x
  skein : secSkein fl x = some i
  gates : dispatchOpen s f fl = true
  unheld : heldInPlace s f = false

section
variable (h : DispatchDue s f fl x i)
include h

theorem sectionDispatch_sends (hr : x.restored = false) (hs : sendReady s f x i = true) : exec (.sectionDispatch f) s =
    .next (pumpFeeds f feedBurst (sendDispatch f x i (modSec f x.id (fun x => { x with phase := .dispatched, progress := true }) s))) := by
  obtain ⟨hf, hx, hi, ho, hh⟩ := h
  simp only [exec_sectionDispatch, execSectionDispatch, hf, hx, hi, ho, hh, hr, hs, Bool.not_true, Bool.false_and, Bool.or_self,
    Bool.false_eq_true, if_false, if_true]

theorem sectionDispatch_unready (hr : x.restored = false) (hs : sendReady s f x i = false) : exec (.sectionDispatch f) s = .next s := by
  obtain ⟨hf, hx, hi, ho, hh⟩ := h
  simp only [exec_sectionDispatch, execSectionDispatch, hf, hx, hi, ho, hh, hr, hs, Bool.not_true, Bool.false_and, Bool.or_self,
    Bool.false_eq_true, if_false]

/-- A resumed section has been sent before; its units restore what it had (R121). -/
theorem sectionDispatch_resumes (hr : x.restored = true) (hw : (firstFill s f x.slot).isSome = false) : exec (.sectionDispatch f) s =
    .next (pumpFeeds f feedBurst (modSec f x.id (fun x => { x with phase := .dispatched }) s)) := by
  obtain ⟨hf, hx, hi, ho, hh⟩ := h
  simp only [exec_sectionDispatch, execSectionDispatch, hf, hx, hi, ho, hh, hr, hw, Bool.not_true, Bool.and_false, Bool.or_self,
    Bool.false_eq_true, if_false, if_true]

theorem sectionDispatch_unfilled (hr : x.restored = true) (hw : (firstFill s f x.slot).isSome = true) :
    exec (.sectionDispatch f) s = .next s := by
  obtain ⟨hf, hx, hi, ho, hh⟩ := h
  simp only [exec_sectionDispatch, execSectionDispatch, hf, hx, hi, hr, hw, Bool.and_self, Bool.or_true, if_true]

end

theorem sectionDispatch_closed (hf : fieldAt s f = some fl) (h : dispatchOpen s f fl = false ∨ heldInPlace s f = true ∨ fl.seq = []) :
    exec (.sectionDispatch f) s = .next s := by
  cases hx : nextQueued fl with
  | none => simp only [exec_sectionDispatch, execSectionDispatch, hf, hx]
  | some x =>
    have hn : (!dispatchOpen s f fl || heldInPlace s f) = true := by
      rcases h with h | h | h
      · simp [h]
      · simp [h]
      · simp [nextQueued, h] at hx
    cases hi : secSkein fl x with
    | none => simp only [exec_sectionDispatch, execSectionDispatch, hf, hx, hi]
    | some i => simp only [exec_sectionDispatch, execSectionDispatch, hf, hx, hi, hn, Bool.true_or, if_true]

end

/-! ### UNIT_SWAP (R109, R113, R117, R119) -/

section
variable {t : Tile} {f r c : Nat} {y : Section}

theorem tileIx_def : 40 * t.row.val + t.col.val = tileIx t := rfl

theorem exec_unitSwap : exec (.unitSwap t) s = execUnitSwap t s := rfl

/-- A unit of an awake field may change its section: it is not fenced, its island runs, and no drain holds the field. -/
structure SwapOpen (s : State) (t : Tile) (f : Nat) (fl : Field) (r c : Nat) : Prop where
  tile : fieldOfTile s (tileIx t) = some (f, fl, r, c)
  unfenced : unitFenced s (tileIx t) = false
  member : (moduleTiles s fl).contains (tileIx t) = true
  awake : fl.asleep = false
  clock : s.fld.stopped.getLsbD (tileIsland s (tileIx t)) = false
  undrained : drainingField fl = false

/-- A unit is at work for a section of its field. -/
abbrev inSection (fl : Field) (u : TileUnit) : Bool := !u.pendingSwap && fl.seq.any fun x => some x.id == u.sectionId

theorem inSection_free {v : TileUnit} (hv : v.sectionId = none) : inSection fl v = false := by simp [inSection, hv]

theorem inSection_of_mem {v : TileUnit} (hp : v.pendingSwap = false) (hv : v.sectionId = some x.id) (hx : x ∈ fl.seq) :
    inSection fl v = true := by
  simpa [inSection, hp, hv] using ⟨x, hx, rfl⟩

/-- The section that a unit may take next: in a field that an in-place record holds, that record's alone (R119). -/
abbrev mayTake (s : State) (f : Nat) (fl : Field) (v : TileUnit) : Option Section :=
  (nextFor fl v).filter fun x => x.restored || !heldInPlace s f

theorem mayTake_some {v : TileUnit} (hn : nextFor fl v = some x) (hh : (x.restored || !heldInPlace s f) = true) :
    mayTake s f fl v = some x := by
  rw [mayTake, hn, Option.filter_some, if_pos hh]

/-- A unit has taken a section: entries that wait for it move, and a PARK that waited for it takes effect (R117). -/
abbrev swapTo (f : Nat) (fl : Field) (t : Nat) (x : Section) (s : State) : State :=
  liftFences (takeParkWait f x.id (pumpFeeds f feedBurst (activate f fl t x s)))

variable (h : SwapOpen s t f fl r c)
include h

theorem unitSwap_free (hu : (unitAt s (tileIx t)).sectionId = none) (hx : mayTake s f fl (unitAt s (tileIx t)) = some x) :
    exec (.unitSwap t) s = .next (swapTo f fl (tileIx t) x s) := by
  obtain ⟨hf, hfn, hm, ha, hc, hd⟩ := h
  have hi := inSection_free (fl := fl) hu
  simp only [exec_unitSwap, execUnitSwap, tileIx_def, hf, hfn, hm, ha, hc, hd, hi, hx, Bool.not_true, Bool.false_and, Bool.or_self,
    Bool.false_eq_true, if_false]

variable (hi : inSection fl (unitAt s (tileIx t)) = true)
include hi

theorem unitSwap_unready (hw : swapReady s (tileIx t) = false) : exec (.unitSwap t) s = .next s := by
  obtain ⟨hf, hfn, hm, ha, hc, hd⟩ := h
  simp only [exec_unitSwap, execUnitSwap, tileIx_def, hf, hfn, hm, ha, hc, hd, hi, hw, Bool.not_true, Bool.not_false, Bool.and_self, Bool.or_self,
    Bool.false_or, Bool.false_eq_true, if_false, if_true]

variable (hw : swapReady s (tileIx t) = true)
include hw

theorem unitSwap_asks (hx : mayTake s f fl (unitAt s (tileIx t)) = none) : exec (.unitSwap t) s =
    .next (modUnit (tileIx t) (fun u => { u with pendingSwap := true }) (collectCounts f (tileIx t) s)) := by
  obtain ⟨hf, hfn, hm, ha, hc, hd⟩ := h
  simp only [exec_unitSwap, execUnitSwap, tileIx_def, hf, hfn, hm, ha, hc, hd, hi, hw, hx, Bool.not_true, Bool.and_false, Bool.or_self,
    Bool.false_eq_true, if_false, if_true]

theorem unitSwap_takes (hx : mayTake s f fl (unitAt s (tileIx t)) = some y) : exec (.unitSwap t) s =
    .next (swapTo f fl (tileIx t) y (collectCounts f (tileIx t) s)) := by
  obtain ⟨hf, hfn, hm, ha, hc, hd⟩ := h
  simp only [exec_unitSwap, execUnitSwap, tileIx_def, hf, hfn, hm, ha, hc, hd, hi, hw, hx, Bool.not_true, Bool.and_false, Bool.or_self,
    Bool.false_eq_true, if_false, if_true]

end

/-! ### SECTION_COMPLETE (R110, R167) -/

section
theorem exec_sectionComplete : exec (.sectionComplete f) s = execSectionComplete f s := rfl

theorem sectionComplete_none (hf : fieldAt s f = some fl) (h : ∀ x ∈ fl.seq, sectionOver s fl x = false) :
    exec (.sectionComplete f) s = .next s := by
  have hx : (fl.seq.find? fun x => sectionOver s fl x) = none := List.find?_eq_none.mpr fun x hx => Bool.eq_false_iff.mp (h x hx)
  simp only [exec_sectionComplete, execSectionComplete, hf, hx]

variable (hf : fieldAt s f = some fl) (hx : (fl.seq.find? fun x => sectionOver s fl x) = some x)
include hf hx

theorem sectionComplete_empty (he : x.empty = true) : exec (.sectionComplete f) s =
    .next (liftFences (settleCopies (closeSection f x.id (statusCode .okEmpty) 0 0 s))) := by
  simp only [exec_sectionComplete, execSectionComplete, hf, hx, he, if_true]

theorem sectionComplete_ok (he : x.empty = false) : exec (.sectionComplete f) s =
    .next (liftFences (settleCopies (closeSection f x.id (statusCode .ok) x.outOfRange x.bound s))) := by
  simp only [exec_sectionComplete, execSectionComplete, hf, hx, he, Bool.false_eq_true, if_false]

end

end Sys2Proof.Machine

open Sys2Proof Sys2Proof.Machine

/-- Settles O45: the oldest unsent section, a unit's swap and the oldest section that is over, each by its equations above. -/
theorem sectionsRunAndComplete : Obligations.SectionsRunAndComplete := by
  unfold Obligations.SectionsRunAndComplete
  refine ⟨fun s f fl x i hf hx hi ho hh => ?dispatch, fun s f fl => sectionDispatch_closed, fun s t f fl r c x hf hfn hm ha hc hd => ?free,
    fun s t f fl r c id x hf hfn hm ha hc hd hp hs hx hid => ?atWork,
    fun s f fl x hf hx => ⟨sectionComplete_empty hf hx, sectionComplete_ok hf hx⟩, fun s f fl => sectionComplete_none⟩
  case dispatch =>
    have h : DispatchDue s f fl x i := ⟨hf, hx, hi, ho, hh⟩
    exact ⟨sectionDispatch_sends h, sectionDispatch_resumes h, sectionDispatch_unfilled h, sectionDispatch_unready h⟩
  case free =>
    have h : SwapOpen s t f fl r c := ⟨hf, hfn, hm, ha, hc, hd⟩
    exact fun hu hn hr => unitSwap_free h hu (mayTake_some hn hr)
  case atWork =>
    subst hid
    have h : SwapOpen s t f fl r c := ⟨hf, hfn, hm, ha, hc, hd⟩
    have hi := inSection_of_mem hp hs hx
    exact ⟨unitSwap_unready h hi, unitSwap_asks h hi, fun y hw hn hr => unitSwap_takes h hi hw (mayTake_some hn hr)⟩
end

section
/-!
PROOFS. Sections stop: drains and aborts, scan parks, the input park of a starved section, and the watchdog.
-/

namespace Sys2Proof.Machine

variable {s u : State} {f : FieldId} {fl : Field} {x : Section}

/-! ### Drains and aborts (R117, R122) -/

theorem exec_runEmptyDrainDone : exec (.runEmptyDrainDone f) s = execRunEmptyDrainDone f s := rfl

theorem runEmptyDrainDone_drains (hf : fieldAt s f = some fl) (hd : drainDone s f fl = true) (hn : ∀ e ∈ causes s f, wantsScan e.2 = false) :
    exec (.runEmptyDrainDone f) s =
      .next (liftFences (settleCopies (finishAborts f (((causes s f).map (·.1)).foldl (drainOne f) s)))) := by
  have hs : ((causes s f).any fun e => wantsScan e.2) = false := by simpa using hn
  simp only [exec_runEmptyDrainDone, execRunEmptyDrainDone, hf, hd, hs, Bool.not_true, Bool.or_self, Bool.false_eq_true, if_false]

theorem runEmptyDrainDone_early (hf : fieldAt s f = some fl) (hd : drainDone s f fl = false) : exec (.runEmptyDrainDone f) s = .next s := by
  simp only [exec_runEmptyDrainDone, execRunEmptyDrainDone, hf, hd, Bool.not_false, Bool.true_or, if_true]

theorem exec_abortDrainTimeout : exec (.abortDrainTimeout f) s = .next (liftFences (settleCopies (finishAborts f s))) := rfl

/-- Once the field's one abort is delivered, the sections that drained along with it go on (log 131). -/
theorem finishAborts_one {k id : Nat} {st : BitVec 16} (hc : causes s k = [(id, .abort st)]) (hn : causes (deliverAbort k id st s) k = []) :
    finishAborts k s = resumeDrained k (fun x => x.why.isNone) (deliverAbort k id st s) := by
  simp only [finishAborts, hc, List.foldl_cons, List.foldl_nil, hn, List.any_nil, Bool.false_eq_true, if_false]

/-! ### Scan parks (R124) -/

theorem exec_scanSettleExpiry : exec (.scanSettleExpiry f) s = execScanSettleExpiry f s := rfl
theorem exec_scanShiftDone : exec (.scanShiftDone f) s = execScanShiftDone f s := rfl

theorem scanSettleExpiry_settles (hf : fieldAt s f = some fl) : exec (.scanSettleExpiry f) s =
    .next ((fl.seq.filter fun x => x.phase == .draining && x.why.any wantsScan).foldl
      (fun s x => modSec f x.id (fun x => { x with phase := .settled }) (landEntries f fl x s)) s) := by
  simp only [exec_scanSettleExpiry, execScanSettleExpiry, hf]

theorem scanShiftDone_parks (hf : fieldAt s f = some fl) (hq : fl.seq = [x]) (hp : x.phase = .settled) (hx : secAt s f x.id = some x) :
    exec (.scanShiftDone f) s = .next (liftFences (settleCopies (finishAborts f (parkSectionNow f x.id 2 0 s)))) := by
  have hl : (fl.seq.filter fun x => x.phase == .settled).map (·.id) = [x.id] := by simp [hq, hp]
  simp only [exec_scanShiftDone, execScanShiftDone, hf, hl, List.foldl_cons, List.foldl_nil, hx, hp, if_true]

/-! ### INPUT_PARK (R191, R236) -/

theorem exec_inputPark : exec (.inputPark f) s = execInputPark f s := rfl

/-- A section starves: it is active, and its idle counter has reached its limit. -/
abbrev starves (s : State) (fl : Field) (x : Section) : Bool :=
  x.phase == .dispatched && x.idleEn && decide (x.idleLimit ≤ x.idle) && activeIn s fl x.id

theorem inputPark_none (hf : fieldAt s f = some fl) (h : ∀ x ∈ fl.seq, x.phase ≠ .dispatched ∨ x.idleEn = false ∨ x.idle < x.idleLimit) :
    exec (.inputPark f) s = .next s := by
  have hx : (fl.seq.find? fun x => starves s fl x) = none := by
    refine List.find?_eq_none.mpr fun x hx => Bool.eq_false_iff.mp ?_
    rcases h x hx with h | h | h
    · simp [starves, h]
    · simp [starves, h]
    · simp [starves, h.not_ge]
  simp only [exec_inputPark, execInputPark, hf, hx]

section
variable (hf : fieldAt s f = some fl) (hx : (fl.seq.find? fun x => starves s fl x) = some x)
include hf hx

theorem inputPark_starts (hr : parkRoom true f (drainIds s fl) s = some u) :
    exec (.inputPark f) s = .next (startDrain f x.id .inputPark false u) := by
  simp only [exec_inputPark, execInputPark, hf, hx, hr]

/-- An input park without room for its records waits (R191; log 132). -/
theorem inputPark_roomless (hr : parkRoom true f (drainIds s fl) s = none) :
    exec (.inputPark f) s = .next (noRoom (drainIds s fl) s) := by
  simp only [exec_inputPark, execInputPark, hf, hx, hr]

end

/-! ### WATCHDOG_EXPIRY (R378) -/

theorem exec_watchdogExpiry : exec (.watchdogExpiry f) s = execWatchdogExpiry f s := rfl

section
variable (hf : fieldAt s f = some fl) (ht : s.faults.test = false)
include hf ht

theorem watchdogExpiry_stalled (hq : fl.seq = [x]) (hp : x.phase = .dispatched) (hw : x.watchdog ≤ x.wdCount) : exec (.watchdogExpiry f) s =
    .next (startAbort f x.id (statusCode .stallDetected) (logClass1 0x0C 0x10 (watchdogLoc s x) false (statusCode .stallDetected) s)) := by
  simp only [exec_watchdogExpiry, execWatchdogExpiry, hf, hq, injSlot_off ht, List.find?_cons, hp, hw, decide_true, beq_self_eq_true, Bool.true_or,
    Bool.and_self, Bool.not_true]

theorem watchdogExpiry_none (h : ∀ x ∈ fl.seq, x.wdCount < x.watchdog) : exec (.watchdogExpiry f) s = .next s := by
  simp only [exec_watchdogExpiry, execWatchdogExpiry, hf, injSlot_off ht, Option.isSome_none, Bool.or_false]
  split
  · rfl
  · next x hx =>
    have hd := List.find?_some hx
    rw [decide_eq_false (h x (List.mem_of_find?_eq_some hx)).not_ge, Bool.and_false] at hd
    exact absurd hd Bool.false_ne_true

end

end Sys2Proof.Machine

open Sys2Proof Sys2Proof.Machine

/-- Settles O48: each command by its equations above. That the sections which drain along with an aborted one go on is log 131, the room for the records
of a drain log 132. -/
theorem sectionsParkAndStop : Obligations.SectionsParkAndStop := by
  unfold Obligations.SectionsParkAndStop
  refine ⟨fun s f fl => runEmptyDrainDone_drains, fun s f fl => runEmptyDrainDone_early, fun s f => exec_abortDrainTimeout,
    fun s f id st => finishAborts_one, fun s f fl => scanSettleExpiry_settles, fun s f fl x => scanShiftDone_parks, fun s f fl x hf hx => ?starved,
    fun s f fl => inputPark_none, fun s f fl x hf ht => watchdogExpiry_stalled hf ht, fun s f fl hf ht => watchdogExpiry_none hf ht⟩
  case starved =>
    cases hr : parkRoom true f (drainIds s fl) s with
    | none => exact inputPark_roomless hf hx hr
    | some u => exact inputPark_starts hf hx hr
end

section
/-!
PROOFS. Moon calls at work: a stack's part of a call, the combination of a partial, completion, the FETCH of a result area, and service steps.
-/

namespace Sys2Proof.Machine

variable {s u : State} {k : StackId}

/-! ### MOON_CALL_PART_DONE (R214, R219, R223) -/

section
variable {c : MoonCallRun} {fl : Field} {m : MoonImage}

theorem exec_moonCallPartDone : exec (.moonCallPartDone k) s = execMoonCallPartDone k s := rfl

/-- The call leaves the queue of stack k, whose part of it has ended. -/
abbrev partTaken (k : Nat) (c : MoonCallRun) (s : State) : State :=
  modCall c.lead c.channel (fun x => { x with ended := insertN k x.ended }) (popCall k s)

/-- A stack that runs and is not fenced has a call at the head of its queue, with its field and its program. -/
structure PartDue (s : State) (k : StackId) (c : MoonCallRun) (fl : Field) (m : MoonImage) : Prop where
  runs : moonRuns s k = true
  unfenced : s.faults.fencedStacks.getLsbD k = false
  head : headCall s k = some c
  field : fieldAt (partTaken k c s) c.field = some fl
  prog : callProg (partTaken k c s) c = some m

variable (h : PartDue s k c fl m)
include h

theorem moonCallPartDone_kv {p : KvParams} (hp : kvParams m = some p) :
    exec (.moonCallPartDone k) s = .next (liftFences (kvPart k fl m p c (partTaken k c s))) := by
  obtain ⟨hr, hn, hc, hf, hm⟩ := h
  simp only [exec_moonCallPartDone, execMoonCallPartDone, hr, hn, hc, hf, hm, hp, Bool.not_true, Bool.or_self, Bool.false_eq_true, if_false]

theorem moonCallPartDone_table {base : BitVec 64} {rows log : Nat} (hp : kvParams m = none) (ht : m.params = .table base rows log) :
    exec (.moonCallPartDone k) s = .next (liftFences (tableRows c m.cls base.toNat rows (2 ^ log)
      ((callIndices c).zipIdx.map fun e => (e.2, e.1)) (partTaken k c s))) := by
  obtain ⟨hr, hn, hc, hf, hm⟩ := h
  simp only [exec_moonCallPartDone, execMoonCallPartDone, hr, hn, hc, hf, hm, hp, ht, Bool.not_true, Bool.or_self, Bool.false_eq_true, if_false]

end

/-! ### MOON_PARTIAL_COMBINE (R147, R214) -/

theorem exec_moonPartialCombine : exec (.moonPartialCombine k) s = execMoonPartialCombine k s := rfl

theorem moonPartialCombine_adds {p : MoonPartial} (hp : (s.moons.partials.find? fun p => p.lead == k.val) = some p) (hr : moonRuns s k = true) :
    exec (.moonPartialCombine k) s = .next (addPartial (chanKey p.lead p.channel) p.cells
      { s with moons := { s.moons with partials := s.moons.partials.erase p } }) := by
  simp only [exec_moonPartialCombine, execMoonPartialCombine, hp, hr, Bool.not_true, Bool.false_eq_true, if_false]

theorem addPartial_combine_same (key : Nat) (b : Cells) (s : State) :
    tfind key (addPartial key b s).moons.combine = some (combineCells ((tfind key s.moons.combine).getD []) b) := tfind_tput_same ..

theorem addPartial_combine_other {key j : Nat} (hj : j ≠ key) (b : Cells) (s : State) :
    tfind j (addPartial key b s).moons.combine = tfind j s.moons.combine := tfind_tput_other hj ..

/-! ### MOON_CALL_COMPLETE (R213, R220, R227) -/

section
variable {ch : Fin 64} {n : Nat} {c : MoonCallRun}

theorem exec_moonCallComplete : exec (.moonCallComplete k ch n) s = execMoonCallComplete k ch n s := rfl

/-- The call of channel ch at lead k goes: its entry, its forwards, its places in the queues, and its combine area. -/
abbrev callGone (k : StackId) (ch : Fin 64) (s : State) : State := { s with moons := { s.moons with
  calls := s.moons.calls.filter fun x => !(x.lead == k.val && x.channel == ch.val),
  forwards := s.moons.forwards.filter fun e => !(e.2.1 == k.val && e.2.2 == ch.val),
  queues := (s.moons.queues.map fun e => (e.1, e.2.filter fun e => !(e.1 == k.val && e.2 == ch.val))).filter fun e => e.2 != [],
  combine := tdel (chanKey k ch) s.moons.combine } }

variable (hc : (s.moons.calls.find? fun c => c.lead == k.val && c.channel == ch.val) = some c)
include hc

theorem moonCallComplete_early (ho : callOver s c = false) : exec (.moonCallComplete k ch n) s = .next s := by
  simp only [exec_moonCallComplete, execMoonCallComplete, hc, ho, Bool.not_false, Bool.or_true, if_true]

theorem moonCallComplete_writes (hr : moonRuns s k = true) (ho : callOver s c = true)
    (hf : ((maskStacks c.mask ++ [c.lead]).any fun j => s.faults.fencedStacks.getLsbD j) = false) :
    exec (.moonCallComplete k ch n) s = .next (liftFences (settleMoonLoads (answerFetches k ch (countCalls c (· - 1)
      (callGone k ch (writeResults c n (callBody s c) s)))))) := by
  simp only [exec_moonCallComplete, execMoonCallComplete, hc, hr, ho, hf, Bool.not_true, Bool.or_self, Bool.false_eq_true, if_false]

end

/-! ### MOON_RESULT_FETCH (R213) -/

section
variable {ch : Fin 64} {t : Tile} {ctx : Fin 16} {q : TierReq}

theorem exec_moonResultFetch : exec (.moonResultFetch k ch t ctx) s = execMoonResultFetch k ch t ctx s := rfl

/-- A tier request reads the result area of a channel, and is neither answered nor held. -/
structure FetchDue (s : State) (k : StackId) (ch : Fin 64) (t : Tile) (ctx : Fin 16) (q : TierReq) : Prop where
  request : (s.mem.requests.find? fun q => q.tile == tileIx t && q.ctx == ctx.val) = some q
  read : q.write = false
  area : resultArea s q.field (q.places.headD 0) = some (chanKey k ch)
  unanswered : s.moons.answers.contains (chanKey k ch, tileIx t, ctx.val) = false
  unheld : s.moons.fetches.contains (k.val, ch.val, tileIx t, ctx.val) = false

variable (h : FetchDue s k ch t ctx q)
include h

theorem moonResultFetch_due : exec (.moonResultFetch k ch t ctx) s = .next (if callPending s k ch
    then { s with moons := { s.moons with fetches := s.moons.fetches ++ [(k.val, ch.val, tileIx t, ctx.val)] } }
    else { s with moons := { s.moons with answers := s.moons.answers ++ [(chanKey k ch, tileIx t, ctx.val)] } }) := by
  obtain ⟨hq, hw, ha, hn, hh⟩ := h
  simp only [exec_moonResultFetch, execMoonResultFetch, tileIx_def, hq, hw, ha, hn, hh, bne_self_eq_false, Bool.or_self, Bool.false_eq_true, if_false]

theorem moonResultFetch_held (hp : callPending s k ch = true) : exec (.moonResultFetch k ch t ctx) s =
    .next { s with moons := { s.moons with fetches := s.moons.fetches ++ [(k.val, ch.val, tileIx t, ctx.val)] } } :=
  (moonResultFetch_due h).trans (congrArg _ (if_pos hp))

theorem moonResultFetch_answered (hp : callPending s k ch = false) : exec (.moonResultFetch k ch t ctx) s =
    .next { s with moons := { s.moons with answers := s.moons.answers ++ [(chanKey k ch, tileIx t, ctx.val)] } } :=
  (moonResultFetch_due h).trans (congrArg _ (if_neg (Bool.eq_false_iff.mp hp)))

end

/-! ### MOON_SERVICE_STEP (R199, R224) -/

section
variable {v : MoonService} {vs : List MoonService} {lost : Option CellAt} {rest : List (Nat × Nat × Nat)} {c : CellAt} {r : Nat}

theorem exec_moonServiceStep : exec (.moonServiceStep k) s = execMoonServiceStep k s := rfl

/-- The services of stack k are l from now on. -/
abbrev setServices (k : StackId) (l : List MoonService) (s : State) : State :=
  { s with moons := { s.moons with services := tset [] k.val l s.moons.services } }

/-- The bytes that a step moved, each read and written, are charged to the service's tag. -/
abbrev chargeStep (v : MoonService) (rest : List (Nat × Nat × Nat)) (s : State) : State :=
  chargeTier v.tag false (2 * (copiesBytes v.copies - copiesBytes rest)) s

/-- No service step runs while a call waits. -/
theorem moonServiceStep_busy (hq : (tget [] k.val s.moons.queues).isEmpty = false) : exec (.moonServiceStep k) s = .next s := by
  rw [exec_moonServiceStep, execMoonServiceStep]
  split
  · rfl
  · simp only [moonFree, hq, Bool.not_false, Bool.or_true, if_true]

/-- A running stack whose call queue is empty has a service, whose step meets lost and leaves rest. -/
structure ServiceDue (s : State) (k : StackId) (v : MoonService) (vs : List MoonService) (lost : Option CellAt)
    (rest : List (Nat × Nat × Nat)) (u : State) : Prop where
  head : tget [] k.val s.moons.services = v :: vs
  runs : moonRuns s k = true
  free : (tget [] k.val s.moons.queues).isEmpty = true
  step : serviceStep serviceBytes v.copies s = (lost, rest, u)

theorem moonServiceStep_moves (h : ServiceDue s k v vs none rest u) : exec (.moonServiceStep k) s =
    .next (setServices k (if rest.isEmpty then vs else { v with copies := rest } :: vs) (chargeStep v rest u)) := by
  obtain ⟨hv, hr, hq, hs⟩ := h
  simp only [exec_moonServiceStep, execMoonServiceStep, moonFree, hv, hr, hq, hs, Bool.not_true, Bool.or_self, Bool.false_eq_true, if_false]

theorem moonServiceStep_loses (h : ServiceDue s k v vs (some c) rest u) (hn : v.req = none) : exec (.moonServiceStep k) s =
    .next (lostEntry c (setServices k vs (chargeStep v rest u))) := by
  obtain ⟨hv, hr, hq, hs⟩ := h
  simp only [exec_moonServiceStep, execMoonServiceStep, moonFree, hv, hr, hq, hs, hn, Bool.not_true, Bool.or_self, Bool.false_eq_true, if_false]

theorem moonServiceStep_endsRequest (h : ServiceDue s k v vs (some c) rest u) (hn : v.req = some r) : exec (.moonServiceStep k) s =
    .next (closeReq r (statusCode .fencedUnit) 0 (lostEntry c (setServices k vs (chargeStep v rest u)))) := by
  obtain ⟨hv, hr, hq, hs⟩ := h
  simp only [exec_moonServiceStep, execMoonServiceStep, moonFree, hv, hr, hq, hs, hn, Bool.not_true, Bool.or_self, Bool.false_eq_true, if_false]

end

end Sys2Proof.Machine

open Sys2Proof Sys2Proof.Machine

/-- Settles O51: each command by its equations above; what a combination does to the areas is `addPartial`. -/
theorem moonCallsEnd : Obligations.MoonCallsEnd := by
  unfold Obligations.MoonCallsEnd
  refine ⟨fun s k c fl m u hr hn hc hu hf hm => ?part, fun s k p hp hr => ?combine,
    fun s k ch n c hc => ⟨moonCallComplete_early hc, fun hr ho hf => ⟨_, rfl, moonCallComplete_writes hc hr ho hf⟩⟩,
    fun s k ch t ctx q hq hw ha hn hh => ?fetch, fun s k v vs rest u hv hr hq lost hs => ⟨_, rfl, ?service⟩, fun s k => moonServiceStep_busy⟩
  case part =>
    subst hu
    have h : PartDue s k c fl m := ⟨hr, hn, hc, hf, hm⟩
    exact ⟨fun p => moonCallPartDone_kv h, fun base rows log => moonCallPartDone_table h⟩
  case combine =>
    exact ⟨_, moonPartialCombine_adds hp hr, rfl, addPartial_combine_same .., fun j hj => addPartial_combine_other hj ..⟩
  case fetch =>
    have h : FetchDue s k ch t ctx q := ⟨hq, hw, ha, hn, hh⟩
    exact ⟨moonResultFetch_held h, moonResultFetch_answered h⟩
  case service =>
    have h : ServiceDue s k v vs lost rest u := ⟨hv, hr, hq, hs⟩
    exact ⟨fun hl => moonServiceStep_moves (hl ▸ h), fun c hl => moonServiceStep_loses (hl ▸ h),
      fun c r hl => moonServiceStep_endsRequest (hl ▸ h)⟩
end

section
/-!
PROOFS. Collectives: the set-up packet, the segments of the two phases, and the wait for the members.
-/

namespace Sys2Proof.Machine

variable {s u : State} {g : BitVec 8} {r : CollRun} {x : CollGroup} {k n seg : Nat} {cells : List GridCell} {conv b : List Byte}
  {agree allZero verdict : Bool}

theorem exec_collSetupPacket : exec (.collSetupPacket g agree allZero verdict) s = execCollSetupPacket g agree allZero verdict s := rfl
theorem exec_collSegmentReceive : exec (.collSegmentReceive g seg cells conv) s = execCollSegmentReceive g seg cells conv s := rfl
theorem exec_joinWaitExpiry : exec (.joinWaitExpiry g) s = execJoinWaitExpiry g s := rfl

/-- Firmware runs, and the group has a run here. -/
structure CollRunning (s : State) (g : BitVec 8) (r : CollRun) (x : CollGroup) (k : Nat) : Prop where
  runs : running s = true
  coll : runningColl s g.toNat = some (r, x, k)

/-- The cells of a segment do not depend on the phase. -/
theorem segmentCells_setPhase (ph : CollPhase) (p i : Nat) : segmentCells { r with phase := ph } p i = segmentCells r p i := rfl

section
variable (h : CollRunning s g r x k)
include h

/-! ### The set-up packet (R360) -/

theorem collSetupPacket_firstPass (hp : r.phase = .setup 0) :
    exec (.collSetupPacket g agree allZero false) s = .next (setRun { r with phase := .setup 1 } s) := by
  obtain ⟨hs, hc⟩ := h
  simp only [exec_collSetupPacket, execCollSetupPacket, hs, hc, hp, Bool.not_true, Bool.false_eq_true, if_false]

theorem collSetupPacket_mismatch (hp : r.phase = .setup 1) :
    exec (.collSetupPacket g false allZero true) s = .next (endInstance g.toNat .countMismatch 0 s) := by
  obtain ⟨hs, hc⟩ := h
  simp only [exec_collSetupPacket, execCollSetupPacket, hs, hc, hp, Bool.not_true, Bool.not_false, Bool.false_eq_true, if_false, if_true]

/-- The verdict that all members agree: there is nothing to add, or the run begins. -/
theorem collSetupPacket_agreed (hp : r.phase = .setup 1) : exec (.collSetupPacket g true allZero true) s =
    .next (if allZero || r.d.length == 0 then endInstance g.toNat .okEmpty 0 s else beginColl g.toNat s) := by
  obtain ⟨hs, hc⟩ := h
  simp only [exec_collSetupPacket, execCollSetupPacket, hs, hc, hp, Bool.not_true, Bool.false_eq_true, if_false]

theorem collSetupPacket_empty (hp : r.phase = .setup 1) (hz : (allZero || r.d.length == 0) = true) :
    exec (.collSetupPacket g true allZero true) s = .next (endInstance g.toNat .okEmpty 0 s) :=
  (collSetupPacket_agreed h hp).trans (congrArg _ (if_pos hz))

theorem collSetupPacket_begins (hp : r.phase = .setup 1) (hz : r.d.length ≠ 0) :
    exec (.collSetupPacket g true false true) s = .next (beginColl g.toNat s) := by
  have hn : ¬ (false || r.d.length == 0) = true := by simpa using hz
  exact (collSetupPacket_agreed h hp).trans (congrArg _ (if_neg hn))

/-! ### Segments (R147, R349, R360) -/

/-- The run after its reduce step n, in which segment seg was added. -/
abbrev reduced (r : CollRun) (x : CollGroup) (n seg : Nat) (cells : List GridCell) : CollRun :=
  { addSegment r x.nodes.length seg cells with phase := .reduce (n + 1) }

/-- The run after its delivery step n, in which segment seg was stored. -/
abbrev delivered (r : CollRun) (n seg : Nat) (b : List Byte) : CollRun :=
  { r with phase := .delivery (n + 1), out := tset [] seg b r.out }

theorem collSegmentReceive_reduce (hp : r.phase = .reduce n) (hg : seg = (k + 2 * x.nodes.length - 1 - n % x.nodes.length) % x.nodes.length) :
    exec (.collSegmentReceive g seg cells conv) s = .next (if n + 2 < x.nodes.length
      then sendSegment g.toNat ((segmentCells (addSegment r x.nodes.length seg cells) x.nodes.length seg).flatMap fun c => leBytes 32 c.toNat)
        (setRun (reduced r x n seg cells) s)
      else deliverColl g.toNat (setRun (reduced r x n seg cells) s)) := by
  obtain ⟨hs, hc⟩ := h
  simp only [exec_collSegmentReceive, execCollSegmentReceive, hs, hc, hp, ← hg, segmentCells_setPhase, ne_eq, not_true_eq_false, Bool.not_true,
    Bool.false_eq_true, if_false]

theorem collSegmentReceive_delivery (hp : r.phase = .delivery n) (hg : seg = (k + 2 * x.nodes.length - n % x.nodes.length) % x.nodes.length)
    (hb : b = padTo ((segmentOf (collCount r.d) x.nodes.length seg).2 * collElem r.d.outFmt.toNat) conv) :
    exec (.collSegmentReceive g seg cells conv) s = .next (if n + 2 < x.nodes.length
      then sendSegment g.toNat b (setRun (delivered r n seg b) s)
      else finishColl g.toNat (collBytes (delivered r n seg b) x.nodes.length) (setRun (delivered r n seg b) s)) := by
  obtain ⟨hs, hc⟩ := h
  simp only [exec_collSegmentReceive, execCollSegmentReceive, hs, hc, hp, ← hg, ← hb, ne_eq, not_true_eq_false, Bool.not_true, Bool.false_eq_true,
    if_false]

/-! ### The wait for the members (R360) -/

theorem joinWaitExpiry_setup (hp : r.phase = .setup n) : exec (.joinWaitExpiry g) s =
    .next (if ((tfind r.acc s.host.opens).map (·.since)).getD 0 + x.joinWait ≤ s.tick then endInstance g.toNat .stallDetected 0 s else s) := by
  obtain ⟨hs, hc⟩ := h
  simp only [exec_joinWaitExpiry, execJoinWaitExpiry, hs, hc, hp, Bool.true_and, decide_eq_true_eq]

theorem joinWaitExpiry_joined (hp : r.phase = .reduce n ∨ r.phase = .delivery n) : exec (.joinWaitExpiry g) s = .next s := by
  obtain ⟨-, hc⟩ := h
  rcases hp with hp | hp <;> simp only [exec_joinWaitExpiry, execJoinWaitExpiry, hc, hp]

end

/-! ### A group without a run -/

section
variable (hc : runningColl s g.toNat = none)
include hc

theorem collSetupPacket_none : exec (.collSetupPacket g agree allZero verdict) s = .next s := by
  simp only [exec_collSetupPacket, execCollSetupPacket, hc, ite_self]

theorem collSegmentReceive_none : exec (.collSegmentReceive g seg cells conv) s = .next s := by
  simp only [exec_collSegmentReceive, execCollSegmentReceive, hc, ite_self]

theorem joinWaitExpiry_none : exec (.joinWaitExpiry g) s = .next s := by
  simp only [exec_joinWaitExpiry, execJoinWaitExpiry, hc]

end

end Sys2Proof.Machine

open Sys2Proof Sys2Proof.Machine

/-- Settles O57: the two passes of the set-up packet, a segment by its phase and by whether it is the phase's last, and the wait, each by its
equation above. -/
theorem collectivesGoOn : Obligations.CollectivesGoOn := by
  unfold Obligations.CollectivesGoOn
  refine ⟨fun s g r x k hs hc => ?_, fun s g hc =>
    ⟨fun _ _ _ => collSetupPacket_none hc, fun _ _ _ => collSegmentReceive_none hc, joinWaitExpiry_none hc⟩⟩
  have h : CollRunning s g r x k := ⟨hs, hc⟩
  refine ⟨fun hp _ _ => collSetupPacket_firstPass h hp,
    fun hp => ⟨fun _ => collSetupPacket_mismatch h hp, collSetupPacket_empty h hp rfl,
      fun hz _ => collSetupPacket_empty h hp (by simp [hz]), collSetupPacket_begins h hp⟩,
    fun n seg cells conv hp hg u hu => ?reduce, fun n seg cells conv hp hg b hb u hu => ?delivery,
    fun n => joinWaitExpiry_setup h, fun n => joinWaitExpiry_joined h⟩
  case reduce =>
    subst hu
    rw [collSegmentReceive_reduce h hp hg]
    exact ⟨fun hn => congrArg _ (if_pos hn), fun hn => congrArg _ (if_neg hn.not_gt)⟩
  case delivery =>
    subst hu
    rw [collSegmentReceive_delivery h hp hg hb]
    exact ⟨fun hn => congrArg _ (if_pos hn), fun hn => congrArg _ (if_neg hn.not_gt)⟩
end

section
/-!
PROOFS. MAP and UNMAP: one equation per case of their checks.
-/

namespace Sys2Proof.Machine

variable {s : State} {fl : Field}

/-! ### MAP (R188, R262) -/

section
variable {b : MapBlock}

theorem exec_map : exec (.map b) s = execMap b s := rfl

theorem map_fieldless (hs : MailboxFree s) (hf : fieldAt s b.field = none) :
    exec (.map b) s = .next (mboxEnd 0x0010 .countMismatch [] s) :=
  exec_map.trans (next_mailbox_free hs (by simp only [hf]))

section
variable (hs : MailboxFree s) (hf : fieldAt s b.field = some fl)
include hs hf

theorem map_reservedSize (hp : b.page = 3) : exec (.map b) s = .next (mboxEnd 0x0010 .countMismatch [] s) :=
  exec_map.trans (next_mailbox_free hs (by simp only [hf, if_pos hp]))

theorem map_empty (hp : b.page ≠ 3) (hb : b.bytes = 0) : exec (.map b) s = .next (mboxEnd 0x0010 .okEmpty [] s) :=
  exec_map.trans (next_mailbox_free hs (by simp only [hf, if_neg hp, if_pos hb]))

theorem map_misfit (hp : b.page ≠ 3) (hb : b.bytes ≠ 0) (hm : mapMisfit s fl b = true) :
    exec (.map b) s = .next (mboxEnd 0x0010 .badAlignment [] s) :=
  exec_map.trans (next_mailbox_free hs (by simp only [hf, if_neg hp, if_neg hb, if_pos hm]))

end

/-- The state in which a MAP allocates: one into tier 1 has woken its field (R464). -/
def mapAwake (b : MapBlock) (s : State) : State := if b.place = 0 then wakeField b.field s else s

/-- All the pages of a block, in order of address; none where one of them finds no frame. -/
def mapAll (b : MapBlock) (s : State) : Option State := mapPages b (b.bytes.toNat / pageSize b.page) 0 (mapAwake b s)

section
variable (hs : MailboxFree s) (hf : fieldAt s b.field = some fl) (hp : b.page ≠ 3) (hb : b.bytes ≠ 0) (hm : mapMisfit s fl b = false)
include hs hf hp hb hm

theorem map_allocates : exec (.map b) s = .next ((mapAll b s).elim (mboxEnd 0x0010 .noPlacement [] (mapAwake b s)) (mboxEnd 0x0010 .ok [])) := by
  refine exec_map.trans (next_mailbox_free hs ?_)
  simp only [hf, if_neg hp, if_neg hb, if_neg (Bool.eq_false_iff.mp hm)]
  rw [mapAll, mapAwake]
  cases mapPages b (b.bytes.toNat / pageSize b.page) 0 (if b.place = 0 then wakeField b.field s else s) <;> rfl

theorem map_ok {t : State} (ht : mapAll b s = some t) : exec (.map b) s = .next (mboxEnd 0x0010 .ok [] t) := by
  rw [map_allocates hs hf hp hb hm, ht, Option.elim_some]

/-- The pages mapped before the one without a frame are given back: the mailbox ends in the state before the first (log 31). -/
theorem map_frameless (hn : mapAll b s = none) : exec (.map b) s = .next (mboxEnd 0x0010 .noPlacement [] (mapAwake b s)) := by
  rw [map_allocates hs hf hp hb hm, hn, Option.elim_none]

end

end

/-! ### UNMAP (R188, R262) -/

section
variable {b : UnmapBlock}

theorem exec_unmap : exec (.unmap b) s = execUnmap b s := rfl

theorem unmap_fieldless (hs : MailboxFree s) (hf : fieldAt s b.field = none) :
    exec (.unmap b) s = .next (mboxEnd 0x0011 .countMismatch [] s) :=
  exec_unmap.trans (next_mailbox_free hs (by simp only [hf]))

section
variable (hs : MailboxFree s) (hf : fieldAt s b.field = some fl)
include hs hf

theorem unmap_empty (hb : b.bytes = 0) : exec (.unmap b) s = .next (mboxEnd 0x0011 .okEmpty [] s) :=
  exec_unmap.trans (next_mailbox_free hs (by simp only [hf, if_pos hb]))

theorem unmap_cuts (hb : b.bytes ≠ 0) (hc : cutsPage fl b.dva.toNat = true ∨ cutsPage fl (b.dva.toNat + b.bytes.toNat) = true) :
    exec (.unmap b) s = .next (mboxEnd 0x0011 .badAlignment [] s) :=
  exec_unmap.trans (next_mailbox_free hs (by simp only [hf, if_neg hb, if_pos (Bool.or_eq_true_iff.mpr hc)]))

theorem unmap_removes (hb : b.bytes ≠ 0) (h1 : cutsPage fl b.dva.toNat = false) (h2 : cutsPage fl (b.dva.toNat + b.bytes.toNat) = false) :
    exec (.unmap b) s = .next (mboxEnd 0x0011 .ok [] (removePages b.field b.dva.toNat b.bytes.toNat s)) :=
  exec_unmap.trans (next_mailbox_free hs (by simp only [hf, if_neg hb, h1, h2, Bool.or_self, Bool.false_eq_true, if_false]))

end

end

end Sys2Proof.Machine

open Sys2Proof Sys2Proof.Machine

/-- Settles O26: both commands by their equations above, check by check. -/
theorem mapAndUnmap : Obligations.MapAndUnmap := by
  unfold Obligations.MapAndUnmap
  intro s hs
  exact ⟨fun b => ⟨map_fieldless hs, fun fl hf => ⟨map_reservedSize hs hf, map_empty hs hf, map_misfit hs hf,
      fun hp hb hm => ⟨fun t => map_ok hs hf hp hb hm, map_frameless hs hf hp hb hm⟩⟩⟩,
    fun b => ⟨unmap_fieldless hs, fun fl hf => ⟨unmap_empty hs hf, unmap_cuts hs hf, unmap_removes hs hf⟩⟩⟩
end

section
/-!
PROOFS. The CXL ports and the host's reads and writes of the CXL.mem window.
-/

namespace Sys2Proof.Machine

variable {s t : State}

/-! ### The ports (R256, R259, R508) -/

/-- The queues after a port went down: those that it serves lose their bursts in flight (R259, R279). -/
def portLost (port : Fin 2) (s : State) : Tab Queue :=
  s.host.queues.map fun e => (e.1, { e.2 with inFlight := if s.host.twoPorts && e.2.port != (port == 1) then e.2.inFlight else 0 })

theorem cxlPortDown_first : exec (.cxlPortDown 0) s = .next (setHost s { s.host with up0 := false, queues := portLost 0 s }) := rfl
theorem cxlPortDown_second : exec (.cxlPortDown 1) s = .next (setHost s { s.host with up1 := false, queues := portLost 1 s }) := rfl

/-- Queues that hold nothing have nothing to post. -/
theorem foldl_releaseHeld_unheld {l : Tab Queue} (h : ∀ e ∈ l, e.2.held = []) :
    l.foldl (fun s e => releaseHeld e.1 e.2.held.length s) s = s := by
  induction l with
  | nil => rfl
  | cons e l ih =>
    rw [List.foldl_cons, h e List.mem_cons_self]
    exact ih fun x hx => h x (List.mem_cons_of_mem e hx)

theorem releaseAll_unheld (h : ∀ e ∈ s.host.queues, e.2.held = []) : releaseAll s = s := foldl_releaseHeld_unheld h

section
variable {lanes : Nat} {slow : Bool} (hm : s.entry.main = true) (hp : s.entry.perst = false)
include hm hp

theorem cxlPortUp_single (hl : lanes = 16 ∨ lanes = 8 ∨ lanes = 4) : exec (.cxlPortUp 0 lanes slow false) s = .next (releaseAll (setHost s
    { s.host with twoPorts := false, up0 := true, width0 := BitVec.ofNat 5 lanes, slow0 := slow, up1 := false, width1 := 0, slow1 := false })) := by
  have hw : widthOk lanes false = true := by rcases hl with rfl | rfl | rfl <;> rfl
  refine congrArg Host.Outcome.next (if_neg ?_)
  simp [hm, hp, hw]

theorem cxlPortUp_pair (port : Fin 2) (hl : lanes = 8 ∨ lanes = 4) : exec (.cxlPortUp port lanes slow true) s = .next (releaseAll (setHost s (if port = 0
    then { s.host with twoPorts := true, up0 := true, width0 := BitVec.ofNat 5 lanes, slow0 := slow }
    else { s.host with twoPorts := true, up1 := true, width1 := BitVec.ofNat 5 lanes, slow1 := slow }))) := by
  have hw : widthOk lanes true = true := by rcases hl with rfl | rfl <;> rfl
  refine congrArg Host.Outcome.next (if_neg ?_)
  simp [hm, hp, hw]

end

/-! ### The accounting of a host access to a line (R389, R390) -/

@[simp] theorem windowCell_setAcct (a : Acct) (off : Nat) : windowCell (setAcct s a) off = windowCell s off := rfl
@[simp] theorem cellLost_setAcct (a : Acct) (c : CellAt) : cellLost (setAcct s a) c = cellLost s c := rfl

section
variable {c : Option CellAt}

/-- A host access to a line counts 64 window bytes, and a beat of tier 2 where a cell lies under it. -/
def windowCharged (c : Option CellAt) (s : State) : State :=
  let u := { s with acct := { s.acct with live := { s.acct.live with windowBytes := s.acct.live.windowBytes + 64 } } }
  if c.isSome then chargeTier none true 64 u else u

/-- The same by the list of the line's cells. -/
theorem windowCharged_isEmpty : (
    let u := { s with acct := { s.acct with live := { s.acct.live with windowBytes := s.acct.live.windowBytes + 64 } } }
    if c.toList.isEmpty then u else chargeTier none true 64 u) = windowCharged c s := by cases c <;> rfl

theorem windowCharged_frame : windowCharged c s = setAcct s (windowCharged c s).acct := by cases c <;> rfl

theorem windowCharged_bytes : (windowCharged c s).acct.live.windowBytes = s.acct.live.windowBytes + 64 := by cases c <;> rfl

theorem windowCharged_test : (windowCharged c s).faults.test = s.faults.test := by rw [windowCharged_frame, setAcct_faults]

theorem windowCell_windowCharged (off : Nat) : windowCell (windowCharged c s) off = windowCell s off := by
  rw [windowCharged_frame, windowCell_setAcct]

end

/-! ### The window before the layout stands (R506) -/

section
variable (hb : s.boot.laidOut = false)
include hb

theorem windowCell_unlaid (off : Nat) : windowCell s off = none := by simp [windowCell, hb]

theorem hostWindow_unlaid (off n : Nat) : hostWindow s off n = some (zeros n) := by
  unfold hostWindow
  induction n generalizing off with
  | zero => rfl
  | succ n ih => simp only [readWindowBy, ih, windowCell_unlaid hb, zeros, List.replicate_succ]

theorem writeWindow_unlaid (off : Nat) (bs : List Byte) : writeWindow s off bs = some s := by
  induction bs generalizing off with
  | nil => rfl
  | cons b bs ih => simp only [writeWindow, windowCell_unlaid hb, ih]

theorem noteWindow_unlaid (off : Nat) : noteWindow s off t = t := by simp only [noteWindow, windowCell_unlaid hb]

end

/-! ### Reading a line (R199, R258) -/

section
variable {line : Nat}

/-- The line that a read returns to the host: poisoned zeros where a byte is lost (R199, R258). -/
def lineReturned (line : Nat) (u : State) : State :=
  setHost u { u.host with cxlReads := u.host.cxlReads ++
    [⟨line, (hostWindow u (line * 64) 64).getD (zeros 64), (hostWindow u (line * 64) 64).isNone⟩] }

/-- A counted read of a line: it meets the injection slots, which may fail it, and a lost line has its entry (R199, R479). -/
def lineRead (line : Nat) (u : State) : State :=
  let (ok, u) := meetLines 0 (windowCell u (line * 64)).toList u
  let u := noteLost (windowCell u (line * 64)).toList u
  let r := if ok then hostWindow u (line * 64) 64 else none
  setHost u { u.host with cxlReads := u.host.cxlReads ++ [⟨line, r.getD (zeros 64), r.isNone⟩] }

/-- With test mode off no injection fails the read. -/
theorem lineRead_untested (ht : s.faults.test = false) : lineRead line s = lineReturned line (noteLost (windowCell s (line * 64)).toList s) := by
  simp only [lineRead, meetLines_off ht]
  rfl

end

section
variable {line : BitVec 36} (hl : linkUp s = true) (hm : s.entry.main = true)
include hl hm

theorem exec_cxlMemRead : exec (.cxlMemRead line) s = .next (lineRead line.toNat (windowCharged (windowCell s (line.toNat * 64)) s)) :=
  congrArg Host.Outcome.next (if_neg (by simp [hl, hm]))

theorem cxlMemRead_untested (ht : s.faults.test = false) : exec (.cxlMemRead line) s = .next (lineReturned line.toNat
    (noteLost (windowCell s (line.toNat * 64)).toList (windowCharged (windowCell s (line.toNat * 64)) s))) := by
  rw [exec_cxlMemRead hl hm, lineRead_untested (windowCharged_test.trans ht), windowCell_windowCharged]

end

/-! ### Writing a line (R204, R258) -/

section
variable {off : Nat} {a : Acct}

theorem cellWrite_setAcct (c : CellAt) (b : Byte) : cellWrite (setAcct s a) c b = setAcct (cellWrite s c b) a := by
  unfold cellWrite
  split <;> rfl

theorem cellWrite_frame (c : CellAt) (b : Byte) : cellWrite s c b = { s with mem := (cellWrite s c b).mem } := by
  unfold cellWrite
  split <;> rfl

/-- A write of the window does not depend on the accounting. -/
theorem writeWindow_setAcct (bs : List Byte) : writeWindow (setAcct s a) off bs = (writeWindow s off bs).map fun u => setAcct u a := by
  induction bs generalizing s off with
  | nil => rfl
  | cons b bs ih =>
    simp only [writeWindow, windowCell_setAcct, cellLost_setAcct, cellWrite_setAcct, ih]
    split
    · rfl
    · split <;> rfl

theorem writeWindow_frame {bs : List Byte} {u : State} (h : writeWindow s off bs = some u) : u = { s with mem := u.mem } := by
  induction bs generalizing s off with
  | nil => cases h; rfl
  | cons b bs ih =>
    rw [writeWindow] at h
    split at h
    · exact ih h
    · split at h
      · cases h
      · rw [cellWrite_frame] at h
        rw [ih h]

theorem hostWindow_setAcct (n : Nat) : hostWindow (setAcct s a) off n = hostWindow s off n := by
  unfold hostWindow
  induction n generalizing off with
  | zero => rfl
  | succ n ih =>
    simp only [readWindowBy, ih, windowCell_setAcct, cellLost_setAcct]
    rfl

theorem noteWindow_setAcct : noteWindow (setAcct s a) off (setAcct t a) = setAcct (noteWindow s off t) a := by
  simp only [noteWindow, windowCell_setAcct, hostWindow_setAcct, setAcct_mem]
  split <;> rfl

theorem noteWindow_frame : noteWindow s off t = { t with mem := (noteWindow s off t).mem } := by
  unfold noteWindow
  dsimp only
  split <;> rfl

end

/-- A host write of a line before it is counted: the line is stored and noted for later fences (log 171), or discarded where it is lost (R204). -/
def windowStored (s : State) (off : Nat) (bs : List Byte) : State := match writeWindow s off bs with
  | none => s
  | some u => noteWindow s off u

section
variable {off : Nat} {bs : List Byte}

theorem windowStored_noted {u : State} (h : writeWindow s off bs = some u) : windowStored s off bs = noteWindow s off u := by
  simp only [windowStored, h]

theorem windowStored_lost (h : writeWindow s off bs = none) : windowStored s off bs = s := by
  simp only [windowStored, h]

theorem windowStored_unlaid (hb : s.boot.laidOut = false) : windowStored s off bs = s :=
  (windowStored_noted (writeWindow_unlaid hb off bs)).trans (noteWindow_unlaid hb off)

/-- Only memory may change. -/
theorem windowStored_frame : windowStored s off bs = { s with mem := (windowStored s off bs).mem } := by
  cases h : writeWindow s off bs with
  | none => rw [windowStored_lost h]
  | some u => rw [windowStored_noted h, noteWindow_frame, writeWindow_frame h]

theorem windowStored_setAcct (a : Acct) : windowStored (setAcct s a) off bs = setAcct (windowStored s off bs) a := by
  have hw := writeWindow_setAcct (s := s) (off := off) (a := a) bs
  cases h : writeWindow s off bs with
  | none => rw [windowStored_lost h, windowStored_lost (by rw [hw, h]; rfl)]
  | some u => rw [windowStored_noted h, windowStored_noted (u := setAcct u a) (by rw [hw, h]; rfl), noteWindow_setAcct]

end

/-- The write's own effect, beside the accounting of the access. -/
theorem exec_cxlMemWrite {line : BitVec 36} {data : Vec} (hl : linkUp s = true) (hm : s.entry.main = true) : exec (.cxlMemWrite line data) s =
    .next (setAcct (windowStored s (line.toNat * 64) (vecBytes data)) (windowCharged (windowCell s (line.toNat * 64)) s).acct) := by
  rw [← windowStored_setAcct, ← windowCharged_frame]
  exact congrArg Host.Outcome.next (if_neg (by simp [hl, hm]))

end Sys2Proof.Machine

open Sys2Proof Sys2Proof.Machine

/-- Settles O12: the ports and the read by their equations above; the write is `windowStored` with the access counted. That a later fence sees the
write rests on log 171. -/
theorem cxlPortsAndWindow : Obligations.CxlPortsAndWindow := by
  unfold Obligations.CxlPortsAndWindow
  refine ⟨fun s port => ⟨portLost port s, rfl, ?down0, ?down1⟩, fun s lanes slow hm hp hl hq => ?up,
    fun s port lanes slow hm hp => cxlPortUp_pair hm hp port,
    fun s line hl hm ht => ⟨?read, fun hb => hostWindow_unlaid hb _ 64⟩, fun s line data hl hm => ?write⟩
  case down0 => rintro rfl; exact cxlPortDown_first
  case down1 => rintro rfl; exact cxlPortDown_second
  case up => exact (cxlPortUp_single hm hp hl).trans (congrArg Host.Outcome.next (releaseAll_unheld hq))
  case read =>
    intro c u v w
    have hv : v = windowCharged (windowCell s (line.toNat * 64)) s := windowCharged_isEmpty
    rw [cxlMemRead_untested hl hm ht, ← hv]
    rfl
  case write =>
    refine ⟨_, exec_cxlMemWrite hl hm, ?_, windowCharged_bytes, fun u hu => ?_, fun hn => ?_, fun hb => ?_⟩
    · rw [windowStored_frame]
      rfl
    · rw [setAcct_mem, windowStored_noted hu]
    · rw [setAcct_mem, windowStored_lost hn]
    · rw [setAcct_mem, windowStored_unlaid hb]
end

section
/-!
PROOFS. COPY at work: the end of a batch, copies to feeds, and copies that move their bytes piece by piece.
-/

namespace Sys2Proof.Machine

variable {s u v : State} {c : CopyRun}

/-! ### Bytes written to host memory -/

/-- Two runs written one behind the other are one run. -/
theorem mwrites_append (m : List Host.Cell) (a : Nat) (xs ys : List Byte) :
    mwrites m a (xs ++ ys) = mwrites (mwrites m a xs) (a + xs.length) ys := by
  induction xs generalizing m a with
  | nil => rfl
  | cons x xs ih => simp only [List.cons_append, mwrites, ih, List.length_cons, Nat.add_assoc, Nat.add_comm 1]

theorem hostWrite_append (s : State) (a : Nat) (xs ys : List Byte) :
    hostWrite s a (xs ++ ys) = hostWrite (hostWrite s a xs) (a + xs.length) ys := by
  simp only [hostWrite, mwrites_append]

theorem mread_hostWrite_inside (s : State) {a i : Nat} {bs : List Byte} (h : i < bs.length) :
    mread (hostWrite s a bs).mem.host (a + i) = bs.getD i 0 := by
  rw [hostWrite_mem, mread_mwrites_inside _ (by omega) (by omega), Nat.add_sub_cancel_left]

theorem padTo_of_length {n : Nat} {bs : List Byte} (h : bs.length = n) : padTo n bs = bs := by
  simp [padTo, ← h, zeros]

/-! ### The pieces of a COPY from host to host memory (R240; log 30) -/

/-- The bytes of the piece of a COPY at an offset. -/
def hostPiece (c : CopyRun) (off : Nat) : List Byte := (c.data.drop off).take (min 64 (c.length - off))

theorem hostPiece_length (hd : c.data.length = c.length) (off : Nat) : (hostPiece c off).length = min 64 (c.length - off) := by
  rw [hostPiece, List.length_take, List.length_drop, hd]
  omega

/-- The piece at an offset, and what the COPY holds behind it. -/
theorem hostPiece_append (c : CopyRun) (off : Nat) :
    hostPiece c off ++ c.data.drop (off + min 64 (c.length - off)) = c.data.drop off := by
  rw [hostPiece, ← List.drop_drop, List.take_append_drop]

section
variable (hs : c.srcPlace = 0) (hd : c.data.length = c.length)
include hs

/-- A read of host memory meets no lines. -/
theorem copyLines_host (off n : Nat) : copyLines s c off n = [] := by simp [copyLines, hs]

include hd

theorem copySource_host (off : Nat) : copySource s c off (min 64 (c.length - off)) = some (hostPiece c off) :=
  (if_pos (.inl hs)).trans (congrArg some (padTo_of_length (hostPiece_length hd off)))

variable (ht : c.dstPlace = 0)
include ht

/-- One piece: its bytes are written, and the next one follows. -/
theorem movePieces_host_succ (k off : Nat) (s : State) : movePieces c (k + 1) off s =
    movePieces c k (off + min 64 (c.length - off)) (hostWrite s (c.dst + off) (hostPiece c off)) := by
  simp only [movePieces, copyLines_host hs, injectLines, copySource_host hs hd, copyDest, ht, Bool.not_true, Bool.false_eq_true, if_false, if_true]

/-- Enough pieces write all bytes from an offset on, in one run. -/
theorem movePieces_host {k off : Nat} (ho : off ≤ c.length) (hk : c.length ≤ off + 64 * k) (s : State) :
    movePieces c k off s = ((c.length, true), hostWrite s (c.dst + off) (c.data.drop off)) := by
  induction k generalizing off s with
  | zero =>
    obtain rfl : off = c.length := by omega
    rw [List.drop_of_length_le (by omega)]
    rfl
  | succ k ih =>
    rw [movePieces_host_succ hs hd ht, ih (by omega) (by omega), ← hostPiece_append c off, hostWrite_append, hostPiece_length hd, Nat.add_assoc]

end

/-! ### The accounting of a COPY (R389) -/

/-- The pages that a COPY reads and writes are touched (R194), and its bytes charged at both places. -/
def copyCounted (c : CopyRun) (u : State) : State :=
  let v := if c.srcPlace = 1 then touchRange c.field c.src c.length u else u
  let v := if c.dstPlace = 1 then touchRange c.field c.dst c.length v else v
  chargePlace (chargePlace v c.tag c.field c.srcPlace c.src c.length) c.tag c.field c.dstPlace c.dst c.length

theorem chargePlace_host_frame (tag f a n : Nat) : chargePlace s tag f 0 a n = setAcct s (chargePlace s tag f 0 a n).acct := rfl

theorem copyCounted_host_frame (hs : c.srcPlace = 0) (ht : c.dstPlace = 0) : copyCounted c u = setAcct u (copyCounted c u).acct := by
  have h : copyCounted c u = chargePlace (chargePlace u c.tag c.field 0 c.src c.length) c.tag c.field 0 c.dst c.length := by
    simp [copyCounted, hs, ht]
  rw [h, chargePlace_host_frame, chargePlace_host_frame (s := u)]
  rfl

/-! ### COPY_BATCH_CLOSE (R240) -/

theorem exec_copyBatchClose : exec .copyBatchClose s = .next (settleCopies { s with fld := { s.fld with
    copies := mapIf (fun c => c.batched) (fun c => { c with started := true }) s.fld.copies } }) := rfl

/-! ### COPY_TRANSFER_DONE (R234, R240, R259, R274) -/

section
variable {q : QId} {seq : BitVec 16}

theorem exec_copyTransferDone : exec (.copyTransferDone q seq) s = execCopyTransferDone q seq s := rfl

/-- Once the copies are settled, queue and SEQ name a COPY that has started, whose turn has come, and no fatal event stops it. -/
structure TransferDue (s : State) (q : QId) (seq : BitVec 16) (c : CopyRun) : Prop where
  named : copyAt (settleCopies s) q seq.toNat = some c
  begun : c.started = true
  turn : batchWaits (settleCopies s) q c = false
  alive : (settleCopies s).faults.fatalPhase = .none

variable (h : TransferDue s q seq c)
include h

theorem copyTransferDone_feedOk (hp : c.dstPlace = 3) (hf : c.fault = none) (hm : c.moved = c.length) :
    exec (.copyTransferDone q seq) s = .next (endCopy c (statusCode .ok) (settleCopies s)) := by
  obtain ⟨hc, hb, ht, ha⟩ := h
  simp only [exec_copyTransferDone, execCopyTransferDone, hc, hb, ht, ha, hp, hf, hm, Bool.not_true, bne_self_eq_false, Bool.or_self,
    Bool.false_eq_true, if_false, if_true]

theorem copyTransferDone_feedFault {st : BitVec 16} (hp : c.dstPlace = 3) (hf : c.fault = some st) :
    exec (.copyTransferDone q seq) s = .next (endCopy c st (if st = statusCode .linkDown then settleCopies s
      else placeFault c.srcPlace c.field (c.src + c.moved) (settleCopies s))) := by
  obtain ⟨hc, hb, ht, ha⟩ := h
  simp only [exec_copyTransferDone, execCopyTransferDone, hc, hb, ht, ha, hp, hf, Bool.not_true, bne_self_eq_false, Bool.or_self,
    Bool.false_eq_true, if_false, if_true]

theorem copyTransferDone_linkDown (hp : c.dstPlace ≠ 3) (hl : copyLink (settleCopies s) c = false) :
    exec (.copyTransferDone q seq) s = .next (endCopy c (statusCode .linkDown) (settleCopies s)) := by
  obtain ⟨hc, hb, ht, ha⟩ := h
  simp only [exec_copyTransferDone, execCopyTransferDone, hc, hb, ht, ha, hp, hl, Bool.not_true, Bool.not_false, bne_self_eq_false, Bool.or_self,
    Bool.false_eq_true, if_false, if_true]

theorem copyTransferDone_moves (hp : c.dstPlace ≠ 3) (hl : copyLink (settleCopies s) c = true)
    (hh : c.dstPlace = 1 → headerHeld (settleCopies s) c.field c.dst c.length = false) {n : Nat} {all : Bool} {w : State}
    (hm : movePieces c (ceilDiv c.length 64) 0 (copyCounted c (settleCopies s)) = ((n, all), w)) :
    exec (.copyTransferDone q seq) s = .next (endCopy { c with moved := n } (if all then statusCode .ok else statusCode .fencedUnit)
      (if c.dstPlace = 1 then noteHeaders c.field c.dst n none w else w)) := by
  obtain ⟨hc, hb, ht, ha⟩ := h
  have hw : (c.dstPlace == 1 && headerHeld (settleCopies s) c.field c.dst c.length) = false := by
    rw [Bool.and_eq_false_imp, beq_iff_eq]
    exact hh
  rw [copyCounted] at hm
  simp only [exec_copyTransferDone, execCopyTransferDone, hc, hb, ht, ha, hp, hl, hw, hm, Bool.not_true, bne_self_eq_false, Bool.or_self,
    Bool.false_eq_true, if_false]

/-- From host to host memory all bytes arrive. -/
theorem copyTransferDone_host (hs : c.srcPlace = 0) (ht : c.dstPlace = 0) (hl : copyLink (settleCopies s) c = true)
    (hd : c.data.length = c.length) : exec (.copyTransferDone q seq) s =
      .next (endCopy { c with moved := c.length } (statusCode .ok) (hostWrite (copyCounted c (settleCopies s)) c.dst c.data)) := by
  have hm := movePieces_host hs hd ht (Nat.zero_le _) (k := ceilDiv c.length 64) (by rw [ceilDiv]; omega) (copyCounted c (settleCopies s))
  have he := copyTransferDone_moves h (by omega) hl (by omega) hm
  rwa [if_pos rfl, if_neg (by omega), List.drop_zero, Nat.add_zero] at he

end

end Sys2Proof.Machine

open Sys2Proof Sys2Proof.Machine

/-- Settles O24: each outcome by its equation above. A COPY moves in pieces of 64 bytes in address order, and a failing piece leaves the earlier ones
moved (log 30); from host to host memory they amount to one write of its bytes. -/
theorem copiesEnd : Obligations.CopiesEnd := by
  unfold Obligations.CopiesEnd
  refine ⟨fun s => exec_copyBatchClose, ?_⟩
  intro s q seq c u hc hb ht ha
  have h : TransferDue s q seq c := ⟨hc, hb, ht, ha⟩
  refine ⟨copyTransferDone_feedOk h, fun hp hf => (copyTransferDone_feedFault h hp hf).trans (by rw [if_pos rfl]),
    fun st hp hf hst => (copyTransferDone_feedFault h hp hf).trans (by rw [if_neg hst]), copyTransferDone_linkDown h,
    fun hp hl hh _ _ _ => copyTransferDone_moves h hp hl hh,
    fun hp hs hl hd => ⟨_, copyTransferDone_host h hs hp hl hd, fun i hi => ?inside, fun a ho => ?outside, ?frame⟩⟩
  case inside => exact mread_hostWrite_inside _ (hd ▸ hi)
  case outside => rw [mread_hostWrite_other _ (hd.symm ▸ ho), copyCounted_host_frame hs hp, setAcct_mem]
  case frame =>
    rw [copyCounted_host_frame hs hp]
    rfl
end

section
/-!
PROOFS. The beginning of moon calls: a written header line, and the arrival of a forwarded call at a stack.
-/

namespace Sys2Proof.Machine

variable {s u : State} {k : StackId} {ch : Fin 64}

/-! ### MOON_CALL (R212, R214, R215) -/

section
variable {h : MoonHeader} {fl : Field}

theorem exec_moonCall : exec (.moonCall k ch) s = execMoonCall k ch s := rfl

/-- The call that a header of the field spells, with its calling sections. -/
abbrev writtenCall (s : State) (fl : Field) (h : MoonHeader) : MoonCallRun :=
  headerCall h (callers s fl h.sec) (callDraft s h.field (callers s fl h.sec))

/-- The lead has read the header line. -/
abbrev headerTaken (h : MoonHeader) (s : State) : State := { s with moons := { s.moons with headers := s.moons.headers.erase h } }

/-- The call is queued at its lead and on its way to the other stacks of its mask, with an empty combine area. -/
abbrev callQueued (k : StackId) (ch : Fin 64) (c : MoonCallRun) (v : State) : State := { v with moons := { v.moons with
  calls := v.moons.calls ++ [c]
  queues := tmod [] k.val (· ++ [(k.val, ch.val)]) v.moons.queues
  forwards := v.moons.forwards ++ ((maskStacks c.mask).filter (· != k.val)).map (fun m => (m, k.val, ch.val))
  combine := tdel (chanKey k ch) v.moons.combine } }

theorem moonCall_unwritten (hn : (s.moons.headers.find? fun h => h.lead == k.val && h.channel == ch.val) = none) :
    exec (.moonCall k ch) s = .next s := by
  simp only [exec_moonCall, execMoonCall, hn]

/-- A header line of channel ch at the running lead k is written, in a field, while no injection can meet it. -/
structure CallDue (s : State) (k : StackId) (ch : Fin 64) (h : MoonHeader) (fl : Field) : Prop where
  header : (s.moons.headers.find? fun h => h.lead == k.val && h.channel == ch.val) = some h
  field : fieldAt s h.field = some fl
  runs : moonRuns s k = true
  untested : s.faults.test = false

variable (hd : CallDue s k ch h fl)
include hd

theorem moonCall_due : exec (.moonCall k ch) s = .next (
    let c := writtenCall s fl h
    let u := headerTaken h s
    if callBad u fl c then callFormat c fl false u
    else if c.count = 0 then answerFetches k ch (countCalls c id (writeResults { c with status := statusCode .okEmpty } 0 [] u))
    else callQueued k ch c (countCalls c (· + 1) u)) := by
  obtain ⟨hh, hf, hr, ht⟩ := hd
  simp only [exec_moonCall, execMoonCall, hh, hf, hr, injSlot_off (s := headerTaken h s) ht, Bool.not_true, Bool.false_eq_true, if_false]

theorem moonCall_malformed (hb : callBad (headerTaken h s) fl (writtenCall s fl h) = true) :
    exec (.moonCall k ch) s = .next (callFormat (writtenCall s fl h) fl false (headerTaken h s)) :=
  (moonCall_due hd).trans (congrArg _ (if_pos hb))

variable (hb : callBad (headerTaken h s) fl (writtenCall s fl h) = false)
include hb

theorem moonCall_empty (hc : (writtenCall s fl h).count = 0) : exec (.moonCall k ch) s = .next (answerFetches k ch
    (countCalls (writtenCall s fl h) id (writeResults { writtenCall s fl h with status := statusCode .okEmpty } 0 [] (headerTaken h s)))) :=
  (moonCall_due hd).trans (congrArg _ ((if_neg (Bool.eq_false_iff.mp hb)).trans (if_pos hc)))

theorem moonCall_queued (hc : (writtenCall s fl h).count ≠ 0) : exec (.moonCall k ch) s =
    .next (callQueued k ch (writtenCall s fl h) (countCalls (writtenCall s fl h) (· + 1) (headerTaken h s))) :=
  (moonCall_due hd).trans (congrArg _ ((if_neg (Bool.eq_false_iff.mp hb)).trans (if_neg hc)))

end

/-! ### Calls on their way to a stack (R214, R227; log 168) -/

/-- What may arrive next is the oldest forward of its lead to the stack. -/
theorem arriving_oldest {j : Nat} {e : Nat × Nat × Nat} (he : e ∈ arriving j s) :
    e.1 = j ∧ (s.moons.forwards.find? fun x => x.1 == j && x.2.1 == e.2.1) = some e := by
  obtain ⟨l, -, hf⟩ := List.mem_filterMap.mp he
  simp only [List.find?_filter, Bool.decide_and, Bool.decide_eq_true] at hf
  have hp := List.find?_some hf
  rw [Bool.and_eq_true, beq_iff_eq, beq_iff_eq] at hp
  obtain ⟨hj, rfl⟩ := hp
  exact ⟨hj, hf⟩

theorem arriving_unforwarded {j : Nat} (h : ∀ e ∈ s.moons.forwards, e.1 ≠ j) : arriving j s = [] := by
  have hm : (s.moons.forwards.filter fun e => e.1 == j) = [] := List.filter_eq_nil_iff.mpr fun e he => by simpa using h e he
  simp only [arriving, hm, List.map_nil, List.eraseDups_nil, List.filterMap_nil]

/-! ### MOON_CALL_FORWARD (R214) -/

theorem exec_moonCallForward : exec (.moonCallForward k) s = execMoonCallForward k s := rfl

theorem moonCallForward_idle (h : arriving k s = []) : exec (.moonCallForward k) s = .next s := by
  simp only [exec_moonCallForward, execMoonCallForward, h, List.getElem?_nil]

/-- The call of forward e joins the queue of stack k, and the free value is used up. -/
abbrev callArrived (k : StackId) (e : Nat × Nat × Nat) (s : State) : State := { s with
  fresh := s.fresh + 1
  moons := { s.moons with forwards := s.moons.forwards.erase e, queues := tmod [] k.val (· ++ [(e.2.1, e.2.2)]) s.moons.queues } }

/-- The free value picks one of the calls that may arrive. -/
theorem moonCallForward_arrives (h : arriving k s ≠ []) (hr : moonRuns s k = true) :
    ∃ e ∈ arriving k s, exec (.moonCallForward k) s = .next (callArrived k e s) := by
  have hi : (Config.freeWord s.fresh).toNat % (arriving k s).length < (arriving k s).length := Nat.mod_lt _ (List.length_pos_iff.mpr h)
  refine ⟨_, List.getElem_mem hi, ?_⟩
  simp only [exec_moonCallForward, execMoonCallForward, List.getElem?_eq_getElem hi, hr, Bool.not_true, Bool.false_eq_true, if_false]

/-! ### A stack that does not run (R214, R462) -/

section
variable (hr : moonRuns s k = false)
include hr

theorem moonCallForward_stopped : exec (.moonCallForward k) s = .next s := by
  simp only [exec_moonCallForward, execMoonCallForward, hr, Bool.not_false, if_true]
  split <;> rfl

theorem moonCallPartDone_stopped : exec (.moonCallPartDone k) s = .next s := by
  simp only [exec_moonCallPartDone, execMoonCallPartDone, hr, Bool.not_false, Bool.true_or, if_true]

theorem moonPartialCombine_stopped : exec (.moonPartialCombine k) s = .next s := by
  rw [exec_moonPartialCombine, execMoonPartialCombine]
  split
  · rfl
  · simp only [hr, Bool.not_false, if_true]

theorem moonServiceStep_stopped : exec (.moonServiceStep k) s = .next s := by
  rw [exec_moonServiceStep, execMoonServiceStep]
  split
  · rfl
  · simp only [hr, Bool.not_false, Bool.true_or, if_true]

theorem moonCallComplete_stopped (n : Nat) : exec (.moonCallComplete k ch n) s = .next s := by
  rw [exec_moonCallComplete, execMoonCallComplete]
  split
  · rfl
  · simp only [hr, Bool.not_false, Bool.true_or, if_true]

end

end Sys2Proof.Machine

open Sys2Proof Sys2Proof.Machine

/-- Settles O50: each command by its equations above. That a malformed call is refused before a COUNT of 0 counts is log 33, that the arriving lead is
free log 168. -/
theorem moonCallsBegin : Obligations.MoonCallsBegin := by
  unfold Obligations.MoonCallsBegin
  refine ⟨fun s k ch h fl c hh hf hr ht hc u hu => ?call, fun s k ch => moonCall_unwritten, fun s k => moonCallForward_arrives,
    fun s j e he => arriving_oldest he, fun s j => arriving_unforwarded, fun s k => moonCallForward_idle,
    fun s k hr => ⟨moonCallForward_stopped hr, moonCallPartDone_stopped hr, moonPartialCombine_stopped hr, moonServiceStep_stopped hr,
      fun ch n => moonCallComplete_stopped hr n⟩⟩
  case call =>
    subst hc hu
    have hd : CallDue s k ch h fl := ⟨hh, hf, hr, ht⟩
    exact ⟨moonCall_malformed hd, moonCall_empty hd, fun hb hn => ⟨_, rfl, moonCall_queued hd hb hn⟩⟩
end

section
/-!
PROOFS. How COPY is taken up: its wait for a feed, its checks in order, the copy that joins its queue's batches.
-/

namespace Sys2Proof.Machine

variable {s u : State} {q : QId} {h : DescHdr} {d : CopyDesc} {data : List Byte} {acc : Nat}

/-! ### The parts of a COPY (R234, R240) -/

/-- A COPY's length or window address is off the 64-byte grid (R234, R272). -/
def copyOffGrid (d : CopyDesc) : Bool :=
  (d.dstPlace == 3 && d.length.toNat % 64 != 0) ||
    ((d.dstPlace == 1 || d.dstPlace == 2) && (d.dstAddr.toNat % 64 != 0 || d.length.toNat % 64 != 0))

theorem copyOffGrid_of_feed (hp : d.dstPlace = 3) (hn : d.length.toNat % 64 ≠ 0) : copyOffGrid d = true := by
  simp [copyOffGrid, hp, hn]

theorem copyOffGrid_of_window (hp : d.dstPlace = 1 ∨ d.dstPlace = 2) (hn : d.dstAddr.toNat % 64 ≠ 0 ∨ d.length.toNat % 64 ≠ 0) :
    copyOffGrid d = true := by
  rw [copyOffGrid, Bool.or_eq_true]
  right
  simpa only [Bool.and_eq_true, Bool.or_eq_true, beq_iff_eq, bne_iff_ne] using And.intro hp hn

theorem copyOffGrid_of_aligned (hn : d.length.toNat % 64 = 0) (ha : d.dstAddr.toNat % 64 = 0) : copyOffGrid d = false := by
  simp [copyOffGrid, hn, ha]

/-- A COPY that touches tier 1 of its field wakes the field (R464). -/
abbrev copyWoken (d : CopyDesc) (u : State) : State :=
  if (d.srcPlace == 1 && rangeNear u d.field d.srcAddr.toNat d.length.toNat) || (d.dstPlace == 1 && rangeNear u d.field d.dstAddr.toNat d.length.toNat)
  then wakeField d.field u else u

/-- The copy that a COPY descriptor describes, before any of its bytes has moved. -/
abbrev copyTakenUp (acc : Nat) (h : DescHdr) (d : CopyDesc) (data : List Byte) : CopyRun :=
  { acc, tag := h.tag.toNat, srcPlace := d.srcPlace.toNat, dstPlace := d.dstPlace.toNat, field := d.field
    target := (d.targetSq.val, d.targetSeq.toNat), secId := none, port := d.edgePort, src := d.srcAddr.toNat, dst := d.dstAddr.toNat
    length := d.length.toNat, data, moved := 0, batched := false, started := false, fault := none }

/-! ### COPY (R234, R240, R272) -/

/-- A COPY to a feed whose turn has not come changes nothing (log 173). -/
theorem copy_waits (hw : copyWaits s q h d = true) : exec (.copy q h d data) s = .next s :=
  congrArg Host.Outcome.next (if_pos hw)

/-- What a COPY does once it is at work: its checks in order, then the copy joins its queue's batches. -/
def copyWork (q : QId) (h : DescHdr) (d : CopyDesc) (data : List Byte) (acc : Nat) (u : State) : State :=
  if d.srcPlace = 3 then finish acc .countMismatch 0 0 (closeBatches q u)
  else if d.length.toNat = 0 then finish acc .okEmpty 0 0 (closeBatches q u)
  else if copyOffGrid d then finish acc .badAlignment 0 0 (closeBatches q u)
  else settleCopies (addCopy q (copyTakenUp acc h d data) (copyWoken d u))

/-- A COPY whose turn has come starts its work; its queue's open batch is still open (R240, R277). -/
theorem exec_copy_taken (ht : Taken s q .copy h acc) (hw : copyWaits s q h d = false) :
    exec (.copy q h d data) s = .next (copyWork q h d data acc (setPhase acc .running s)) := by
  have hx : exec (.copy q h d data) s = .next (withDesc q .copy h false (copyWork q h d data) s) :=
    congrArg Host.Outcome.next (if_neg (Bool.eq_false_iff.mp hw))
  rw [hx, withDesc_copy ht]

theorem copyWork_reservedPlace (h3 : d.srcPlace = 3) :
    copyWork q h d data acc u = finish acc .countMismatch 0 0 (closeBatches q u) := if_pos h3

section
variable (h3 : d.srcPlace ≠ 3)
include h3

theorem copyWork_empty (hn : d.length.toNat = 0) : copyWork q h d data acc u = finish acc .okEmpty 0 0 (closeBatches q u) :=
  (if_neg h3).trans (if_pos hn)

variable (hn : d.length.toNat ≠ 0)
include hn

theorem copyWork_offGrid (hg : copyOffGrid d = true) :
    copyWork q h d data acc u = finish acc .badAlignment 0 0 (closeBatches q u) := by
  rw [copyWork, if_neg h3, if_neg hn, if_pos hg]

theorem copyWork_joins (hg : copyOffGrid d = false) :
    copyWork q h d data acc u = settleCopies (addCopy q (copyTakenUp acc h d data) (copyWoken d u)) := by
  rw [copyWork, if_neg h3, if_neg hn, if_neg (Bool.eq_false_iff.mp hg)]

end

end Sys2Proof.Machine

open Sys2Proof Sys2Proof.Machine

/-- Settles O16: the wait, then the checks in order, each by its equation above. That a COPY to a feed waits for every earlier accepted COPY is the
model's reading of R234 (log 173). -/
theorem copiesAreTakenUp : Obligations.CopiesAreTakenUp := by
  unfold Obligations.CopiesAreTakenUp
  refine fun s q h d data acc => ⟨copy_waits, fun ht hw => ?taken⟩
  case taken =>
    rw [exec_copy_taken ht hw]
    exact ⟨fun h3 => congrArg _ (copyWork_reservedPlace h3), fun h3 hn => congrArg _ (copyWork_empty h3 (BitVec.toNat_eq.mp hn)),
      fun h3 hn hp hl => congrArg _ (copyWork_offGrid h3 (BitVec.toNat_ne.mp hn) (copyOffGrid_of_feed hp hl)),
      fun h3 hn hp hl => congrArg _ (copyWork_offGrid h3 (BitVec.toNat_ne.mp hn) (copyOffGrid_of_window hp hl)),
      fun h3 hn hl ha => congrArg _ (copyWork_joins h3 (BitVec.toNat_ne.mp hn) (copyOffGrid_of_aligned hl ha))⟩
end

section
/-!
PROOFS. Completions: what posting one changes and leaves alone, and each way that it goes.
-/

namespace Sys2Proof.Machine

variable {s t u : State} {q : Nat} {c : Completion}

/-! ### What posting may change (R266 to R269) -/

/-- From s to t the registers of queue q, the interrupt state and host memory inside W may have changed, and nothing else. -/
structure PostChange (q : Nat) (W : Nat → Prop) (s t : State) : Prop where
  frame : ∃ queues msix irqs m, t = { s with host := { s.host with queues, msix, irqs }, mem := { s.mem with host := m } }
  others : ∀ r, r ≠ q → queueAt t r = queueAt s r
  bytes : ∀ a, ¬ W a → mread t.mem.host a = mread s.mem.host a

variable {W : Nat → Prop}

theorem PostChange.refl (s : State) : PostChange q W s s := ⟨⟨_, _, _, _, rfl⟩, fun _ _ => rfl, fun _ _ => rfl⟩

theorem PostChange.trans (h : PostChange q W s t) (k : PostChange q W t u) : PostChange q W s u := by
  refine ⟨?_, fun r hr => (k.others r hr).trans (h.others r hr), fun a ha => (k.bytes a ha).trans (h.bytes a ha)⟩
  obtain ⟨_, _, _, _, rfl⟩ := h.frame
  obtain ⟨_, _, _, _, rfl⟩ := k.frame
  exact ⟨_, _, _, _, rfl⟩

theorem setQueue_postChange (v : Queue) : PostChange q W s (setQueue s q v) :=
  ⟨⟨_, _, _, _, rfl⟩, fun _ hr => queueAt_setQueue_other s hr v, fun _ _ => rfl⟩

theorem raiseVector_postChange (v : Nat) : PostChange q W s (raiseVector v s) := by
  unfold raiseVector
  extract_lets e
  split
  · exact ⟨⟨_, _, _, _, rfl⟩, fun _ _ => rfl, fun _ _ => rfl⟩
  · exact ⟨⟨_, _, _, _, rfl⟩, fun _ _ => rfl, fun _ _ => rfl⟩

theorem hostWrite_postChange {a : Nat} {bs : List Byte} (h : ∀ b, a ≤ b → b < a + bs.length → W b) : PostChange q W s (hostWrite s a bs) :=
  ⟨⟨_, _, _, _, rfl⟩, fun _ _ => rfl, fun b hb => mread_hostWrite_other s (by by_contra hc; exact hb (h b (by omega) (by omega)))⟩

theorem sendQueueIrq_postChange : PostChange q W s (sendQueueIrq q s) := (setQueue_postChange _).trans (raiseVector_postChange _)

theorem countCompletion_postChange (now : Bool) : PostChange q W s (countCompletion q now s) := by
  unfold countCompletion
  extract_lets x n s'
  split
  · exact .refl s
  · split
    · exact (setQueue_postChange _).trans sendQueueIrq_postChange
    · exact setQueue_postChange _

/-! ### The bytes that posting writes (R266, R273) -/

@[simp] theorem leBytes_length (n x : Nat) : (leBytes n x).length = n := by
  induction n generalizing x with
  | zero => rfl
  | succ n ih => exact congrArg (· + 1) (ih _)

/-- A completion entry has 32 bytes (R273). -/
theorem completionBytes_length (x : Queue) (c : Completion) : (completionBytes q x c).length = 32 := by
  simp [completionBytes]

/-- The ring entry at CQ_TAIL and the shadow line: what of host memory a completion may touch. -/
def postedBytes (x : Queue) (a : Nat) : Prop :=
  (x.cqBase.toNat * 4096 + 32 * x.cqTail.toNat ≤ a ∧ a < x.cqBase.toNat * 4096 + 32 * x.cqTail.toNat + 32) ∨
    (x.shadow.toNat * 64 ≤ a ∧ a < x.shadow.toNat * 64 + 64)

theorem writeShadow_postChange (h : ∀ b, (queueAt s q).shadow.toNat * 64 ≤ b → b < (queueAt s q).shadow.toNat * 64 + 64 → W b) :
    PostChange q W s (writeShadow q s) := by
  unfold writeShadow
  extract_lets x
  split
  · exact .refl s
  · exact hostWrite_postChange (by simpa [zeros] using h)

/-- The queue's registers after a completion has been written at CQ_TAIL: the phase turns over at the end of the ring (R266). -/
def tailAdvanced (x : Queue) : Queue :=
  let n := (x.cqTail.toNat + 1) % x.cqSize.toNat
  { x with cqTail := BitVec.ofNat 16 n, phase := if n = 0 then !x.phase else x.phase }

/-- The entry stands in the ring and CQ_TAIL has advanced; the shadow line and the interrupt count are still to come. -/
def ringWritten (q : Nat) (c : Completion) (s : State) : State :=
  hostWrite (setQueue s q (tailAdvanced (queueAt s q)))
    ((queueAt s q).cqBase.toNat * 4096 + 32 * (queueAt s q).cqTail.toNat) (completionBytes q (queueAt s q) c)

theorem writeCompletion_eq : writeCompletion q c s = countCompletion q c.irqNow (writeShadow q (ringWritten q c s)) := rfl

@[simp] theorem queueAt_hostWrite (a : Nat) (bs : List Byte) (r : Nat) : queueAt (hostWrite s a bs) r = queueAt s r := rfl

@[simp] theorem queueAt_ringWritten : queueAt (ringWritten q c s) q = tailAdvanced (queueAt s q) := by simp [ringWritten]

theorem ringWritten_postChange : PostChange q (postedBytes (queueAt s q)) s (ringWritten q c s) :=
  (setQueue_postChange _).trans (hostWrite_postChange fun b h1 h2 => .inl ⟨h1, by rwa [completionBytes_length] at h2⟩)

theorem writeCompletion_postChange : PostChange q (postedBytes (queueAt s q)) s (writeCompletion q c s) := by
  rw [writeCompletion_eq]
  refine (ringWritten_postChange.trans (writeShadow_postChange fun b h1 h2 => .inr ?_)).trans (countCompletion_postChange _)
  rw [queueAt_ringWritten] at h1 h2
  exact ⟨h1, h2⟩

/-- Posting changes the queue's registers, the interrupt state, the ring entry and the shadow line, whichever way it goes. -/
theorem post_postChange (q : Nat) (c : Completion) (s : State) : PostChange q (postedBytes (queueAt s q)) s (post q c s) := by
  unfold post
  extract_lets x
  split
  · split
    · exact setQueue_postChange _
    · exact writeCompletion_postChange
  · split
    · exact setQueue_postChange _
    · split
      · split
        · exact setQueue_postChange _
        · exact (setQueue_postChange _).trans (raiseVector_postChange _)
      · exact writeCompletion_postChange

/-! ### Without interrupt and shadow line a completion is its ring entry -/

theorem countCompletion_off {now : Bool} (h : (queueAt s q).irqEn = false) : countCompletion q now s = s := by
  simp [countCompletion, h]

theorem writeCompletion_plain (hi : (queueAt s q).irqEn = false) (hs : (queueAt s q).shadow = 0) :
    writeCompletion q c s = ringWritten q c s := by
  have h : queueAt (ringWritten q c s) q = tailAdvanced (queueAt s q) := queueAt_ringWritten
  rw [writeCompletion_eq, writeShadow_off (by rw [h]; exact hs), countCompletion_off (by rw [h]; exact hi)]

end Sys2Proof.Machine

open Sys2Proof Sys2Proof.Machine

/-- Settles O13: each way of posting by its equation, the frame by what every write on the way may change. -/
theorem completionsArePosted : Obligations.CompletionsArePosted := by
  unfold Obligations.CompletionsArePosted
  refine ⟨fun s q c hc => ⟨fun h1 h2 h3 hi hs => ?written, post_stalled hc, post_dropped hc, post_held hc, fun h => ?lost⟩, fun s q c => ?frame⟩
  case written => exact (post_written h1 h2 h3).trans (writeCompletion_plain hi hs)
  case lost => exact post_info_lost rfl (.inr (.inr h))
  case frame =>
    have h := post_postChange q c s
    refine ⟨_, rfl, ?_, fun r hr => h.others r (Fin.val_ne_of_ne hr), fun a h1 h2 => h.bytes a ?_⟩
    · obtain ⟨_, _, _, _, he⟩ := h.frame
      rw [he]
    · rw [postedBytes]
      omega
end

section
/-!
PROOFS. The end of a descriptor: its completion, and the FENCEs that wait for it.
-/

namespace Sys2Proof.Machine

variable {s : State} {acc : Nat} {d : OpenDesc} {st : BitVec 16} {r0 r1 : Nat}

/-- The state in which a descriptor's completion is posted: it is no longer open, and its queue and SEQ are noted as closed (R270, R277). -/
abbrev descClosed (acc : Nat) (d : OpenDesc) (s : State) : State :=
  setHost s { s.host with opens := tdel acc s.host.opens, closed := (d.q, d.seq.toNat) :: s.host.closed.filter (· != (d.q, d.seq.toNat)) }

theorem closeDesc_open (h : tfind acc s.host.opens = some d) :
    closeDesc acc st r0 r1 s = post d.q (completionOf d st r0 r1) (descClosed acc d s) := by
  simp only [closeDesc, h]

/-- Where no FENCE becomes ready, the end of a descriptor is its completion. -/
theorem finishCode_alone (h : readyFence (closeDesc acc st r0 r1 s).host.opens = none) :
    finishCode acc st r0 r1 s = closeDesc acc st r0 r1 s := settleFences_none h _

end Sys2Proof.Machine

open Sys2Proof Sys2Proof.Machine

/-- Settles O15: closing posts the completion, and posting opens no descriptor, so the FENCEs that may complete are those of the rest. -/
theorem descriptorEndsByOneCompletion : Obligations.DescriptorEndsByOneCompletion := by
  unfold Obligations.DescriptorEndsByOneCompletion
  intro s acc d st r0 r1 hd c u
  have hu : closeDesc acc (statusCode st) r0 r1 s = u := closeDesc_open hd
  have ho : u.host.opens = tdel acc s.host.opens := post_opens ..
  refine ⟨ho, fun hr => ?_⟩
  rw [← ho, ← hu] at hr
  exact (finishCode_alone hr).trans hu
end

section
/-!
PROOFS. The mailbox while it cannot take a command.
-/

open Sys2Proof Sys2Proof.Machine

/-- Settles O25: each of these commands does its work through the mailbox, which ignores it (R261). -/
theorem mailboxTakesOneCommand : Obligations.MailboxTakesOneCommand := by
  unfold Obligations.MailboxTakesOneCommand
  intro s c hb hc
  cases c
  case map | unmap | serveMode | serveConfig | expertMap | retainedFree | retainedPack | cometTrust | modelOwners | modelDrop | collGroup
    | fieldLayout | placeGroup | fieldWake | fieldSleep | fieldReset | testNonce | testUnlock | testLock | selfTest =>
    exact congrArg Host.Outcome.next (mailbox_busy hb)
  all_goals exact hc.elim
end

section
/-!
PROOFS. Doorbells, the enabling and disabling of a queue, its error bits, coalescing, and the masking of vectors.
-/

namespace Sys2Proof.Machine

variable {s : State} {q : QId}

/-! ### Doorbells (R265, R267, R268) -/

section
variable {v : BitVec 32}

/-- A queue takes no doorbell while BAR0 does not answer or the queue is disabled. -/
theorem doorbell_barred (h : (queueAt s q).enable = false) : (!barOpen s || !(queueAt s q).enable) = true := by simp [h]

theorem doorbell_open (ho : barOpen s = true) (he : (queueAt s q).enable = true) : ¬(!barOpen s || !(queueAt s q).enable) = true := by
  simp [ho, he]

theorem exec_sqTail_disabled (h : (queueAt s q).enable = false) : exec (.sqTail q v) s = .next s :=
  congrArg Host.Outcome.next (if_pos (doorbell_barred h))

theorem exec_cqHead_disabled (h : (queueAt s q).enable = false) : exec (.cqHead q v) s = .next s :=
  congrArg Host.Outcome.next (if_pos (doorbell_barred h))

variable (ho : barOpen s = true) (he : (queueAt s q).enable = true)
include ho he

theorem exec_sqTail_taken (hv : v.toNat % 65536 < (queueAt s q).sqSize.toNat) : exec (.sqTail q v) s =
    .next (setQueue s q { queueAt s q with
      sqTail := BitVec.ofNat 16 v.toNat, covers := (queueAt s q).covers ++ [(BitVec.ofNat 16 v.toNat, s.mem.winWrites)] }) :=
  congrArg Host.Outcome.next ((if_neg (doorbell_open ho he)).trans (if_neg hv.not_ge))

theorem exec_sqTail_outOfRange (hv : (queueAt s q).sqSize.toNat ≤ v.toNat % 65536) : exec (.sqTail q v) s = .next (doorbellError q s) :=
  congrArg Host.Outcome.next ((if_neg (doorbell_open ho he)).trans (if_pos hv))

theorem exec_cqHead_taken (hv : v.toNat % 65536 < (queueAt s q).cqSize.toNat) : exec (.cqHead q v) s =
    .next (releaseHeld q (queueAt s q).held.length (setQueue s q { queueAt s q with cqHead := BitVec.ofNat 16 v.toNat })) :=
  congrArg Host.Outcome.next ((if_neg (doorbell_open ho he)).trans (if_neg hv.not_ge))

/-- A queue that holds nothing has nothing to post. -/
theorem exec_cqHead_unheld (hv : v.toNat % 65536 < (queueAt s q).cqSize.toNat) (hh : (queueAt s q).held = []) : exec (.cqHead q v) s =
    .next (setQueue s q { queueAt s q with cqHead := BitVec.ofNat 16 v.toNat }) := by
  rw [exec_cqHead_taken ho he hv, hh]
  rfl

theorem exec_cqHead_outOfRange (hv : (queueAt s q).cqSize.toNat ≤ v.toNat % 65536) : exec (.cqHead q v) s = .next (doorbellError q s) :=
  congrArg Host.Outcome.next ((if_neg (doorbell_open ho he)).trans (if_pos hv))

end

/-! ### Enabling and disabling a queue (R263, R264) -/

/-- ENTRIES is valid exactly where it is a power of two from 16 to 65,536 (R263). -/
theorem entriesValid_iff {n : Nat} : entriesValid n = true ↔ ∃ k, 4 ≤ k ∧ k ≤ 16 ∧ n = 2 ^ k := by
  simp only [entriesValid, List.any_eq_true, List.mem_range, beq_iff_eq]
  constructor
  · rintro ⟨k, hk, rfl⟩
    exact ⟨k + 4, by omega, by omega, rfl⟩
  · rintro ⟨k, h4, h16, rfl⟩
    exact ⟨k - 4, by omega, by rw [Nat.sub_add_cancel h4]⟩

/-- A configuration that ENABLE refuses: a size that is no ring's, or a COAL_COUNT of zero (R264). -/
abbrev ringMisfit (x : Queue) : Bool := !entriesValid x.sqSize.toNat || !entriesValid x.cqSize.toNat || x.coalCount == 0

theorem ringMisfit_iff {x : Queue} : ringMisfit x = true ↔ x.coalCount = 0 ∨ (¬∃ k, 4 ≤ k ∧ k ≤ 16 ∧ x.sqSize.toNat = 2 ^ k) ∨
    ¬∃ k, 4 ≤ k ∧ k ≤ 16 ∧ x.cqSize.toNat = 2 ^ k := by
  simp only [Bool.or_eq_true, Bool.not_eq_true', ← Bool.not_eq_true, entriesValid_iff, beq_iff_eq]
  exact or_comm

/-- Entries of the burst in flight of a queue that is disabled: a free number within its room, none where nothing is fetched (log 170). -/
def burstIssued (s : State) (q : Nat) : Nat :=
  if fetchOpen s q then (Config.freeWord s.fresh).toNat % (burstRoom (queueAt s q) + 1) else 0

theorem burstIssued_le : burstIssued s q ≤ burstRoom (queueAt s q) := by
  unfold burstIssued
  split
  · exact Nat.le_of_lt_succ (Nat.mod_lt _ (Nat.succ_pos _))
  · exact Nat.zero_le _

theorem burstIssued_closed (hf : fetchOpen s q = false) : burstIssued s q = 0 := if_neg (Bool.eq_false_iff.mp hf)

theorem exec_queueDisable_disabled (he : (queueAt s q).enable = false) : exec (.queueDisable q) s = .next s := by
  have hx : stopFetch q s = s := if_pos (by simp [he])
  exact congrArg Host.Outcome.next (by rw [hx, ite_self])

section
variable (ho : barOpen s = true)
include ho

section
variable {w : BitVec 32} (he : (queueAt s q).enable = false)
include he

theorem enable_open : ¬(!barOpen s || (queueAt s q).enable) = true := by simp [ho, he]

theorem exec_queueEnable_unsized (hz : (ctrlFields (queueAt s q) w.toNat).sqSize = 0 ∨ (ctrlFields (queueAt s q) w.toNat).cqSize = 0) :
    exec (.queueEnable q w) s = .next (setQueue s q { ctrlFields (queueAt s q) w.toNat with cfgErr := false }) :=
  congrArg Host.Outcome.next ((if_neg (enable_open ho he)).trans (if_pos hz))

variable (h1 : (ctrlFields (queueAt s q) w.toNat).sqSize ≠ 0) (h2 : (ctrlFields (queueAt s q) w.toNat).cqSize ≠ 0)
include h1 h2

theorem exec_queueEnable_refused (hm : ringMisfit (ctrlFields (queueAt s q) w.toNat) = true) : exec (.queueEnable q w) s =
    .next (raiseVector 1024 (setQueue s q { ctrlFields (queueAt s q) w.toNat with cfgErr := true })) :=
  congrArg Host.Outcome.next ((if_neg (enable_open ho he)).trans ((if_neg (not_or.mpr ⟨h1, h2⟩)).trans (if_pos hm)))

theorem exec_queueEnable_starts (hm : ¬ringMisfit (ctrlFields (queueAt s q) w.toNat) = true) : exec (.queueEnable q w) s =
    .next (setQueue s q { ctrlFields (queueAt s q) w.toNat with
      enable := true, sqHead := 0, cqTail := 0, sqTail := 0, covers := [], cqHead := 0, inFlight := 0, phase := true, cfgErr := false, infoLost := 0 }) :=
  congrArg Host.Outcome.next ((if_neg (enable_open ho he)).trans ((if_neg (not_or.mpr ⟨h1, h2⟩)).trans (if_neg hm)))

end

theorem exec_queueDisable_stops (he : (queueAt s q).enable = true) : exec (.queueDisable q) s =
    .next { setQueue s q { queueAt s q with enable := false, inFlight := burstIssued s q } with fresh := s.fresh + 1 } :=
  congrArg Host.Outcome.next ((if_pos ho).trans (if_neg (by simp [he])))

/-! ### Error bits and coalescing (R263, R269) -/

theorem exec_qcfgErrClear (w : BitVec 32) : exec (.qcfgErrClear q w) s = .next (setQueue s q { queueAt s q with
    dbErr := (queueAt s q).dbErr && !w.getLsbD 0, cqOvf := (queueAt s q).cqOvf && !w.getLsbD 1 }) :=
  congrArg Host.Outcome.next (if_pos ho)

theorem exec_irqEnClear (he : (queueAt s q).enable = false) : exec (.irqEnClear q) s =
    .next (setQueue s q { queueAt s q with irqEn := false, pendCount := 0, coalStart := none }) :=
  congrArg Host.Outcome.next (if_pos (by simp [ho, he]))

end

theorem exec_coalTimerExpiry {t : Nat} (ht : (queueAt s q).coalStart = some t) (hi : (queueAt s q).irqEn = true)
    (hd : t + (queueAt s q).coalTicks.toNat ≤ s.tick) : exec (.coalTimerExpiry q) s = .next (sendQueueIrq q s) := by
  refine congrArg Host.Outcome.next ?_
  simp only [ht, hi, hd, and_self, if_true]

/-! ### Unmasking a vector (R268) -/

theorem linkUp_of_barOpen (ho : barOpen s = true) : linkUp s = true := by
  simp only [barOpen, Bool.and_eq_true] at ho
  obtain ⟨⟨-, hl⟩, -⟩ := ho
  exact hl

section
variable {v : Fin 1028}

/-- The state with a vector's mask and pending bits clear. -/
def unmasked (v : Fin 1028) (s : State) : State := setHost s { s.host with
  msix := tset {} v.val { tget ({} : MsixEntry) v s.host.msix with masked := false, pending := false } s.host.msix }

theorem raiseVector_unmasked (hl : linkUp s = true) :
    raiseVector v (unmasked v s) = setHost (unmasked v s) { (unmasked v s).host with irqs := s.host.irqs ++ [v.val] } :=
  raiseVector_sent (by simp [unmasked]) hl

/-- Of a vector that is not pending, unmasking writes the mask alone. -/
theorem unmasked_quiet (hp : (tget ({} : MsixEntry) v s.host.msix).pending = false) : unmasked v s = setHost s { s.host with
    msix := tset {} v { tget ({} : MsixEntry) v s.host.msix with masked := false } s.host.msix } := by
  have hx : ∀ e : MsixEntry, e.pending = false → { e with masked := false, pending := false } = { e with masked := false } := by
    rintro ⟨⟩ rfl
    rfl
  rw [unmasked, hx _ hp]

variable (ho : barOpen s = true)
include ho

theorem exec_msixUnmask : exec (.msixUnmask v) s =
    .next (if (tget ({} : MsixEntry) v s.host.msix).pending then raiseVector v (unmasked v s) else unmasked v s) :=
  congrArg Host.Outcome.next (if_neg (by simp [ho]))

theorem exec_msixUnmask_sends (hp : (tget ({} : MsixEntry) v s.host.msix).pending = true) : exec (.msixUnmask v) s =
    .next (setHost (unmasked v s) { (unmasked v s).host with irqs := s.host.irqs ++ [v.val] }) := by
  rw [exec_msixUnmask ho, if_pos hp, raiseVector_unmasked (linkUp_of_barOpen ho)]

theorem exec_msixUnmask_quiet (hp : (tget ({} : MsixEntry) v s.host.msix).pending = false) : exec (.msixUnmask v) s = .next (setHost s { s.host with
    msix := tset {} v { tget ({} : MsixEntry) v s.host.msix with masked := false } s.host.msix }) := by
  rw [exec_msixUnmask ho, if_neg (Bool.eq_false_iff.mp hp), unmasked_quiet hp]

end

end Sys2Proof.Machine

open Sys2Proof Sys2Proof.Machine

/-- Settles O10: the doorbells, the enabling and the disabling, each by its equation above. How many entries a burst in flight still brings is free
(log 170). -/
theorem doorbellsAndQueueEnable : Obligations.DoorbellsAndQueueEnable := by
  unfold Obligations.DoorbellsAndQueueEnable
  refine ⟨fun s q v => ⟨exec_sqTail_taken, exec_sqTail_outOfRange, exec_cqHead_unheld, exec_cqHead_taken, exec_cqHead_outOfRange,
    fun he => ⟨exec_sqTail_disabled he, exec_cqHead_disabled he⟩⟩,
    fun s q w => ⟨fun ho he => ⟨exec_queueEnable_unsized ho he, fun h1 h2 hn hc => ?starts, fun h1 h2 hm => ?refused⟩,
      fun ho he => ⟨burstIssued s q, burstIssued_le, burstIssued_closed, exec_queueDisable_stops ho he⟩, exec_queueDisable_disabled⟩⟩
  case starts =>
    refine exec_queueEnable_starts ho he h1 h2 (mt ringMisfit_iff.mp ?_)
    rintro (h | h | h)
    · exact hc h
    · exact h (hn _ (.inl rfl))
    · exact h (hn _ (.inr rfl))
  case refused => exact exec_queueEnable_refused ho he h1 h2 (ringMisfit_iff.mpr hm)

/-- Settles O11: each command by its equation above; the expired timer sends by `sendQueueIrq`. -/
theorem queueErrorsAndInterrupts : Obligations.QueueErrorsAndInterrupts := by
  unfold Obligations.QueueErrorsAndInterrupts
  exact fun s q w v => ⟨fun ho => exec_qcfgErrClear ho w, exec_irqEnClear, fun t => exec_coalTimerExpiry, exec_msixUnmask_sends, exec_msixUnmask_quiet⟩
end

section
/-!
PROOFS. WEIGHT_LOAD: how it is checked and joins the loads, and what the digest of its next shard decides.
-/

namespace Sys2Proof.Machine

variable {s u v : State}

/-! ### WEIGHT_LOAD (R259, R272, R330, R506) -/

/-- The manifest that a WEIGHT_LOAD reads. -/
abbrev weightManifest (u : State) (d : WeightDesc) (host : ManifestRead) : Manifest :=
  parseManifest (sourceByte u d.srcPlace.toNat d.field d.manifestAddr.toNat host.bytes) host.sig

/-- A WEIGHT_LOAD that writes or reads tier 1 of its field wakes the field (R464). -/
abbrev weightAwake (d : WeightDesc) (m : Manifest) (u : State) : State :=
  if d.dest || weightsNear u d m then wakeField d.field u else u

/-- The load that a WEIGHT_LOAD becomes. -/
abbrev weightRun (acc : Nat) (h : DescHdr) (d : WeightDesc) (m : Manifest) : WeightRun :=
  ⟨acc, m, if d.dest then some d.field.val else none, d.srcPlace.toNat, d.field, d.shardAddr.toNat, h.tag.toNat, d.shardFirst.toNat,
    d.shardFirst.toNat + d.shardCount.toNat, 0⟩

/-- A load joins the others in acceptance order (R331). -/
abbrev joinLoads (acc : Nat) (w : WeightRun) (v : State) : State :=
  let before := v.models.loads.filter fun x => decide (x.acc < acc)
  let after := v.models.loads.filter fun x => decide (acc < x.acc)
  { v with models := { v.models with loads := before ++ [w] ++ after } }

/-- The loads go on as far as they can without a shard from outside (R331). -/
abbrev loadsGoOn (v : State) : State := advanceLoads (loadMoves v) v

section
variable {q : QId} {h : DescHdr} {acc : Nat} {d : WeightDesc} {host : ManifestRead}

theorem weightLoad_barred (ht : Taken s q .weightLoad h acc) (hb : d.srcPlace = 3 ∨ (d.dest = false ∧ (started s q acc).boot.laidOut = false)) :
    exec (.weightLoad q h d host) s = .next (finish acc .countMismatch 0 noShard (started s q acc)) :=
  next_taken ht (by decide) (if_pos (by rcases hb with hb | ⟨h1, h2⟩ <;> simp [*]))

section
variable (ht : Taken s q .weightLoad h acc) (h3 : d.srcPlace ≠ 3) (hb : d.dest = false → (started s q acc).boot.laidOut = true)
include ht h3 hb

omit ht in
theorem weight_open : ¬((!d.dest && !(started s q acc).boot.laidOut) || d.srcPlace == 3) = true := by
  rw [beq_eq_false_iff_ne.mpr h3]
  cases hd : d.dest <;> simp [hb, hd]

theorem weightLoad_linkDown (hl : hostLost (started s q acc) acc (d.srcPlace == 0) = true) :
    exec (.weightLoad q h d host) s = .next (finish acc .linkDown 0 noShard (started s q acc)) :=
  next_taken ht (by decide) ((if_neg (weight_open h3 hb)).trans (if_pos hl))

variable (hl : hostLost (started s q acc) acc (d.srcPlace == 0) = false)
include hl

/-- The read of a WEIGHT_LOAD's manifest. -/
abbrev manifestRead (d : WeightDesc) (m : Manifest) (u : State) : Bool × State :=
  hubRead d.srcPlace.toNat d.field d.manifestAddr.toNat d.manifestBytes.toNat (weightAwake d m u)

theorem weightLoad_unread (hr : manifestRead d (weightManifest (started s q acc) d host) (started s q acc) = (false, v)) :
    exec (.weightLoad q h d host) s = .next (finish acc .fencedUnit 0 noShard v) :=
  next_taken ht (by decide) (by simp only [weight_open h3 hb, hl, hr, if_false, Bool.false_eq_true, Bool.not_false, if_true])

variable (hr : manifestRead d (weightManifest (started s q acc) d host) (started s q acc) = (true, v))
include hr

theorem weightLoad_fails {st : Status} (hk : checkWeights v d (weightManifest (started s q acc) d host) = some st) :
    exec (.weightLoad q h d host) s = .next (finish acc st 0 noShard v) :=
  next_taken ht (by decide) (by simp only [weight_open h3 hb, hl, hr, hk, if_false, Bool.false_eq_true, Bool.not_true])

theorem weightLoad_joins (hk : checkWeights v d (weightManifest (started s q acc) d host) = none) :
    exec (.weightLoad q h d host) s = .next (loadsGoOn (joinLoads acc (weightRun acc h d (weightManifest (started s q acc) d host)) v)) :=
  next_taken ht (by decide) (by simp only [weight_open h3 hb, hl, hr, hk, if_false, Bool.false_eq_true, Bool.not_true])

end

end

/-! ### SHARD_HASHED (R259, R331, R332) -/

theorem chargePlace_test (tag f p a n : Nat) : (chargePlace s tag f p a n).faults.test = s.faults.test := by
  unfold chargePlace
  split
  · exact charge_test ..
  · split
    · split
      · exact chargeTier_test ..
      · rfl
    · split
      · exact chargeTier_test ..
      · rfl

section
variable {r : ShardRead} {w : WeightRun} {l : List WeightRun} {e : ShardEntry}

theorem exec_shardHashed : exec (.shardHashed r) s = execShardHashed r s := rfl

/-- The end of a load by a digest that does not match: logged as a digest failure of the hub's hash engine (R332, R468). -/
abbrev digestWrong (w : WeightRun) (u : State) : State :=
  endLoad w .digestFail w.next (logDetection 0x10 0x0A 1 false 10 (islandCycles u 0x10)
    (BitVec.ofNat 64 (shardLoc w.next (w.dest.getD 0))) (statusCode .digestFail) u)

/-- What a load's next shard does once its bytes are counted, with no injection: no room or no source ends the load, else the digest decides
(R331, R332). -/
def shardDecided (w : WeightRun) (e : ShardEntry) (r : ShardRead) (u : State) : State := match shardRoom u w e with
  | .error st => endLoad w st w.next u
  | .ok t => match shardSource u w e r with
    | none => endLoad w .fencedUnit w.next (placeFault w.srcPlace w.field (w.shardAddr + 4096 * e.srcPage) u)
    | some data => if r.hash = e.digest then shardLoaded w e (installShard w e data t) else digestWrong w u

theorem shardDecided_roomless {st : Status} (hr : shardRoom u w e = .error st) : shardDecided w e r u = endLoad w st w.next u := by
  simp only [shardDecided, hr]

section
variable (hr : shardRoom u w e = .ok v)
include hr

theorem shardDecided_sourceless (hs : shardSource u w e r = none) : shardDecided w e r u =
    endLoad w .fencedUnit w.next (placeFault w.srcPlace w.field (w.shardAddr + 4096 * e.srcPage) u) := by
  simp only [shardDecided, hr, hs]

variable {data : List Byte} (hs : shardSource u w e r = some data)
include hs

theorem shardDecided_installs (hd : r.hash = e.digest) : shardDecided w e r u = shardLoaded w e (installShard w e data v) := by
  simp only [shardDecided, hr, hs, hd, if_true]

theorem shardDecided_wrong (hd : r.hash ≠ e.digest) : shardDecided w e r u = digestWrong w u := by
  simp only [shardDecided, hr, hs, hd, if_false]

end

section
variable (hw : s.models.loads = w :: l) (he : w.manifest.shards[w.next]? = some e) (hx : running s = true)
include hw he hx

theorem shardHashed_linkDown (hl : hostLost s w.acc (w.srcPlace == 0) = true) :
    exec (.shardHashed r) s = .next (loadsGoOn (endLoad w .linkDown w.next s)) := by
  simp only [exec_shardHashed, execShardHashed, hw, he, hx, hl, Bool.not_true, Bool.false_eq_true, if_false, if_true]

/-- With test mode off nothing but the shard itself decides its load (R479). -/
theorem shardHashed_decides (hl : hostLost s w.acc (w.srcPlace == 0) = false) (ht : s.faults.test = false) :
    exec (.shardHashed r) s =
      .next (loadsGoOn (shardDecided w e r (chargePlace s w.tag w.field w.srcPlace (w.shardAddr + 4096 * e.srcPage) e.bytes))) := by
  have hu := (chargePlace_test (s := s) w.tag w.field w.srcPlace (w.shardAddr + 4096 * e.srcPage) e.bytes).trans ht
  simp only [exec_shardHashed, execShardHashed, hw, he, hx, hl, Bool.not_true, Bool.false_eq_true, if_false, meetPlaced_off hu, injSlot_off hu]
  generalize chargePlace s w.tag w.field w.srcPlace (w.shardAddr + 4096 * e.srcPage) e.bytes = u
  cases hr : shardRoom u w e with
  | error st => rw [shardDecided_roomless hr]
  | ok v =>
    cases hs : shardSource u w e r with
    | none => rw [shardDecided_sourceless hr hs]
    | some data =>
      by_cases hd : r.hash = e.digest
      · rw [shardDecided_installs hr hs hd]
        simp only [hd, bne_self_eq_false]
      · rw [shardDecided_wrong hr hs hd]
        simp only [bne_iff_ne.mpr hd, Bool.not_true]

end

end

end Sys2Proof.Machine

open Sys2Proof Sys2Proof.Machine

/-- Settles O19: the checks of WEIGHT_LOAD in order, then what a shard's room, source and digest decide. That the checks and the place come before
the shard's read is log 94, that the manifest's read comes before its checks log 149. -/
theorem weightLoads : Obligations.WeightLoads := by
  unfold Obligations.WeightLoads
  refine ⟨fun s q h d host acc ht => ⟨weightLoad_barred ht, weightLoad_linkDown ht, fun h3 hb hl met v hr => ⟨?unread, ?fails, ?joins⟩⟩,
    fun s r w l e hw he hx => ⟨shardHashed_linkDown hw he hx, fun hl ht => ?decides⟩⟩
  case unread => rintro rfl; exact weightLoad_unread ht h3 hb hl hr
  case fails => rintro st rfl hk; exact weightLoad_fails ht h3 hb hl hr hk
  case joins => rintro rfl hk; exact weightLoad_joins ht h3 hb hl hr hk
  case decides =>
    rw [shardHashed_decides hw he hx hl ht]
    intro u
    refine ⟨fun st hr => ?_, fun v hr data hs => ⟨fun hd => ?_, fun hd => ?_⟩, fun v hr hs => ?_⟩
    · rw [shardDecided_roomless hr]
    · rw [shardDecided_installs hr hs hd]
    · rw [shardDecided_wrong hr hs hd]
    · rw [shardDecided_sourceless hr hs]
end

section
/-!
PROOFS. How KV_SHIP and the collective COPY start.
-/

namespace Sys2Proof.Machine

variable {s : State} {q : QId} {h : DescHdr} {acc : Nat}

/-! ### KV_SHIP (R300, R357) -/

section
variable {d : ShipDesc} (ht : Taken s q .kvShip h acc)
include ht

theorem kvShip_empty (hn : d.pageCount = 0) : exec (.kvShip q h d) s = .next (finish acc .okEmpty 0 0 (started s q acc)) :=
  next_taken ht (by decide) (if_pos hn)

variable (hn : d.pageCount ≠ 0)
include hn

theorem kvShip_noFirmware (hf : (started s q acc).serv.firmware = false) :
    exec (.kvShip q h d) s = .next (finish acc .noPlacement 0 0 (started s q acc)) :=
  next_taken ht (by decide) ((if_neg hn).trans (if_pos (by simp [hf])))

variable (hf : (started s q acc).serv.firmware = true)
include hf

theorem kvShip_unknown (hs : shipSource (started s q acc) d = none) :
    exec (.kvShip q h d) s = .next (finish acc .countMismatch 0 0 (started s q acc)) :=
  next_taken ht (by decide) (by simp only [hn, hf, hs, Bool.not_true, Bool.false_eq_true, if_false])

section
variable {r : Nat} {x : Request} (hs : shipSource (started s q acc) d = some (r, x))
include hs

theorem kvShip_routeless (hr : routeOpen (started s q acc) d.destNode 2 = false) :
    exec (.kvShip q h d) s = .next (finish acc .linkDown 0 0 (started s q acc)) :=
  next_taken ht (by decide) (by simp only [hn, hf, hs, hr, Bool.not_true, Bool.not_false, Bool.false_eq_true, if_false, if_true])

variable {fl : Field} {c : ServConfig} (hr : routeOpen (started s q acc) d.destNode 2 = true) (hfl : fieldAt (started s q acc) x.field = some fl)
  (hc : configAt (started s q acc) x.config = some c) (hx : (started s q acc).faults.test = false)
include hr hfl hc hx

theorem kvShip_unread (hb : shipBytes (started s q acc) fl r x c d.firstPage.toNat d.pageCount.toNat = none) :
    exec (.kvShip q h d) s = .next (finish acc .fencedUnit 0 0
      (noteLost (pageCells (started s q acc) fl r d.firstPage.toNat d.pageCount.toNat c.pageBytes false) (started s q acc))) :=
  next_taken ht (by decide) (by simp only [hn, hf, hs, hr, hfl, hc, hb, meetLines_off hx, Bool.not_true, Bool.false_eq_true, if_false, if_true])

/-- The pages' bytes are counted and the shipment is noted for its acknowledgements (R300, R387). -/
abbrev shipNoted (acc : Nat) (h : DescHdr) (d : ShipDesc) (r : Nat) (x : Request) (c : ServConfig) (u : State) : State :=
  let v := chargeTier (some h.tag.toNat) false (d.pageCount.toNat * c.pageBytes) u
  { v with serv := { v.serv with ships := v.serv.ships ++ [(acc, r, x.order, d.pageCount.toNat * c.pageBytes, d.pageCount.toNat, d.release)] } }

theorem kvShip_transfers {b : List Byte} (hb : shipBytes (started s q acc) fl r x c d.firstPage.toNat d.pageCount.toNat = some b) :
    exec (.kvShip q h d) s = .next (startTx (.kvShip acc) d.destNode 3 h.tag (BitVec.ofNat 8 d.destField.val) (BitVec.ofNat 16 d.destReq.toNat) 0 b
      (setPhase acc .waiting (shipNoted acc h d r x c (started s q acc)))) :=
  next_taken ht (by decide) (by simp only [hn, hf, hs, hr, hfl, hc, hb, meetLines_off hx, Bool.not_true, Bool.false_eq_true, if_false, if_true])

end

end

/-! ### The collective COPY (R359) -/

section
variable {d : CopyDesc}

/-- What a collective COPY does once its queue's batches are closed: its checks in order, then it joins its group's queue (R359; log 68). -/
def collectiveWork (acc : Nat) (d : CopyDesc) (u : State) : State :=
  if d.srcPlace ≠ 1 ∨ d.dstPlace ≠ 1 ∨ d.inFmt = 3 ∨ d.outFmt = 3 then finish acc .countMismatch 0 0 u
  else if d.srcAddr.toNat % 64 ≠ 0 ∨ d.dstAddr.toNat % 64 ≠ 0 ∨ d.length.toNat % 64 ≠ 0 then finish acc .badAlignment 0 0 u
  else match tfind d.group.toNat u.fab.groups with
    | none => finish acc .countMismatch 0 0 u
    | some x => openInstance d.group.toNat { setPhase acc .waiting (wakeField d.field u) with
        fab := { u.fab with groups := tput d.group.toNat { x with queue := x.queue ++ [(acc, d)] } u.fab.groups } }

theorem exec_copyCollective_taken (ht : Taken s q .copy h acc) :
    exec (.copyCollective q h d) s = .next (collectiveWork acc d (closeBatches q (setPhase acc .running s))) :=
  congrArg Host.Outcome.next (withDesc_copy ht)

variable {u : State}

theorem collectiveWork_misplaced (hp : d.srcPlace ≠ 1 ∨ d.dstPlace ≠ 1 ∨ d.inFmt = 3 ∨ d.outFmt = 3) :
    collectiveWork acc d u = finish acc .countMismatch 0 0 u := if_pos hp

variable (hp : ¬(d.srcPlace ≠ 1 ∨ d.dstPlace ≠ 1 ∨ d.inFmt = 3 ∨ d.outFmt = 3))
include hp

theorem collectiveWork_offGrid (hg : d.srcAddr.toNat % 64 ≠ 0 ∨ d.dstAddr.toNat % 64 ≠ 0 ∨ d.length.toNat % 64 ≠ 0) :
    collectiveWork acc d u = finish acc .badAlignment 0 0 u := (if_neg hp).trans (if_pos hg)

variable (hg : ¬(d.srcAddr.toNat % 64 ≠ 0 ∨ d.dstAddr.toNat % 64 ≠ 0 ∨ d.length.toNat % 64 ≠ 0))
include hg

theorem collectiveWork_groupless (hx : tfind d.group.toNat u.fab.groups = none) : collectiveWork acc d u = finish acc .countMismatch 0 0 u :=
  (if_neg hp).trans ((if_neg hg).trans (by rw [hx]))

theorem collectiveWork_joins {x : CollGroup} (hx : tfind d.group.toNat u.fab.groups = some x) : collectiveWork acc d u =
    openInstance d.group.toNat { setPhase acc .waiting (wakeField d.field u) with
      fab := { u.fab with groups := tput d.group.toNat { x with queue := x.queue ++ [(acc, d)] } u.fab.groups } } :=
  (if_neg hp).trans ((if_neg hg).trans (by rw [hx]))

end

end Sys2Proof.Machine

open Sys2Proof Sys2Proof.Machine

/-- Settles O23: the checks of each command in order, by the equations above. That a reserved format code ends COUNT_MISMATCH is the model's choice
(log 68). -/
theorem shipmentsAndCollectivesStart : Obligations.ShipmentsAndCollectivesStart := by
  unfold Obligations.ShipmentsAndCollectivesStart
  refine ⟨fun s q h d acc ht => ⟨kvShip_empty ht, kvShip_noFirmware ht, kvShip_unknown ht, fun r x fl c hx hn hf hs hfl hc =>
    ⟨kvShip_routeless ht hn hf hs, fun hr => kvShip_unread ht hn hf hs hr hfl hc hx, fun b hr => kvShip_transfers ht hn hf hs hr hfl hc hx⟩⟩,
    fun s q h d acc ht => ?collective⟩
  case collective =>
    rw [exec_copyCollective_taken ht]
    refine ⟨fun hp => congrArg _ (collectiveWork_misplaced hp), fun h1 h2 h3 h4 => ?placed⟩
    have hp : ¬(d.srcPlace ≠ 1 ∨ d.dstPlace ≠ 1 ∨ d.inFmt = 3 ∨ d.outFmt = 3) := by simp only [h1, h2, h3, h4]; decide
    refine ⟨fun hg => congrArg _ (collectiveWork_offGrid hp hg), fun g1 g2 g3 => ?aligned⟩
    have hg : ¬(d.srcAddr.toNat % 64 ≠ 0 ∨ d.dstAddr.toNat % 64 ≠ 0 ∨ d.length.toNat % 64 ≠ 0) := by simp only [g1, g2, g3]; decide
    exact ⟨fun hx => congrArg _ (collectiveWork_groupless hp hg hx), fun x hx => congrArg _ (collectiveWork_joins hp hg hx)⟩
end

section
/-!
PROOFS. Lag episodes and the thermal ladder.
-/

namespace Sys2Proof.Machine

variable {s : State}

/-! ### Lag episodes (R407) -/

/-- Power has stood above C, outside a peak, for at least 200 µs since the last lowering (R407). -/
def lagExcess (g : Gov) : Bool := decide (effectiveCap g < g.p100) && g.peak.isNone && decide (2 ≤ g.sinceLower)

theorem lagExcess_of_peakless (h : effectiveCap s.gov < s.gov.p100 ∧ s.gov.peak = none ∧ 2 ≤ s.gov.sinceLower) : lagExcess s.gov = true := by
  simp [lagExcess, h]

theorem lagExcess_eq_false (h : s.gov.p100 ≤ effectiveCap s.gov) : lagExcess s.gov = false := by
  simp [lagExcess, h.not_gt]

/-- What keeps a lag episode from ending: a clamped manager cap, or power above C (R407). -/
abbrev lagHolds (s : State) : Prop := capClamped s.gov = true ∨ effectiveCap s.gov < s.gov.p100

theorem exec_lagEpisodeStart_ignored (h : s.gov.lag = true ∨ lagExcess s.gov = false ∧ capClamped s.gov = false) :
    exec .lagEpisodeStart s = .next s :=
  congrArg Host.Outcome.next (if_pos (show (s.gov.lag || !mgmtOn s || !(lagExcess s.gov || capClamped s.gov)) = true by
    rcases h with h | ⟨h1, h2⟩ <;> simp [*]))

theorem exec_lagEpisodeEnd_ignored (h : s.gov.lag = false ∨ lagHolds s) : exec .lagEpisodeEnd s = .next s :=
  congrArg Host.Outcome.next (if_pos (by rcases h with h | h | h <;> simp [h]))

section
variable (hm : mgmtOn s = true)
include hm

theorem exec_lagEpisodeStart_starts (hl : s.gov.lag = false) (h : lagExcess s.gov = true ∨ capClamped s.gov = true) :
    exec .lagEpisodeStart s = .next (reportLag (setGov s { s.gov with lag := true, lagStart := (s.window.cum, s.tick) })) := by
  have hc : (lagExcess s.gov || capClamped s.gov) = true := by simpa using h
  exact congrArg Host.Outcome.next (if_neg (show ¬(s.gov.lag || !mgmtOn s || !(lagExcess s.gov || capClamped s.gov)) = true by simp [hl, hm, hc]))

theorem exec_lagReport : exec .lagReport s = .next (if s.gov.lag then reportLag s else s) := by
  have h : exec .lagReport s = .next (if (s.gov.lag && mgmtOn s) = true then reportLag s else s) := rfl
  rw [h, hm, Bool.and_true]

theorem exec_lagEpisodeEnd_ends (hl : s.gov.lag = true) (hc : ¬lagHolds s) :
    exec .lagEpisodeEnd s = .next (setGov (reportLag s) { (reportLag s).gov with lag := false }) := by
  obtain ⟨h1, h2⟩ := not_or.mp hc
  exact congrArg Host.Outcome.next (if_neg (by simp [hl, hm, h1, h2]))

end

/-- Where no queue takes informational entries, a report is its two messages (R278, R407). -/
theorem reportLag_unqueued (h : ∀ e ∈ s.host.queues, e.2.infoEn = false) :
    let body := leBytes 8 (lagEnergy s) ++ leBytes 2 (effectiveCap s.gov) ++ zeros 2
    reportLag s = setGov s (govSend ⟨.b, 0x82, 0, body, 1⟩ (govSend ⟨.a, 0x82, 0, body, 1⟩ s.gov)) := by
  have hq : (s.host.queues.filter fun (x : Nat × Queue) => x.2.enable && x.2.infoEn) = [] := by
    rw [List.filter_eq_nil_iff]
    intro e he
    simp [h e he]
  simp only [reportLag, mctpSend_host, hq]
  rfl

/-! ### The thermal ladder (R411) -/

/-- Changing the thermal cap alone leaves nothing but the peak record beside it that may change (R397). -/
theorem changeCaps_thermalCap (g : Gov → Gov) (hg : g = fun x => { x with thermalCap := (g x).thermalCap }) :
    changeCaps g s = { s with gov := (changeCaps g s).gov } ∧ (changeCaps g s).gov.thermalCap = (g s.gov).thermalCap ∧
      (changeCaps g s).gov.maxC = s.gov.maxC ∧ (changeCaps g s).gov.hotIsland = s.gov.hotIsland ∧ (changeCaps g s).gov.parked = s.gov.parked := by
  rw [changeCaps_frame, hg]
  exact ⟨rfl, rfl, rfl, rfl, rfl⟩

/-- The governor's readings of a hot sensor. -/
def sensed (island : BitVec 8) (celsius : Nat) (s : State) : State := setGov s { s.gov with maxC := celsius, hotIsland := hotIslandOf island }

section
variable {island : BitVec 8} {celsius : Nat} (hg : governs s = true)
include hg

theorem governs_not_off : ¬(!governs s) = true := by simp [hg]

theorem exec_thermalHot_caps (hc : 95 ≤ celsius) (ht : s.gov.thermalCap = none) : exec (.thermalHot island celsius) s =
    .next (changeCaps (fun g => { g with thermalCap := some (min 2000 (max 700 (g.p100 - 50))) }) (sensed island celsius s)) :=
  congrArg Host.Outcome.next ((if_neg (governs_not_off hg)).trans (if_neg (by simp [ht, hc])))

theorem exec_thermalHot_senses (h : celsius < 95 ∨ s.gov.thermalCap.isSome = true) :
    exec (.thermalHot island celsius) s = .next (sensed island celsius s) :=
  congrArg Host.Outcome.next ((if_neg (governs_not_off hg)).trans (if_pos h))

section
variable {c : Nat} (ht : s.gov.thermalCap = some c)
include ht

theorem exec_thermalCapStep_hot (hc : 95 ≤ celsius) : exec (.thermalCapStep celsius) s =
    .next (changeCaps (fun g => { g with thermalCap := some (max 700 (c - 50)) }) (setGov s { s.gov with maxC := celsius })) :=
  congrArg Host.Outcome.next ((if_neg (governs_not_off hg)).trans (by simp only [setGov_gov, ht, hc, if_true]))

theorem exec_thermalCapStep_held (h1 : ¬95 ≤ celsius) (h2 : 92 ≤ celsius) :
    exec (.thermalCapStep celsius) s = .next (setGov s { s.gov with maxC := celsius }) :=
  congrArg Host.Outcome.next ((if_neg (governs_not_off hg)).trans (by simp only [setGov_gov, ht, h1, h2.not_gt, if_false]))

theorem exec_thermalCapStep_cool (hc : ¬92 ≤ celsius) : exec (.thermalCapStep celsius) s =
    .next (changeCaps (fun g => { g with thermalCap := if 1990 ≤ c then none else some (c + 10) }) (setGov s { s.gov with maxC := celsius })) := by
  have h1 : ¬95 ≤ celsius := by omega
  have h2 : (2000 ≤ c + 10) = (1990 ≤ c) := by simp
  exact congrArg Host.Outcome.next ((if_neg (governs_not_off hg)).trans (by simp only [setGov_gov, ht, h1, not_le.mp hc, h2, if_true, if_false]))

end

/-- A field parks for its hot sensor: it is held until the sensor has cooled; its power before the park is free (log 53). -/
def parkHot (s : State) (f : Nat) : State :=
  parkField (Config.freeWord s.fresh).toNat f { s with gov := { s.gov with thermalParked := setBit s.gov.thermalParked f true }, fresh := s.fresh + 1 }

theorem exec_thermalPark : exec (.thermalPark island) s = .next (powerEvent 5 ((sensorFields s island.toNat).foldl parkHot s)) :=
  congrArg Host.Outcome.next (if_neg (governs_not_off hg))

theorem exec_thermalUnpark (f : FieldId) :
    exec (.thermalUnpark f) s = .next (setGov s { s.gov with thermalParked := setBit s.gov.thermalParked f.val false }) :=
  congrArg Host.Outcome.next (if_pos hg)

end

/-! ### The hardware trip (R412) -/

/-- The main rails are off after the trip's event. -/
def tripped (island : BitVec 8) (s : State) : State :=
  fatalRailsOff 0x13 (if (sensorBand island.toNat).isSome then island.toNat else 0x10) 0 s

theorem exec_thermalTrip (island : BitVec 8) (hm : s.entry.main = true) : exec (.thermalTrip island) s =
    .next (powerEvent 6 (setEntry (tripped island s) { (tripped island s).entry with tripLatch := true })) :=
  congrArg Host.Outcome.next (if_neg (by simp [hm]))

theorem exec_thermalTrip_ignored (island : BitVec 8) (hm : s.entry.main = false) : exec (.thermalTrip island) s = .next s :=
  congrArg Host.Outcome.next (if_pos (by simp [hm]))

/-- A power event goes to bus A, then to bus B (R414). -/
theorem powerEvent_out (n : Nat) : (powerEvent n s).gov.out = s.gov.out ++ [⟨.a, 0x83, BitVec.ofNat 16 n, [], 1⟩, ⟨.b, 0x83, BitVec.ofNat 16 n, [], 1⟩] := by
  rw [powerEvent_gov]
  exact List.append_assoc ..

end Sys2Proof.Machine

open Sys2Proof Sys2Proof.Machine

/-- Settles O38: the episodes by their equations; the steps of the thermal cap change the cap alone, beside the peak record; the trip by its
event. -/
theorem lagAndThermalLadder : Obligations.LagAndThermalLadder := by
  unfold Obligations.LagAndThermalLadder
  refine ⟨fun s hm => ⟨fun hl h => ?starts, fun h => ?noStart, exec_lagReport hm, fun hl h1 h2 => ?ends, exec_lagEpisodeEnd_ignored, reportLag_unqueued⟩,
    fun s island celsius hg hc ht => ?hot, fun s island celsius hg h => exec_thermalHot_senses hg h, fun s celsius c hg ht => ?step,
    fun s island hg hs => ?parkNone, fun s island f hg hs => ?parkOne, fun s f hg => exec_thermalUnpark hg f, fun s island hm => ?trip,
    fun s island => exec_thermalTrip_ignored island⟩
  case starts => exact exec_lagEpisodeStart_starts hm hl (h.symm.imp_left lagExcess_of_peakless)
  case noStart => exact exec_lagEpisodeStart_ignored (h.imp_right fun ⟨hc, hp⟩ => ⟨lagExcess_eq_false hp, hc⟩)
  case ends => exact exec_lagEpisodeEnd_ends hm hl (not_or.mpr ⟨Bool.eq_false_iff.mp h1, h2.not_gt⟩)
  case hot =>
    obtain ⟨hf, h1, h2, h3, h4⟩ := changeCaps_thermalCap (s := sensed island celsius s)
      (fun g => { g with thermalCap := some (min 2000 (max 700 (g.p100 - 50))) }) rfl
    exact ⟨_, exec_thermalHot_caps hg hc ht, hf, h1, h2, h3, h4⟩
  case step =>
    by_cases h95 : 95 ≤ celsius
    · obtain ⟨hf, h1, h2, -, h4⟩ := changeCaps_thermalCap (s := setGov s { s.gov with maxC := celsius })
        (fun g => { g with thermalCap := some (max 700 (c - 50)) }) rfl
      exact ⟨_, exec_thermalCapStep_hot hg ht h95, hf, h2, h4, by rw [h1, if_pos h95]⟩
    by_cases h92 : 92 ≤ celsius
    · exact ⟨_, exec_thermalCapStep_held hg ht h95 h92, rfl, rfl, rfl, by rw [if_neg h95, if_pos h92, ← ht]; rfl⟩
    · obtain ⟨hf, h1, h2, -, h4⟩ := changeCaps_thermalCap (s := setGov s { s.gov with maxC := celsius })
        (fun g => { g with thermalCap := if 1990 ≤ c then none else some (c + 10) }) rfl
      exact ⟨_, exec_thermalCapStep_cool hg ht h92, hf, h2, h4, by rw [h1, if_neg h95, if_neg h92]⟩
  case parkNone => rw [exec_thermalPark hg, hs]; rfl
  case parkOne => rw [exec_thermalPark hg, hs]; rfl
  case trip => exact ⟨_, exec_thermalTrip island hm, fatalRailsOff_main .., rfl, _, powerEvent_out 6⟩
end

section
/-!
PROOFS. The serving commands of the mailbox: SERVE_MODE, SERVE_CONFIG, EXPERT_MAP and PLACE_GROUP, one equation per case of their checks.
-/

namespace Sys2Proof.Machine

variable {s : State}

/-! ### SERVE_MODE (R282) -/

section
variable {b : ServeModeBlock}

/-- A SERVE_MODE that is refused: a value out of its range, more modules than the mode allows, or a request that is open (R282). -/
def serveModeMisfit (s : State) (b : ServeModeBlock) : Prop :=
  4 < weight 64 b.rideMask.toNat ∨ b.rideChunk.toNat < 1 ∨ 512 < b.rideChunk.toNat ∨ b.rideRows.toNat < 1 ∨ 4096 < b.rideRows.toNat ∨
    b.sliceModules.toNat < 1 ∨ (b.firmware = true ∧ 262144 < b.sliceModules.toNat) ∨ (b.firmware = false ∧ 512 < b.sliceModules.toNat) ∨
    s.serv.reqs ≠ []

/-- The settings that a SERVE_MODE leaves. -/
def serveModeTaken (b : ServeModeBlock) (s : State) : State :=
  { s with serv := { s.serv with firmware := b.firmware, rideMask := b.rideMask, rideChunk := b.rideChunk.toNat, rideRows := b.rideRows.toNat,
                                 sliceModules := b.sliceModules.toNat } }

theorem exec_serveMode : exec (.serveMode b) s = execServeMode b s := rfl

/-- The limit of the slice is the mode's. -/
theorem slice_above_limit_iff {firmware : Bool} {n : Nat} :
    (if firmware then 262144 else 512) < n ↔ (firmware = true ∧ 262144 < n) ∨ (firmware = false ∧ 512 < n) := by
  cases firmware <;> simp

theorem serveModeMisfit_iff : (4 < weight 64 b.rideMask.toNat ∨ b.rideChunk.toNat < 1 ∨ 512 < b.rideChunk.toNat ∨ b.rideRows.toNat < 1 ∨
    4096 < b.rideRows.toNat ∨ b.sliceModules.toNat < 1 ∨ (if b.firmware then 262144 else 512) < b.sliceModules.toNat ∨ s.serv.reqs ≠ []) ↔
    serveModeMisfit s b := by
  simp only [serveModeMisfit, slice_above_limit_iff, or_assoc]

theorem serveMode_refused (hs : MailboxFree s) (h : serveModeMisfit s b) :
    exec (.serveMode b) s = .next (mboxEnd 0x0020 .countMismatch [] s) :=
  exec_serveMode.trans (next_mailbox_free hs (if_pos (serveModeMisfit_iff.mpr h)))

theorem serveMode_takes (hs : MailboxFree s) (h : ¬serveModeMisfit s b) :
    exec (.serveMode b) s = .next (mboxEnd 0x0020 .ok [] (serveModeTaken b s)) :=
  exec_serveMode.trans (next_mailbox_free hs (if_neg (mt serveModeMisfit_iff.mp h)))

end

/-! ### SERVE_CONFIG (R283) -/

section
variable {b : ServeConfigBlock}

theorem exec_serveConfig : exec (.serveConfig b) s = execServeConfig b s := rfl

theorem serveConfig_used (hs : MailboxFree s) (h : configUsed s b.index = true) :
    exec (.serveConfig b) s = .next (mboxEnd 0x0021 .countMismatch [] s) :=
  exec_serveConfig.trans (next_mailbox_free hs (if_pos h))

theorem serveConfig_removes (hs : MailboxFree s) (h : configUsed s b.index = false) (hv : b.valid = false) :
    exec (.serveConfig b) s = .next (mboxEnd 0x0021 .ok [] (removeConfig b.index s)) :=
  exec_serveConfig.trans (next_mailbox_free hs ((if_neg (Bool.eq_false_iff.mp h)).trans (if_pos (by rw [hv]; rfl))))

theorem serveConfig_defines (hs : MailboxFree s) (h : configUsed s b.index = false) (hv : b.valid = true) :
    exec (.serveConfig b) s = .next (mboxEnd 0x0021 (defineConfig b s).1 [] (defineConfig b s).2) :=
  exec_serveConfig.trans (next_mailbox_free hs ((if_neg (Bool.eq_false_iff.mp h)).trans (if_neg (by simp [hv]))))

end

/-! ### EXPERT_MAP (R254, R282) -/

section
variable {config : BitVec 8} {count : BitVec 32} {entries : List ExpertEntry}

theorem exec_expertMap : exec (.expertMap config count entries) s = execExpertMap config count entries s := rfl

theorem expertMap_tableMode (hs : MailboxFree s) (hm : s.serv.firmware = false) :
    exec (.expertMap config count entries) s = .next (mboxEnd 0x0022 .noPlacement [] s) :=
  exec_expertMap.trans (next_mailbox_free hs (if_pos (by rw [hm]; rfl)))

theorem expertMap_kept (hs : MailboxFree s) (hm : s.serv.firmware = true) (hc : ∃ c, configAt s config.toNat = some c) (h0 : count ≠ 0) :
    exec (.expertMap config count entries) s = .next (mboxEnd 0x0022 .ok []
      { s with serv := { s.serv with experts := tput config.toNat (entries.take count.toNat) s.serv.experts } }) := by
  obtain ⟨c, hc⟩ := hc
  exact exec_expertMap.trans (next_mailbox_free hs ((if_neg (by simp [hm])).trans ((if_neg (by simp [hc])).trans (if_neg h0))))

end

/-! ### PLACE_GROUP (R383) -/

section
variable {group count : BitVec 8} {members : List ConfId}

/-- The members that a PLACE_GROUP lists. -/
abbrev groupMembers (count : BitVec 8) (members : List ConfId) : List Nat := (members.take count.toNat).map (·.val)

theorem exec_placeGroup : exec (.placeGroup group count members) s = execPlaceGroup group count members s := rfl

theorem placeGroup_above_limit (hs : MailboxFree s) (h : 63 < group.toNat ∨ 4 < count.toNat) :
    exec (.placeGroup group count members) s = .next (mboxEnd 0x0051 .countMismatch [] s) :=
  exec_placeGroup.trans (next_mailbox_free hs (if_pos h))

section
variable (hs : MailboxFree s) (hg : group.toNat ≤ 63)
include hs hg

/-- A COUNT of zero takes the group away (R383). -/
theorem placeGroup_removes (h0 : count = 0) : exec (.placeGroup group count members) s =
    .next (mboxEnd 0x0051 .ok [] { s with serv := { s.serv with groups := tdel group.toNat s.serv.groups } }) := by
  subst h0
  exact exec_placeGroup.trans (next_mailbox_free hs ((if_neg (not_or.mpr ⟨hg.not_gt, by decide⟩)).trans (if_pos rfl)))

variable (hc : count.toNat ≤ 4) (h0 : count ≠ 0)
include hc h0

theorem placeGroup_kept (hm : groupOk s group.toNat (groupMembers count members) = true) : exec (.placeGroup group count members) s =
    .next (mboxEnd 0x0051 .ok [] { s with serv := { s.serv with groups := tput group.toNat (groupMembers count members) s.serv.groups } }) :=
  exec_placeGroup.trans (next_mailbox_free hs ((if_neg (not_or.mpr ⟨hg.not_gt, hc.not_gt⟩)).trans ((if_neg h0).trans (if_pos hm))))

theorem placeGroup_misfit (hm : groupOk s group.toNat (groupMembers count members) = false) :
    exec (.placeGroup group count members) s = .next (mboxEnd 0x0051 .countMismatch [] s) :=
  exec_placeGroup.trans (next_mailbox_free hs
    ((if_neg (not_or.mpr ⟨hg.not_gt, hc.not_gt⟩)).trans ((if_neg h0).trans (if_neg (Bool.eq_false_iff.mp hm)))))

end

end

end Sys2Proof.Machine

open Sys2Proof Sys2Proof.Machine

/-- Settles O27: each command by its equations above, check by check. -/
theorem servingIsConfigured : Obligations.ServingIsConfigured := by
  unfold Obligations.ServingIsConfigured
  intro s hs
  exact ⟨fun b => ⟨serveMode_refused hs, serveMode_takes hs⟩,
    fun b => ⟨serveConfig_used hs, serveConfig_removes hs, serveConfig_defines hs⟩,
    fun config count entries => ⟨expertMap_tableMode hs, expertMap_kept hs⟩,
    fun group count members => ⟨placeGroup_above_limit hs, placeGroup_removes hs,
      fun hg hc h0 => ⟨placeGroup_kept hs hg hc h0, placeGroup_misfit hs hg hc h0⟩⟩⟩
end

section
/-!
PROOFS. Steps: what a step boundary does, what the end of a step samples, and what a commit does to its request.
-/

namespace Sys2Proof.Machine

variable {s u : State} {f : FieldId}

/-! ### STEP_BOUNDARY (R286 to R290) -/

/-- What a boundary does before it dispatches: parks that are due take effect, then the governor's limits are sampled (R288, R315). -/
def boundaryActs (f : Nat) (s : State) : State := actuateBatch f ((rankedReqs s f).foldl (fun s e => tryPark e.1 s) s)

/-- A field that has an open request wakes before its next step (R464). -/
def wakeForRequests (f : Nat) (u : State) : State := if (rankedReqs u f).any (fun e => openState e.2.state) then wakeField f u else u

/-- The dispatch of a boundary: the field wakes, far pages of its requests are asked for, and the next step goes out in rank order (R288, R293). -/
def boundaryDispatch (f : Nat) (u : State) : State :=
  dispatchStep f (rankedReqs u f)
    ((rankedReqs u f).foldl (fun s e => if openState e.2.state && !allNear s e.1 e.2 then promoteReq e.1 e.2 s else s) (wakeForRequests f u))

/-- After the step at most one prefill section goes out, and none before the last one has ended where no step runs (R289). -/
def prefillAfter (f : Nat) (w : State) : State :=
  match fieldAt w f with
  | some g => if g.step.isSome || !prefillRuns g then dispatchPrefill f (rankedReqs w f) w else w
  | none => w

theorem exec_stepBoundary : exec (.stepBoundary f) s = execStepBoundary f s := rfl

section
variable {fl : Field} (hf : fieldAt s f = some fl)
include hf

/-- While a step is open or uncommitted, a boundary does nothing (R287). -/
theorem stepBoundary_ignored (h : running s = false ∨ fl.step.isSome = true ∨ (s.serv.samples.any fun e => e.1 == f.val) = true) :
    exec (.stepBoundary f) s = .next s := by
  have hc : (!running s || fl.step.isSome || s.serv.samples.any fun e => e.1 == f.val) = true := by
    rcases h with h | h | h <;> simp [h]
  simp only [exec_stepBoundary, execStepBoundary, hf, hc, if_true]

section
variable (hr : running s = true) (hn : fl.step = none) (hc : (s.serv.samples.any fun e => e.1 == f.val) = false)
include hr hn hc

theorem stepBoundary_acts : exec (.stepBoundary f) s = .next (if fl.held || fieldParked (boundaryActs f s) f || drainingField fl then boundaryActs f s
    else prefillAfter f (boundaryDispatch f (boundaryActs f s))) := by
  have hg : ¬(!running s || fl.step.isSome || s.serv.samples.any fun e => e.1 == f.val) = true := by simp only [hr, hn, hc]; decide
  simp only [exec_stepBoundary, execStepBoundary, hf, prefillAfter]
  exact congrArg Host.Outcome.next (if_neg hg)

/-- A held, parked or draining field dispatches nothing. -/
theorem stepBoundary_holds (h : fl.held = true ∨ fieldParked (boundaryActs f s) f = true ∨ drainingField fl = true) :
    exec (.stepBoundary f) s = .next (boundaryActs f s) := by
  rw [stepBoundary_acts hf hr hn hc, if_pos]
  rcases h with h | h | h <;> simp [h]

theorem stepBoundary_dispatches (h1 : fl.held = false) (h2 : fieldParked (boundaryActs f s) f = false) (h3 : drainingField fl = false)
    {w : State} (hw : boundaryDispatch f (boundaryActs f s) = w) {g : Field} (hg : fieldAt w f = some g) :
    exec (.stepBoundary f) s = .next (if g.step.isSome || !prefillRuns g then dispatchPrefill f (rankedReqs w f) w else w) := by
  have hd : ¬(fl.held || fieldParked (boundaryActs f s) f || drainingField fl) = true := by simp [h1, h2, h3]
  rw [stepBoundary_acts hf hr hn hc, if_neg hd, hw, prefillAfter, hg]

end

end

/-! ### TOKEN_SAMPLE (R295 to R297, R305) -/

section
variable {st : StepRun}

/-- The field after the last section of its step. -/
abbrev stepOver (f : Nat) (s : State) : State := modField f (fun fl => { fl with step := none }) s

/-- A sample waits for its commit, with the order number of the request it is for. -/
abbrev addSample (f n : Nat) (k : Commit) (u : State) : State := { u with serv := { u.serv with samples := u.serv.samples ++ [(f, n, k)] } }

theorem exec_tokenSample : exec (.tokenSample f) s = execTokenSample f s := rfl

variable (hs : (fieldAt s f).bind (·.step) = some st)
include hs

theorem tokenSample_ignored (h : st.ended = false ∨ running s = false) : exec (.tokenSample f) s = .next s := by
  have hc : (!st.ended || !running s) = true := by simpa using h
  simp only [exec_tokenSample, execTokenSample, hs, hc, if_true]

section
variable {c : ServConfig} (he : st.ended = true) (hr : running s = true) (hc : configAt s st.config = some c)
include he hr hc

/-- The verifying step of one row: its sample waits for the commit, or logits that are lost end its request (R295, R305; log 105). -/
theorem tokenSample_row {r n : Nat} {q : Request} (hd : st.depth = none) (hw : st.rows = [(r, n)]) (hq : reqAt s r = some q) (ho : q.order = n)
    (hx : q.state = .decode) : exec (.tokenSample f) s = .next ((sampleRow s f c st.config 0 r q (st.nodes.getD 0 [])).elim
      (closeReq r (statusCode .fencedUnit) 0 (stepOver f s)) fun k => addSample f.val n k (stepOver f s)) := by
  simp only [exec_tokenSample, execTokenSample, hs, he, hr, hc, hd, hw, hq, ho, hx, Bool.not_true, Bool.or_self, Bool.false_eq_true, if_false,
    List.zipIdx_cons, List.zipIdx_nil, Option.filter_some, beq_self_eq_true, Bool.and_self, if_true, Option.map_some, List.filterMap_cons,
    List.filterMap_nil, List.foldl_cons, List.foldl_nil]
  cases sampleRow s f c st.config 0 r q (st.nodes.getD 0 []) <;> rfl

/-- A step of one row whose tree has grown by the children of a depth; after the tree's last depth the verifying section follows (R296). -/
abbrev draftGrown (c : ServConfig) (depth : Nat) (l : List (BitVec 32)) (st : StepRun) : StepRun :=
  { st with depth := if depth < (treeBranches (branches c)).length then some (depth + 1) else none, nodes := [st.nodes.getD 0 [] ++ l] }

/-- A draft's depth of one row: its children join the tree, and the next section of the step goes out (R296). -/
theorem tokenSample_grows {d : ServConfig} {depth : Nat} {e : Nat × Nat} {l : List (BitVec 32)} (hd : st.depth = some depth)
    (hx : draftOf s c = some d) (hw : st.rows = [e]) (hl : draftChildren s f c d depth 0 = some l) :
    exec (.tokenSample f) s = .next (sendStep f c (modField f (fun fl => { fl with step := some (draftGrown c depth l st) }) s)) := by
  simp only [exec_tokenSample, execTokenSample, hs, he, hr, hc, hd, hx, hw, hl, Bool.not_true, Bool.or_self, Bool.false_eq_true, if_false,
    List.zipIdx_cons, List.zipIdx_nil, List.map_cons, List.map_nil, Option.map_some, Option.isNone_some, Bool.false_and, List.filter_cons,
    List.filter_nil, List.foldl_nil, Option.getD_some, ne_eq, List.cons_ne_nil, not_false_eq_true, and_true, draftGrown]

end

end

/-! ### STEP_COMMIT (R298, R302, R303) -/

section
variable {c : Commit}

theorem exec_stepCommit : exec (.stepCommit f c) s = execStepCommit f c s := rfl

/-- The sample that a commit brings to the request table. -/
abbrev sampleOf (s : State) (f : FieldId) (c : Commit) : Option (Nat × Nat × Commit) := s.serv.samples.find? fun e => e.1 == f.val && e.2.2 == c

theorem stepCommit_unknown (h : sampleOf s f c = none) : exec (.stepCommit f c) s = .next s := by
  simp only [exec_stepCommit, execStepCommit, h]

/-- The state without a sample that has been committed or refused. -/
abbrev sampleTaken (e : Nat × Nat × Commit) (s : State) : State := { s with serv := { s.serv with samples := s.serv.samples.erase e } }

/-- The end token of a request's configuration (R283). -/
abbrev endToken (s : State) (q : Request) : Nat := (configAt s q.config).elim 0xFFFFFFFF (·.block.eos.toNat)

/-- The tokens of a commit stand in host memory before the request table changes (R302). -/
abbrev tokensWritten (c : Commit) (q : Request) (u : State) : State :=
  hostWrite u (q.outAddr + 4 * tokensOut q) (c.tokens.flatMap fun t => leBytes 4 t.toNat)

/-- A commit that makes its request final: the request ends OK (R302). -/
abbrev commitFinal (c : Commit) (q : Request) (u : State) : State :=
  closeReq c.req.val (statusCode .ok) 0 (setReq u c.req.val { committed q c.tokens with state := .done })

/-- A commit after which its request goes on: the rows of the accepted nodes move, and the pages beyond them are released (R294, R298). -/
abbrev commitGoesOn (c : Commit) (q : Request) (u : State) : State :=
  countPages c.req.val (dropPages q.field (fun p => match p.owner with
    | .kv x pg _ => x == c.req.val && decide (q.tokens + c.tokens.length - 1 ≤ 256 * pg)
    | _ => false) (compactNodes c.req.val q c.nodes (setReq u c.req.val (committed q c.tokens))))

section
variable {e : Nat × Nat × Commit} {q : Request} (hx : sampleOf s f c = some e) (hq : reqAt s c.req.val = some q)
include hx hq

/-- No commit is made for a request that has left DECODE, or for an entry that another request has taken since (R303). -/
theorem stepCommit_refused (h : q.order ≠ e.2.1 ∨ q.state ≠ .decode ∨ s.faults.fatalPhase ≠ .none) :
    exec (.stepCommit f c) s = .next (sampleTaken e s) := by
  simp only [exec_stepCommit, execStepCommit, hx, hq, h, if_true]

variable (ho : q.order = e.2.1) (hs : q.state = .decode) (hp : s.faults.fatalPhase = .none) (hl : ∀ a, q.acc = some a → hostDma s a = true)
include ho hs hp hl

theorem stepCommit_decides : exec (.stepCommit f c) s = .next (if finalCommit (endToken s q) q c.tokens = true
    then commitFinal c q (tokensWritten c q (sampleTaken e s)) else commitGoesOn c q (tokensWritten c q (sampleTaken e s))) := by
  have hd : ¬(q.order ≠ e.2.1 ∨ q.state ≠ .decode ∨ s.faults.fatalPhase ≠ .none) := by simp [ho, hs, hp]
  have hu : ¬(match q.acc with | some a => !hostDma s a | none => false) = true := by
    cases ha : q.acc with
    | none => exact Bool.false_ne_true
    | some a => simp [hl a ha]
  have ht : endToken s q = match configAt s q.config with | some x => x.block.eos.toNat | none => 0xFFFFFFFF := by
    rw [endToken]
    cases configAt s q.config <;> rfl
  simp only [exec_stepCommit, execStepCommit, hx, hq]
  rw [ht]
  exact congrArg Host.Outcome.next ((if_neg hd).trans (if_neg hu))

end

end

/-! ### What a commit adds to its request (R298, R302) -/

theorem committed_counts (q : Request) (ts : List (BitVec 32)) :
    (committed q ts).tokens = q.tokens + ts.length ∧ (committed q ts).generated = q.generated + ts.length ∧ (committed q ts).steps = q.steps + 1 ∧
      (committed q ts).kvDone = q.tokens + ts.length - 1 ∧ (committed q ts).ids = q.ids ++ ts ∧ (committed q ts).state = q.state :=
  ⟨rfl, rfl, rfl, rfl, rfl, rfl⟩

end Sys2Proof.Machine

open Sys2Proof Sys2Proof.Machine

/-- Settles O53: the boundary, the end of a step and the commit, each by its equations above. That a request whose logits are lost ends FENCED_UNIT
is log 105. -/
theorem stepsRunAndCommit : Obligations.StepsRunAndCommit := by
  unfold Obligations.StepsRunAndCommit
  refine ⟨fun s f fl hf => stepBoundary_ignored hf, fun s f fl u hf hr hn hc hu => ?boundary, fun s f st hs => tokenSample_ignored hs,
    fun s f st c hs he hr hc hd => ⟨_, rfl, fun r n q k hw hq ho hx hk => ?sampled⟩,
    fun s f st c r n q hs he hr hc hd hw hq ho hx hk => ?lost,
    fun s f st c depth d e l hs he hr hc hd hx hw => tokenSample_grows hs he hr hc hd hx hw,
    fun s f c => stepCommit_unknown, fun s f c e q d hx hq hd => ?commit, committed_counts⟩
  case boundary =>
    subst hu
    refine ⟨stepBoundary_holds hf hr hn hc, fun h1 h2 h3 v w hv hw g hg => ?_⟩
    subst hv
    exact stepBoundary_dispatches hf hr hn hc h1 h2 h3 hw.symm hg
  case sampled => exact Host.Outcome.next.inj ((tokenSample_row hs he hr hc hd hw hq ho hx).trans (by rw [hk]; rfl))
  case lost => rw [tokenSample_row hs he hr hc hd hw hq ho hx, hk, Option.elim_none]
  case commit =>
    subst hd
    refine ⟨stepCommit_refused hx hq, fun ho hs hp hl eos u he hu => ?_⟩
    subst he hu
    have h := stepCommit_decides hx hq ho hs hp hl
    exact ⟨fun hf => h.trans (congrArg _ (if_pos hf)), fun hf => h.trans (congrArg _ (if_neg (Bool.eq_false_iff.mp hf)))⟩
end

section
/-!
PROOFS. What moves a request on by itself: a free entry, a deadline, an idle limit, and the comet of a parked request.
-/

namespace Sys2Proof.Machine

variable {s : State} {r : ReqId} {q : Request}

/-! ### ENTRY_ALLOCATE (R285) -/

/-- The waiters that stay when the first one takes its entry. -/
abbrev withWaiters (rest : List Waiter) (s : State) : State := { s with serv := { s.serv with waiters := rest } }

theorem exec_entryAllocate : exec .entryAllocate s = execEntryAllocate s := rfl

theorem entryAllocate_takes {i : Nat} {w : Waiter} {rest : List Waiter} (hf : freeEntry s = some i) (hw : s.serv.waiters = w :: rest)
    (hr : running s = true) : exec .entryAllocate s = .next (takeEntry i w (withWaiters rest s)) := by
  simp only [exec_entryAllocate, execEntryAllocate, hf, hw, hr, if_true]

theorem entryAllocate_ignored (h : freeEntry s = none ∨ s.serv.waiters = [] ∨ running s = false) : exec .entryAllocate s = .next s := by
  rw [exec_entryAllocate, execEntryAllocate]
  split
  · next hf hw => exact congrArg _ (if_neg (Bool.eq_false_iff.mp ((h.resolve_left (by simp [hf])).resolve_left (by simp [hw]))))
  · rfl

/-! ### DEADLINE_EXPIRY (R291, R303) -/

theorem exec_deadlineExpiry : exec (.deadlineExpiry r) s = execDeadlineExpiry r s := rfl

section
variable (hq : reqAt s r = some q)
include hq

theorem deadlineExpiry_cancels (hr : running s = true) (ho : openState q.state = true) (hd : q.noDeadline = false) (hp : q.park = none)
    (ht : q.due ≤ s.tick) : exec (.deadlineExpiry r) s = .next (beginCancel r none s) := by
  simp only [exec_deadlineExpiry, execDeadlineExpiry, hq, hr, ho, hd, hp, ht, Option.isNone_none, Bool.not_false, decide_true, Bool.and_self, if_true]

theorem deadlineExpiry_ignored (h : s.tick < q.due ∨ q.noDeadline = true ∨ openState q.state = false) :
    exec (.deadlineExpiry r) s = .next s := by
  have hc : (running s && openState q.state && !q.noDeadline && q.park.isNone && decide (q.due ≤ s.tick)) = false := by
    rcases h with h | h | h <;> simp [h]
  simp only [exec_deadlineExpiry, execDeadlineExpiry, hq, hc, Bool.false_eq_true, if_false]

/-! ### REQUEST_IDLE_PARK (R291) -/

omit hq in
theorem exec_requestIdlePark : exec (.requestIdlePark r) s = execRequestIdlePark r s := rfl

theorem requestIdlePark_parks (hr : running s = true) (hs : q.state = .queued ∨ q.state = .decode) (he : q.parkEn = true) (hp : q.park = none)
    (hi : q.parkLimit ≤ q.idle) : exec (.requestIdlePark r) s =
      .next (tryPark r (modReq r (fun q => { q with park := some (.idle, none), parkDesc := none }) s)) := by
  have hc : (running s && (q.state == .queued || q.state == .decode) && q.parkEn && q.park.isNone && decide (q.parkLimit ≤ q.idle)) = true := by
    rcases hs with hs | hs <;> simp [hr, hs, he, hp, hi]
  simp only [exec_requestIdlePark, execRequestIdlePark, hq, hc, if_true]

theorem requestIdlePark_ignored (h : q.parkEn = false ∨ q.idle < q.parkLimit) : exec (.requestIdlePark r) s = .next s := by
  have hc : (running s && (q.state == .queued || q.state == .decode) && q.parkEn && q.park.isNone && decide (q.parkLimit ≤ q.idle)) = false := by
    rcases h with h | h <;> simp [h]
  simp only [exec_requestIdlePark, execRequestIdlePark, hq, hc, Bool.false_eq_true, if_false]

end

/-! ### COMET_WRITTEN (R204, R313 to R316) -/

theorem exec_cometWritten {fail : Option Status} : exec (.cometWritten r fail) s = execCometWritten r fail s := rfl

theorem cometWritten_ignored {fail : Option Status} (hq : reqAt s r = some q) (h : q.park = none ∨ q.state ≠ .parked) :
    exec (.cometWritten r fail) s = .next s := by
  simp only [exec_cometWritten, execCometWritten, hq]
  split
  · rfl
  · next hp => rw [if_pos (.inl (h.resolve_left (by simp [hp])))]

/-- A comet goes to its place: its bytes are charged, the pool keeps it, host memory takes it where its link is up, a transfer carries it to a peer
(R313, R315, R357). -/
def cometSent (r : Nat) (q : Request) (ask : ParkAsk) (d : CometDest) (c : Comet) (s : State) : State :=
  let charged := chargeComet q.tag.toNat (cometLength c) (rawBytes c) d
  match d with
  | .pool fr n =>
    let p := poolComet c fr (releaseReserve (some (.pool fr n)) s)
    parkDone r p.1 (cometLength c) (charged p.2)
  | .host a => if parkLink s ask then parkDone r 0 (cometLength c) (charged (hostWrite s a (cometBytes c)))
    else parkFails r .linkDown (modReq r (fun q => { q with park := some (ask, some d) }) s)
  | .peer n => startTx (.comet r) (BitVec.ofNat 20 n) 4 q.tag 0 0 0 (cometBytes c) (charged s)

/-- A comet of which a line is lost ends its park with FENCED_UNIT (R204, R316). -/
def cometLost (r : Nat) (q : Request) (ask : ParkAsk) (d : CometDest) (s : State) : State :=
  parkFails r .fencedUnit (modReq r (fun q => { q with park := some (ask, some d) }) (noteLost (cometCells s r q) s))

section
variable {ask : ParkAsk} {d : CometDest} (hq : reqAt s r = some q) (hp : q.park = some (ask, some d)) (hs : q.state = .parked)
  (hr : running s = true) (hx : (s.fab.tx.any fun t => t.use == .comet r) = false)
include hq hp hs hr hx

theorem cometWritten_fails {st : Status} (h : st = .fencedUnit ∨ st = .linkDown) :
    exec (.cometWritten r (some st)) s = .next (parkFails r st s) := by
  simp only [exec_cometWritten, execCometWritten, hq, hp, hs, hr, hx, h, ne_eq, not_true_eq_false, Bool.true_or, Bool.true_eq_false, or_self,
    Bool.false_eq_true, if_false, if_true]

/-- With test mode off, only a line that is lost keeps a comet from being sent (R479). -/
theorem cometWritten_sends (ht : s.faults.test = false) :
    exec (.cometWritten r none) s = .next ((buildComet s r q).elim (cometLost r q ask d s) fun c => cometSent r q ask d c s) := by
  simp only [exec_cometWritten, execCometWritten, hq, hp, hs, hr, hx, ne_eq, not_true_eq_false, Bool.true_or, Bool.true_eq_false, or_self,
    Bool.false_eq_true, if_false, if_true, meetLines_off ht]
  cases buildComet s r q with
  | none => rfl
  | some c => cases d <;> rfl

end

end Sys2Proof.Machine

open Sys2Proof Sys2Proof.Machine

/-- Settles O54: each command by its equations above; where a comet goes is `cometSent`. -/
theorem requestsMoveOn : Obligations.RequestsMoveOn := by
  unfold Obligations.RequestsMoveOn
  refine ⟨fun s r w rest => entryAllocate_takes, fun s => entryAllocate_ignored, fun s r q => deadlineExpiry_cancels,
    fun s r q => deadlineExpiry_ignored, fun s r q => requestIdlePark_parks, fun s r q => requestIdlePark_ignored,
    fun s r q ask d c hq hp hs hr hx ht => ⟨fun st => cometWritten_fails hq hp hs hr hx, fun hb => ?lost,
      fun hb => ⟨fun fr n hd => ?pool, fun a hd hl => ?host, fun n hd => ?peer⟩⟩,
    fun s r q o => cometWritten_ignored⟩
  case lost => rw [cometWritten_sends hq hp hs hr hx ht, hb]; rfl
  case pool => subst hd; rw [cometWritten_sends hq hp hs hr hx ht, hb]; rfl
  case host => subst hd; rw [cometWritten_sends hq hp hs hr hx ht, hb]; exact congrArg _ (if_pos hl)
  case peer => subst hd; rw [cometWritten_sends hq hp hs hr hx ht, hb]; rfl
end

section
/-!
PROOFS. What every step keeps of the meter and of the record store: a command is measured (Laws/KeptExec.lean) against a base that asks of the meter
or of the floors that they stay what they are.
-/

namespace Sys2Proof.Machine

variable {s t : State}

/-! ### Bases -/

/-- Measure a state against itself: the meter is what it was, of the floors nothing is asked. -/
def State.sameMeter (s : State) : Base := { s.same with store := fun _ _ => True }

/-- Measure a state against itself: the floors are what they were, the meter has not fallen. -/
def State.sameFloors (s : State) : Base := { s.same with meter := MeterUp s.meter.cum }

theorem kept_sameMeter (h : Sound s) : Kept s.pending s.sameMeter s := ⟨h.1, h.2.1, rfl, rfl, ⟨rfl, h.2.2⟩, trivial⟩

theorem kept_sameFloors (h : Sound s) : Kept s.pending s.sameFloors s := ⟨h.1, h.2.1, rfl, rfl, ⟨⟨Nat.le_refl _, h.2.2⟩, h.2.2⟩, rfl, rfl⟩

/-- A bit of the old mask is set in the new one. -/
theorem FloorUp.revoked {n m : Nat} {x y : BitVec 4} (h : FloorUp n x m y) {i : Nat} (hi : x.getLsbD i = true) : y.getLsbD i = true := by
  rw [← h.2, BitVec.getLsbD_or, hi, Bool.or_true]

/-- What a step of a sound state keeps: the meter and the floors may have risen. -/
theorem step_kept_up (h : Sound s) (e : step s = .next t) :
    MeterUp s.meter.cum t.meter ∧ FloorUp s.store.floor s.store.revoked t.store.floor t.store.revoked := by
  cases hp : s.pending with
  | nil =>
    rw [step_nil hp] at e
    cases e
    have hk := controlTick_kept_same h
    obtain ⟨hf, hr⟩ := hk.store
    refine ⟨⟨(congrArg Meter.cum hk.meter).ge, hk.meterOk⟩, hf.ge, ?_⟩
    rw [hr]
    exact BitVec.or_self
  | cons c rest =>
    rw [step_cons hp] at e
    have hk := exec_keptN (h.withPending rest) c t e
    exact ⟨hk.meter, hk.store⟩

theorem exec_meter {c : Instr} (h : Sound s) (hc : meterCommand c = false) (e : exec c s = .next t) : t.meter = s.meter :=
  (exec_kept (n := 0) c (kept_sameMeter h) (fun h => absurd (h.symm.trans hc) (by decide)) (fun _ _ _ _ _ _ => trivial) t e).meter

theorem exec_floors {c : Instr} (h : Sound s) (hc : floorCommand c = false) (e : exec c s = .next t) :
    t.store.floor = s.store.floor ∧ t.store.revoked = s.store.revoked :=
  (exec_kept c (kept_sameFloors h) (fun _ => rfl) (fun h => absurd (h.symm.trans hc) (by decide)) t e).store

/-! ### Records of the meter (R425, R427) -/

@[simp] theorem writeRecord_meter (r : MeterRec) (s : State) : (writeRecord r s).meter = addRecord r s.meter := by
  unfold writeRecord
  dsimp only
  split <;> rfl

/-- The newest record stands last among those held. -/
theorem addRecord_records (r : MeterRec) (m : Meter) :
    (addRecord r m).records = m.records.drop (m.records.length + 1 - meterSlots) ++ [r] := by
  have h : m.records.length + 1 - meterSlots ≤ m.records.length :=
    Nat.sub_le_of_le_add (Nat.add_le_add_left (by decide : 1 ≤ meterSlots) _)
  rw [addRecord, List.drop_append_of_le_length h]

/-! ### The meter's own power and restart (R418, R420, R421) -/

theorem exec_meterPowerLoss_on (hp : s.meter.powered = true) : exec .meterPowerLoss s = .next
    (setMeter (writeRecord (recordOf 3 0 s.meter.intervalCum s.meter.cum s.meter) s)
      { (writeRecord (recordOf 3 0 s.meter.intervalCum s.meter.cum s.meter) s).meter with powered := false }) :=
  congrArg Host.Outcome.next (if_neg (by simp [hp]))

theorem exec_meterPowerLoss_off (hp : s.meter.powered = false) : exec .meterPowerLoss s = .next s :=
  congrArg Host.Outcome.next (if_pos (by simp [hp]))

theorem exec_meterRestart_on (hp : s.meter.powered = true) :
    exec .meterRestart s = .next (meterEvent 8 (setMeter s { s.meter with checkInInterval := true })) :=
  congrArg Host.Outcome.next (if_pos hp)

theorem exec_meterRestart_off (hp : s.meter.powered = false) : exec .meterRestart s = .next s :=
  congrArg Host.Outcome.next (if_neg (by simp [hp]))

/-- The meter right after power-up, before any record: registers from the kept reading, time from zero (R418, R420). -/
def poweredUp (m : Meter) : Meter :=
  newInterval { m with powered := true, powerUps := m.powerUps + 1, accum := m.cum * 1000, rest := 0, time := 0, secondSum := 0, p1s := 0,
                       oorNow := false, mark := none, discarded := 0 }

/-- The OPEN record of a power-up is written (R424). -/
def openRecorded (s : State) : State := writeRecord (recordOf 4 0 s.meter.cum 0 (poweredUp s.meter)) (setMeter s (poweredUp s.meter))

theorem exec_meterPowerUp_off (h : s.meter.powered = true ∨ s.entry.p56v = false) (b : Bool) : exec (.meterPowerUp b) s = .next s :=
  congrArg Host.Outcome.next (if_pos (by rcases h with h | h <;> simp [h]))

theorem exec_meterPowerUp_on (hp : s.meter.powered = false) (hv : s.entry.p56v = true) (b : Bool) : exec (.meterPowerUp b) s = .next
    (if (openRecorded s).meter.unpoweredOpening || b then
      meterEvent 3 (setMeter (openRecorded s) { (openRecorded s).meter with unpoweredOpening := false }) else openRecorded s) :=
  congrArg Host.Outcome.next (if_neg (by simp [hp, hv]))

theorem meterPowerLoss_register (e : exec .meterPowerLoss s = .next t) : t.meter.cum = s.meter.cum ∧ t.meter.accum = s.meter.accum := by
  cases hp : s.meter.powered with
  | false => cases (exec_meterPowerLoss_off hp).symm.trans e; exact ⟨rfl, rfl⟩
  | true =>
    cases (exec_meterPowerLoss_on hp).symm.trans e
    rw [writeRecord_meter]
    exact ⟨rfl, rfl⟩

theorem meterRestart_register (e : exec .meterRestart s = .next t) : t.meter.cum = s.meter.cum ∧ t.meter.accum = s.meter.accum := by
  cases hp : s.meter.powered with
  | false => cases (exec_meterRestart_off hp).symm.trans e; exact ⟨rfl, rfl⟩
  | true =>
    cases (exec_meterRestart_on hp).symm.trans e
    rw [meterEvent, writeRecord_meter]
    exact ⟨rfl, rfl⟩

/-- A power-up starts the accumulator at the whole mWh of the register. -/
theorem meterPowerUp_register (hp : s.meter.powered = false) (hv : s.entry.p56v = true) {b : Bool} (e : exec (.meterPowerUp b) s = .next t) :
    t.meter.cum = s.meter.cum ∧ t.meter.accum = s.meter.cum * 1000 := by
  cases (exec_meterPowerUp_on hp hv b).symm.trans e
  split
  · rw [meterEvent, writeRecord_meter, setMeter_meter, openRecorded, writeRecord_meter]
    exact ⟨rfl, rfl⟩
  · rw [openRecorded, writeRecord_meter]
    exact ⟨rfl, rfl⟩

/-- What the register does not show of the accumulator is less than 1 mWh (R418). -/
theorem MeterOk.accum_bounds {m : Meter} (h : MeterOk m) : m.cum * 1000 ≤ m.accum ∧ m.accum < m.cum * 1000 + 1000 := by
  unfold MeterOk at h
  omega

theorem meterPowerUp_bounds (h : Sound s) {b : Bool} (e : exec (.meterPowerUp b) s = .next t) :
    t.meter.cum = s.meter.cum ∧ t.meter.accum ≤ s.meter.accum ∧ s.meter.accum < t.meter.accum + 1000 := by
  by_cases ho : s.meter.powered = true ∨ s.entry.p56v = false
  · cases (exec_meterPowerUp_off ho b).symm.trans e
    exact ⟨rfl, Nat.le_refl _, by omega⟩
  · simp only [not_or, Bool.not_eq_true, Bool.not_eq_false] at ho
    obtain ⟨hc, ha⟩ := meterPowerUp_register ho.1 ho.2 e
    rw [ha]
    exact ⟨hc, h.2.2.accum_bounds⟩

end Sys2Proof.Machine

open Sys2Proof Sys2Proof.Machine

/-- Settles O5: every step is measured against a base whose meter has not fallen (`step_kept_up`); the three commands of the meter's own power by
the record they write, which leaves register and accumulator alone. -/
theorem meterNeverGoesBack : Obligations.MeterNeverGoesBack := by
  unfold Obligations.MeterNeverGoesBack
  exact fun s hs => ⟨fun t e => (step_kept_up hs e).1, fun t => meterPowerLoss_register, fun t => meterRestart_register,
    fun b t => meterPowerUp_bounds hs⟩

/-- Settles O7: the commands that are not the meter's keep it whole (`exec_meter`); a restart of a powered meter adds one record to it. -/
theorem nothingElseReachesTheMeter : Obligations.NothingElseReachesTheMeter := by
  unfold Obligations.NothingElseReachesTheMeter
  refine fun s hs => ⟨fun c t => exec_meter hs, fun hp => ⟨_, exec_meterRestart_on hp, ?_⟩⟩
  rw [meterEvent, writeRecord_meter]
  exact ⟨rfl, rfl, rfl, rfl, rfl, _, _, addRecord_records _ _, rfl, rfl, rfl, rfl⟩
end

section
/-!
PROOFS. The version floor and the revoked-slot mask: every command but BRINGUP_READY keeps them, and what BRINGUP_READY makes of them.
-/

namespace Sys2Proof.Machine

variable {s t : State} {src : FwSource} {b : Bundle} {tr : Training}

/-! ### What the end of a download leaves (R435, R439, R442) -/

@[simp] theorem raiseVector_boot (v : Nat) (s : State) : (raiseVector v s).boot = s.boot := by
  unfold raiseVector
  dsimp only
  split <;> rfl

@[simp] theorem writeBlock_boot (code : Nat) (st : Status) (bytes : List Byte) (s : State) : (writeBlock code st bytes s).boot = s.boot := by
  unfold writeBlock
  split <;> rfl

@[simp] theorem mboxEnd_boot (code : Nat) (st : Status) (bytes : List Byte) (s : State) : (mboxEnd code st bytes s).boot = s.boot := by
  rw [mboxEnd, raiseVector_boot, setHost_boot, writeBlock_boot]

/-- The download is over: its source and its bytes are forgotten, a failure leaves its REASON (R439). -/
def downloadOver (reason : Nat) (s : State) : State :=
  setBoot s { s.boot with download := none, received := [], reason := if reason = 0 then s.boot.reason else reason }

theorem endDownload_host (st : Status) (reason : Nat) (s : State) : endDownload .host st reason s =
    if s.host.mboxRun = some .download then mboxEnd downloadCode st [] (downloadOver reason s) else downloadOver reason s := rfl

theorem endDownload_bus (bus : Bus) (n got : Nat) (st : Status) (reason : Nat) (s : State) :
    endDownload (.bus bus n got) st reason s = fwResult bus st reason (downloadOver reason s) := rfl

/-- Reporting the outcome of a download leaves STAGE where it is. -/
@[simp] theorem endDownload_stage (src : FwSource) (st : Status) (reason : Nat) (s : State) :
    (endDownload src st reason s).boot.stage = s.boot.stage := by
  cases src with
  | host =>
    rw [endDownload_host]
    split
    · rw [mboxEnd_boot]; rfl
    · rfl
  | bus => rfl

/-! ### What the memory layout leaves (R190, R507) -/

/-- What each part of a fold keeps, the fold keeps. -/
theorem foldl_keeps {α β : Type} {g : State → β} {f : State → α → State} (hf : ∀ s a, g (f s a) = g s) (l : List α) (s : State) :
    g (l.foldl f s) = g s := by
  induction l generalizing s with
  | nil => rfl
  | cons a l ih => exact (ih _).trans (hf s a)

@[simp] theorem startPromotions_boot (f n : Nat) (s : State) : (startPromotions f n s).boot = s.boot := by
  induction n generalizing s with
  | zero => rfl
  | succ n ih =>
    unfold startPromotions
    split
    · rfl
    · split
      · rfl
      · split
        · rfl
        · exact ih _

@[simp] theorem framesFreed_boot (f : Nat) (s : State) : (framesFreed f s).boot = s.boot := by
  unfold framesFreed
  split
  · rfl
  · rw [startPromotions_boot]

@[simp] theorem dropPages_boot (f : Nat) (p : Page → Bool) (s : State) : (dropPages f p s).boot = s.boot := by
  unfold dropPages
  split
  · rfl
  · rw [framesFreed_boot, modField_boot]

@[simp] theorem discardTier2_boot (s : State) : (discardTier2 s).boot = s.boot := by
  show (s.fld.fields.foldl (fun s (e : Nat × Field) => dropPages e.1 farPage s) s).boot = s.boot
  exact foldl_keeps (g := State.boot) (fun s (e : Nat × Field) => dropPages_boot e.1 farPage s) _ s

/-- The tiers as they are when a layout with changed sizes has discarded what no longer fits (R507). -/
def layoutKept (s : State) : State := match s.boot.lastLayout with
  | none => s
  | some (w, f, r) =>
    let s' := if w ≠ s.mem.windowGib.toNat ∨ f ≠ s.mem.fieldGib.toNat then discardTier2 s else s
    if r ≠ s.mem.fwReserve.toNat then discardTier1 s' else s'

theorem layoutKept_boot (s : State) : (layoutKept s).boot = s.boot := by
  unfold layoutKept discardTier1
  split
  · rfl
  · dsimp only
    split <;> split <;> simp only [discardTier2_boot]

theorem layTiers_boot (s : State) : (layTiers s).boot = { (layoutKept s).boot with
    laidOut := true, lastLayout := some (s.mem.windowGib.toNat, s.mem.fieldGib.toNat, s.mem.fwReserve.toNat) } := rfl

/-- Two states whose version floor and revoked-slot mask agree. -/
def SameFloors (s t : State) : Prop := t.store.floor = s.store.floor ∧ t.store.revoked = s.store.revoked

/-- An operation that keeps every sound state keeps its floors. -/
theorem sameFloors_of_kept {f : State → State} (h : Sound s) (hf : ∀ {p : List Instr} {k : Base}, Kept p k s → Kept p k (f s)) : SameFloors s (f s) :=
  (hf (kept_same h)).store

theorem sound_of_kept {f : State → State} (h : Sound s) (hf : ∀ {p : List Instr} {k : Base}, Kept p k s → Kept p k (f s)) : Sound (f s) :=
  (hf (kept_same h)).sound

/-! ### BRINGUP_READY (R435 step 8, R441) -/

/-- The version floor and the revoked slots of a bundle are written (R441). -/
def floorsWritten (b : Bundle) (s : State) : State :=
  { s with store := { s.store with floor := max s.store.floor b.floor, revoked := s.store.revoked ||| b.revoke } }

/-- The manager's bus that brought the bundle, or the host, is the path of later downloads. -/
def pathTaken (src : FwSource) (s : State) : State :=
  setBoot s { s.boot with mgmtPath := match src with | .host => false | .bus _ _ _ => true }

section
variable (hd : s.boot.download = some src) (hb : s.boot.bundle = some b) (hs : s.boot.stage = .bringup) (hm : s.entry.main = true)
  (hw : s.boot.warmBusy = false)
include hd hb hs hm hw

theorem exec_bringupReady : exec (.bringupReady tr) s = .next (
    if tr.partsOk = false then failBringup src .digestFail 7 (trainAll tr s)
    else if (trainAll tr s).mem.poolList = [] then failBringup src .noPlacement 8 (trainAll tr s)
    else endDownload src .ok 0 (pathTaken src (finishBringup tr (floorsWritten b (trainAll tr s))))) := by
  have he : exec (.bringupReady tr) s = execBringupReady tr s := rfl
  cases src <;> simp only [he, execBringupReady, hd, hb, hs, hm, hw, ne_eq, not_true_eq_false, reduceCtorEq, or_self, if_false,
    Bool.not_eq_true', floorsWritten, pathTaken]

theorem exec_bringupReady_digestFail (hp : tr.partsOk = false) :
    exec (.bringupReady tr) s = .next (failBringup src .digestFail 7 (trainAll tr s)) := by
  rw [exec_bringupReady hd hb hs hm hw, if_pos hp]

theorem exec_bringupReady_noMemory (hp : tr.partsOk = true) (hl : (trainAll tr s).mem.poolList = []) :
    exec (.bringupReady tr) s = .next (failBringup src .noPlacement 8 (trainAll tr s)) := by
  rw [exec_bringupReady hd hb hs hm hw, if_neg (by simp [hp]), if_pos hl]

theorem exec_bringupReady_ready (hp : tr.partsOk = true) (hl : (trainAll tr s).mem.poolList ≠ []) : exec (.bringupReady tr) s =
    .next (endDownload src .ok 0 (pathTaken src (finishBringup tr (floorsWritten b (trainAll tr s))))) := by
  rw [exec_bringupReady hd hb hs hm hw, if_neg (by simp [hp]), if_neg hl]

end

/-- A bring-up that fails leaves the ROM waiting and the floors as they were. -/
theorem failBringup_trainAll_floors (h : Sound s) (st : Status) (n : Nat) : SameFloors s (failBringup src st n (trainAll tr s)) :=
  sameFloors_of_kept (f := fun s => failBringup src st n (trainAll tr s)) h fun hk => failBringup_kept (trainAll_kept hk)

theorem failBringup_stage (st : Status) (n : Nat) : (failBringup src st n s).boot.stage = .await := endDownload_stage _ _ _ _

/-- Links, bands and the report of READY leave STAGE at READY. -/
theorem finishBringup_stage : (finishBringup tr s).boot.stage = .ready := by
  unfold finishBringup
  dsimp only
  split <;> split <;> simp only [powerEvent_boot, layTiers_boot, layoutKept_boot, setBoot_boot]

theorem finishBringup_floors (h : Sound s) : SameFloors s (endDownload src .ok 0 (pathTaken src (finishBringup tr s))) :=
  sameFloors_of_kept (f := fun s => endDownload src .ok 0 (pathTaken src (finishBringup tr s))) h
    fun hk => endDownload_kept (setBoot_kept (finishBringup_kept hk))

/-- Training leaves the floors alone, the floors are written once, and the rest of the bring-up leaves them alone. -/
theorem bringup_floors (h : Sound s) {t : State} (ht : t = endDownload src .ok 0 (pathTaken src (finishBringup tr (floorsWritten b (trainAll tr s))))) :
    t.store.floor = max s.store.floor b.floor ∧ t.store.revoked = s.store.revoked ||| b.revoke := by
  have hs : Sound (floorsWritten b (trainAll tr s)) := sound_of_kept (f := trainAll tr) h trainAll_kept
  obtain ⟨hf, hr⟩ := sameFloors_of_kept (f := trainAll tr) h trainAll_kept
  obtain ⟨hf', hr'⟩ := finishBringup_floors (src := src) (tr := tr) hs
  subst ht
  rw [hf', hr', floorsWritten, hf, hr]
  exact ⟨rfl, rfl⟩

end Sys2Proof.Machine

open Sys2Proof Sys2Proof.Machine

/-- Settles O6: floors and mask rise by `step_kept_up`, stay under every other command by `exec_floors`; BRINGUP_READY by its three outcomes. -/
theorem floorsNeverDecrease : Obligations.FloorsNeverDecrease := by
  unfold Obligations.FloorsNeverDecrease
  refine fun s t hs => ⟨fun e => ⟨(step_kept_up hs e).2.1, fun i => (step_kept_up hs e).2.revoked⟩, fun c hc e => exec_floors hs hc e,
    fun tr src b hd hb hg hm hw e => ⟨fun hp hl => ?ready, fun hf => ?fails⟩⟩
  case ready =>
    cases (exec_bringupReady_ready hd hb hg hm hw hp hl).symm.trans e
    exact ⟨(endDownload_stage _ _ _ _).trans finishBringup_stage, bringup_floors hs rfl⟩
  case fails =>
    cases hp : tr.partsOk with
    | false =>
      cases (exec_bringupReady_digestFail hd hb hg hm hw hp).symm.trans e
      exact ⟨failBringup_stage _ _, failBringup_trainAll_floors hs _ _⟩
    | true =>
      cases (exec_bringupReady_noMemory hd hb hg hm hw hp (hf.resolve_left (by simp [hp]))).symm.trans e
      exact ⟨failBringup_stage _ _, failBringup_trainAll_floors hs _ _⟩
end

section
/-!
PROOFS. The SPDM responder: connections and their order, sessions, chunks and vendor-defined requests, one equation per case of each request.
-/

namespace Sys2Proof.Machine

variable {s : State} {c : SpdmConn}

/-! ### Connections (R449) -/

@[simp] theorem connAt_setConn_same (c : SpdmConn) (v : SpdmConnState) (s : State) : connAt (setConn c v s) c = v := by
  simp [connAt]

@[simp] theorem connAt_spdmSend_same (c : SpdmConn) (k : SpdmKind) (bytes : List Byte) (s : State) :
    connAt (spdmSend c k bytes s) c = { connAt s c with response := bytes } :=
  connAt_setConn_same c _ s

/-- A response changes the responder only. -/
theorem spdmSend_frame (c : SpdmConn) (k : SpdmKind) (bytes : List Byte) (s : State) :
    spdmSend c k bytes s = { s with spdm := (spdmSend c k bytes s).spdm } := rfl

theorem spdmSigned_frame (c : SpdmConn) (k : SpdmKind) (what : Nat) (bytes : List Byte) (s : State) :
    spdmSigned c k what bytes s = { s with spdm := (spdmSigned c k what bytes s).spdm, fresh := s.fresh + 1 } := rfl

/-- A signed exchange keeps its transcript (R451). -/
theorem spdmSigned_keeps (c : SpdmConn) (k : SpdmKind) (what : Nat) (bytes : List Byte) (s : State) :
    tfind what (connAt (spdmSigned c k what bytes s) c).signed = some (Config.spdmTranscript s.fresh) := by
  rw [spdmSigned, connAt_spdmSend_same, connAt_setConn_same]
  exact tfind_tput_same _ _ _

section
variable (ho : spdmOn s c = true)
include ho

theorem responder_on : ¬ (!spdmOn s c) = true := by simp [ho]

theorem exec_getVersion : exec (.getVersion c) s = .next (spdmSend c .version [] (setConn c { version := true } s)) :=
  congrArg Host.Outcome.next (if_neg (responder_on ho))

theorem exec_getCapabilities : exec (.getCapabilities c) s = .next (if (connAt s c).version then
    spdmSend c .capabilities [] (setConn c { connAt s c with capabilities := true } s) else spdmError c .unexpectedRequest s) :=
  congrArg Host.Outcome.next (if_neg (responder_on ho))

theorem getCapabilities_versioned (hv : (connAt s c).version = true) : exec (.getCapabilities c) s =
    .next (spdmSend c .capabilities [] (setConn c { connAt s c with capabilities := true } s)) := by
  rw [exec_getCapabilities ho, if_pos hv]

theorem getCapabilities_unversioned (hv : (connAt s c).version = false) :
    exec (.getCapabilities c) s = .next (spdmError c .unexpectedRequest s) := by
  rw [exec_getCapabilities ho, if_neg (Bool.eq_false_iff.mp hv)]

/-- The connection agrees on what is offered of the module's algorithms. -/
def algorithmsAgreed (c : SpdmConn) (a : SpdmAlgs) (s : State) : State :=
  spdmSend c .algorithms [BitVec.ofNat 8 (b2n a.ed25519 + 2 * b2n a.sha384 + 4 * b2n a.secp384r1 + 8 * b2n a.aes256gcm)]
    (setConn c { connAt s c with algs := some a } s)

theorem exec_negotiateAlgorithms (a : SpdmAlgs) : exec (.negotiateAlgorithms c a.ed25519 a.sha384 a.secp384r1 a.aes256gcm) s = .next (
    if (connAt s c).capabilities then algorithmsAgreed c a s else spdmError c .unexpectedRequest s) :=
  congrArg Host.Outcome.next (if_neg (responder_on ho))

theorem negotiateAlgorithms_agrees (hc : (connAt s c).capabilities = true) (a : SpdmAlgs) :
    ∃ t, exec (.negotiateAlgorithms c a.ed25519 a.sha384 a.secp384r1 a.aes256gcm) s = .next t ∧ (connAt t c).algs = some a ∧
      (connAt t c).signed = (connAt s c).signed ∧ t = { s with spdm := t.spdm } := by
  refine ⟨algorithmsAgreed c a s, ?_, ?_, ?_, rfl⟩
  · rw [exec_negotiateAlgorithms ho, if_pos hc]
  · rw [algorithmsAgreed, connAt_spdmSend_same, connAt_setConn_same]
  · rw [algorithmsAgreed, connAt_spdmSend_same, connAt_setConn_same]

theorem negotiateAlgorithms_unexpected (hc : (connAt s c).capabilities = false) (a : SpdmAlgs) :
    exec (.negotiateAlgorithms c a.ed25519 a.sha384 a.secp384r1 a.aes256gcm) s = .next (spdmError c .unexpectedRequest s) := by
  rw [exec_negotiateAlgorithms ho, if_neg (Bool.eq_false_iff.mp hc)]

/-- A request that needs an agreed connection does its work on one, and is unexpected on another. -/
theorem next_spdmAgreed {work : State → State} {t : State} (hr : connReady (connAt s c) = true) (hw : work s = t) :
    (.next (spdmAgreed c work s) : Host.Outcome State Fault Refusal) = .next t := by
  simp only [spdmAgreed, ho, hr, hw, Bool.not_true, Bool.false_eq_true, if_false, if_true]

theorem next_spdmAgreed_unready {work : State → State} (hr : connReady (connAt s c) = false) :
    (.next (spdmAgreed c work s) : Host.Outcome State Fault Refusal) = .next (spdmError c .unexpectedRequest s) := by
  simp only [spdmAgreed, ho, hr, Bool.not_true, Bool.false_eq_true, if_false]

/-! ### Certificates and measurements (R449, R450) -/

theorem getDigests_unready (hr : connReady (connAt s c) = false) : exec (.getDigests c) s = .next (spdmError c .unexpectedRequest s) :=
  next_spdmAgreed_unready ho hr

section
variable (hr : connReady (connAt s c) = true)
include hr

theorem getDigests_answers : exec (.getDigests c) s = .next (spdmSend c .digests (leBytes 48 (sha384 Config.deviceChain).toNat) s) :=
  next_spdmAgreed ho hr rfl

theorem getCertificate_answers (length : Nat) {offset : Nat} (h : offset ≤ Config.deviceChain.length) : exec (.getCertificate c 0 offset length) s =
    .next (spdmSend c .certificate ((Config.deviceChain.drop offset).take length) s) :=
  next_spdmAgreed ho hr (if_neg (by rintro (h0 | hn); exacts [h0 rfl, hn.not_ge h]))

theorem getCertificate_invalid (length : Nat) {slot offset : Nat} (h : slot ≠ 0 ∨ Config.deviceChain.length < offset) :
    exec (.getCertificate c slot offset length) s = .next (spdmError c .invalidRequest s) :=
  next_spdmAgreed ho hr (if_pos h)

theorem challenge_answers (nonce : BitVec 256) : exec (.challenge c 0 nonce) s =
    .next (spdmSigned c .challengeAuth 1 (leBytes 48 (sha384 Config.deviceChain).toNat ++ leBytes 32 nonce.toNat) s) :=
  next_spdmAgreed ho hr rfl

theorem challenge_invalid (nonce : BitVec 256) {slot : Nat} (h : slot ≠ 0) :
    exec (.challenge c slot nonce) s = .next (spdmError c .invalidRequest s) :=
  next_spdmAgreed ho hr (if_pos h)

theorem getMeasurements_unsigned (nonce : BitVec 256) {i : Nat} {bytes : List Byte} (hb : measurementContent s i = some bytes) :
    exec (.getMeasurements c i false nonce) s = .next (spdmSend c .measurements bytes s) :=
  next_spdmAgreed ho hr (by rw [hb]; rfl)

theorem getMeasurements_signed (nonce : BitVec 256) {i : Nat} {bytes : List Byte} (hb : measurementContent s i = some bytes) :
    exec (.getMeasurements c i true nonce) s = .next (spdmSigned c .measurements 0 (bytes ++ leBytes 32 nonce.toNat) s) :=
  next_spdmAgreed ho hr (by rw [hb]; rfl)

end

end

theorem measurementContent_one {i : Nat} (h1 : 1 ≤ i) (h14 : i ≤ 14) : measurementContent s i = some (leBytes 48 (measurement s i).toNat) := by
  rw [measurementContent, if_neg (by omega), if_neg (by omega), if_pos h14]

theorem measurementContent_all : measurementContent s 0xFF =
    some ((List.range 14).flatMap fun i => leBytes 48 (measurement s (i + 1)).toNat) := rfl

/-! ### Sessions (R449) -/

section
variable {id : BitVec 16} {x : Session}

/-- A session of this number is open on the connection. -/
def sessionOpen (s : State) (c : SpdmConn) (id : BitVec 16) : Bool := s.spdm.sessions.any fun x => x.conn == c && x.id == id

/-- The session is opened, not yet established. -/
def sessionAdded (c : SpdmConn) (id : BitVec 16) (s : State) : State :=
  { s with spdm := { s.spdm with sessions := s.spdm.sessions ++ [⟨c, id, false, 0⟩] } }

theorem sessionAt_dropSession (s : State) (c : SpdmConn) (id : BitVec 16) : sessionAt (dropSession c id s) c id = none := by
  rw [sessionAt, dropSession, List.find?_eq_none]
  intro x hx
  obtain ⟨-, hx⟩ := List.mem_filter.mp hx
  simpa [imp_iff_not_or] using hx

/-- Whether a session is established decides what FINISH and the requests inside it do. -/
theorem established_map (hx : sessionAt s c id = some x) : (sessionAt s c id).map (·.established) = some x.established := by rw [hx]; rfl

variable (ho : spdmOn s c = true)
include ho

theorem keyExchange_full {exchange : List Byte} (hr : connReady (connAt s c) = true) (hl : 4 ≤ s.spdm.sessions.length) :
    exec (.keyExchange c id exchange) s = .next (spdmError c .invalidRequest s) :=
  next_spdmAgreed ho hr (by simp only [hl, decide_true, Bool.or_true, Bool.true_or, if_true])

section
variable {a : SpdmAlgs} {exchange : List Byte} (hr : connReady (connAt s c) = true) (ha : (connAt s c).algs = some a) (h1 : a.secp384r1 = true)
  (h2 : a.aes256gcm = true)
include hr ha h1 h2

theorem keyExchange_opens (hn : sessionOpen s c id = false) (hl : s.spdm.sessions.length < 4) : exec (.keyExchange c id exchange) s =
    .next (spdmSigned c .keyExchange 2 (leBytes 2 id.toNat ++ exchange) (sessionAdded c id s)) :=
  next_spdmAgreed ho hr (by
    simp only [ha, h1, h2, hl.not_ge, sessionOpen, Bool.and_self, Bool.not_true, decide_false, Bool.false_or] at hn ⊢
    rw [hn]
    rfl)

end

theorem exec_finish (hx : sessionAt s c id = some x) (ok : Bool) : exec (.finish c id ok) s = .next (
    if x.established then spdmError c .unexpectedRequest s
    else if ok then spdmSend c .finish [] (modSession c id (fun x => { x with established := true }) s)
    else spdmError c .invalidRequest (dropSession c id s)) := by
  have he : exec (.finish c id ok) s = execFinish c id ok s := rfl
  cases h : x.established <;> simp [he, execFinish, ho, hx, h]

section
variable (hx : sessionAt s c id = some x) (he : x.established = false)
include hx he

theorem finish_establishes : exec (.finish c id true) s =
    .next (spdmSend c .finish [] (modSession c id (fun x => { x with established := true }) s)) := by
  rw [exec_finish ho hx, he]; rfl

theorem finish_fails : exec (.finish c id false) s = .next (spdmError c .invalidRequest (dropSession c id s)) := by
  rw [exec_finish ho hx, he]; rfl

theorem next_inSession_unestablished {work : State → State} :
    (.next (inSession c id work s) : Host.Outcome State Fault Refusal) = .next (spdmError c .unexpectedRequest s) := by
  simp only [inSession, ho, established_map hx, he]; rfl

end

section
variable (hx : sessionAt s c id = some x) (he : x.established = true)
include hx he

theorem finish_again (ok : Bool) : exec (.finish c id ok) s = .next (spdmError c .unexpectedRequest s) := by
  rw [exec_finish ho hx, he]; rfl

theorem next_inSession {work : State → State} {t : State} (hw : work s = t) :
    (.next (inSession c id work s) : Host.Outcome State Fault Refusal) = .next t := by
  subst hw
  simp only [inSession, ho, established_map hx, he]; rfl

theorem spdmHeartbeat_answers : exec (.spdmHeartbeat c id) s = .next (spdmSend c .heartbeatAck [] s) := next_inSession ho hx he rfl

theorem keyUpdate_updates {op : Nat} (h : op = 1 ∨ op = 2) : exec (.keyUpdate c id op) s =
    .next (spdmSend c .keyUpdateAck [] (modSession c id (fun x => { x with keyGeneration := x.keyGeneration + 1 }) s)) :=
  next_inSession ho hx he (if_pos h)

theorem keyUpdate_verifies : exec (.keyUpdate c id 3) s = .next (spdmSend c .keyUpdateAck [] s) := next_inSession ho hx he rfl

theorem endSession_ends : exec (.endSession c id) s = .next (spdmSend c .endSessionAck [] (dropSession c id s)) := next_inSession ho hx he rfl

end

end

/-! ### Chunks and vendor-defined requests (R449, R451) -/

section
variable {handle : BitVec 8} {number : Nat} {data bytes : List Byte} (ho : spdmOn s c = true) (hr : connReady (connAt s c) = true)
include ho hr

/-- The chunk's bytes follow those of the request so far; the last one completes it. -/
def chunkTaken (c : SpdmConn) (handle : BitVec 8) (number : Nat) (last : Bool) (bytes : List Byte) (s : State) : State :=
  spdmSend c .chunkSendAck [] (setConn c { connAt s c with request := if last then none else some (handle, number + 1, bytes) } s)

theorem chunkSend_first (last : Bool) : exec (.chunkSend c handle 0 last data) s = .next (chunkTaken c handle 0 last data s) :=
  next_spdmAgreed ho hr rfl

theorem chunkSend_next (hq : (connAt s c).request = some (handle, number + 1, bytes)) (last : Bool) :
    exec (.chunkSend c handle (number + 1) last data) s = .next (chunkTaken c handle (number + 1) last (bytes ++ data) s) :=
  next_spdmAgreed ho hr (by simp only [hq, and_self, if_true]; rfl)

theorem chunkSend_unbegun (hq : (connAt s c).request = none) (last : Bool) : exec (.chunkSend c handle (number + 1) last data) s =
    .next (spdmError c .invalidRequest (setConn c { connAt s c with request := none } s)) :=
  next_spdmAgreed ho hr (by simp only [hq])

theorem chunkGet_answers (h : number * max 1 Config.spdmChunk < (connAt s c).response.length) : exec (.chunkGet c handle number) s =
    .next { s with spdm := { s.spdm with out := s.spdm.out ++
      [⟨c, .chunkResponse, handle :: (((connAt s c).response.drop (number * max 1 Config.spdmChunk)).take (max 1 Config.spdmChunk))⟩] } } :=
  next_spdmAgreed ho hr (if_neg h.not_ge)

theorem chunkGet_past (h : (connAt s c).response.length ≤ number * max 1 Config.spdmChunk) :
    exec (.chunkGet c handle number) s = .next (spdmError c .invalidRequest s) :=
  next_spdmAgreed ho hr (if_pos h)

theorem cosign_signs {what : BitVec 8} {d : Digest} (hd : tfind what.toNat (connAt s c).signed = some d) : exec (.cosign c what) s =
    .next (spdmSend c .cosign (leBytes 48 d.toNat ++ padTo 3309 (Config.mldsaSign (cosignContext ++ leBytes 48 d.toNat))) s) :=
  next_spdmAgreed ho hr (by rw [hd])

theorem cosign_unsigned {what : BitVec 8} (hd : tfind what.toNat (connAt s c).signed = none) :
    exec (.cosign c what) s = .next (spdmError c .unexpectedRequest s) :=
  next_spdmAgreed ho hr (by rw [hd])

theorem getChain_answers {offset length : BitVec 32} (h : length.toNat ≤ 4096) : exec (.getChain c offset length) s =
    .next (spdmSend c .chain ((Config.mldsaChain.drop offset.toNat).take length.toNat) s) :=
  next_spdmAgreed ho hr (if_neg h.not_gt)

theorem getChain_long {offset length : BitVec 32} (h : 4096 < length.toNat) : exec (.getChain c offset length) s =
    .next (spdmError c .invalidRequest s) :=
  next_spdmAgreed ho hr (if_pos h)

end

end Sys2Proof.Machine

open Sys2Proof Sys2Proof.Machine

/-- Settles O39: each request by its equations above. The framing and the kinds of errors are those of log 59. -/
theorem spdmIdentifies : Obligations.SpdmIdentifies := by
  unfold Obligations.SpdmIdentifies
  exact fun s c ho => ⟨exec_getVersion ho, getCapabilities_versioned ho, getCapabilities_unversioned ho,
    fun hc a b d e => negotiateAlgorithms_agrees ho hc ⟨a, b, d, e⟩, fun hc a b d e => negotiateAlgorithms_unexpected ho hc ⟨a, b, d, e⟩,
    fun hr => ⟨getDigests_answers ho hr, fun _ length => getCertificate_answers ho hr length,
      fun _ _ length => getCertificate_invalid ho hr length, challenge_answers ho hr, fun _ nonce => challenge_invalid ho hr nonce,
      fun i nonce h1 h14 => ⟨getMeasurements_unsigned ho hr nonce (measurementContent_one h1 h14),
        getMeasurements_signed ho hr nonce (measurementContent_one h1 h14)⟩,
      fun nonce => getMeasurements_unsigned ho hr nonce measurementContent_all,
      fun k what bytes => ⟨_, rfl, spdmSigned_keeps c k what bytes s, spdmSigned_frame c k what bytes s⟩⟩,
    getDigests_unready ho⟩

/-- Settles O40: KEY_EXCHANGE by the room for a session, the other requests by whether theirs is established. -/
theorem spdmSessions : Obligations.SpdmSessions := by
  unfold Obligations.SpdmSessions
  exact fun s c id ho => ⟨fun hr a exchange ha h1 h2 hn => ⟨keyExchange_opens ho hr ha h1 h2 hn, keyExchange_full ho hr⟩,
    fun x hx he => ⟨finish_establishes ho hx he, finish_fails ho hx he, next_inSession_unestablished ho hx he,
      next_inSession_unestablished ho hx he⟩,
    fun x hx he => ⟨finish_again ho hx he true, spdmHeartbeat_answers ho hx he, fun op => keyUpdate_updates ho hx he,
      keyUpdate_verifies ho hx he, endSession_ends ho hx he⟩,
    sessionAt_dropSession s c id⟩

/-- Settles O41: each request by its equations above (framing presumed, log 59). -/
theorem spdmChunksAndCosigning : Obligations.SpdmChunksAndCosigning := by
  unfold Obligations.SpdmChunksAndCosigning
  exact fun s c ho hr => ⟨fun handle last data => chunkSend_first ho hr last, fun handle n bytes last data hq => chunkSend_next ho hr hq last,
    fun handle n last data hq => chunkSend_unbegun ho hr hq last, fun handle number => chunkGet_answers ho hr,
    fun handle number => chunkGet_past ho hr, fun what d => cosign_signs ho hr, fun what => cosign_unsigned ho hr,
    fun offset length => getChain_answers ho hr, fun offset length => getChain_long ho hr⟩
end

section
/-!
PROOFS. Downloads from the host and from a manager, a module without identity, and the end of a bring-up.
-/

namespace Sys2Proof.Machine

variable {s : State}

/-! ### Checking a whole bundle (R435, R439) -/

section
variable {src : FwSource} {b : Bundle} {host : Bool} (hh : (src == .host) = host)
include hh

theorem takeBundle_fails {st : Status} {n : Nat} (hc : checkBundle s host b = some (st, n)) :
    takeBundle src b s = endDownload src st n (setBoot s { s.boot with stage := .await }) := by
  unfold takeBundle
  rw [hh, hc]

theorem takeBundle_passes (hc : checkBundle s host b = none) :
    takeBundle src b s = setBoot s { s.boot with stage := .bringup, bundle := some b, download := some src, received := [] } := by
  unfold takeBundle
  rw [hh, hc]

end

/-! ### DOWNLOAD (R435, R439, R443, R446) -/

section
variable {r : BundleRead}

/-- The bundle of a DOWNLOAD as it lies in host memory. -/
abbrev bundleOf (r : BundleRead) : Bundle := parseBundle (hostBytes r.bytes) r.blockAddr r.blockBytes r.found

/-- The mailbox is at work on a download. -/
abbrev downloading (s : State) : State := setHost s { s.host with mboxRun := some .download }

theorem exec_download (ho : barOpen s = true) (hr : s.host.mboxRun = none) : exec (.download r) s = .next (
    if s.boot.stage = .noIdentity then mboxEnd downloadCode .signatureFail [] (setBoot s { s.boot with reason := 10 })
    else if s.boot.stage ≠ .await ∨ s.boot.download.isSome = true then mboxEnd downloadCode .countMismatch [] s
    else takeBundle .host (bundleOf r) (downloading s)) :=
  congrArg Host.Outcome.next (if_neg (by simp [ho, hr]))

section
variable (ho : barOpen s = true) (hr : s.host.mboxRun = none)
include ho hr

theorem download_unidentified (hs : s.boot.stage = .noIdentity) :
    exec (.download r) s = .next (mboxEnd downloadCode .signatureFail [] (setBoot s { s.boot with reason := 10 })) := by
  rw [exec_download ho hr, if_pos hs]

theorem download_unawaited (h1 : s.boot.stage ≠ .await) (h2 : s.boot.stage ≠ .noIdentity) :
    exec (.download r) s = .next (mboxEnd downloadCode .countMismatch [] s) := by
  rw [exec_download ho hr, if_neg h2, if_pos (.inl h1)]

theorem download_awaited (hs : s.boot.stage = .await) (hd : s.boot.download = none) :
    exec (.download r) s = .next (takeBundle .host (bundleOf r) (downloading s)) := by
  rw [exec_download ho hr, if_neg (by simp [hs]), if_neg (by simp [hs, hd])]

theorem download_fails {st : Status} {n : Nat} (hs : s.boot.stage = .await) (hd : s.boot.download = none)
    (hc : checkBundle (downloading s) true (bundleOf r) = some (st, n)) : exec (.download r) s =
      .next (endDownload .host st n (setBoot (downloading s) { (downloading s).boot with stage := .await })) := by
  rw [download_awaited ho hr hs hd, takeBundle_fails (beq_self_eq_true FwSource.host) hc]

theorem download_passes (hs : s.boot.stage = .await) (hd : s.boot.download = none)
    (hc : checkBundle (downloading s) true (bundleOf r) = none) : exec (.download r) s =
      .next (setBoot (downloading s) { (downloading s).boot with
        stage := .bringup, bundle := some (bundleOf r), download := some .host, received := [] }) := by
  rw [download_awaited ho hr hs hd, takeBundle_passes (beq_self_eq_true FwSource.host) hc]

end

end

/-! ### FW_OFFER, FW_DATA and the timeout (R442, R443, R446) -/

section
variable {bus : Bus} {n : BitVec 32} (ha : s.entry.aux = true)
include ha

theorem management_on : ¬ (!mgmtOn s) = true := by simp [mgmtOn, ha]

theorem fwOffer_unidentified (hs : s.boot.stage = .noIdentity) :
    exec (.fwOffer bus n) s = .next (fwResult bus .signatureFail 10 (setBoot s { s.boot with reason := 10 })) :=
  congrArg Host.Outcome.next ((if_neg (management_on ha)).trans (if_pos hs))

theorem exec_fwOffer_awaited (hs : s.boot.stage = .await) (hd : s.boot.download = none) (hm : s.entry.main = true) : exec (.fwOffer bus n) s = .next (
    if n = 0 ∨ Config.maxBundle < n.toNat then fwResult bus .badAlignment 1 (setBoot s { s.boot with reason := 1 })
    else fwRead bus 0 n.toNat (setBoot s { s.boot with stage := .verify, download := some (.bus bus n.toNat 0), received := [] })) :=
  congrArg Host.Outcome.next ((if_neg (management_on ha)).trans ((if_neg (by simp [hs])).trans (if_neg (by simp [hs, hd, hm]))))

theorem fwOffer_misfit (hs : s.boot.stage = .await) (hd : s.boot.download = none) (hm : s.entry.main = true)
    (hn : n = 0 ∨ Config.maxBundle < n.toNat) :
    exec (.fwOffer bus n) s = .next (fwResult bus .badAlignment 1 (setBoot s { s.boot with reason := 1 })) := by
  rw [exec_fwOffer_awaited ha hs hd hm, if_pos hn]

theorem fwOffer_reads (hs : s.boot.stage = .await) (hd : s.boot.download = none) (hm : s.entry.main = true) (h0 : n ≠ 0)
    (hn : n.toNat ≤ Config.maxBundle) : exec (.fwOffer bus n) s = .next (fwRead bus 0 n.toNat
      (setBoot s { s.boot with stage := .verify, download := some (.bus bus n.toNat 0), received := [] })) := by
  rw [exec_fwOffer_awaited ha hs hd hm, if_neg (by rintro (h | h); exacts [h0 h, h.not_ge hn])]

section
variable {n got : Nat} {off : BitVec 32} {data : List Byte} {found : Option BundleFound}

/-- The bytes of a FW_DATA are added to those received. -/
abbrev dataTaken (bus : Bus) (n got : Nat) (data : List Byte) (s : State) : State :=
  setBoot s { s.boot with download := some (.bus bus n (got + data.length)), received := s.boot.received ++ data }

theorem data_in_order (hoff : off.toNat = got) (h0 : data ≠ []) (hl : data.length ≤ min 1024 (n - got)) :
    (!mgmtOn s || bus != bus || off.toNat != got || decide (data = [] ∨ min 1024 (n - got) < data.length ∨ n ≤ got)) = false := by
  have hp : 0 < data.length := List.length_pos_of_ne_nil h0
  have hn : got < n := by omega
  simp [mgmtOn, ha, hoff, h0, hn.not_ge, le_min_iff.mp hl]

variable (hd : s.boot.download = some (.bus bus n got))
include hd

section
variable (hoff : off.toNat = got) (h0 : data ≠ []) (hl : data.length ≤ min 1024 (n - got))
include hoff h0 hl

theorem fwData_reads_on (h : got + data.length < n) : exec (.fwData bus off data found) s =
    .next (fwRead bus (got + data.length) n (dataTaken bus n got data s)) := by
  have he : exec (.fwData bus off data found) s = execFwData bus off data found s := rfl
  simp only [he, execFwData, hd, data_in_order ha hoff h0 hl, Bool.false_eq_true, if_false, h, if_true]

theorem fwData_completes {x : BundleFound} (h : got + data.length = n) : exec (.fwData bus off data (some x)) s =
    .next (takeBundle (.bus bus n n) (parseBundle (byteAt (s.boot.received ++ data)) 0 n x) (dataTaken bus n got data s)) := by
  have he : exec (.fwData bus off data (some x)) s = execFwData bus off data (some x) s := rfl
  simp only [he, execFwData, hd, data_in_order ha hoff h0 hl, Bool.false_eq_true, if_false, h, Nat.lt_irrefl, setBoot_boot, dataTaken]

end

theorem fwReadTimeout_ends (h : got < n) : exec .fwReadTimeout s = .next (fwResult bus .stallDetected 9
    (downloadOver 9 (setBoot s { s.boot with stage := .await }))) := by
  have he : exec .fwReadTimeout s = execFwReadTimeout s := rfl
  simp only [he, execFwReadTimeout, hd, mgmtOn, ha, h, decide_true, Bool.and_self, if_true, endDownload_bus]

end

end

/-! ### The release of PERST# (R435, R445, R446, R448) -/

/-- The boot ROM has PERST# released and the record store read. -/
abbrev romStarted (s : State) : State := readStore (setEntry s { s.entry with perst := false })

theorem exec_perstRelease_rom (hm : s.entry.main = true) (hs : s.boot.stage = .rom) (ok : Bool) : exec (.perstRelease ok) s = .next (
    if ok then setBoot (romStarted s) { (romStarted s).boot with
      stage := .await, identity := true, atBoot := some ((romStarted s).store.floor, (romStarted s).store.revoked) }
    else mgmtReport (setBoot (romStarted s) { (romStarted s).boot with stage := .noIdentity, identity := false })) :=
  congrArg Host.Outcome.next (if_neg (by simp [hm, hs]))

theorem exec_perstRelease_later (hs : s.boot.stage ≠ .rom) (ok : Bool) :
    exec (.perstRelease ok) s = .next (setEntry s { s.entry with perst := false }) :=
  congrArg Host.Outcome.next (if_pos (by simp [hs]))

theorem perstRelease_unidentified (hm : s.entry.main = true) (hs : s.boot.stage = .rom) : exec (.perstRelease false) s =
    .next (mgmtReport (setBoot (romStarted s) { (romStarted s).boot with stage := .noIdentity, identity := false })) :=
  exec_perstRelease_rom hm hs false

/-- A report of the management controller goes out on both buses (log 55). -/
theorem mgmtReport_out (s : State) : ∃ a b, (mgmtReport s).gov.out = s.gov.out ++ [a, b] ∧ a.bus = .a ∧ b.bus = .b :=
  ⟨_, _, List.append_assoc _ _ _, rfl, rfl⟩

end Sys2Proof.Machine

open Sys2Proof Sys2Proof.Machine

/-- Settles O8: the ROM that finds no identity reports on both buses; in that stage both ways of a download are refused. -/
theorem noIdentityRefusesFirmware : Obligations.NoIdentityRefusesFirmware := by
  unfold Obligations.NoIdentityRefusesFirmware
  exact ⟨fun s hm hs => ⟨_, perstRelease_unidentified hm hs, rfl, rfl, mgmtReport_out _⟩,
    fun s b hs ho hr => download_unidentified ho hr hs, fun s bus n hs ha => fwOffer_unidentified ha hs⟩

/-- Settles O31: each message by its equations above; that the checks follow when all bytes are in is log 58. -/
theorem firmwareIsDownloaded : Obligations.FirmwareIsDownloaded := by
  unfold Obligations.FirmwareIsDownloaded
  refine ⟨fun s r => ?download, fun s bus n ha hs hd hm => ⟨fwOffer_misfit ha hs hd hm, fwOffer_reads ha hs hd hm⟩,
    fun s bus n got off data found ha hd hoff h0 hl => ⟨fwData_reads_on ha hd hoff h0 hl, fun x h hx => hx ▸ fwData_completes ha hd hoff h0 hl h⟩,
    fun s bus n got ha hd h => fwReadTimeout_ends ha hd h,
    fun s t src b hd hb hs hm hw => ⟨exec_bringupReady_digestFail hd hb hs hm hw, exec_bringupReady_noMemory hd hb hs hm hw,
      exec_bringupReady_ready hd hb hs hm hw⟩⟩
  case download =>
    exact fun ho hr => ⟨download_unawaited ho hr, fun hs hd => ⟨fun st n => download_fails ho hr hs hd, download_passes ho hr hs hd⟩⟩
end

section
/-!
PROOFS. PERST#, FLR, D3hot and the clock stop: what each reset leaves, and the record store as the boot reads it.
-/

namespace Sys2Proof.Machine

variable {s : State}

/-! ### The record store at boot (R448) -/

/-- An unreadable repair map is dropped. -/
def mendRepair (c : Store) : Store := if c.repairValid then c
  else { c with retired := [], bandFenced := 0, spareLane := [], devMark := [], channelOff := 0, dimmId := [], repairs := [], repairValid := true }

/-- An unreadable fatal history is empty. -/
def mendFatal (c : Store) : Store := if c.fatalValid then c else { c with lastFatal := none, fatalValid := true }

/-- Unreadable endurance counters restart at zero. -/
def mendEndurance (c : Store) : Store := if c.enduranceValid then c
  else { c with hours := 0, thermalCycles := 0, powerUps := 0, pairsEver := [], spareEver := 0, rowsRepaired := [], devsEver := [],
                enduranceWritten := none, enduranceValid := true }

theorem readStore_store : (readStore s).store = mendEndurance (mendFatal (mendRepair s.store)) := rfl

section
variable {c : Store}

theorem mendRepair_keeps (c : Store) : (mendRepair c).floor = c.floor ∧ (mendRepair c).revoked = c.revoked ∧
    (mendRepair c).fatalValid = c.fatalValid ∧ (mendRepair c).enduranceValid = c.enduranceValid := by
  unfold mendRepair
  split <;> exact ⟨rfl, rfl, rfl, rfl⟩

theorem mendFatal_keeps (c : Store) : (mendFatal c).floor = c.floor ∧ (mendFatal c).revoked = c.revoked ∧
    (mendFatal c).enduranceValid = c.enduranceValid ∧ (mendFatal c).retired = c.retired ∧ (mendFatal c).repairs = c.repairs := by
  unfold mendFatal
  split <;> exact ⟨rfl, rfl, rfl, rfl, rfl⟩

theorem mendEndurance_keeps (c : Store) : (mendEndurance c).floor = c.floor ∧ (mendEndurance c).revoked = c.revoked ∧
    (mendEndurance c).retired = c.retired ∧ (mendEndurance c).repairs = c.repairs ∧ (mendEndurance c).lastFatal = c.lastFatal := by
  unfold mendEndurance
  split <;> exact ⟨rfl, rfl, rfl, rfl, rfl⟩

theorem mendRepair_readable (h : c.repairValid = true) : mendRepair c = c := if_pos h
theorem mendFatal_readable (h : c.fatalValid = true) : mendFatal c = c := if_pos h
theorem mendEndurance_readable (h : c.enduranceValid = true) : mendEndurance c = c := if_pos h

theorem mendRepair_dropped (h : c.repairValid = false) : (mendRepair c).retired = [] ∧ (mendRepair c).repairs = [] := by
  rw [mendRepair, if_neg (Bool.eq_false_iff.mp h)]
  exact ⟨rfl, rfl⟩

theorem mendFatal_emptied (h : c.fatalValid = false) : (mendFatal c).lastFatal = none := by
  rw [mendFatal, if_neg (Bool.eq_false_iff.mp h)]

theorem mendEndurance_restarted (h : c.enduranceValid = false) :
    (mendEndurance c).hours = 0 ∧ (mendEndurance c).powerUps = 0 ∧ (mendEndurance c).thermalCycles = 0 := by
  rw [mendEndurance, if_neg (Bool.eq_false_iff.mp h)]
  exact ⟨rfl, rfl, rfl⟩

end

theorem readStore_floors : (readStore s).store.floor = s.store.floor ∧ (readStore s).store.revoked = s.store.revoked := by
  obtain ⟨hf1, hr1, -⟩ := mendRepair_keeps s.store
  obtain ⟨hf2, hr2, -⟩ := mendFatal_keeps (mendRepair s.store)
  obtain ⟨hf3, hr3, -⟩ := mendEndurance_keeps (mendFatal (mendRepair s.store))
  exact ⟨hf3.trans (hf2.trans hf1), hr3.trans (hr2.trans hr1)⟩

theorem readStore_readable (h1 : s.store.repairValid = true) (h2 : s.store.fatalValid = true) (h3 : s.store.enduranceValid = true) :
    (readStore s).store = s.store := by
  rw [readStore_store, mendRepair_readable h1, mendFatal_readable h2, mendEndurance_readable h3]

theorem readStore_repairs (h : s.store.repairValid = false) : (readStore s).store.retired = [] ∧ (readStore s).store.repairs = [] := by
  obtain ⟨hd, hp⟩ := mendRepair_dropped h
  obtain ⟨-, -, -, hd2, hp2⟩ := mendFatal_keeps (mendRepair s.store)
  obtain ⟨-, -, hd3, hp3, -⟩ := mendEndurance_keeps (mendFatal (mendRepair s.store))
  exact ⟨hd3.trans (hd2.trans hd), hp3.trans (hp2.trans hp)⟩

theorem readStore_fatal (h : s.store.fatalValid = false) : (readStore s).store.lastFatal = none := by
  obtain ⟨-, -, hv, -⟩ := mendRepair_keeps s.store
  obtain ⟨-, -, -, -, hl⟩ := mendEndurance_keeps (mendFatal (mendRepair s.store))
  exact hl.trans (mendFatal_emptied (hv.trans h))

theorem readStore_endurance (h : s.store.enduranceValid = false) : (readStore s).store.hours = 0 ∧ (readStore s).store.powerUps = 0 ∧
    (readStore s).store.thermalCycles = 0 := by
  obtain ⟨-, -, -, hv1⟩ := mendRepair_keeps s.store
  obtain ⟨-, -, hv2, -⟩ := mendFatal_keeps (mendRepair s.store)
  exact mendEndurance_restarted (hv2.trans (hv1.trans h))

/-! ### PERST# (R455) -/

/-- The cold reset that PERST# is while the main domain is on. -/
def coldReset (s : State) : State :=
  let u := coldState (setEntry s { s.entry with perst := true })
  setEntry u { u.entry with alive := false }

theorem exec_perstAssert_on (hm : s.entry.main = true) : exec .perstAssert s = .next (coldReset s) :=
  congrArg Host.Outcome.next (if_pos hm)

theorem exec_perstAssert_off (hm : s.entry.main = false) : exec .perstAssert s = .next (setEntry s { s.entry with perst := true }) :=
  congrArg Host.Outcome.next (if_neg (Bool.eq_false_iff.mp hm))

/-! ### FLR, D3hot, D0 and the clock stop (R455, R459, R461 to R463, R466) -/

section
variable (hm : s.entry.main = true) (hp : s.entry.perst = false) (hl : linkUp s = true) (hw : s.boot.warmBusy = false)
include hm hp hl hw

theorem exec_flr : exec .flr s = .next (flrState s) := congrArg Host.Outcome.next (if_pos (by simp [hm, hp, hl, hw]))

/-- Open work as the entry into D3hot ends it: descriptors go, requests are retained, every field's sections are aborted (R459, R462). -/
def d3hotWorkEnded (s : State) : State :=
  let u := retainRequests (dropWork (setHost s { s.host with opens := [], d3hot := true }))
  u.fld.fields.foldl (fun s (e : Nat × Field) => abortField e.1 (statusCode .cancelled) s) u

theorem exec_d3hotEntry (hd : s.host.d3hot = false) : exec .d3hotEntry s = .next (loseArray (d3hotWorkEnded s)) :=
  congrArg Host.Outcome.next (if_neg (by simp [hm, hp, hl, hw, hd]))

end

theorem exec_flr_warm (hw : s.boot.warmBusy = true) : exec .flr s = .next s := congrArg Host.Outcome.next (if_neg (by simp [hw]))

theorem exec_d3hotEntry_warm (hw : s.boot.warmBusy = true) : exec .d3hotEntry s = .next s := congrArg Host.Outcome.next (if_pos (by simp [hw]))

/-- No field keeps a slot, a section or a step (R462). -/
theorem loseArray_fields {e : Nat × Field} (he : e ∈ (loseArray s).fld.fields) :
    e.2.slots = [] ∧ e.2.seq = [] ∧ e.2.waiting = [] ∧ e.2.step = none := by
  obtain ⟨x, -, rfl⟩ := List.mem_map.mp he
  exact ⟨rfl, rfl, rfl, rfl⟩

theorem exec_d0Entry (hm : s.entry.main = true) : exec .d0Entry s = .next (setHost s { s.host with d3hot := false }) :=
  congrArg Host.Outcome.next (if_pos hm)

section
variable {b : BandId} {q : Fin 4}

theorem islandClockStop_stops (hm : s.entry.main = true) (hb : islandBusy s b = false) : exec (.islandClockStop b q) s =
    .next { s with fld := { s.fld with stopped := setBit s.fld.stopped (4 * b.val + q.val) true } } :=
  congrArg Host.Outcome.next (if_neg (by simp [hm, hb]))

theorem islandClockStop_busy (hb : islandBusy s b = true) : exec (.islandClockStop b q) s = .next s :=
  congrArg Host.Outcome.next (if_pos (by simp [hb]))

end

end Sys2Proof.Machine

open Sys2Proof Sys2Proof.Machine

/-- Settles O44: what each reset leaves is read off its next state; the record store at boot by `readStore_store` and the three lemmas on it. -/
theorem resetsAndPowerStates : Obligations.ResetsAndPowerStates := by
  unfold Obligations.ResetsAndPowerStates
  exact ⟨fun s hm => ⟨_, exec_perstAssert_on hm, rfl, rfl, rfl, rfl, rfl, rfl, rfl, rfl, rfl, rfl, rfl, rfl, rfl, rfl, rfl⟩,
    fun s => exec_perstAssert_off,
    fun s hm hs => ⟨_, exec_perstRelease_rom hm hs true, rfl, rfl, rfl, congrArg some (Prod.ext readStore_floors.1 readStore_floors.2), rfl, rfl⟩,
    fun s => ⟨readStore_floors.1, readStore_floors.2, readStore_readable, readStore_repairs, readStore_fatal, readStore_endurance⟩,
    fun s hm hs => ⟨_, perstRelease_unidentified hm hs, rfl, rfl, rfl⟩, fun s b hm hs => exec_perstRelease_later hs b,
    fun s hm hp hl hw => ⟨_, exec_flr hm hp hl hw, rfl, rfl, rfl, rfl, rfl, rfl, rfl, rfl, rfl, rfl, rfl⟩,
    fun s hw => ⟨exec_flr_warm hw, exec_d3hotEntry_warm hw⟩,
    fun s hm hp hl hw hd => ⟨_, exec_d3hotEntry hm hp hl hw hd, rfl, rfl, rfl, rfl, rfl, fun e => loseArray_fields⟩,
    fun s => exec_d0Entry, fun s b q hm => islandClockStop_stops hm, fun s b q => islandClockStop_busy⟩
end

section
/-!
PROOFS. The governor: what each lever writes, the order in which they move, and the governor's checks, one equation per case.
-/

namespace Sys2Proof.Machine

variable {s : State}

/-! ### What moving a lever writes (R403) -/

/-- Moving lever 1 writes the target and the clocks that follow from it. -/
theorem setTarget_gov (mhz : Nat) (s : State) :
    (setTarget mhz s).gov = { s.gov with targetMhz := mhz, clock := (setTarget mhz s).gov.clock } := by
  unfold setTarget
  split
  · next h => subst h; rfl
  · rfl

theorem askPause_gov (on : Bool) (s : State) :
    (askPause on s).gov = { s.gov with pauseAsked := on, clock := (askPause on s).gov.clock } := by
  unfold askPause
  split
  · next h => subst h; rfl
  · rfl

theorem setBatchMove_gov (m : BatchMove) (s : State) :
    (setBatchMove m s).gov = { s.gov with batchMove := m, clock := (setBatchMove m s).gov.clock } := by
  unfold setBatchMove
  split
  · next h => subst h; rfl
  · rfl

/-! ### The levers in order (R404, R405) -/

/-- The number of 25 MHz steps of a move: at least one, otherwise free (log 51). -/
def stepCount (s : State) : Nat := 1 + (Config.freeWord s.fresh).toNat % 46

/-- A free value has been drawn. -/
abbrev drawn (s : State) : State := { s with fresh := s.fresh + 1 }

theorem one_le_stepCount : 1 ≤ stepCount s := Nat.le_add_right ..

section
variable (hl : s.gov.targetMhz ≤ targetLimit s)

theorem tightenLever_target (h : targetLimit s < s.gov.targetMhz) :
    tightenLever s = setTarget (max (targetLimit s) (s.gov.targetMhz - 25 * stepCount s)) (drawn s) := if_pos h

include hl

theorem tightenLever_pause (hp : s.gov.pauseAsked = false) : tightenLever s = askPause true s :=
  (if_neg hl.not_gt).trans (if_pos (by simp [hp]))

theorem tightenLever_batch (hp : s.gov.pauseAsked = true) (hb : batchAtLimit s = false) : tightenLever s = setBatchMove .halve s :=
  (if_neg hl.not_gt).trans ((if_neg (by simp [hp])).trans (if_pos (by simp [hb])))

theorem tightenLever_park {f : Nat} {l : List Nat} (hp : s.gov.pauseAsked = true) (hb : batchAtLimit s = true) (hc : parkCandidates s = f :: l) :
    tightenLever s = parkField (Config.freeWord s.fresh).toNat f (drawn s) :=
  (if_neg hl.not_gt).trans ((if_neg (by simp [hp])).trans ((if_neg (by simp [hb])).trans (by rw [hc])))

end

/-- A move of the target down ends above or at the limit, below where it was. -/
theorem tightenLever_lowers (h : targetLimit s < s.gov.targetMhz) : ∃ n, 1 ≤ n ∧
    (tightenLever s).gov.targetMhz = max (targetLimit s) (s.gov.targetMhz - 25 * n) ∧ (tightenLever s).gov.targetMhz < s.gov.targetMhz ∧
    (tightenLever s).gov.parkOrder = s.gov.parkOrder ∧ (tightenLever s).gov.pauseAsked = s.gov.pauseAsked := by
  have hn : 1 ≤ stepCount s := one_le_stepCount
  rw [tightenLever_target h, setTarget_gov]
  exact ⟨stepCount s, hn, rfl, max_lt h (by omega), rfl, rfl⟩

theorem releaseLever_parked (hp : s.gov.parkOrder ≠ []) : releaseLever s = setBatchMove .hold s := if_pos hp

section
variable (hp : s.gov.parkOrder = [])
include hp

theorem releaseLever_batch (hb : s.gov.batch ≠ []) : releaseLever s = setBatchMove .double s :=
  (if_neg (not_not.mpr hp)).trans (if_pos hb)

theorem releaseLever_pause (hb : s.gov.batch = []) (ha : s.gov.pauseAsked = true) : releaseLever s = askPause false (setBatchMove .hold s) :=
  (if_neg (not_not.mpr hp)).trans ((if_neg (not_not.mpr hb)).trans (if_pos ha))

theorem releaseLever_target (hb : s.gov.batch = []) (ha : s.gov.pauseAsked = false) (ht : s.gov.targetMhz < 1750) :
    releaseLever s = setTarget (min 1750 (s.gov.targetMhz + 25 * stepCount s)) (setBatchMove .hold (drawn s)) :=
  (if_neg (not_not.mpr hp)).trans ((if_neg (not_not.mpr hb)).trans ((if_neg (Bool.eq_false_iff.mp ha)).trans (if_pos ht)))

theorem releaseLever_unpauses (hb : s.gov.batch = []) (ha : s.gov.pauseAsked = true) :
    (releaseLever s).gov.pauseAsked = false ∧ (releaseLever s).gov.targetMhz = s.gov.targetMhz := by
  rw [releaseLever_pause hp hb ha, askPause_gov, setBatchMove_gov]
  exact ⟨rfl, rfl⟩

theorem releaseLever_raises (hb : s.gov.batch = []) (ha : s.gov.pauseAsked = false) (ht : s.gov.targetMhz < 1750) : ∃ n, 1 ≤ n ∧
    (releaseLever s).gov.targetMhz = min 1750 (s.gov.targetMhz + 25 * n) ∧ s.gov.targetMhz < (releaseLever s).gov.targetMhz := by
  have hn : 1 ≤ stepCount s := one_le_stepCount
  rw [releaseLever_target hp hb ha ht, setTarget_gov]
  exact ⟨stepCount s, hn, rfl, lt_min ht (by omega)⟩

end

/-! ### The smallest cap (R396) -/

/-- Of a list of caps and one to start from, the smaller one of each comparison. -/
abbrev lowerCap (m e : Nat × Nat) : Nat × Nat := if e.2 < m.2 then e else m

theorem foldl_lowerCap_le_start (l : List (Nat × Nat)) (m : Nat × Nat) : (l.foldl lowerCap m).2 ≤ m.2 := by
  induction l generalizing m with
  | nil => exact Nat.le_refl _
  | cons e l ih =>
    refine (ih _).trans ?_
    unfold lowerCap
    split
    · next h => exact h.le
    · exact Nat.le_refl _

theorem foldl_lowerCap_le {l : List (Nat × Nat)} {e : Nat × Nat} (he : e ∈ l) (m : Nat × Nat) : (l.foldl lowerCap m).2 ≤ e.2 := by
  induction l generalizing m with
  | nil => cases he
  | cons x l ih =>
    rcases List.mem_cons.mp he with rfl | he
    · refine (foldl_lowerCap_le_start l _).trans ?_
      unfold lowerCap
      split
      · exact Nat.le_refl _
      · next h => exact not_lt.mp h
    · exact ih he _

theorem smallestCap_le {g : Gov} {e : Nat × Nat} (he : e ∈ activeCaps g) : (smallestCap g).2 ≤ e.2 := foldl_lowerCap_le he _

theorem orphanCap_active {g : Gov} (h : g.orphan = true) : (1, g.orphanCap) ∈ activeCaps g := by
  simp [activeCaps, h]

/-! ### Silent managers and the periodic report (R401, R414) -/

/-- From s to t nothing changes but what has been sent. -/
def SentFrom (s t : State) : Prop := t = setGov s { s.gov with ibis := t.gov.ibis, out := t.gov.out }

theorem SentFrom.trans {t u : State} (h : SentFrom s t) (k : SentFrom t u) : SentFrom s u := by
  refine Eq.trans k ?_
  rw [h]
  rfl

theorem SentFrom.frame {t : State} {l : List MctpMsg} (h : SentFrom s t) (ho : t.gov.out = l) :
    t = setGov s { s.gov with ibis := t.gov.ibis, out := l } := by
  rw [← ho]
  exact h

theorem sentFrom_powerEvent (n : Nat) (s : State) : SentFrom s (powerEvent n s) := rfl

/-- A power event changes what has been sent. -/
theorem powerEvent_frame (n : Nat) (s : State) : powerEvent n s = setGov s { s.gov with
    ibis := (powerEvent n s).gov.ibis
    out := s.gov.out ++ [⟨.a, 0x83, BitVec.ofNat 16 n, [], 1⟩, ⟨.b, 0x83, BitVec.ofNat 16 n, [], 1⟩] } :=
  (sentFrom_powerEvent n s).frame (powerEvent_out n)

@[simp] theorem flowMissing_powerEvent (n : Nat) (s : State) : flowMissing (powerEvent n s) = flowMissing s := rfl

/-- The orphan cap becomes active and is reported. -/
abbrev orphaned (s : State) : State := powerEvent 2 (changeCaps (fun g => { g with orphan := true }) s)

theorem exec_managersSilent_orphans (hm : mgmtOn s = true) (ho : s.gov.orphan = false) (ht : s.gov.heardAt + 30000000 ≤ s.tick) :
    exec .managersSilent s = .next (orphaned s) :=
  congrArg Host.Outcome.next (if_neg (by simp [hm, ho, ht.not_gt]))

theorem exec_managersSilent_ignored (h : mgmtOn s = false ∨ s.gov.orphan = true ∨ s.tick < s.gov.heardAt + 30000000) :
    exec .managersSilent s = .next s :=
  congrArg Host.Outcome.next (if_pos (by rcases h with h | h | h <;> simp [h]))

theorem orphaned_frame : orphaned s = { s with gov := (orphaned s).gov } := by
  rw [orphaned, powerEvent_frame, changeCaps_frame]
  rfl

theorem orphaned_orphan : (orphaned s).gov.orphan = true := by
  rw [orphaned, powerEvent_frame, changeCaps_frame]
  rfl

theorem orphaned_orphanCap : (orphaned s).gov.orphanCap = s.gov.orphanCap := by
  rw [orphaned, powerEvent_frame, changeCaps_frame]
  rfl

theorem orphaned_out : (orphaned s).gov.out = s.gov.out ++ [⟨.a, 0x83, 2, [], 1⟩, ⟨.b, 0x83, 2, [], 1⟩] := by
  rw [orphaned, powerEvent_out, changeCaps_frame]
  rfl

theorem orphaned_smallestCap : (smallestCap (orphaned s).gov).2 ≤ s.gov.orphanCap := by
  rw [← orphaned_orphanCap]
  exact smallestCap_le (orphanCap_active orphaned_orphan)

section
variable (hm : mgmtOn s = true) (hv : s.entry.inputMv.toNat ≤ 59000) (hc : s.gov.inletC ≤ 45)
include hm hv hc

theorem exec_periodicPowerReport_quiet (hi : s.gov.inputLow = false) (ho : s.gov.orphan = false) (hf : flowMissing s = false) :
    exec .periodicPowerReport s = .next s := by
  have he : exec .periodicPowerReport s = execPeriodicPowerReport s := rfl
  simp only [he, execPeriodicPowerReport, hm, hi, ho, hf, hc.not_gt, hv.not_gt, false_and, Bool.not_true, Bool.false_eq_true, if_false]

theorem exec_periodicPowerReport_all (hi : s.gov.inputLow = true) (ho : s.gov.orphan = true) (hf : flowMissing s = true) :
    exec .periodicPowerReport s = .next (powerEvent 3 (powerEvent 2 (powerEvent 1 s))) := by
  have he : exec .periodicPowerReport s = execPeriodicPowerReport s := rfl
  simp only [he, execPeriodicPowerReport, hm, hi, ho, hf, flowMissing_powerEvent, powerEvent_gov, powerEvent_entry, govSend_orphan, govSend_inletC,
    hc.not_gt, hv.not_gt, false_and, Bool.not_true, Bool.false_eq_true, if_false, if_true]

end

theorem powerEvent_three_frame : powerEvent 3 (powerEvent 2 (powerEvent 1 s)) = setGov s { s.gov with
    ibis := (powerEvent 3 (powerEvent 2 (powerEvent 1 s))).gov.ibis
    out := s.gov.out ++ [⟨.a, 0x83, 1, [], 1⟩, ⟨.b, 0x83, 1, [], 1⟩, ⟨.a, 0x83, 2, [], 1⟩, ⟨.b, 0x83, 2, [], 1⟩,
      ⟨.a, 0x83, 3, [], 1⟩, ⟨.b, 0x83, 3, [], 1⟩] } := by
  refine SentFrom.frame ((sentFrom_powerEvent 1 s).trans ((sentFrom_powerEvent 2 _).trans (sentFrom_powerEvent 3 _))) ?_
  rw [powerEvent_out, powerEvent_out, powerEvent_out, List.append_assoc, List.append_assoc]
  rfl

/-! ### The checks after a lowering and for an unpark (R404, R405) -/

/-- Levers 1 to 3 at their limits. -/
abbrev leversTaken (s : State) : State := setBatchMove .halve (askPause true (setTarget (targetLimit s) s))

theorem exec_governorCheck_parks {watts : Nat} {fieldWatts : List Nat} (hg : governs s = true) (h : effectiveCap s.gov < watts) :
    exec (.governorCheck watts fieldWatts) s =
      .next (parkExcess fieldWatts (parkCandidates (leversTaken s)) (watts - effectiveCap s.gov) (leversTaken s)) :=
  congrArg Host.Outcome.next (if_neg (by simp [hg, h]))

theorem exec_governorCheck_ignored {watts : Nat} {fieldWatts : List Nat} (h : watts ≤ effectiveCap s.gov) :
    exec (.governorCheck watts fieldWatts) s = .next s :=
  congrArg Host.Outcome.next (if_pos (by simp [h]))

section
variable {headroom f power : Nat} (hn : nextUnpark s.gov = some (f, power))
include hn

theorem exec_governorUnpark_unparks (hg : governs s = true) (h : 105 * power ≤ 100 * headroom) :
    exec (.governorUnpark headroom) s = .next (unparkField f s) := by
  have he : exec (.governorUnpark headroom) s = execGovernorUnpark headroom s := rfl
  simp only [he, execGovernorUnpark, hn, hg, h, decide_true, Bool.and_self, if_true]

theorem exec_governorUnpark_held (h : 100 * headroom < 105 * power) : exec (.governorUnpark headroom) s = .next s := by
  have he : exec (.governorUnpark headroom) s = execGovernorUnpark headroom s := rfl
  simp only [he, execGovernorUnpark, hn, h.not_ge, decide_false, Bool.and_false, Bool.false_eq_true, if_false]

end

/-! ### The P100 window (R396 to R398, R403 to R405) -/

theorem changeCaps_entry (g : Gov → Gov) (s : State) : (changeCaps g s).entry = s.entry := by
  rw [changeCaps_frame]
  rfl

/-- The input voltage as the window reads it. -/
abbrev inputRead (mv : BitVec 16) (s : State) : State := { s with entry := { s.entry with inputMv := mv } }

/-- The input cap starts. -/
abbrev inputCapped (mv : BitVec 16) (s : State) : State := changeCaps (fun g => { g with inputCap := true }) (inputRead mv s)

theorem inputStep_eq (mv : BitVec 16) (s : State) : inputStep mv s =
    (if mv.toNat < 50000 ∧ s.gov.inputCap = false then
      (if s.entry.main = true then setTarget 600 (inputCapped mv s) else inputCapped mv s)
     else inputRead mv s) := by
  have he : (inputCapped mv s).entry.main = s.entry.main := by rw [changeCaps_entry]
  rw [← he]
  rfl

section
variable {watts : Nat} {mv : BitVec 16} {g : Gov} {v : State}

/-- A window writes its power and the peak record. -/
theorem countWindow_frame (watts : Nat) (g : Gov) : countWindow watts g = { g with
    p100 := watts, sinceLower := min 1000 (g.sinceLower + 1), peak := (countWindow watts g).peak, sincePeak := (countWindow watts g).sincePeak } := by
  unfold countWindow
  dsimp only
  split <;> rfl

/-- The governor's record of a window before the peak is decided. -/
abbrev windowCounted (watts : Nat) (g : Gov) : Gov := { g with p100 := watts, sinceLower := min 1000 (g.sinceLower + 1) }

theorem countWindow_peakless (h : peakAllowed (windowCounted watts g) watts = false) : (countWindow watts g).peak = none := by
  unfold countWindow
  dsimp only
  rw [if_neg (by simp [h])]

/-- The governor after the window's readings, before a lever moves. -/
def windowRead (watts : Nat) (mv : BitVec 16) (v : State) : State :=
  setGov v { countWindow watts v.gov with inputLow := decide (44000 ≤ mv.toNat ∧ mv.toNat < 50000) }

theorem windowRead_gov : (windowRead watts mv v).gov = { v.gov with
    p100 := watts, sinceLower := min 1000 (v.gov.sinceLower + 1), peak := (countWindow watts v.gov).peak
    sincePeak := (countWindow watts v.gov).sincePeak, inputLow := decide (44000 ≤ mv.toNat ∧ mv.toNat < 50000) } := by
  rw [windowRead, setGov_gov, countWindow_frame]

/-- No cap depends on a window's readings. -/
theorem effectiveCap_windowRead : effectiveCap (windowRead watts mv v).gov = effectiveCap v.gov := by
  rw [windowRead_gov]
  rfl

theorem exec_p100Window (ha : s.entry.aux = true) (hv : v = inputStep mv s) : exec (.p100Window watts mv) s = .next (
    if !governs v || (windowRead watts mv v).gov.peak.isSome then windowRead watts mv v
    else if effectiveCap v.gov < watts then tightenLever (windowRead watts mv v)
    else if watts < effectiveCap v.gov then releaseLever (windowRead watts mv v)
    else setBatchMove .hold (windowRead watts mv v)) := by
  subst hv
  rw [← effectiveCap_windowRead (watts := watts) (mv := mv)]
  exact congrArg Host.Outcome.next (if_neg (by simp [ha]))

section
variable (ha : s.entry.aux = true) (hv : v = inputStep mv s)
include ha hv

theorem exec_p100Window_still (h : governs v = false ∨ (windowRead watts mv v).gov.peak.isSome = true) :
    exec (.p100Window watts mv) s = .next (windowRead watts mv v) := by
  rw [exec_p100Window ha hv, if_pos (by rcases h with h | h <;> simp [h])]

section
variable (hg : governs v = true) (hp : (windowRead watts mv v).gov.peak = none)
include hg hp

theorem exec_p100Window_moves : exec (.p100Window watts mv) s = .next (
    if effectiveCap v.gov < watts then tightenLever (windowRead watts mv v)
    else if watts < effectiveCap v.gov then releaseLever (windowRead watts mv v)
    else setBatchMove .hold (windowRead watts mv v)) := by
  rw [exec_p100Window ha hv, if_neg (by simp [hg, hp])]

theorem exec_p100Window_tightens (h : effectiveCap v.gov < watts) :
    exec (.p100Window watts mv) s = .next (tightenLever (windowRead watts mv v)) := by
  rw [exec_p100Window_moves ha hv hg hp, if_pos h]

theorem exec_p100Window_releases (h : watts < effectiveCap v.gov) :
    exec (.p100Window watts mv) s = .next (releaseLever (windowRead watts mv v)) := by
  rw [exec_p100Window_moves ha hv hg hp, if_neg h.not_gt, if_pos h]

theorem exec_p100Window_holds (h : watts = effectiveCap v.gov) :
    exec (.p100Window watts mv) s = .next (setBatchMove .hold (windowRead watts mv v)) := by
  rw [exec_p100Window_moves ha hv hg hp, if_neg h.le.not_gt, if_neg h.ge.not_gt]

end

end

end

end Sys2Proof.Machine

open Sys2Proof Sys2Proof.Machine

/-- Settles O37: the order is that of the branches of `tightenLever` and `releaseLever`; how far the target moves is free (log 51). -/
theorem leversInOrder : Obligations.LeversInOrder := by
  unfold Obligations.LeversInOrder
  exact ⟨fun s => tightenLever_lowers, fun s => tightenLever_pause, fun s => tightenLever_batch, fun s f l hl => tightenLever_park hl,
    fun s => releaseLever_raises, fun s => releaseLever_unpauses, fun s => releaseLever_batch, fun s => releaseLever_parked⟩

/-- Settles O36: each check by its equations above; which lever moves in a window is log 69. -/
theorem governorActs : Obligations.GovernorActs := by
  unfold Obligations.GovernorActs
  refine ⟨fun s hm ho ht => ⟨_, exec_managersSilent_orphans hm ho ht, orphaned_frame, orphaned_orphan, orphaned_out, orphaned_smallestCap⟩,
    fun s => exec_managersSilent_ignored, fun s hm hv hc => exec_periodicPowerReport_quiet hm hv hc,
    fun s hm hv hc hi ho hf => ⟨_, (exec_periodicPowerReport_all hm hv hc hi ho hf).trans (congrArg _ powerEvent_three_frame)⟩,
    fun s watts fieldWatts => exec_governorCheck_parks, fun s watts fieldWatts => exec_governorCheck_ignored,
    fun s headroom f power hg hn => ⟨exec_governorUnpark_unparks hn hg, exec_governorUnpark_held hn⟩, fun s mv => inputStep_eq mv s,
    fun s v u watts mv ha hv hu => ?_⟩
  have hu : u = windowRead watts mv v := hu
  subst hu
  refine ⟨?_, ?_, ?_, fun _ => countWindow_peakless, fun h => exec_p100Window_still ha hv (.inl h), fun h => exec_p100Window_still ha hv (.inr h),
    exec_p100Window_tightens ha hv, exec_p100Window_releases ha hv, exec_p100Window_holds ha hv⟩ <;> rw [windowRead_gov]
end

section
/-!
PROOFS. The metering chip: samples, the records of its intervals, checks, power and seal, and where a record goes.
-/

namespace Sys2Proof.Machine

variable {s : State}

/-! ### Samples (R416, R418) -/

/-- No part of a sample's product is lost. -/
theorem sampleMeter_exact (mv ma : Nat) (m : Meter) :
    (sampleMeter mv ma m).accum * microWh + (sampleMeter mv ma m).rest = m.accum * microWh + m.rest + mv * ma := by
  have h : (m.rest + mv * ma) / microWh * microWh + (m.rest + mv * ma) % microWh = m.rest + mv * ma := Nat.div_add_mod' _ _
  have ha : (sampleMeter mv ma m).accum = m.accum + (m.rest + mv * ma) / microWh := rfl
  have hr : (sampleMeter mv ma m).rest = (m.rest + mv * ma) % microWh := rfl
  rw [ha, hr, Nat.add_mul, Nat.add_assoc, h, Nat.add_assoc]

theorem exec_meterSample_on (hp : s.meter.powered = true) (mv ma : Nat) :
    exec (.meterSample mv ma) s = .next (setMeter s (sampleMeter mv ma s.meter)) :=
  congrArg Host.Outcome.next (if_pos hp)

theorem exec_meterSample_off (hp : s.meter.powered = false) (mv ma : Nat) : exec (.meterSample mv ma) s = .next s :=
  congrArg Host.Outcome.next (if_neg (by simp [hp]))

/-! ### Records (R424, R425, R427, R430, R431) -/

theorem writeRecord_linked (ha : s.entry.aux = true) (hl : s.window.linkOk = true) (r : MeterRec) : writeRecord r s =
    { setMeter s (addRecord r s.meter) with window := { s.window with recent := tput (r.seq % 64) r s.window.recent } } :=
  if_pos (by simp [ha, hl])

theorem writeRecord_unlinked (hl : s.window.linkOk = false) (r : MeterRec) : writeRecord r s = setMeter s (addRecord r s.meter) :=
  if_neg (by simp [hl])

/-- While the link is up a record reaches its slot of the recent buffer. -/
theorem writeRecord_recent (ha : s.entry.aux = true) (hl : s.window.linkOk = true) (r : MeterRec) :
    tfind (r.seq % 64) (writeRecord r s).window.recent = some r := by
  rw [writeRecord_linked ha hl]
  exact tfind_tput_same _ _ _

theorem writeRecord_window (hl : s.window.linkOk = false) (r : MeterRec) : (writeRecord r s).window = s.window := by
  rw [writeRecord_unlinked hl]
  rfl

theorem writeRecord_records (r : MeterRec) (s : State) :
    (writeRecord r s).meter.records = (s.meter.records ++ [r]).drop (s.meter.records.length + 1 - meterSlots) := by
  rw [writeRecord_meter, addRecord]

theorem writeRecord_seq (r : MeterRec) (s : State) : (writeRecord r s).meter.seq = r.seq := by
  rw [writeRecord_meter, addRecord]

/-! ### Intervals and checks (R419, R424) -/

/-- The interval's record is written at its boundary (log 50). -/
abbrev intervalRecorded (s : State) : State :=
  writeRecord (recordOf 1 0 s.meter.intervalCum s.meter.cum (atBoundary s.meter)) (setMeter s (atBoundary s.meter))

theorem exec_meterIntervalEnd (hp : s.meter.powered = true) :
    exec .meterIntervalEnd s = .next (setMeter (intervalRecorded s) (newInterval (intervalRecorded s).meter)) :=
  congrArg Host.Outcome.next (if_neg (by simp [hp]))

/-- The interval is flagged CHECK_FAIL. -/
abbrev checkFailed (s : State) : State := setMeter s { s.meter with checkInInterval := true }

section
variable {osc adc : Nat} (hp : s.meter.powered = true)
include hp

/-- What a check does that finds the oscillator, the converter, both or neither off (R419). -/
theorem exec_meterSelfCheck {o a : Bool} (ho : decide (500 < osc) = o) (ha : decide (1000 < adc) = a) : exec (.meterSelfCheck osc adc) s = .next (
    let u := setMeter s { s.meter with checkInInterval := s.meter.checkInInterval || o || a }
    let v := if o then meterEvent 5 u else u
    if a then meterEvent 6 v else v) := by
  subst ho ha
  exact congrArg Host.Outcome.next (if_neg (by simp [hp]))

theorem exec_meterSelfCheck_good (ho : osc ≤ 500) (ha : adc ≤ 1000) : exec (.meterSelfCheck osc adc) s = .next s := by
  rw [exec_meterSelfCheck hp (decide_eq_false ho.not_gt) (decide_eq_false ha.not_gt), Bool.or_false, Bool.or_false]
  rfl

theorem exec_meterSelfCheck_oscillator (ho : 500 < osc) (ha : adc ≤ 1000) :
    exec (.meterSelfCheck osc adc) s = .next (meterEvent 5 (checkFailed s)) := by
  rw [exec_meterSelfCheck hp (decide_eq_true ho) (decide_eq_false ha.not_gt), Bool.or_true, Bool.or_false]
  rfl

theorem exec_meterSelfCheck_converter (ho : osc ≤ 500) (ha : 1000 < adc) :
    exec (.meterSelfCheck osc adc) s = .next (meterEvent 6 (checkFailed s)) := by
  rw [exec_meterSelfCheck hp (decide_eq_false ho.not_gt) (decide_eq_true ha), Bool.or_true]
  rfl

theorem exec_meterSelfCheck_both (ho : 500 < osc) (ha : 1000 < adc) :
    exec (.meterSelfCheck osc adc) s = .next (meterEvent 6 (meterEvent 5 (checkFailed s))) := by
  rw [exec_meterSelfCheck hp (decide_eq_true ho) (decide_eq_true ha), Bool.or_true]
  rfl

end

/-! ### Power-up without a held opening (R420, R429) -/

/-- The OPEN record leaves what power-up set, and is the next in sequence. -/
theorem openRecorded_meter (s : State) : (openRecorded s).meter = addRecord (recordOf 4 0 s.meter.cum 0 (poweredUp s.meter)) (poweredUp s.meter) :=
  writeRecord_meter _ _

theorem exec_meterPowerUp_sealed (hp : s.meter.powered = false) (hv : s.entry.p56v = true) (ho : s.meter.unpoweredOpening = false) :
    exec (.meterPowerUp false) s = .next (openRecorded s) := by
  have hu : (openRecorded s).meter.unpoweredOpening = false := by rw [openRecorded_meter]; exact ho
  rw [exec_meterPowerUp_on hp hv, hu]
  rfl

/-! ### The seal (R426, R429) -/

theorem exec_sealEvent_on (hp : s.meter.powered = true) :
    exec (.sealEvent .opened) s = .next (meterEvent 1 (setMeter s { s.meter with sealOpen := true, sealInInterval := true })) ∧
    exec (.sealEvent .closed) s = .next (meterEvent 2 (setMeter s { s.meter with sealOpen := false })) ∧
    exec (.sealEvent .meshBreak) s = .next (meterEvent 4 s) :=
  ⟨congrArg Host.Outcome.next (if_pos hp), congrArg Host.Outcome.next (if_pos hp), congrArg Host.Outcome.next (if_pos hp)⟩

theorem exec_sealEvent_off (hp : s.meter.powered = false) :
    exec (.sealEvent .opened) s = .next (setMeter s { s.meter with sealOpen := true, unpoweredOpening := true }) ∧
    exec (.sealEvent .closed) s = .next (setMeter s { s.meter with sealOpen := false }) :=
  ⟨congrArg Host.Outcome.next (if_neg (by simp [hp])), congrArg Host.Outcome.next (if_neg (by simp [hp]))⟩

end Sys2Proof.Machine

open Sys2Proof Sys2Proof.Machine

/-- Settles O59: each event of the chip by its equation above. Carrying the meter's time to a boundary without samples is log 50. -/
theorem meterRecords : Obligations.MeterRecords := by
  unfold Obligations.MeterRecords
  refine ⟨fun s mv ma hp => ⟨_, exec_meterSample_on hp mv ma, rfl, sampleMeter_exact mv ma s.meter, rfl, rfl, rfl⟩,
    fun s mv ma hp => exec_meterSample_off hp mv ma, fun s hp => ⟨_, rfl, exec_meterIntervalEnd hp⟩,
    fun s osc adc hp => ⟨exec_meterSelfCheck_good hp, exec_meterSelfCheck_oscillator hp, exec_meterSelfCheck_converter hp,
      exec_meterSelfCheck_both hp⟩,
    fun s hp => ⟨_, rfl, exec_meterPowerLoss_on hp⟩, fun s hp hv ho => ⟨_, exec_meterPowerUp_sealed hp hv ho, ?_⟩,
    fun s h b => exec_meterPowerUp_off h b, fun s => exec_meterRestart_on, fun s => exec_sealEvent_on,
    fun s hp => ⟨(exec_sealEvent_off hp).1, (exec_sealEvent_off hp).2, exec_meterRestart_off hp, exec_meterPowerLoss_off hp⟩,
    fun s ha r => ⟨_, rfl, writeRecord_seq r s, writeRecord_records r s, fun hl => writeRecord_recent ha hl r, fun hl => writeRecord_window hl r⟩,
    fun k e a b m => ⟨rfl, rfl, rfl⟩⟩
  rw [openRecorded_meter]
  exact ⟨rfl, rfl, rfl, rfl, rfl, rfl, rfl⟩
end

section
/-!
PROOFS. The formation of fields and their states: FIELD_LAYOUT, and WAKE, SLEEP and RESET of FIELD_STATE.
-/

namespace Sys2Proof.Machine

variable {s : State}

/-! ### FIELD_LAYOUT (R381) -/

section
variable {join use : BitVec 8} (hs : MailboxFree s)
include hs

theorem exec_fieldLayout : exec (.fieldLayout join use) s = .next (
    if !s.boot.laidOut then mboxEnd 0x0050 .countMismatch [] s
    else (checkLayout s join.toNat use.toNat).elim (mboxEnd 0x0050 .ok [] (formFields join.toNat use.toNat s)) (mboxEnd 0x0050 · [] s)) := by
  refine next_mailbox_free hs ?_
  cases checkLayout s join.toNat use.toNat <;> rfl

theorem fieldLayout_unlaid (hl : s.boot.laidOut = false) : exec (.fieldLayout join use) s = .next (mboxEnd 0x0050 .countMismatch [] s) := by
  rw [exec_fieldLayout hs, if_pos (by simp [hl])]

theorem fieldLayout_fails {st : Status} (hl : s.boot.laidOut = true) (hc : checkLayout s join.toNat use.toNat = some st) :
    exec (.fieldLayout join use) s = .next (mboxEnd 0x0050 st [] s) := by
  rw [exec_fieldLayout hs, if_neg (by simp [hl]), hc, Option.elim_some]

theorem fieldLayout_forms (hl : s.boot.laidOut = true) (hc : checkLayout s join.toNat use.toNat = none) :
    exec (.fieldLayout join use) s = .next (mboxEnd 0x0050 .ok [] (formFields join.toNat use.toNat s)) := by
  rw [exec_fieldLayout hs, if_neg (by simp [hl]), hc, Option.elim_none]

end

/-! ### FIELD_STATE (R459, R460, R462) -/

section
variable {f : FieldId} (hs : MailboxFree s)
include hs

theorem fieldState_undefined (hf : fieldAt s f = none) : exec (.fieldWake f) s = .next (mboxEnd 0x0052 .countMismatch [] s) ∧
    exec (.fieldSleep f) s = .next (mboxEnd 0x0052 .countMismatch [] s) ∧ exec (.fieldReset f) s = .next (mboxEnd 0x0052 .countMismatch [] s) :=
  ⟨next_mailbox_free hs (by simp only [hf]), next_mailbox_free hs (by simp only [hf]), next_mailbox_free hs (by simp only [hf])⟩

variable {fl : Field} (hf : fieldAt s f = some fl)
include hf

theorem fieldWake_wakes : exec (.fieldWake f) s = .next (mboxEnd 0x0052 .ok [] (wakeField f s)) :=
  next_mailbox_free hs (by simp only [hf])

/-- What keeps a field from sleeping: a request it serves, a section, or a moon call (R460). -/
abbrev fieldBusy (s : State) (f : FieldId) (fl : Field) : Bool := fieldServes s f || sectionsOf fl != [] || fieldCalls s fl

theorem exec_fieldSleep : exec (.fieldSleep f) s = .next (if fieldBusy s f fl then mboxEnd 0x0052 .countMismatch [] s
    else mboxEnd 0x0052 .ok [] (setField s f { fl with asleep := true })) :=
  next_mailbox_free hs (by simp only [hf])

theorem fieldSleep_busy (hb : fieldServes s f = true ∨ sectionsOf fl ≠ [] ∨ fieldCalls s fl = true) :
    exec (.fieldSleep f) s = .next (mboxEnd 0x0052 .countMismatch [] s) := by
  rw [exec_fieldSleep hs hf, if_pos (by rcases hb with h | h | h <;> simp [h])]

theorem fieldSleep_sleeps (h1 : fieldServes s f = false) (h2 : sectionsOf fl = []) (h3 : fieldCalls s fl = false) :
    exec (.fieldSleep f) s = .next (mboxEnd 0x0052 .ok [] (setField s f { fl with asleep := true })) := by
  rw [exec_fieldSleep hs hf, if_neg (by simp [h1, h2, h3])]

theorem exec_fieldReset : exec (.fieldReset f) s = .next (if fieldServes s f then mboxEnd 0x0052 .countMismatch [] s
    else mboxEnd 0x0052 .ok [] (resetField f (statusCode .cancelled) s)) :=
  next_mailbox_free hs (by simp only [hf])

theorem fieldReset_serving (h : fieldServes s f = true) : exec (.fieldReset f) s = .next (mboxEnd 0x0052 .countMismatch [] s) := by
  rw [exec_fieldReset hs hf, if_pos h]

theorem fieldReset_resets (h : fieldServes s f = false) :
    exec (.fieldReset f) s = .next (mboxEnd 0x0052 .ok [] (resetField f (statusCode .cancelled) s)) := by
  rw [exec_fieldReset hs hf, if_neg (Bool.eq_false_iff.mp h)]

end

end Sys2Proof.Machine

open Sys2Proof Sys2Proof.Machine

/-- Settles O29: each mailbox command by its equations above. -/
theorem fieldsAreFormedAndSlept : Obligations.FieldsAreFormedAndSlept := by
  unfold Obligations.FieldsAreFormedAndSlept
  exact fun s hs => ⟨fun join use => ⟨fieldLayout_unlaid hs, fun st => fieldLayout_fails hs, fieldLayout_forms hs⟩,
    fun f => ⟨fieldState_undefined hs, fun fl hf => ⟨fieldWake_wakes hs hf, fieldSleep_busy hs hf, fieldSleep_sleeps hs hf,
      fieldReset_serving hs hf, fieldReset_resets hs hf⟩⟩⟩
end

section
/-!
PROOFS. Setup of links and routing, the snapshot of the counters, and the meter's window.
-/

namespace Sys2Proof.Machine

variable {s : State}

/-! ### Routing (R351, R362) -/

theorem exec_commit (ho : barOpen s = true) (hb : s.fab.busy = false) : exec .commit s = .next { s with fab := { s.fab with busy := true } } :=
  congrArg Host.Outcome.next (if_neg (by simp [ho, hb]))

theorem exec_commit_busy (hb : s.fab.busy = true) : exec .commit s = .next s := congrArg Host.Outcome.next (if_pos (by simp [hb]))

section
variable (hb : s.fab.busy = true) (hr : running s = true)
include hb hr

theorem exec_routingBankSwap_passes (hf : firstBad s s.fab.staging = none) : exec .routingBankSwap s =
    .next { s with fab := { s.fab with busy := false, result := 0, firstBad := 0, active := s.fab.staging } } :=
  congrArg Host.Outcome.next ((if_neg (by simp [hb, hr])).trans (by simp only [hf]))

theorem exec_routingBankSwap_fails {i r : Nat} (hf : firstBad s s.fab.staging = some (i, r)) : exec .routingBankSwap s =
    .next { s with fab := { s.fab with busy := false, result := r, firstBad := i } } :=
  congrArg Host.Outcome.next ((if_neg (by simp [hb, hr])).trans (by simp only [hf]))

end

/-! ### Links (R341, R362, R363) -/

section
variable {l : LinkId}

theorem exec_linkEnable (ho : barOpen s = true) (v : Bool) : exec (.linkEnable l v) s = .next (writeLinkEnable l v s) :=
  congrArg Host.Outcome.next (if_pos ho)

theorem linkEnable_disables (ho : barOpen s = true) :
    exec (.linkEnable l false) s = .next (setLink s l { clearLink .down (linkAt s l) with enable := false }) :=
  exec_linkEnable ho false

theorem linkEnable_again (ho : barOpen s = true) (he : (linkAt s l).enable = true) : exec (.linkEnable l true) s = .next s :=
  (exec_linkEnable ho true).trans (congrArg Host.Outcome.next (if_pos he))

theorem linkEnable_trains (ho : barOpen s = true) (he : (linkAt s l).enable = false) :
    exec (.linkEnable l true) s = .next (startTraining l (setLink s l { linkAt s l with enable := true })) :=
  (exec_linkEnable ho true).trans (congrArg Host.Outcome.next (if_neg (Bool.eq_false_iff.mp he)))

theorem exec_retrain (ho : barOpen s = true) (he : (linkAt s l).enable = true) (hl : inLoopback s l = false) :
    exec (.retrain l) s = .next (startTraining l s) :=
  congrArg Host.Outcome.next (if_pos (by simp [ho, he, hl]))

theorem exec_retrain_disabled (he : (linkAt s l).enable = false) : exec (.retrain l) s = .next s :=
  congrArg Host.Outcome.next (if_neg (by simp [he]))

end

section
variable {w : BitVec 32}

/-- A fold of steps that each leave the state alone leaves it alone. -/
theorem foldl_unchanged {α : Type} {f : State → α → State} {l : List α} (h : ∀ a ∈ l, f s a = s) : l.foldl f s = s := by
  induction l with
  | nil => rfl
  | cons a l ih => rw [List.foldl_cons, h a (List.mem_cons_self ..), ih fun b hb => h b (List.mem_cons_of_mem _ hb)]

/-- The module's number in the fabric is set. -/
abbrev nodeSet (w : BitVec 32) (s : State) : State := { s with fab := { s.fab with nodeId := w.setWidth 20 } }

theorem exec_nodeId_locked (h : s.boot.setupDone = true) : exec (.nodeId w) s = .next s := congrArg Host.Outcome.next (if_pos (by simp [h]))

/-- Where no link is up or trains, setting the number is all. -/
theorem exec_nodeId_down (ho : barOpen s = true) (h : s.boot.setupDone = false) (hd : ∀ l < 6, (linkAt s l).state = .down) :
    exec (.nodeId w) s = .next (nodeSet w s) := by
  refine congrArg Host.Outcome.next ((if_neg (by simp [ho, h])).trans (foldl_unchanged fun l hl => if_neg ?_))
  have hl : (linkAt (nodeSet w s) l).state = .down := hd l (List.mem_range.mp hl)
  simp [hl]

end

/-! ### The snapshot bank (R392, R393) -/

theorem exec_take (ho : barOpen s = true) : exec .take s = .next { s with acct := { s.acct with snap := s.acct.live, done := true } } :=
  congrArg Host.Outcome.next (if_pos ho)

theorem exec_clear (ho : barOpen s = true) : exec .clear s = .next (setAcct s (clearedAcct s { s.acct with snap := s.acct.live, done := true })) :=
  congrArg Host.Outcome.next (if_pos ho)

/-! ### The meter's window (R430 to R432, R434) -/

theorem exec_meterStatusFrame (hp : s.meter.powered = true) (ha : s.entry.aux = true) :
    exec .meterStatusFrame s = .next { s with window := statusWindow s.meter s.window } :=
  congrArg Host.Outcome.next (if_pos (by simp [hp, ha]))

/-- A bit of a word is a bit of its number. -/
theorem bitAt_toNat {n : Nat} (w : BitVec n) (i : Nat) : bitAt w.toNat i = w.getLsbD i := by
  rw [bitAt, BitVec.getLsbD, Nat.testBit_eq_decide_div_mod_eq, beq_eq_decide]

theorem exec_replayGo {w : BitVec 32} (ho : barOpen s = true) (hp : s.meter.powered = true) (hl : s.window.linkOk = true) (hg : w.getLsbD 7 = true)
    (h1 : 1 ≤ bits w.toNat 0 7) (h64 : bits w.toNat 0 7 ≤ 64) : exec (.replayGo w) s = .next { s with window := { s.window with
      replay := replayOf s.meter s.window.replaySeq.toNat (bits w.toNat 0 7)
      got := (replayOf s.meter s.window.replaySeq.toNat (bits w.toNat 0 7)).length } } := by
  have h0 : bits w.toNat 0 7 ≠ 0 := by omega
  exact congrArg Host.Outcome.next (if_neg (by simp [ho, hp, hl, bitAt_toNat, hg, h0, h64]))

end Sys2Proof.Machine

open Sys2Proof Sys2Proof.Machine

/-- Settles O33: each command by its equations above. CLEAR counts from the meter's own register while its window cannot be read (log 89). -/
theorem linksRoutingSnapshotAndWindow : Obligations.LinksRoutingSnapshotAndWindow := by
  unfold Obligations.LinksRoutingSnapshotAndWindow
  exact ⟨⟨fun s ho => ⟨exec_commit ho, exec_commit_busy⟩, fun s hb hr => ⟨exec_routingBankSwap_passes hb hr, fun i r => exec_routingBankSwap_fails hb hr⟩,
      fun s l ho => ⟨linkEnable_disables ho, linkEnable_again ho, linkEnable_trains ho, exec_retrain ho, exec_retrain_disabled⟩,
      fun s w ho => ⟨exec_nodeId_locked, exec_nodeId_down ho⟩⟩,
    fun s ho => ⟨exec_take ho, exec_clear ho⟩, fun s => exec_meterStatusFrame, fun s => rfl, fun s w => exec_replayGo⟩
end

section
/-!
PROOFS. Test access, the self-test of a field, loopbacks of links and memory tests.
-/

namespace Sys2Proof.Machine

variable {s : State}

/-! ### Test access (R477, R478) -/

section
variable (hs : MailboxFree s)
include hs

theorem exec_testNonce (n : BitVec 256) :
    exec (.testNonce n) s = .next (mboxEnd 0x0060 .ok (leBytes 32 n.toNat) (setBoot s { s.boot with nonce := some n })) :=
  next_mailbox_free hs rfl

/-- The nonce is used up. -/
abbrev nonceUsed (s : State) : State := setBoot s { s.boot with nonce := none }

theorem testUnlock_fails {r : TokenRead} {st : Status} (hc : checkToken s (parseToken r) = some st) :
    exec (.testUnlock r) s = .next (mboxEnd 0x0060 st [] (nonceUsed s)) :=
  next_mailbox_free hs (by simp only [hc]; rfl)

/-- Test mode as a token opens it. -/
abbrev testOpened (t : TestToken) (s : State) : State :=
  { s with faults := { s.faults with test := true, testScope := t.scope, remain := t.duration.toNat } }

theorem testUnlock_opens {r : TokenRead} (hc : checkToken s (parseToken r) = none) : exec (.testUnlock r) s = .next (mboxEnd 0x0060 .ok []
    (logDetection 0x10 0x20 3 false 0 (islandCycles s 0x10) 1 0 (testOpened (parseToken r) (nonceUsed s)))) :=
  next_mailbox_free hs (by simp only [hc]; rfl)

theorem exec_testLock : exec .testLock s = .next (mboxEnd 0x0060 .ok [] (endTest s)) := next_mailbox_free hs rfl

end

theorem exec_testModeExpiry (ht : s.faults.test = true) (h0 : s.faults.remain = 0) : exec .testModeExpiry s = .next (endTest s) :=
  congrArg Host.Outcome.next (if_pos (by simp [ht, h0]))

/-! ### SELF_TEST (R499) -/

section
variable {f : FieldId} {fl : Field} {addr : BitVec 64} {tiles : List Tile} (hs : MailboxFree s)
include hs

theorem selfTest_undefined (hf : fieldAt s f = none) : exec (.selfTest f addr tiles) s = .next (mboxEnd 0x0061 .countMismatch [] s) :=
  next_mailbox_free hs (by simp only [hf])

/-- The failing pairs of each band of a field. -/
abbrev badPairs (s : State) (fl : Field) (tiles : List Tile) : List (Nat × List Nat) := fl.bands.map fun b => (b, failingPairs s b tiles)

/-- The field is reset and its failing pairs retire. -/
abbrev pairsRetired (f : FieldId) (bad : List (Nat × List Nat)) (s : State) : State :=
  bad.foldl (fun s (e : Nat × List Nat) => e.2.foldl (fun s j => retirePair e.1 j s) s) (resetField f (statusCode .cancelled) s)

/-- The report of a self-test: a word of failing pairs for each band, with its fence (R499). -/
abbrev testReport (u : State) (bad : List (Nat × List Nat)) : List Byte :=
  padTo 64 (bad.flatMap fun e => leBytes 4 (sumN (e.2.map fun j => 2 ^ j) + 0x80000000 * b2n (u.faults.fencedBands.getLsbD e.1)))

section
variable (hf : fieldAt s f = some fl)
include hf

theorem selfTest_serving (h : fieldServes s f = true) : exec (.selfTest f addr tiles) s = .next (mboxEnd 0x0061 .countMismatch [] s) :=
  next_mailbox_free hs (by simp only [hf, h, if_true])

variable (h : fieldServes s f = false)
include h

theorem selfTest_misaligned (ha : addr.toNat % 64 ≠ 0) : exec (.selfTest f addr tiles) s = .next (mboxEnd 0x0061 .badAlignment [] s) :=
  next_mailbox_free hs (by simp only [hf, h, aligned, beq_eq_false_iff_ne.mpr ha, Bool.false_eq_true, if_false, Bool.not_false, if_true])

/-- A self-test whose report address is good. -/
theorem exec_selfTest (ha : addr.toNat % 64 = 0) : exec (.selfTest f addr tiles) s = .next (mboxEnd 0x0061 .ok [] (noteService s (
    if addr = 0 then pairsRetired f (badPairs s fl tiles) s
    else hostWrite (pairsRetired f (badPairs s fl tiles) s) addr.toNat
      (testReport (pairsRetired f (badPairs s fl tiles) s) (badPairs s fl tiles))))) :=
  next_mailbox_free hs (by simp only [hf, h, aligned, ha, beq_self_eq_true, Bool.not_true, Bool.false_eq_true, if_false])

theorem selfTest_unreported (ha : addr = 0) :
    exec (.selfTest f addr tiles) s = .next (mboxEnd 0x0061 .ok [] (noteService s (pairsRetired f (badPairs s fl tiles) s))) := by
  rw [exec_selfTest hs hf h (by rw [ha]; rfl), if_pos ha]

theorem selfTest_reported (h0 : addr ≠ 0) (ha : addr.toNat % 64 = 0) : exec (.selfTest f addr tiles) s = .next (mboxEnd 0x0061 .ok []
    (noteService s (hostWrite (pairsRetired f (badPairs s fl tiles) s) addr.toNat
      (testReport (pairsRetired f (badPairs s fl tiles) s) (badPairs s fl tiles))))) := by
  rw [exec_selfTest hs hf h ha, if_neg h0]

end

end

/-! ### Loopbacks (R495, R496, R501, R502) -/

section
variable {l : LinkId} {w : BitVec 32} {x y : TestLink}

/-- TEST.LINK_l. -/
abbrev testLinkAt (s : State) (l : LinkId) : TestLink := tget ({} : TestLink) l.val s.testLinks

/-- The counters of a loopback at zero. -/
abbrev countersZero (x : TestLink) : TestLink := { x with bits := 0, errors := 0, laneErr := 0 }

/-- TEST.LINK_l as a write leaves it. -/
abbrev testLinkWritten (w : BitVec 32) (x : TestLink) : TestLink :=
  { (if w.getLsbD 3 then countersZero x else x) with mode := w.setWidth 2, prbs31 := w.getLsbD 2 }

variable (ho : barOpen s = true) (ht : s.faults.test = true)
include ho ht

theorem exec_testLinkClear : exec (.testLinkClear l) s = .next (setTestLink l (countersZero (testLinkAt s l)) s) :=
  congrArg Host.Outcome.next (if_neg (by simp [ho, ht]))

variable (hx : x = testLinkAt s l) (hy : y = testLinkWritten w x)
include hx hy

theorem exec_testLinkMode : exec (.testLinkMode l w) s = .next (
    if x.mode = 0 ∧ y.mode ≠ 0 then modLink l (clearLink .down) (setTestLink l y s)
    else if x.mode ≠ 0 ∧ y.mode = 0 ∧ (linkAt s l).enable = true then startTraining l (setTestLink l y s)
    else setTestLink l y s) := by
  subst hy hx
  exact congrArg Host.Outcome.next (if_neg (by simp [ho, ht]))

theorem testLinkMode_enters (h1 : x.mode = 0) (h2 : y.mode ≠ 0) :
    exec (.testLinkMode l w) s = .next (modLink l (clearLink .down) (setTestLink l y s)) := by
  rw [exec_testLinkMode ho ht hx hy, if_pos ⟨h1, h2⟩]

theorem testLinkMode_leaves (h1 : x.mode ≠ 0) (h2 : y.mode = 0) (he : (linkAt s l).enable = true) :
    exec (.testLinkMode l w) s = .next (startTraining l (setTestLink l y s)) := by
  rw [exec_testLinkMode ho ht hx hy, if_neg fun h => h1 h.1, if_pos ⟨h1, h2, he⟩]

theorem testLinkMode_stays (h : x.mode = y.mode) : exec (.testLinkMode l w) s = .next (setTestLink l y s) := by
  rw [exec_testLinkMode ho ht hx hy, if_neg fun ⟨h1, h2⟩ => h2 (h ▸ h1), if_neg fun ⟨h1, h2, _⟩ => h1 (h ▸ h2)]

end

/-! ### Memory tests (R495, R497, R501) -/

section
variable {w : BitVec 32} {x : TestMem}

/-- TEST.MEM with TARGET and MODE as a write sets them. -/
abbrev testMemWritten (w : BitVec 32) (s : State) : TestMem :=
  { s.testMem with target := w.setWidth 5, mode := if bits w.toNat 5 2 = 3 then s.testMem.mode else BitVec.ofNat 2 (bits w.toNat 5 2) }

/-- A memory test begins. -/
abbrev testBegun (x : TestMem) (s : State) : State := { s with testMem := { x with refused := false, busy := true, pass := false, fails := 0 } }

theorem starts_not_idle (h7 : w.getLsbD 7 = true) (hm : x.mode ≠ 0) : ¬(!w.getLsbD 7 || x.mode == 0) = true := by
  rw [h7, beq_eq_false_iff_ne.mpr hm]
  decide

section
variable (ho : barOpen s = true) (ht : s.faults.test = true) (hb : s.testMem.busy = false) (hx : x = testMemWritten w s)
include ho ht hb hx

theorem exec_testMemStart : exec (.testMemStart w) s = .next (
    if !w.getLsbD 7 || x.mode == 0 then { s with testMem := x }
    else if !targetIdle s x.target.toNat then { s with testMem := { x with refused := true } }
    else if x.mode = 2 then patternOver x.target.toNat (testBegun x s) else testBegun x s) := by
  subst hx
  exact congrArg Host.Outcome.next (if_neg (by simp [ho, ht, hb]))

theorem testMemStart_unstarted (h : w.getLsbD 7 = false ∨ x.mode = 0) : exec (.testMemStart w) s = .next { s with testMem := x } := by
  rw [exec_testMemStart ho ht hb hx, if_pos (by simpa only [Bool.or_eq_true, Bool.not_eq_true', beq_iff_eq] using h)]

section
variable (h7 : w.getLsbD 7 = true) (hm : x.mode ≠ 0)
include h7 hm

theorem testMemStart_refused (hi : targetIdle s x.target.toNat = false) :
    exec (.testMemStart w) s = .next { s with testMem := { x with refused := true } } := by
  rw [exec_testMemStart ho ht hb hx, if_neg (starts_not_idle h7 hm), if_pos (by simp [hi])]

theorem testMemStart_begins (hi : targetIdle s x.target.toNat = true) :
    exec (.testMemStart w) s = .next (if x.mode = 2 then patternOver x.target.toNat (testBegun x s) else testBegun x s) := by
  rw [exec_testMemStart ho ht hb hx, if_neg (starts_not_idle h7 hm), if_neg (by simp [hi])]

theorem testMemStart_pattern (hi : targetIdle s x.target.toNat = true) (h2 : x.mode = 2) :
    exec (.testMemStart w) s = .next (patternOver x.target.toNat (testBegun x s)) := by
  rw [testMemStart_begins ho ht hb hx h7 hm hi, if_pos h2]

theorem testMemStart_other (hi : targetIdle s x.target.toNat = true) (h2 : x.mode ≠ 2) : exec (.testMemStart w) s = .next (testBegun x s) := by
  rw [testMemStart_begins ho ht hb hx h7 hm hi, if_neg h2]

end

end

theorem exec_testMemDone (hb : s.testMem.busy = true) (n : Nat) :
    exec (.testMemDone n) s = .next { s with testMem := { s.testMem with busy := false, pass := n == 0, fails := satAdd 0 n } } :=
  congrArg Host.Outcome.next (if_pos hb)

end

end Sys2Proof.Machine

open Sys2Proof Sys2Proof.Machine

/-- Settles O30: each command by its equations above. A report address off the 64-byte grid ends BAD_ALIGNMENT by the model's choice (log 73); a
write while a memory test is busy is outside the statement (log 165). -/
theorem testAccessAndRegisters : Obligations.TestAccessAndRegisters := by
  unfold Obligations.TestAccessAndRegisters
  refine ⟨⟨fun s hs => ⟨exec_testNonce hs, fun r st => testUnlock_fails hs, fun r => testUnlock_opens hs, exec_testLock hs,
      fun f addr tiles => selfTest_undefined hs, fun f fl addr tiles => selfTest_serving hs,
      fun f fl addr tiles hf h => ⟨selfTest_misaligned hs hf h, selfTest_unreported hs hf h, selfTest_reported hs hf h⟩⟩,
      fun s => exec_testModeExpiry⟩,
    fun s l w ho ht => ⟨testLinkMode_enters ho ht rfl rfl, testLinkMode_leaves ho ht rfl rfl, testLinkMode_stays ho ht rfl rfl,
      exec_testLinkClear ho ht⟩,
    fun s w ho ht hb => ⟨testMemStart_unstarted ho ht hb rfl, testMemStart_refused ho ht hb rfl,
      fun h7 hm hi => ⟨testMemStart_pattern ho ht hb rfl h7 hm hi, testMemStart_other ho ht hb rfl h7 hm hi⟩⟩,
    fun s n hb => exec_testMemDone hb n⟩
end

section
/-!
PROOFS. Passes over copies of shards, and new column maps.
-/

namespace Sys2Proof.Machine

variable {s : State}

/-! ### REHASH_PASS (R335, R336) -/

/-- Counting the bytes of a tier changes the counters only. -/
theorem chargeTier_frame (tag : Option Nat) (tier2 : Bool) (n : Nat) (s : State) :
    chargeTier tag tier2 n s = setAcct s (chargeTier tag tier2 n s).acct := by
  cases tier2 <;> cases tag <;> rfl

theorem chargeTier_tick (tag : Option Nat) (tier2 : Bool) (n : Nat) : (chargeTier tag tier2 n s).tick = s.tick := by
  rw [chargeTier_frame, setAcct_tick]

theorem rangeLost_chargeTier (tag : Option Nat) (tier2 : Bool) (n f a b : Nat) : rangeLost (chargeTier tag tier2 n s) f a b = rangeLost s f a b := by
  rw [chargeTier_frame]; rfl

theorem storeLost_chargeTier (tag : Option Nat) (tier2 : Bool) (n : Nat) (c : ShardCopy) : storeLost (chargeTier tag tier2 n s) c = storeLost s c := by
  rw [chargeTier_frame]; rfl

section
variable {k : FieldId} {d hash : Digest} {i : Nat} {b : Bool} {c : ShardCopy}

section
variable (hc : copyIn (fieldModels s k) d i = some c)
include hc

theorem rehashPass_field_early (hd : passDue s (some k.val) c = false) : exec (.rehashPass (some k) d i hash b) s = .next s := by
  have he : exec (.rehashPass (some k) d i hash b) s = execRehashPass (some k) d i hash b s := rfl
  simp only [he, execRehashPass, Option.map_some, hc, hd, Bool.not_false, if_true]

variable (hd : passDue s (some k.val) c = true) (ht : s.faults.test = false) (hl : rangeLost s k c.dva c.bytes = false)
include hd ht hl

theorem rehashPass_field_matches (hh : hash = c.digest) : exec (.rehashPass (some k) d i hash false) s =
    .next (setCopy (some k.val) d i (fun c => { c with since := s.tick }) (chargeTier none false c.bytes s)) := by
  have he : exec (.rehashPass (some k) d i hash false) s = execRehashPass (some k) d i hash false s := rfl
  have hw : (hash != c.digest) = false := by simp [hh]
  simp only [he, execRehashPass, Option.map_some, Option.isNone_some, hc, hd, hw, rangeLost_chargeTier, hl, meetLines_off,
    injSlot_off, chargeTier_test, ht, chargeTier_tick, Bool.not_true, Bool.or_false, Bool.false_eq_true, if_false]

theorem rehashPass_field_fails (hh : hash ≠ c.digest) : exec (.rehashPass (some k) d i hash false) s =
    .next (settleCopies (quarantineEnds k c (noteFence c.quarantined (shardLoc i k)
      (setCopy (some k.val) d i (fun c => { c with quarantined := true, since := s.tick })
        (logScoped 9 0x0A (passIsland (chargeTier none false c.bytes s) (some k.val) c) (shardLoc i k) false (statusCode .quarantinedShard)
          (chargeTier none false c.bytes s)))))) := by
  have he : exec (.rehashPass (some k) d i hash false) s = execRehashPass (some k) d i hash false s := rfl
  have hw : (hash != c.digest) = true := by simp [hh]
  simp only [he, execRehashPass, Option.map_some, Option.isNone_some, Option.getD_some, hc, hd, hw, rangeLost_chargeTier, hl, meetLines_off,
    injSlot_off, chargeTier_test, ht, chargeTier_tick, logScoped_tick, Bool.not_true, Bool.or_false, Bool.or_true, Bool.false_eq_true, if_false]

end

section
variable (hc : copyIn s.models.store d i = some c)
include hc

theorem rehashPass_store_early (hd : passDue s none c = false) : exec (.rehashPass none d i hash b) s = .next s := by
  have he : exec (.rehashPass none d i hash b) s = execRehashPass none d i hash b s := rfl
  simp only [he, execRehashPass, Option.map_none, hc, hd, Bool.not_false, if_true]

variable (hd : passDue s none c = true) (ht : s.faults.test = false) (hl : storeLost s c = false)
include hd ht hl

theorem rehashPass_store_matches (hh : hash = c.digest) : exec (.rehashPass none d i hash false) s =
    .next (setCopy none d i (fun c => { c with since := s.tick }) (chargeTier none true c.bytes s)) := by
  have he : exec (.rehashPass none d i hash false) s = execRehashPass none d i hash false s := rfl
  have hw : (hash != c.digest) = false := by simp [hh]
  simp only [he, execRehashPass, Option.map_none, Option.isNone_none, hc, hd, hw, storeLost_chargeTier, hl, meetLines_off,
    injSlot_off, chargeTier_test, ht, chargeTier_tick, Bool.not_true, Bool.or_false, Bool.false_eq_true, if_false]

theorem rehashPass_store_fails (hh : hash ≠ c.digest) : exec (.rehashPass none d i hash false) s =
    .next (noteFence c.quarantined (shardLoc i 0) (setCopy none d i (fun c => { c with quarantined := true, since := s.tick })
      (logScoped 9 0x0A 0x10 (shardLoc i 0) false (statusCode .quarantinedShard) (chargeTier none true c.bytes s)))) := by
  have he : exec (.rehashPass none d i hash false) s = execRehashPass none d i hash false s := rfl
  have hw : (hash != c.digest) = true := by simp [hh]
  simp only [he, execRehashPass, Option.map_none, Option.isNone_none, Option.getD_none, hc, hd, hw, storeLost_chargeTier, hl, meetLines_off, passIsland,
    injSlot_off, chargeTier_test, ht, chargeTier_tick, logScoped_tick, Bool.not_true, Bool.or_false, Bool.or_true, Bool.false_eq_true, if_false]

end

end

/-! ### COLUMN_MAP_APPLY (R484, R485) -/

/-- A key that is taken out of a table reads the default. -/
theorem tget_tdel_same {α : Type} (d : α) (k : Nat) (t : Tab α) : tget d k (tdel k t) = d := by simp [tget]

theorem applyMap_pairs (b : Nat) : tget 0 b (applyMap b s).fld.pairs = tget 0 b s.store.retired := tget_tset_same ..

theorem applyMap_pendingPairs (b : Nat) : tget 0 b (applyMap b s).fld.pendingPairs = 0 := tget_tdel_same ..

section
variable {b : BandId}

theorem columnMapApply_idle (hp : tget 0 b.val s.fld.pendingPairs = 0) : exec (.columnMapApply b) s = .next s :=
  congrArg Host.Outcome.next (if_pos (.inl hp))

section
variable (hp : tget 0 b.val s.fld.pendingPairs ≠ 0) (hm : s.entry.main = true) (hx : s.faults.fatal = false)
include hp hm hx

theorem columnMapApply_fieldless (hb : fieldOfBand s b = none) : exec (.columnMapApply b) s =
    .next { applyMap b s with grid := { (applyMap b s).grid with units := (applyMap b s).grid.units.filter fun e => tileBand e.1 != b.val } } :=
  congrArg Host.Outcome.next ((if_neg (not_or.mpr ⟨hp, by simp [hm, hx]⟩)).trans (by simp only [hb]))

variable {f : Nat} {fl : Field} (hb : fieldOfBand s b = some f) (hf : fieldAt s f = some fl)
include hb hf

theorem columnMapApply_waits (hr : mapReady s f fl = false) : exec (.columnMapApply b) s = .next s :=
  congrArg Host.Outcome.next ((if_neg (not_or.mpr ⟨hp, by simp [hm, hx]⟩)).trans (by simp only [hb, hf, hr, Bool.not_false, if_true]))

theorem columnMapApply_applies (hr : mapReady s f fl = true) : ∃ u, u = fl.slots.foldl (refillSlot f) (clearUnits f fl (applyMap b (wakeField f s))) ∧
    exec (.columnMapApply b) s = .next (if fl.bands.any (fun k => tget 0 k u.fld.pendingPairs != 0) then u else releaseField f u) :=
  ⟨_, rfl, congrArg Host.Outcome.next ((if_neg (not_or.mpr ⟨hp, by simp [hm, hx]⟩)).trans (by simp only [hb, hf, hr, Bool.not_true, Bool.false_eq_true, if_false]))⟩

end

end

end Sys2Proof.Machine

open Sys2Proof Sys2Proof.Machine

/-- Settles O52: a pass by its copy's time and hash, a pending map by its band's field. That the quarantine of an already quarantined copy is not
counted as a new fence action is the model's choice (log 146). -/
theorem rehashAndColumnMaps : Obligations.RehashAndColumnMaps := by
  unfold Obligations.RehashAndColumnMaps
  refine ⟨fun s k d i hash c hc hd ht hl u hu => hu ▸ ⟨rehashPass_field_matches hc hd ht hl, rehashPass_field_fails hc hd ht hl⟩,
    fun s d i hash c hc hd ht hl u hu => hu ▸ ⟨rehashPass_store_matches hc hd ht hl, rehashPass_store_fails hc hd ht hl⟩,
    fun s d i hash b c => rehashPass_store_early, fun s k d i hash b c => rehashPass_field_early, fun s b => columnMapApply_idle,
    fun s b f fl hp hm hx hb hf => ⟨columnMapApply_waits hp hm hx hb hf, columnMapApply_applies hp hm hx hb hf⟩,
    fun s b hp hm hx hb => ⟨_, columnMapApply_fieldless hp hm hx hb, applyMap_pairs b.val, applyMap_pendingPairs b.val, fun e he => ?_⟩,
    fun s b => ⟨_, rfl, applyMap_pairs b, applyMap_pendingPairs b⟩⟩
  simpa using (List.mem_filter.mp he).2
end

section
/-!
PROOFS. The link layer: flits received, resends, fast retrains and training.
-/

namespace Sys2Proof.Machine

variable {s : State} {l : LinkId}

/-! ### FLIT_RECEIVE (R342 to R344) -/

/-- The link receives codewords: up, and not in a fast retrain. -/
structure Receives (s : State) (l : LinkId) : Prop where
  on : fabricOn s = true
  live : linkLive s l = true
  slow : (linkAt s l).fast = false

/-- No injection spoils a codeword: test mode is off, and no earlier one still counts down. -/
theorem injectLink_off (hi : (linkAt s l).injLeft = 0) (ht : s.faults.test = false) : injectLink l s = s := by
  simp [injectLink, linkSlot, hi, ht]

section
variable {f : Flit} (hr : Receives s l) (hi : (linkAt s l).injLeft = 0) (ht : s.faults.test = false)
include hr hi ht

theorem exec_flitReceive (hc : (f.corrected && f.good) = false) : exec (.flitReceive l f) s = .next (
    if f.good = false then putOnWire l (ctrlFlit true [])
      (if (linkAt s l).rxBad then setLink s l { linkAt s l with resends := (linkAt s l).resends + 1, spoiled := false }
       else setLink s l { linkAt s l with rxBad := true, resends := 0, spoiled := false, retries := min 0xFFFFFFFF ((linkAt s l).retries + 1) })
    else if f.seq ≠ (linkAt s l).rxSeq + 1 then s
    else takeFlit l f (if (linkAt s l).rxBad then logResend l (linkAt s l).spoiled (setLink s l { linkAt s l with rxBad := false, resends := 0 }) else s)) := by
  have he : exec (.flitReceive l f) s = execFlitReceive l f s := rfl
  simp only [he, execFlitReceive, hr.on, hr.live, hr.slow, hc, injectLink_off hi ht, hi, bne_self_eq_false, Bool.not_true, Bool.or_false,
    Bool.false_and, Bool.and_false, Bool.false_eq_true, if_false, Bool.not_eq_true']

theorem flitReceive_other (hg : f.good = true) (hc : f.corrected = false) (hq : f.seq ≠ (linkAt s l).rxSeq + 1) :
    exec (.flitReceive l f) s = .next s := by
  rw [exec_flitReceive hr hi ht (by simp [hc]), if_neg (by simp [hg]), if_pos hq]

theorem flitReceive_next (hg : f.good = true) (hc : f.corrected = false) (hq : f.seq = (linkAt s l).rxSeq + 1) (hb : (linkAt s l).rxBad = false) :
    exec (.flitReceive l f) s = .next (takeFlit l f s) := by
  rw [exec_flitReceive hr hi ht (by simp [hc]), if_neg (by simp [hg]), if_neg (not_not.mpr hq), if_neg (Bool.eq_false_iff.mp hb)]

theorem flitReceive_recovers (hg : f.good = true) (hc : f.corrected = false) (hq : f.seq = (linkAt s l).rxSeq + 1) (hb : (linkAt s l).rxBad = true) :
    exec (.flitReceive l f) s = .next (takeFlit l f (logResend l (linkAt s l).spoiled (setLink s l { linkAt s l with rxBad := false, resends := 0 }))) := by
  rw [exec_flitReceive hr hi ht (by simp [hc]), if_neg (by simp [hg]), if_neg (not_not.mpr hq), if_pos hb]

theorem flitReceive_bad (hg : f.good = false) (hb : (linkAt s l).rxBad = false) : exec (.flitReceive l f) s = .next (putOnWire l (ctrlFlit true [])
    (setLink s l { linkAt s l with rxBad := true, resends := 0, spoiled := false, retries := min 0xFFFFFFFF ((linkAt s l).retries + 1) })) := by
  rw [exec_flitReceive hr hi ht (by simp [hg]), if_pos hg, if_neg (Bool.eq_false_iff.mp hb)]

theorem flitReceive_badAgain (hg : f.good = false) (hb : (linkAt s l).rxBad = true) : exec (.flitReceive l f) s =
    .next (putOnWire l (ctrlFlit true []) (setLink s l { linkAt s l with resends := (linkAt s l).resends + 1, spoiled := false })) := by
  rw [exec_flitReceive hr hi ht (by simp [hg]), if_pos hg, if_pos hb]

end

/-- A control flit acknowledges, resends on NAK, and returns credits; it brings no bytes of a packet. -/
theorem takeFlit_ctrl {l : LinkId} {f : Flit} (hf : f.ctrl = true) : takeFlit l f s = setLink s l { linkAt s l with
    rxSeq := f.seq, retry := ackFlits f.ackSeq (linkAt s l).retry
    wire := if f.nak then (linkAt s l).wire ++ ackFlits f.ackSeq (linkAt s l).retry else (linkAt s l).wire
    credits := (List.range 8).foldl (fun t ch => tset 512 ch (min 512 (tget 512 ch t + f.credits.getD ch 0)) t) (linkAt s l).credits } := by
  simp only [takeFlit, hf, if_true]

/-! ### RETRY_EXHAUSTED and LANE_LOSS_OF_LOCK (R344) -/

theorem retryExhausted_fails (hr : Receives s l) (w : Fin 16) (hb : (linkAt s l).rxBad = true) (h16 : 16 ≤ (linkAt s l).resends) :
    exec (.retryExhausted l w) s = .next (retryFails l w s) :=
  congrArg Host.Outcome.next (if_pos (by simp [hr.on, hr.live, hr.slow, hb, h16]))

theorem retryExhausted_ignored (w : Fin 16) (h : (linkAt s l).rxBad = false ∨ (linkAt s l).resends < 16) : exec (.retryExhausted l w) s = .next s :=
  congrArg Host.Outcome.next (if_neg (by rcases h with h | h <;> simp [h]))

theorem laneLossOfLock_fails (hr : Receives s l) (lane : Fin 17) : exec (.laneLossOfLock l lane) s = .next (retryFails l lane s) :=
  congrArg Host.Outcome.next (if_pos (by simp [hr.on, hr.live, hr.slow]))

/-! ### FAST_RETRAIN_DONE (R344, R468) -/

theorem fastRetrainDone_ignored {ok : Bool} (hx : (linkAt s l).fast = false) : exec (.fastRetrainDone l ok) s = .next s :=
  congrArg Host.Outcome.next (if_pos (by simp [hx]))

section
variable (ho : fabricOn s = true) (hx : (linkAt s l).fast = true) (hl : inLoopback s l = false)
include ho hx hl

theorem fastRetrainDone_fails :
    exec (.fastRetrainDone l false) s = .next (loseLink l (linkAt s l).swapLane (injReset (fun y => y.island.toNat == 0x18 + l.val) s)) :=
  congrArg Host.Outcome.next (if_neg (by simp [ho, hx, hl]))

theorem fastRetrainDone_swaps {t : State} (ht : t = injReset (fun y => y.island.toNat == 0x18 + l.val) s) (hw : (linkAt s l).swapLane ≠ 16) :
    ∃ u, u = setLink t l { linkAt s l with fast := false, resends := 0, state := .upSpare, spared := (linkAt s l).swapLane, swapLane := 31, wire := (linkAt s l).wire ++ (linkAt s l).retry } ∧
      ∃ v, v = { u with store := { u.store with spareLane := tset 31 l.val (linkAt s l).swapLane u.store.spareLane, spareEver := setBit u.store.spareEver l true } } ∧
      exec (.fastRetrainDone l true) s = .next (noteService s (recordEvent 1 (BitVec.ofNat 64 (linkAt s l).swapLane)
        (logDetection (BitVec.ofNat 8 (0x18 + l.val)) 0x0B 0 false 6 (islandCycles v (0x18 + l.val)) (BitVec.ofNat 64 (linkAt s l).swapLane) 0 v))) := by
  subst ht
  refine ⟨_, rfl, _, rfl, congrArg Host.Outcome.next ?_⟩
  exact (if_neg (by simp [ho, hx, hl])).trans ((if_neg (by decide)).trans (if_neg hw))

end

/-! ### LINK_TRAINING_DONE (R346) -/

theorem linkTrainingDone_ignored {peer : BitVec 20} (hx : (linkAt s l).state ≠ .training) : exec (.linkTrainingDone l peer) s = .next s :=
  congrArg Host.Outcome.next (if_pos (by simp [hx]))

section
variable {peer : BitVec 20} (ho : fabricOn s = true) (hx : (linkAt s l).state = .training) (he : (linkAt s l).enable = true)
include ho hx he

theorem linkTrainingDone_down (hp : peer = s.fab.nodeId ∨ peer = Config.unassignedNode) :
    exec (.linkTrainingDone l peer) s = .next (setLink s l { clearLink .down (linkAt s l) with peer := peer }) :=
  congrArg Host.Outcome.next ((if_neg (by simp [ho, hx, he])).trans (if_pos hp))

theorem linkTrainingDone_up (h1 : peer ≠ s.fab.nodeId) (h2 : peer ≠ Config.unassignedNode) (hn : tget 31 l.val s.store.spareLane = 31)
    (hf : (linkAt s l).fenced = false) : exec (.linkTrainingDone l peer) s =
    .next (noteService s (setLink s l { clearLink .up (linkAt s l) with peer := peer, spared := 31, fenced := false })) := by
  refine congrArg Host.Outcome.next ((if_neg (by simp [ho, hx, he])).trans ((if_neg (not_or.mpr ⟨h1, h2⟩)).trans ?_))
  simp only [hn, hf, if_true, Bool.false_eq_true, if_false]

end

end Sys2Proof.Machine

open Sys2Proof Sys2Proof.Machine

/-- Settles O55: each event of a link by its equations above. -/
theorem linksCarryFlits : Obligations.LinksCarryFlits := by
  unfold Obligations.LinksCarryFlits
  refine ⟨fun s l f ho hl hx hi ht => ?_, fun s l f hf => ⟨_, takeFlit_ctrl hf, ?_⟩, fun s l w ho hl hx => ?_, fun s l lane => ⟨fun h => if_pos h, fun h => if_neg h⟩,
    fun s l ho hx hl t ht => ⟨ht ▸ fastRetrainDone_fails ho hx hl, fastRetrainDone_swaps ho hx hl ht⟩, fun s l ok => fastRetrainDone_ignored,
    fun s l peer ho hx he => ⟨linkTrainingDone_down ho hx he, linkTrainingDone_up ho hx he⟩, fun s l peer => linkTrainingDone_ignored⟩
  · have hr : Receives s l := ⟨ho, hl, hx⟩
    exact ⟨flitReceive_other hr hi ht, flitReceive_next hr hi ht, flitReceive_recovers hr hi ht, flitReceive_bad hr hi ht, flitReceive_badAgain hr hi ht⟩
  · simp
  · have hr : Receives s l := ⟨ho, hl, hx⟩
    exact ⟨retryExhausted_fails hr w, retryExhausted_ignored w, laneLossOfLock_fails hr⟩
end

section
/-!
PROOFS. Packets at a switch and at their receiver, and transfers at their source.
-/

namespace Sys2Proof.Machine

variable {s : State}

/-! ### The decision of a hop (R349) -/

section
variable {p : Packet} {tc : Nat}

theorem hopOf_unrouted (h : routeFor s p.dest tc = none) : hopOf s p tc = .drop 1 := by simp only [hopOf, h]

variable {e : Route} (h : routeFor s p.dest tc = some e)
include h

theorem hopOf_here (he : e.egress = 0) : hopOf s p tc = (if acceptsFrom s p.src then .deliver else .drop 8) := by
  simp only [hopOf, h, he, if_true]

theorem hopOf_dead (he : e.egress ≠ 0) (hd : e.egress = 7 ∨ linkLive s (e.egress.toNat - 1) = false) : hopOf s p tc = .drop 1 := by
  simp only [hopOf, h, if_neg he, if_pos hd]

theorem hopOf_onward (h1 : 1 ≤ e.egress.toNat) (h6 : e.egress.toNat ≤ 6) (hl : linkLive s (e.egress.toNat - 1) = true) :
    hopOf s p tc = (if hopLimit s ≤ p.hops then .drop 7 else .forward (e.egress.toNat - 1) e) := by
  have h0 : e.egress ≠ 0 := fun he => by simp [he] at h1
  have h7 : e.egress ≠ 7 := fun he => by simp [he] at h6
  have hd : ¬ (e.egress = 7 ∨ linkLive s (e.egress.toNat - 1) = false) := not_or.mpr ⟨h7, by simp [hl]⟩
  simp only [hopOf, h, if_neg h0, if_neg hd]

end

/-! ### PACKET_HOP (R349, R350) -/

section
variable {p : Packet} {tc : Fin 4} {vc : Bool} (ho : fabricOn s = true)
include ho

theorem packetHop_routes {l : LinkId} (ha : s.fab.arrived.contains (l.val, tc.val, vc, p) = false) :
    exec (.packetHop p tc vc (some l)) s = .next (routePacket p tc vc s) := by
  have he : exec (.packetHop p tc vc (some l)) s = execPacketHop p tc vc (some l) s := rfl
  simp only [he, execPacketHop, ho, ha, Bool.not_true, Bool.false_eq_true, if_false]

theorem packetHop_refused (hh : hopOf s p tc = .drop 1) : exec (.packetHop p tc vc none) s = .next (failTx p.transfer.toNat .linkDown s) :=
  congrArg Host.Outcome.next ((if_neg (by simp [ho])).trans (by simp only [sendPacket, hh]))

end

section
variable {p : Packet} {tc : Fin 4} {vc : Bool}

theorem routePacket_drops {n : Nat} (hh : hopOf s p tc = .drop n) : routePacket p tc vc s = sendDrop p n 0 s := by
  simp only [routePacket, hh]

theorem routePacket_delivers (hh : hopOf s p tc = .deliver) :
    routePacket p tc vc s = { s with fab := { s.fab with delivered := s.fab.delivered ++ [(p, tc.val)] } } := by
  simp only [routePacket, takeHop, hh]

theorem routePacket_forwards {k : Nat} {e : Route} (hh : hopOf s p tc = .forward k e) :
    routePacket p tc vc s = enqueue k (forwarded p vc e).1 tc (forwarded p vc e).2 s := by
  simp only [routePacket, takeHop, hh]

end

/-! ### PACKET_DELIVER (R352, R462) -/

/-- What the receiver of a transfer does with a packet of it. -/
def takePacket (x : RxRun) (p : Packet) (u : State) : State :=
  if x.accepted < p.offset then u
  else if p.offset < x.accepted ∨ x.finished = true then sendAck x u
  else match acceptPacket x p u with
    | .error (n, st) => sendDrop p n st u
    | .ok (y, v) => if y.finished ∨ 16 ≤ y.unacked then sendAck y v else setRx y v

section
variable {x : RxRun} {p : Packet} {u : State}

theorem takePacket_early (hp : x.accepted < p.offset) : takePacket x p u = u := if_pos hp

theorem takePacket_late (hp : p.offset < x.accepted) : takePacket x p u = sendAck x u :=
  (if_neg (Nat.lt_asymm hp)).trans (if_pos (.inl hp))

variable (hp : p.offset = x.accepted) (hf : x.finished = false)
include hp hf

theorem takePacket_refused {n : Nat} {st : BitVec 16} (ha : acceptPacket x p u = .error (n, st)) : takePacket x p u = sendDrop p n st u := by
  simp only [takePacket, hp, hf, ha, Nat.lt_irrefl, Bool.false_eq_true, or_self, if_false]

theorem takePacket_accepted {y : RxRun} {v : State} (ha : acceptPacket x p u = .ok (y, v)) :
    takePacket x p u = (if y.finished ∨ 16 ≤ y.unacked then sendAck y v else setRx y v) := by
  simp only [takePacket, hp, hf, ha, Nat.lt_irrefl, Bool.false_eq_true, or_self, if_false]

end

section
variable {p : Packet} {tc : Fin 4} {u : State} (ho : fabricOn s = true) (h2 : 2 ≤ p.kind) (h6 : p.kind ≤ 6)
  (hu : u = { s with fab := { s.fab with delivered := s.fab.delivered.erase (p, tc.val) } })
include ho h2 h6 hu

theorem packetDeliver_d3hot (hd : s.host.d3hot = true) : exec (.packetDeliver p tc) s = .next (sendDrop p 2 0 u) := by
  subst hu
  exact congrArg Host.Outcome.next ((if_neg (by simp [ho]; omega)).trans ((if_neg (by omega)).trans (if_pos hd)))

variable (hd : s.host.d3hot = false) {x : RxRun} (hx : rxRunAt s p.src p.transfer.toNat = some x)
include hd hx

theorem exec_packetDeliver : exec (.packetDeliver p tc) s = .next (takePacket x p u) := by
  subst hu
  refine congrArg Host.Outcome.next ((if_neg (by simp [ho]; omega)).trans ((if_neg (by omega)).trans ((if_neg (Bool.eq_false_iff.mp hd)).trans ?_)))
  rw [show rxRunAt { s with fab := { s.fab with delivered := s.fab.delivered.erase (p, tc.val) } } p.src p.transfer.toNat = some x from hx]
  rfl

end

/-! ### ACK_SEND_TIMER (R352) -/

section
variable {src : BitVec 20} {tr : BitVec 32} {x : RxRun} (hx : rxRunAt s src tr.toNat = some x)
include hx

theorem exec_ackSendTimer : exec (.ackSendTimer src tr) s = .next (if fabricOn s && x.unacked != 0 then sendAck x s else s) := by
  have he : exec (.ackSendTimer src tr) s = execAckSendTimer src tr s := rfl
  simp only [he, execAckSendTimer, hx]

theorem ackSendTimer_sends (ho : fabricOn s = true) (hn : x.unacked ≠ 0) : exec (.ackSendTimer src tr) s = .next (sendAck x s) := by
  rw [exec_ackSendTimer hx, if_pos (by simp [ho, hn])]

theorem ackSendTimer_idle (hn : x.unacked = 0) : exec (.ackSendTimer src tr) s = .next s := by
  rw [exec_ackSendTimer hx, if_neg (by simp [hn])]

end

/-! ### ACK_RECEIVE (R352) -/

section
variable {tr : BitVec 32} {acc : Nat} {a2 a3 : BitVec 16} {t : TxRun} {u : State} (ho : fabricOn s = true) (ht : txAt s tr.toNat = some t)
  (hu : u = { s with fab := { s.fab with delivered := s.fab.delivered.filter fun e => !(e.1.kind == 0 && e.1.transfer == tr && e.1.offset == acc) } })
include ho ht hu

theorem ackReceive_partial (hn : max t.acked (min acc t.sent) < txLength t) : exec (.ackReceive tr acc a2 a3) s = .next
    (setTx { t with acked := max t.acked (min acc t.sent), times := t.times.filter fun e => decide (max t.acked (min acc t.sent) < e.1 * 4096 + 4096) } u) := by
  have he : exec (.ackReceive tr acc a2 a3) s = execAckReceive tr acc a2 a3 s := rfl
  have hs : txAt u tr.toNat = some t := by rw [hu]; exact ht
  simp only [he, execAckReceive, ho, ← hu, hs, Nat.not_le.mpr hn, false_and, Bool.not_true, Bool.false_eq_true, if_false]

variable (hn : txLength t ≤ max t.acked (min acc t.sent)) (hl : (t.times.any fun e => decide (txLength t ≤ e.1 * 4096 + 4096)) = true)
include hn hl

theorem ackReceive_ships {d : Nat} (hd : t.use = .kvShip d) : exec (.ackReceive tr acc a2 a3) s = .next (shipDone d (dropTx t.id u)) := by
  have he : exec (.ackReceive tr acc a2 a3) s = execAckReceive tr acc a2 a3 s := rfl
  have hs : txAt u tr.toNat = some t := by rw [hu]; exact ht
  simp only [he, execAckReceive, ho, ← hu, hs, hn, hl, hd, and_self, Bool.not_true, Bool.false_eq_true, if_false, if_true]

theorem ackReceive_parks {r : Nat} (hr : t.use = .comet r) : exec (.ackReceive tr acc a2 a3) s =
    .next (parkDone r (a2.toNat % 1024 + 1024 * (a3.toNat % 1024)) (txLength t) (dropTx t.id u)) := by
  have he : exec (.ackReceive tr acc a2 a3) s = execAckReceive tr acc a2 a3 s := rfl
  have hs : txAt u tr.toNat = some t := by rw [hu]; exact ht
  simp only [he, execAckReceive, ho, ← hu, hs, hn, hl, hr, and_self, Bool.not_true, Bool.false_eq_true, if_false, if_true]

end

/-! ### DROP_RECEIVE (R352) -/

section
variable {tr : BitVec 32} {reason : BitVec 8} {st : Option Status} {u : State} (ho : fabricOn s = true)
  (hu : u = { s with fab := { s.fab with delivered := s.fab.delivered.filter fun e => !(e.1.kind == 1 && e.1.transfer == tr && e.1.arg0 == reason) } })
include ho hu

theorem dropReceive_linkDown (h : reason = 1 ∨ reason = 7 ∨ reason = 8) :
    exec (.dropReceive tr reason st) s = .next (failTx tr.toNat .linkDown u) := by
  subst hu
  rcases h with rfl | rfl | rfl <;> exact congrArg Host.Outcome.next (if_neg (by simp [ho]))

theorem dropReceive_countMismatch (h : reason = 3) : exec (.dropReceive tr reason st) s = .next (failTx tr.toNat .countMismatch u) := by
  subst hu h
  exact congrArg Host.Outcome.next (if_neg (by simp [ho]))

theorem dropReceive_parked (h : reason = 4) : exec (.dropReceive tr reason st) s = .next (failTx tr.toNat .parked u) := by
  subst hu h
  exact congrArg Host.Outcome.next (if_neg (by simp [ho]))

theorem dropReceive_refused {x : Status} (h : reason = 5) (hx : st = some x) : exec (.dropReceive tr reason st) s = .next (failTx tr.toNat x u) := by
  subst hu h hx
  exact congrArg Host.Outcome.next (if_neg (by simp [ho]))

theorem dropReceive_resends (h : reason = 6) : exec (.dropReceive tr reason st) s = .next (resendFrom tr.toNat u) := by
  subst hu h
  exact congrArg Host.Outcome.next (if_neg (by simp [ho]))

theorem dropReceive_waits {t : TxRun} (h : reason = 2) (ht : txAt u tr.toNat = some t) :
    exec (.dropReceive tr reason st) s = .next (setTx { t with times := t.times.map fun e => (e.1, s.tick, s.tick) } u) := by
  subst hu h
  refine congrArg Host.Outcome.next ((if_neg (by simp [ho])).trans ?_)
  simp only [show (2 : BitVec 8).toNat = 2 from rfl, ht]

end

/-! ### The timers of a transfer (R352, R353) -/

section
variable {tr : BitVec 32} {t : TxRun} {first last : Nat} (ht : txAt s tr.toNat = some t) (hf : oldestSend t = some (first, last)) (ho : fabricOn s = true)
include ht hf ho

theorem exec_resendTimeout : exec (.resendTimeout tr) s = .next (if last + t.window / 2 ≤ s.tick then resendFrom t.id s else s) := by
  have he : exec (.resendTimeout tr) s = execResendTimeout tr s := rfl
  simp only [he, execResendTimeout, ht, hf, ho, Bool.true_and, decide_eq_true_eq]

theorem exec_transferWindowExpiry : exec (.transferWindowExpiry tr) s = .next (if first + t.window ≤ s.tick then failTx t.id .linkDown s else s) := by
  have he : exec (.transferWindowExpiry tr) s = execTransferWindowExpiry tr s := rfl
  simp only [he, execTransferWindowExpiry, ht, hf, ho, Bool.true_and, decide_eq_true_eq]

end

section
variable {l : LinkId} {p : Packet}

/-- The packet on a channel of a link whose next flit has been missing for 50 µs. -/
def stalled (s : State) (l : LinkId) (p : Packet) (e : Nat × List (BitVec 8)) : Bool :=
  decide (32 ≤ e.2.length) && natAt e.2 3 3 == p.src.toNat && natAt e.2 12 4 == p.transfer.toNat
    && natAt e.2 16 8 == p.offset && decide (tget 0 e.1 (linkAt s l).rxAt + 50 ≤ s.tick)

theorem packetStallTimeout_drops (ho : fabricOn s = true) {ch : Nat} {b : List (BitVec 8)} (hf : (linkAt s l).rx.find? (stalled s l p) = some (ch, b)) :
    exec (.packetStallTimeout l p) s = .next (sendDrop (parsePacket b) 6 0 (setLink s l { linkAt s l with
      rx := tdel ch (linkAt s l).rx, rxAt := tdel ch (linkAt s l).rxAt, toReturn := tmod 0 ch (· + b.length / flitPayload) (linkAt s l).toReturn })) := by
  have he : exec (.packetStallTimeout l p) s = execPacketStallTimeout l p s := rfl
  unfold stalled at hf
  simp only [he, execPacketStallTimeout, ho, hf, Bool.not_true, Bool.false_eq_true, if_false]

theorem packetStallTimeout_idle (hx : (linkAt s l).rx = []) : exec (.packetStallTimeout l p) s = .next s := by
  have he : exec (.packetStallTimeout l p) s = execPacketStallTimeout l p s := rfl
  simp only [he, execPacketStallTimeout, hx, List.find?_nil, ite_self]

end

end Sys2Proof.Machine

open Sys2Proof Sys2Proof.Machine

/-- Settles O56: a hop by the routing decision, a packet at its receiver by its OFFSET, and each acknowledgement, drop and timer at the source by its
equations above. -/
theorem packetsServeTransfers : Obligations.PacketsServeTransfers := by
  unfold Obligations.PacketsServeTransfers
  refine ⟨fun s p tc vc l ho ha => ?_, fun s p tc vc => packetHop_refused, fun s p tc => hopOf_unrouted, fun s p tc e => hopOf_here,
    fun s p tc e => hopOf_dead, fun s p tc e => hopOf_onward, fun s p tc ho h2 h6 => packetDeliver_d3hot ho h2 h6 rfl,
    fun s p tc x u ho h2 h6 hd hu hx => ?_, fun s src tr x hx => ackSendTimer_sends hx, fun s src tr x => ackSendTimer_idle,
    fun s tr acc a2 a3 t u ho ht hu => ⟨ackReceive_partial ho ht hu, fun hn hl => ⟨fun d => ackReceive_ships ho ht hu hn hl, fun r => ackReceive_parks ho ht hu hn hl⟩⟩,
    fun s tr reason st u ho hu => ⟨dropReceive_linkDown ho hu, dropReceive_countMismatch ho hu, dropReceive_parked ho hu,
      fun x => dropReceive_refused ho hu, dropReceive_resends ho hu, fun t => dropReceive_waits ho hu⟩,
    fun s tr t first last ht hf ho => ⟨exec_resendTimeout ht hf ho, exec_transferWindowExpiry ht hf ho⟩,
    fun s l p ch b ho hf => packetStallTimeout_drops ho hf, fun s l p => packetStallTimeout_idle⟩
  · rw [packetHop_routes ho ha]
    exact ⟨fun n hh => congrArg _ (routePacket_drops hh), fun hh => congrArg _ (routePacket_delivers hh), fun k e hh => congrArg _ (routePacket_forwards hh)⟩
  · rw [exec_packetDeliver ho h2 h6 hu hd hx]
    exact ⟨fun hp => congrArg _ (takePacket_early hp), fun hp => congrArg _ (takePacket_late hp), fun hp hf =>
      ⟨fun n st ha => congrArg _ (takePacket_refused hp hf ha), fun y v ha => congrArg _ (takePacket_accepted hp hf ha)⟩⟩
end
